-- ==== Sys2Proof/Word.lean ====
section
/-! DEFINITION. The words the IVX6400 counts in (00_scope.md R5, 03 R68). -/

namespace Sys2Proof

/-- A register, an instruction word, a bus word (R5, R68). -/
abbrev Word := BitVec 32

/-- The smallest addressable unit of the byte memories (13 R365). -/
abbrev Byte := BitVec 8

/-- An audio sample: Q1.23 in 24 bits (00 "Numbers and units"). -/
abbrev Sample := BitVec 24

end Sys2Proof
end

