-- ==== Sys2Proof/Machine/Bits.lean ====
section
/-! DEFINITION. Bit fields, sign extension, saturation and clamping: the arithmetic every chapter's tables use. -/

namespace Sys2Proof.Machine

/-- Field [hi:lo] of a word, as a number. -/
def fld (v : Word) (hi lo : Nat) : Nat := (v.toNat / 2 ^ lo) % 2 ^ (hi + 1 - lo)

/-- The word with field [hi:lo] replaced by the low bits of n. -/
def setFld (v : Word) (hi lo n : Nat) : Word :=
  let w := 2 ^ (hi + 1 - lo)
  BitVec.ofNat 32 (v.toNat % 2 ^ lo + (n % w) * 2 ^ lo + (v.toNat / 2 ^ (hi + 1)) * 2 ^ (hi + 1))

/-- Bit i of a word. -/
def bitOf (v : Word) (i : Nat) : Bool := v.toNat.testBit i

/-- 1 for true. -/
def b2n (b : Bool) : Nat := if b then 1 else 0

/-- The word with bit i set to b. -/
def putBit (v : Word) (i : Nat) (b : Bool) : Word := setFld v i i (b2n b)

/-- The low n bits of v read as a signed number: sx(v, n) of R95. -/
def sxN (n v : Nat) : Int :=
  let u := v % 2 ^ n
  if 2 * u < 2 ^ n then (u : Int) else (u : Int) - ((2 ^ n : Nat) : Int)

/-- An integer reduced modulo 2^n, as the unsigned number of the n-bit word (R96). -/
def toU (n : Nat) (x : Int) : Nat := (x % ((2 ^ n : Nat) : Int)).toNat

/-- wrap(v, n) of R95. -/
def wrapI (n : Nat) (x : Int) : Int := sxN n (toU n x)

/-- Arithmetic right shift, floor(v / 2^k): v >>s k of R95. -/
def sar (x : Int) (k : Nat) : Int := x.fdiv ((2 ^ k : Nat) : Int)

/-- maxs and mins of R95 for width n. -/
def maxS (n : Nat) : Int := ((2 ^ (n - 1) : Nat) : Int) - 1
def minS (n : Nat) : Int := -((2 ^ (n - 1) : Nat) : Int)

/-- x kept within [lo, hi]. -/
def clampI (lo hi x : Int) : Int := if x < lo then lo else if hi < x then hi else x

/-- Saturation to n signed bits. -/
def satI (n : Nat) (x : Int) : Int := clampI (minS n) (maxS n) x

/-- The magnitude of a 24-bit sample; |-0x80_0000| = 0x80_0000 (R221). -/
def mag24 (v : Sample) : Nat := (sxN 24 v.toNat).natAbs

/-- A 24-bit sample from an exact integer that fits. -/
def toSample (x : Int) : Sample := BitVec.ofNat 24 (toU 24 x)

/-- A sample's signed value. -/
def ofSample (v : Sample) : Int := sxN 24 v.toNat

/-- A 24-bit value in a 32-bit slot, sign-extended (R144, R209). -/
def slot24 (v : Nat) : Word := BitVec.ofNat 32 (toU 32 (sxN 24 v))

/-- The list 0, 1, ..., n - 1. -/
def upTo (n : Nat) : List Nat := List.range n

/-- The four bytes of a word, lowest address first (00 "Numbers and units": little-endian). -/
def bytesOfWord (v : Word) : List Byte :=
  [BitVec.ofNat 8 v.toNat, BitVec.ofNat 8 (v.toNat / 2 ^ 8), BitVec.ofNat 8 (v.toNat / 2 ^ 16),
   BitVec.ofNat 8 (v.toNat / 2 ^ 24)]

/-- The little-endian number of a list of bytes. -/
def ofBytesLE : List Byte → Nat
  | [] => 0
  | b :: t => b.toNat + 256 * ofBytesLE t

/-- The word whose four bytes stand lowest first. -/
def wordOfBytes (l : List Byte) : Word := BitVec.ofNat 32 (ofBytesLE l)

/-- n little-endian bytes of a number. -/
def bytesLE : Nat → Nat → List Byte
  | 0, _ => []
  | n + 1, v => BitVec.ofNat 8 v :: bytesLE n (v / 256)

end Sys2Proof.Machine
end

