-- ==== Sys2Proof/Syntax.lean ====
section
/-! DEFINITION. The commands of the block: one constructor of Instr per row of spec/opcode_table.json, with its operands.
The table gives no operand fields; the operands are those the row's rules name: the unit that acts, the initiator of an
access, the value written, and what arrives from outside the device. -/

namespace Sys2Proof

/-- The initiators of accesses (R18, R446): the five host masters SPI_A 0, SPI_B 1, I2C 2, LINKCTL 3, JTAG 4, the control
cores, the DMA channels, the stroke engine, the SEC block and the boot ROM. -/
inductive Initiator where
  | host (m : Fin 5)
  | core (c : Fin 16)
  | dma (n : Fin 32)
  | stroke (n : Fin 8)
  | sec
  | rom
deriving DecidableEq, Repr

/-- What executes a Ramtal word: a control core in core profile, or a physical engine in engine profile (R68). -/
inductive Agent where
  | core (c : Fin 16)
  | eng (pe : Fin 72)
deriving DecidableEq, Repr

/-- Condition codes 0x0 to 0xE of R84; 0xF is undefined (R92). -/
inductive Cond where
  | eq | ne | cs | cc | mi | pl | vs | vc | hi | ls | ge | lt | gt | le | al
deriving DecidableEq, Repr

/-- The shift types of SHI (R77). -/
inductive ShiftKind where
  | shl | shr | sar | ror
deriving DecidableEq, Repr

/-- Pointer modification after an access: 00, 01, 10, 11 of R81. -/
inductive PtrMod where
  | keep | inc | dec | inc2
deriving DecidableEq, Repr

/-- The spaces of an engine memory operand: 00, 01, 10, 11 of R81. -/
inductive Space where
  | delay | palette | scratch | cross
deriving DecidableEq, Repr

/-- An offset of an engine memory operand: OFF, or a pointer with its modification (R80). -/
inductive Offset where
  | imm (off : Fin 16384)
  | ptr (p : Fin 4) (pm : PtrMod)
deriving DecidableEq, Repr

/-- An engine memory operand (R80). -/
structure MemOp where
  space : Space
  off : Offset
deriving DecidableEq, Repr

/-- The operands of MAC, MSU and MPY, by MODE (R79). -/
inductive MacArgs where
  | regs (rs rt : Fin 32)
  | tapPtr (tap : Fin 16384) (cptr : Fin 4) (cpm : PtrMod)
  | regMem (tr : Fin 8) (op : MemOp)
  | ptrCoef (tptr : Fin 4) (tpm : PtrMod) (coef : Fin 8192)
deriving DecidableEq, Repr

/-- The address of LDX and STX: format I in core profile, format X in engine profile (R75). -/
inductive XAddr where
  | base (rs : Fin 32) (imm : BitVec 15)
  | mem (op : MemOp)
deriving DecidableEq, Repr

/-- The branch of Bcond: a word offset in core profile, a count of nullified words in engine profile (R77, R85). -/
inductive BranchArg where
  | off (o : BitVec 21)
  | ncnt (n : Fin 64)
deriving DecidableEq, Repr

/-- The operands of short MACS: registers in core profile, pointers with increments in engine profile (R86, R89). -/
inductive MacsArgs where
  | regs (rs rt : Fin 8)
  | ptrs (tptr : Fin 4) (tinc : Bool) (cptr : Fin 4) (cinc : Bool)
deriving DecidableEq, Repr

/-- The address of short LDXS and STXS: base and offset in core profile (R87); space (scratch or delay), pointer and signed
modification in engine profile (R88). -/
inductive XsAddr where
  | base (rs : Fin 8) (imm : Fin 32)
  | ptr (scratch : Bool) (p : Fin 4) (imm : BitVec 5)
deriving DecidableEq, Repr

/-- A short operation (R86). -/
inductive ShortOp where
  | nops
  | mov (rd rs : Fin 8)
  | add (rd rs rt : Fin 8)
  | sub (rd rs rt : Fin 8)
  | and (rd rs rt : Fin 8)
  | or (rd rs rt : Fin 8)
  | xor (rd rs rt : Fin 8)
  | shli (rd rs : Fin 8) (imm : Fin 32)
  | sari (rd rs : Fin 8) (imm : Fin 32)
  | addi5 (rd rs : Fin 8) (imm : BitVec 5)
  | cmp (rs rt : Fin 8)
  | macs (ad : Fin 4) (x : MacsArgs)
  | ldxs (rd : Fin 8) (x : XsAddr)
  | stxs (rd : Fin 8) (x : XsAddr)
  | mpys (ad : Fin 4) (rs rt : Fin 8)
deriving DecidableEq, Repr

/-- The slot of a pair word that a short operation stands in (R68); the other slot's operation goes with it (R70, R91). -/
inductive Slot where
  | a | b
deriving DecidableEq, Repr

/-- One period of BCK on a port's pins (R255): the levels of FS and DI at its rising edge, and at its falling edge. -/
structure BckPeriod where
  fsRise : Bool
  diRise : Bool
  fsFall : Bool
  diFall : Bool
deriving DecidableEq, Repr

/-- What comes in on a port's pins from the BCK period before the FS edge that opens a frame to the one in which the next frame
starts (R255, R262); of a master port, the periods from its frame start. Beside it the clk of the turn at which the frame starts, and
its period in clk. -/
structure PortFrame where
  phase : Nat
  period : Nat
  bck : List BckPeriod
deriving DecidableEq, Repr

/-- The types of a control-channel message (R294); other stands for an undefined TYPE. -/
inductive MsgKind where
  | readReq | writeReq | readResp | writeResp | owner | reroute | other
deriving DecidableEq, Repr

/-- A control-channel message (R294); a REROUTE carries SEG and COUNT in the two lowest bytes of addr. -/
structure Msg where
  kind : MsgKind
  dst : Fin 16
  src : Fin 16
  tag : BitVec 8
  status : BitVec 8
  addr : Word
  data : Word
deriving DecidableEq, Repr

/-- A symbol of a lane, as the 10-bit code groups give it (R279): a data symbol, a control symbol by its byte, or a code violation or
disparity error. -/
inductive Sym where
  | data (b : BitVec 8)
  | ctrl (k : BitVec 8)
  | bad
deriving DecidableEq, Repr

/-- A frame as a lane brings it (R279, R280, R286): the clk at which its SOF arrives, the time R in clk since the SOF it echoes was
sent, and its symbols, from the first of SOF to the last of EOF. -/
structure LinkFrame where
  arrival : Nat
  rtt : Nat
  syms : List Sym
deriving DecidableEq, Repr

/-- What a write of a silence detector's configuration names (R220, R222): the configuration word of a source address, or the
threshold or hold of a profile. -/
inductive DetReg where
  | word (a : Fin 12288)
  | thresh (n : Fin 4)
  | hold (n : Fin 4)
deriving DecidableEq, Repr

/-- What a DMA channel has had no response to (R355): the access after some of its descriptor, or a write it made earlier. -/
inductive Unanswered where
  | next (done : Nat)
  | earlier (addr : Word)
deriving DecidableEq, Repr

/-- The two comparisons of R384. -/
structure LockLevels where
  dlock : Bool
  sensed : Bool
deriving DecidableEq, Repr

/-- The commands: one constructor per row of spec/opcode_table.json, each docstring beginning with its row's mnemonic. The
commands without operands stand last. -/
inductive Instr where
  -- Supplies, reset, boot and the requests of SYS_STATE_REQ (01_architecture.md R28 to R37, R482, R483;
  -- 16_boot_and_security.md R416 to R427).
  /-- SUPPLY_LOSS (R412): off tells whether power is then removed or the power-on reset cell asserts first. -/
  | supplyLoss (off : Bool)
  /-- RESET_RELEASE (R416): the straps as sampled, and whether the flash device answers with its SFDP signature. -/
  | resetRelease (bootsel : Fin 4) (goldenN : Bool) (sfdp : Bool)
  /-- FETCH_COMPLETE (R424): ok tells whether the flash read succeeded. -/
  | fetchComplete (ok : Bool)
  /-- LOADED (R427): the write of SEC_BOOT_CTRL that carries LOADED. -/
  | loaded (m : Initiator) (v : Word)
  /-- START (R29): the write of SYS_STATE_REQ with REQ 0x1. -/
  | start (m : Initiator) (key : BitVec 16)
  /-- DISARM (R35): REQ 0x2. -/
  | disarm (m : Initiator) (key : BitVec 16)
  /-- HOLD_SET (R482): REQ 0x3. -/
  | holdSet (m : Initiator) (key : BitVec 16)
  /-- HOLD_CLEAR (R36): REQ 0x4. -/
  | holdClear (m : Initiator) (key : BitVec 16)
  /-- TEST_ENTER (R32): REQ 0x5. -/
  | testEnter (m : Initiator) (key : BitVec 16)
  /-- TEST_EXIT (R483): REQ 0x6. -/
  | testExit (m : Initiator) (key : BitVec 16)
  /-- HALT (R30): REQ 0x7. -/
  | halt (m : Initiator) (key : BitVec 16)
  -- The grid of a turn, the latency probe, the rate and the fault log (02_turn_and_latency.md R48 to R67; 01_architecture.md
  -- R46).
  /-- MAILBOX_EXCHANGE (R147): of cluster c. -/
  | mailboxExchange (c : Fin 8)
  /-- ENGINE_RUN_START (R137): of cluster c. -/
  | engineRunStart (c : Fin 8)
  /-- PROBE_START (R67): the write of SYS_PROBE_CTRL that carries START. -/
  | probeStart (m : Initiator) (v : Word)
  /-- RATE_WRITE (R49): the write of SYS_TURN_CFG. -/
  | rateWrite (m : Initiator) (v : Word)
  /-- FAULT_LOG_CLEAR (R46): the write of AON_FAULT_CLR that carries CLEAR. -/
  | faultLogClear (m : Initiator) (v : Word)
  -- Ramtal long words (R75). u is the unit that executes the word.
  /-- NOP (R70). -/
  | nop (u : Agent)
  /-- ADD (R103). -/
  | add (u : Agent) (rd rs rt : Fin 32)
  /-- SUB (R103). -/
  | sub (u : Agent) (rd rs rt : Fin 32)
  /-- ADDS (R104). -/
  | adds (u : Agent) (rd rs rt : Fin 32)
  /-- SUBS (R104). -/
  | subs (u : Agent) (rd rs rt : Fin 32)
  /-- AND (R106). -/
  | andR (u : Agent) (rd rs rt : Fin 32)
  /-- OR (R106). -/
  | orR (u : Agent) (rd rs rt : Fin 32)
  /-- XOR (R106). -/
  | xorR (u : Agent) (rd rs rt : Fin 32)
  /-- ANDN (R106). -/
  | andn (u : Agent) (rd rs rt : Fin 32)
  /-- SHL (R108). -/
  | shl (u : Agent) (rd rs rt : Fin 32)
  /-- SHR (R108). -/
  | shr (u : Agent) (rd rs rt : Fin 32)
  /-- SAR (R108). -/
  | sar (u : Agent) (rd rs rt : Fin 32)
  /-- ROR (R108). -/
  | ror (u : Agent) (rd rs rt : Fin 32)
  /-- NEG (R103). -/
  | neg (u : Agent) (rd rs : Fin 32)
  /-- ABS (R105). -/
  | abs (u : Agent) (rd rs : Fin 32)
  /-- CMP (R103). -/
  | cmp (u : Agent) (rs rt : Fin 32)
  /-- ADDI (R103). -/
  | addi (u : Agent) (rd rs : Fin 32) (imm : BitVec 15)
  /-- CMPI (R103). -/
  | cmpi (u : Agent) (rs : Fin 32) (imm : BitVec 15)
  /-- ANDI (R106). -/
  | andi (u : Agent) (rd rs : Fin 32) (imm : BitVec 15)
  /-- ORI (R106). -/
  | ori (u : Agent) (rd rs : Fin 32) (imm : BitVec 15)
  /-- XORI (R106). -/
  | xori (u : Agent) (rd rs : Fin 32) (imm : BitVec 15)
  /-- MOVI (R107). -/
  | movi (u : Agent) (rd : Fin 32) (imm : BitVec 20)
  /-- MOVHI (R107). -/
  | movhi (u : Agent) (rd : Fin 32) (imm : BitVec 16)
  /-- SHI (R108). -/
  | shi (u : Agent) (kind : ShiftKind) (rd rs : Fin 32) (amt : Fin 32)
  /-- BFX (R109). -/
  | bfx (u : Agent) (rd rs : Fin 32) (pos wm1 : Fin 32)
  /-- BFXS (R109). -/
  | bfxs (u : Agent) (rd rs : Fin 32) (pos wm1 : Fin 32)
  /-- BFI (R109). -/
  | bfi (u : Agent) (rd rs : Fin 32) (pos wm1 : Fin 32)
  /-- CLZ (R110). -/
  | clz (u : Agent) (rd rs : Fin 32)
  /-- CLS (R110). -/
  | cls (u : Agent) (rd rs : Fin 32)
  /-- PERM (R111). -/
  | perm (u : Agent) (rd rs : Fin 32) (sel : BitVec 8)
  /-- MUL (R112). -/
  | mul (u : Agent) (rd rs rt : Fin 32)
  /-- DIV (R113); rr takes the remainder. -/
  | div (u : Agent) (rd rs rt rr : Fin 32)
  /-- DIVU (R113); rr takes the remainder. -/
  | divu (u : Agent) (rd rs rt rr : Fin 32)
  /-- MAC (R116). -/
  | mac (u : Agent) (ad : Fin 4) (x : MacArgs)
  /-- MSU (R116). -/
  | msu (u : Agent) (ad : Fin 4) (x : MacArgs)
  /-- MPY (R116). -/
  | mpy (u : Agent) (ad : Fin 4) (x : MacArgs)
  /-- ACCLD (R117). -/
  | accld (u : Agent) (ad : Fin 4) (rs : Fin 32) (sh : Fin 64)
  /-- STA (R119). -/
  | sta (u : Agent) (rd : Fin 32) (as : Fin 4) (sh : Fin 64)
  /-- SHA (R118); right is DIR. -/
  | sha (u : Agent) (ad as : Fin 4) (right : Bool) (amt : Fin 64)
  /-- LDW (R121, R124). -/
  | ldw (u : Agent) (rd rs : Fin 32) (imm : BitVec 15)
  /-- STW (R121, R124). -/
  | stw (u : Agent) (rd rs : Fin 32) (imm : BitVec 15)
  /-- LDH (R121, R124). -/
  | ldh (u : Agent) (rd rs : Fin 32) (imm : BitVec 15)
  /-- STH (R121, R124). -/
  | sth (u : Agent) (rd rs : Fin 32) (imm : BitVec 15)
  /-- LDB (R121, R124). -/
  | ldb (u : Agent) (rd rs : Fin 32) (imm : BitVec 15)
  /-- STB (R121, R124). -/
  | stb (u : Agent) (rd rs : Fin 32) (imm : BitVec 15)
  /-- LDX (R121, R125). -/
  | ldx (u : Agent) (rd : Fin 32) (x : XAddr)
  /-- STX (R121, R125). -/
  | stx (u : Agent) (rd : Fin 32) (x : XAddr)
  /-- BCOND (R128, R129). -/
  | bcond (u : Agent) (cond : Cond) (x : BranchArg)
  /-- BL (R128). -/
  | bl (u : Agent) (off : BitVec 25)
  /-- JR (R128). -/
  | jr (u : Agent) (rd rs : Fin 32)
  /-- ROT (R72). -/
  | rot (u : Agent) (k : Fin 16)
  /-- GET (R130). -/
  | get (u : Agent)
  /-- DONE (R131). -/
  | doneItem (u : Agent)
  /-- PUSHT (R132). -/
  | pusht (u : Agent) (rs rt : Fin 32)
  /-- FENCE (R133). -/
  | fence (u : Agent)
  /-- FENCE_COMPLETE (R133). -/
  | fenceComplete (c : Fin 16)
  /-- CLEAN (R134). -/
  | clean (u : Agent) (rs rt : Fin 32)
  /-- INVAL (R134). -/
  | inval (u : Agent) (rs rt : Fin 32)
  /-- SYS (R135); toSys is DIR, num is NUM. -/
  | sys (u : Agent) (rd : Fin 32) (toSys : Bool) (num : BitVec 12)
  /-- TRAP (R136). -/
  | trap (u : Agent) (code : BitVec 8)
  /-- DICE (R126); triangular is MODE 01. -/
  | dice (u : Agent) (rd : Fin 32) (triangular : Bool)
  -- Short operations (R86): the slot they stand in, and the operation of the other slot.
  /-- NOPS (R86). -/
  | nops (u : Agent) (slot : Slot) (other : ShortOp)
  /-- MOV (R106). -/
  | mov (u : Agent) (slot : Slot) (rd rs : Fin 8) (other : ShortOp)
  /-- SHORT_ADD (R103). -/
  | shortAdd (u : Agent) (slot : Slot) (rd rs rt : Fin 8) (other : ShortOp)
  /-- SHORT_SUB (R103). -/
  | shortSub (u : Agent) (slot : Slot) (rd rs rt : Fin 8) (other : ShortOp)
  /-- SHORT_AND (R106). -/
  | shortAnd (u : Agent) (slot : Slot) (rd rs rt : Fin 8) (other : ShortOp)
  /-- SHORT_OR (R106). -/
  | shortOr (u : Agent) (slot : Slot) (rd rs rt : Fin 8) (other : ShortOp)
  /-- SHORT_XOR (R106). -/
  | shortXor (u : Agent) (slot : Slot) (rd rs rt : Fin 8) (other : ShortOp)
  /-- SHLI (R108). -/
  | shli (u : Agent) (slot : Slot) (rd rs : Fin 8) (imm : Fin 32) (other : ShortOp)
  /-- SARI (R108). -/
  | sari (u : Agent) (slot : Slot) (rd rs : Fin 8) (imm : Fin 32) (other : ShortOp)
  /-- ADDI5 (R103). -/
  | addi5 (u : Agent) (slot : Slot) (rd rs : Fin 8) (imm : BitVec 5) (other : ShortOp)
  /-- SHORT_CMP (R103). -/
  | shortCmp (u : Agent) (slot : Slot) (rs rt : Fin 8) (other : ShortOp)
  /-- MACS (R89). -/
  | macs (u : Agent) (slot : Slot) (ad : Fin 4) (x : MacsArgs) (other : ShortOp)
  /-- LDXS (R87, R88). -/
  | ldxs (u : Agent) (slot : Slot) (rd : Fin 8) (x : XsAddr) (other : ShortOp)
  /-- STXS (R87, R88). -/
  | stxs (u : Agent) (slot : Slot) (rd : Fin 8) (x : XsAddr) (other : ShortOp)
  /-- MPYS (R115). -/
  | mpys (u : Agent) (slot : Slot) (ad : Fin 4) (rs rt : Fin 8) (other : ShortOp)
  /-- UNDEFINED_WORD (R92 to R94): a word the unit's profile does not define. -/
  | undefinedWord (u : Agent) (w : Word)
  -- Control cores: memory, traps, start and stop (R101, R304 to R309).
  /-- LINE_FILL (R101): the line at this address arrives for core c. -/
  | lineFill (c : Fin 16) (line : Word)
  /-- LINE_EVICTION (R372). -/
  | lineEviction (c : Fin 16) (line : Word)
  /-- STORE_BUS_ERROR (R307): the target of the oldest entry of the write buffer answers with a bus error. -/
  | storeBusError (c : Fin 16)
  /-- INTERRUPT (R305). -/
  | interrupt (c : Fin 16)
  /-- PARITY_FAULT (R308): a parity error in an instruction-cache line or a clean line (recovered), in a dirty line, or in a
  tag or register. -/
  | parityFault (c : Fin 16) (recovered : Bool) (line : Option Word)
  /-- UNCACHED_LOAD_RESPONSE (R101): the oldest load of core c from an uncached region or the register space is answered. -/
  | uncachedLoadResponse (c : Fin 16)
  /-- WRITE_BUFFER_DRAIN (R102). -/
  | writeBufferDrain (c : Fin 16)
  /-- CORE_START (R304): the write of SCHED_CORE_n_CTRL that carries START. -/
  | coreStart (m : Initiator) (c : Fin 16) (v : Word)
  /-- CORE_STOP (R304): the write of SCHED_CORE_n_CTRL that carries STOP. -/
  | coreStop (m : Initiator) (c : Fin 16) (v : Word)
  -- The scheduler.
  /-- SCHED_HOST_TOK_PUSH (R311). -/
  | schedHostTokPush (m : Initiator) (v : Word)
  /-- BUDGET_KILL (R322). -/
  | budgetKill (c : Fin 16)
  /-- RELEASE (R323): the next release of an ordered flow completes. -/
  | release (flow : Fin 1024)
  /-- SCHED_CANCEL (R325). -/
  | schedCancel (m : Initiator) (v : Word)
  /-- SPILL (R329, R331): a ready item of class c + 1 that waits in its matching-store entry moves on. -/
  | spill (c : Fin 3)
  /-- UNSPILL (R329): of class c + 1. -/
  | unspill (c : Fin 3)
  /-- C0_RATE_WRITE (R335). -/
  | c0RateWrite (m : Initiator) (v : Word)
  /-- SCHED_FLOW_WRITE (R314). -/
  | schedFlowWrite (m : Initiator) (f : Fin 1024) (v : Word)
  /-- SPILL_AREA_WRITE (R332): of SCHED_SPILL_SIZE if size, else of SCHED_SPILL_BASE. -/
  | spillAreaWrite (m : Initiator) (size : Bool) (v : Word)
  -- The sample-locked engines (05_engines.md R137 to R177).
  /-- ENG_EN_WRITE (R140): the write of ENG_CTRL. -/
  | engEnWrite (m : Initiator) (pe : Fin 72) (v : Word)
  /-- ENG_LANE_MAP_WRITE (R143). -/
  | engLaneMapWrite (m : Initiator) (pe : Fin 72) (v : Word)
  /-- ENG_DB_WRITE (R146). -/
  | engDbWrite (m : Initiator) (pe : Fin 72) (v : Word)
  /-- ENG_PROG_WRITE (R153): of ENG_PROG_B if b, else of ENG_PROG_A. -/
  | engProgWrite (m : Initiator) (pe : Fin 72) (b : Bool) (v : Word)
  /-- PROGRAM_MEMORY_WRITE (R152). -/
  | programMemoryWrite (m : Initiator) (pe : Fin 72) (w : Fin 8192) (v : Word)
  /-- PROGRAM_CHECK_DONE (R154). -/
  | programCheckDone (pe : Fin 72)
  /-- LANE_MEMORY_ACCESS (R144): data is the word of a write. -/
  | laneMemoryAccess (m : Initiator) (pe : Fin 72) (l : Fin 4) (w : Fin 16384) (data : Option Word)
  /-- LANE_ACCESS_COMPLETE (R150). -/
  | laneAccessComplete (pe : Fin 72) (l : Fin 4)
  /-- WRITE_BACK (R164). -/
  | writeBack (pe : Fin 72) (l : Fin 4)
  /-- SCRUB (R165): one turn period of the lanes of physical engine pe. -/
  | scrub (pe : Fin 72)
  /-- MIG_START (R176): the write of ENGC_MIG_CTRL that carries START. -/
  | migStart (m : Initiator) (cl : Fin 8) (v : Word)
  /-- MIGRATION_COPY_COMPLETE (R169). -/
  | migrationCopyComplete (cl : Fin 8)
  /-- ENGC_REMAP_WRITE (R174): of ENGC_RETIRE if retire, else of ENGC_REMAP. -/
  | engcRemapWrite (m : Initiator) (cl : Fin 8) (retire : Bool) (v : Word)
  -- Safe-load: commits, mirrors and strokes (06_safe_load.md R179 to R200).
  /-- SAFE_COMMIT (R182). -/
  | safeCommit (m : Initiator) (v : Word)
  /-- MIRROR_COMPLETE (R188). -/
  | mirrorComplete (g : Fin 16)
  /-- STROKE_START (R190): the write of SAFE_STROKE_n_CTRL that carries START. -/
  | strokeStart (m : Initiator) (n : Fin 8) (v : Word)
  /-- STROKE_STOP (R196): the write of SAFE_STROKE_n_CTRL that carries STOP. -/
  | strokeStop (m : Initiator) (n : Fin 8) (v : Word)
  /-- STROKE_STEP (R193). -/
  | strokeStep (n : Fin 8)
  -- The mixing fabric (07_mix_fabric.md R201 to R226).
  /-- ROUTE_WORD_WRITE (R214): the upper or the lower half of word i of a bank. -/
  | routeWordWrite (m : Initiator) (bank : Fin 2) (i : Fin 65536) (upper : Bool) (v : Word)
  /-- FABRIC_BANK_LEN_WRITE (R215). -/
  | fabricBankLenWrite (m : Initiator) (bank : Fin 2) (v : Word)
  /-- ROUTE_CHECK_DONE (R216). -/
  | routeCheckDone (bank : Fin 2)
  /-- GAIN_WRITE (R214). -/
  | gainWrite (m : Initiator) (tab : Fin 2) (j : Fin 4096) (v : Word)
  /-- DETECTOR_CONFIG_WRITE (R222). -/
  | detectorConfigWrite (m : Initiator) (x : DetReg) (v : Word)
  /-- FABRIC_QUIET_WRITE (R225). -/
  | fabricQuietWrite (m : Initiator) (c : Fin 8) (v : Word)
  /-- PHASE_CLR (R206): the write of FABRIC_TONE_n_INC that carries PHASE_CLR. -/
  | phaseClr (m : Initiator) (n : Fin 8) (v : Word)
  -- The section bank (08_section_bank.md R231 to R253).
  /-- CHAIN_DESCRIPTOR_WRITE (R247): of word w + 1 of the staged part. -/
  | chainDescriptorWrite (m : Initiator) (c : Fin 512) (w : Fin 17) (v : Word)
  /-- CHAIN_ENABLE_WRITE (R237). -/
  | chainEnableWrite (m : Initiator) (c : Fin 512) (v : Word)
  /-- CHAIN_CHECK_DONE (R247). -/
  | chainCheckDone (c : Fin 512)
  /-- SECTION_COEFFICIENT_WRITE (R235): word k of section i. -/
  | sectionCoefficientWrite (m : Initiator) (side : Fin 2) (c : Fin 512) (i : Fin 64) (k : Fin 8) (v : Word)
  /-- SECTION_STATE_WRITE (R236): word k of section i. -/
  | sectionStateWrite (m : Initiator) (c : Fin 512) (i : Fin 64) (k : Fin 8) (v : Word)
  /-- SECTION_CLR (R250): the write of SECTION_CLR that carries GO. -/
  | sectionClr (m : Initiator) (v : Word)
  -- Serial audio ports, rate conversion and output guards (09_ports_asrc_guards.md R255 to R274).
  /-- SAP_EN_WRITE (R257): the write of SAP_CTRL. -/
  | sapEnWrite (m : Initiator) (p : Fin 64) (v : Word)
  /-- SAP_CFG_WRITE (R258). -/
  | sapCfgWrite (m : Initiator) (p : Fin 64) (v : Word)
  /-- PORT_FRAME (R262). -/
  | portFrame (p : Fin 64) (f : PortFrame)
  /-- FRAME_TIMEOUT (R263). -/
  | frameTimeout (p : Fin 64)
  /-- CONCEAL_EXPIRE (R264). -/
  | concealExpire (p : Fin 64)
  /-- ASRC_CH_CFG_WRITE (R267). -/
  | asrcChCfgWrite (m : Initiator) (n : Fin 256) (v : Word)
  /-- TRACKER_LOCK (R268): at a measured ratio in Q5.23. -/
  | trackerLock (p : Fin 64) (ratio : Nat)
  /-- TRACKER_UNLOCK (R267). -/
  | trackerUnlock (p : Fin 64)
  /-- GUARD_PFAULT_CLEAR (R271): the write of GUARD_PFAULT_w. -/
  | guardPfaultClear (m : Initiator) (w : Fin 32) (v : Word)
  /-- GUARD_LFAULT_CLEAR (R271): the write of GUARD_LFAULT_l that carries FAULT. -/
  | guardLfaultClear (m : Initiator) (l : Fin 8) (v : Word)
  /-- MUTE_N (R272): the level of the pin after its filter. -/
  | muteN (low : Bool)
  -- Cascade links and the tunnel (10_cascade_links.md R275 to R302).
  /-- LINK_EN_WRITE (R285): the write of LINK_CTRL. -/
  | linkEnWrite (m : Initiator) (l : Fin 8) (v : Word)
  /-- RETRAIN (R301): the write of LINK_CTRL that carries RETRAIN. -/
  | retrain (m : Initiator) (l : Fin 8) (v : Word)
  /-- WAKE_TX (R299): the write of LINK_CTRL that carries WAKE_TX. -/
  | wakeTx (m : Initiator) (l : Fin 8) (v : Word)
  /-- LINK_FRAME_TX (R282). -/
  | linkFrameTx (l : Fin 8)
  /-- FRAME_TIMER (R282). -/
  | frameTimer (l : Fin 8)
  /-- SIGNAL_DETECT (R285). -/
  | signalDetect (l : Fin 8)
  /-- ALIGNMENT_ACHIEVED (R285). -/
  | alignmentAchieved (l : Fin 8)
  /-- LINK_FRAME (R283). -/
  | linkFrame (l : Fin 8) (f : LinkFrame)
  /-- MISSING_FRAME (R283). -/
  | missingFrame (l : Fin 8)
  /-- LOSS_OF_ALIGNMENT (R288). -/
  | lossOfAlignment (l : Fin 8)
  /-- LINK_CONCEAL_EXPIRE (R288). -/
  | linkConcealExpire (l : Fin 8)
  /-- RETRAIN_TIMEOUT (R289). -/
  | retrainTimeout (l : Fin 8)
  /-- FAIL_RESET (R291). -/
  | failReset (l : Fin 8)
  /-- FAULT_RECEIVED (R285). -/
  | faultReceived (l : Fin 8)
  /-- FAULT_RX_END (R285). -/
  | faultRxEnd (l : Fin 8)
  /-- LINK_WAKE (R299): pattern tells 64 WAKE ordered sets from activity alone. -/
  | linkWake (l : Fin 8) (pattern : Bool)
  /-- READ_REQUEST (R297): received on link l. -/
  | readRequest (l : Fin 8) (q : Msg)
  /-- WRITE_REQUEST (R297): received on link l. -/
  | writeRequest (l : Fin 8) (q : Msg)
  /-- READ_RESPONSE (R298): received on link l. -/
  | readResponse (l : Fin 8) (q : Msg)
  /-- WRITE_RESPONSE (R298): received on link l. -/
  | writeResponse (l : Fin 8) (q : Msg)
  /-- OWNERSHIP_MESSAGE (R295): received on link l. -/
  | ownershipMessage (l : Fin 8) (q : Msg)
  /-- REROUTE (R293): received on link l. -/
  | reroute (l : Fin 8) (seg : BitVec 8) (cnt : BitVec 8)
  /-- ALTERNATE_ROUTE_WRITE (R292): of word i of the table. -/
  | alternateRouteWrite (m : Initiator) (i : Fin 2048) (v : Word)
  /-- TUNNEL_GO (R298): the write of LINK_TUN_CMD that carries GO. -/
  | tunnelGo (m : Initiator) (v : Word)
  -- DMA channels and hub timers (12_dma.md R341 to R364).
  /-- CHANNEL_ENABLE (R341): the write of DMA_CH_n_CTRL with CH_EN 1. -/
  | channelEnable (m : Initiator) (n : Fin 32) (v : Word)
  /-- CHANNEL_DISABLE (R353): the write of DMA_CH_n_CTRL with CH_EN 0. -/
  | channelDisable (m : Initiator) (n : Fin 32) (v : Word)
  /-- DMA_START (R342): the write of DMA_CH_n_CTRL that carries START. -/
  | dmaStart (m : Initiator) (n : Fin 32) (v : Word)
  /-- PAUSE (R352): the write of DMA_CH_n_CTRL that sets or clears PAUSE. -/
  | pause (m : Initiator) (n : Fin 32) (v : Word)
  /-- RESUME (R356): the write of DMA_CH_n_CTRL that carries RESUME. -/
  | resume (m : Initiator) (n : Fin 32) (v : Word)
  /-- DMA_ABORT (R354): the write of DMA_CH_n_CTRL that carries ABORT. -/
  | dmaAbort (m : Initiator) (n : Fin 32) (v : Word)
  /-- DESCRIPTOR_FETCH (R346). -/
  | descriptorFetch (n : Fin 32)
  /-- DESCRIPTOR_COMPLETE (R351): the data of the descriptor moves and it completes. -/
  | descriptorComplete (n : Fin 32)
  /-- DMA_BUS_ERROR (R356): late is the address of a late write error. -/
  | dmaBusError (n : Fin 32) (late : Option Word)
  /-- DMA_TIMEOUT (R355): what has had no response. -/
  | dmaTimeout (n : Fin 32) (what : Unanswered)
  /-- TIMER_ENABLE (R360): the write of TIMER_n_CTRL with EN 1. -/
  | timerEnable (m : Initiator) (n : Fin 8) (v : Word)
  /-- TIMER_EXPIRE (R361). -/
  | timerExpire (n : Fin 8)
  -- The clock synthesiser (14_clock_synthesis.md R376 to R396).
  /-- SYNTH_ENABLE (R383): the write of SYNTH_CTRL with EN 1. -/
  | synthEnable (m : Initiator) (v : Word)
  /-- SYNTH_DISABLE (R383): the write of SYNTH_CTRL with EN 0. -/
  | synthDisable (m : Initiator) (v : Word)
  /-- APPLY (R379): the write of SYNTH_CTRL that carries APPLY and keeps EN. -/
  | apply (m : Initiator) (v : Word)
  /-- LOCK_ACQUIRED (R383, R384): the levels of DLOCK and LOCK_SENSED. -/
  | lockAcquired (levels : LockLevels)
  /-- REF_RETURN (R386): with phase error e in VCO periods. -/
  | refReturn (e : Int)
  /-- SLEW_COMPLETE (R386): with phase error e in VCO periods. -/
  | slewComplete (e : Int)
  /-- RAMP_GO (R392): the write of SYNTH_RAMP_CTRL that carries GO. -/
  | rampGo (m : Initiator) (v : Word)
  /-- RAMP_ABORT (R392): the write of SYNTH_RAMP_CTRL that carries ABORT. -/
  | rampAbort (m : Initiator) (v : Word)
  /-- OVERSPEED_TRIP (R393): of output n. -/
  | overspeedTrip (n : Fin 12)
  /-- SYNTH_OUT_CFG_WRITE (R389). -/
  | synthOutCfgWrite (m : Initiator) (n : Fin 12) (v : Word)
  /-- SYNTH_BAND_WRITE (R381). -/
  | synthBandWrite (m : Initiator) (n : Fin 32) (v : Word)
  /-- SYNTH_CEIL_WRITE (R393). -/
  | synthCeilWrite (m : Initiator) (n : Fin 12) (v : Word)
  -- Power domains and wake (15_power_domains.md R397 to R415).
  /-- REQ_RETENTION (R400): the write of PWR_REQ_CTRL that carries GO with TARGET 0b01. -/
  | reqRetention (m : Initiator) (v : Word)
  /-- REQ_OFF (R400): the same with TARGET 0b10. -/
  | reqOff (m : Initiator) (v : Word)
  /-- REQ_ON (R401): the same with TARGET 0b11. -/
  | reqOn (m : Initiator) (v : Word)
  /-- DOMAIN_ENTRY_DONE (R400). -/
  | domainEntryDone (d : Fin 34)
  /-- WAKE_SOURCE (R406): source k; n is the link of source 27 and the port group of source 28. -/
  | wakeSource (k : Fin 29) (n : Fin 8)
  /-- DEMAND_WAKE (R403). -/
  | demandWake (d : Fin 34)
  /-- DOMAIN_READY (R403). -/
  | domainReady (d : Fin 34)
  /-- AUTO_RETENTION_ENTRY (R409). -/
  | autoRetentionEntry (c : Fin 8)
  /-- PWR_AUTO_RET_WRITE (R408). -/
  | pwrAutoRetWrite (m : Initiator) (v : Word)
  -- The SEC block (16_boot_and_security.md R429 to R441).
  /-- SEAL (R434): the write of SEC_SEAL_CTRL that carries GO with OP 0b00. -/
  | sealData (m : Initiator) (v : Word)
  /-- OPEN (R434): the same with OP 0b01. -/
  | openBlob (m : Initiator) (v : Word)
  /-- SEAL_LOCK (R435): the write of SEC_SEAL_CTRL that carries SEAL_LOCK. -/
  | sealLock (m : Initiator) (v : Word)
  /-- SEALED_LOAD (R437): the write of SEC_SEALED_LOAD_CTRL that carries GO. -/
  | sealedLoad (m : Initiator) (v : Word)
  /-- FLOOR_ADVANCE (R436): the write of SEC_FLOOR that carries GO. -/
  | floorAdvance (m : Initiator) (v : Word)
  /-- OTP_PROGRAM (R431): the write of SEC_OTP_CTRL. -/
  | otpProgram (m : Initiator) (v : Word)
  /-- OTP_PROGRAM_DONE (R431): failed names the bits that read back 0. -/
  | otpProgramDone (failed : Word)
  /-- CHAL (R439): the write of SEC_SVC_CTRL that carries CHAL. -/
  | chal (m : Initiator) (v : Word)
  /-- CHECK (R439): the write of SEC_SVC_CTRL that carries CHECK. -/
  | check (m : Initiator) (v : Word)
  /-- CLOSE (R440): the write of SEC_SVC_CTRL that carries CLOSE. -/
  | close (m : Initiator) (v : Word)
  -- Host interfaces, ownership, events and GPIO (17_host_control.md R445 to R463).
  /-- SPI_WRITE (R448): by SPI_A or SPI_B. -/
  | spiWrite (port : Fin 2) (a : Word) (data : List Word)
  /-- SPI_READ (R448): of n words. -/
  | spiRead (port : Fin 2) (a : Word) (n : Nat)
  /-- SPI_DUAL_READ (R447): of n words. -/
  | spiDualRead (port : Fin 2) (a : Word) (n : Nat)
  /-- SPI_QUAD_READ (R447): of n words. -/
  | spiQuadRead (port : Fin 2) (a : Word) (n : Nat)
  /-- SPI_UNKNOWN_COMMAND (R447): any command byte that R447 does not list. -/
  | spiUnknownCommand (port : Fin 2) (cmd : BitVec 8)
  /-- I2C_WRITE (R449). -/
  | i2cWrite (a : Word) (data : List Word)
  /-- I2C_READ (R449): of n words; a is the address phase. -/
  | i2cRead (a : Option Word) (n : Nat)
  /-- I2C_ADDRESS_WRITE (R449). -/
  | i2cAddressWrite (a : Word)
  /-- HOST_TIMEOUT (R446): of master m. -/
  | hostTimeout (m : Fin 5)
  /-- CLAIM (R452): the write of SYS_OWNER_CLAIM that carries CLAIM. -/
  | claim (m : Initiator) (v : Word)
  /-- SEIZE (R454): the write of SYS_OWNER_CLAIM that carries SEIZE. -/
  | seize (m : Initiator) (v : Word)
  /-- HANDOVER (R452): the write of SYS_HANDOVER. -/
  | handover (m : Initiator) (v : Word)
  /-- OWNER_RELEASE (R452): the write of SYS_HANDOVER with TARGET 7. -/
  | ownerRelease (m : Initiator) (v : Word)
  /-- ACCEPT (R452): the write of SYS_ACCEPT that carries ACCEPT. -/
  | accept (m : Initiator) (v : Word)
  /-- SYS_LEASE_WRITE (R453). -/
  | sysLeaseWrite (m : Initiator) (v : Word)
  /-- SOFT_EVENT_SET (R459): the write of EVT_SET_3. -/
  | softEventSet (m : Initiator) (v : Word)
  /-- GPIO_EDGE (R463): the level outside the device on GPIO_i, after its filter. -/
  | gpioEdge (i : Fin 16) (level : Bool)
  /-- REGISTER_WRITE (R10): of the register at an address. -/
  | registerWrite (m : Initiator) (a : Word) (v : Word)
  /-- JTAG_ACCESS (R446): data is the word of a write. -/
  | jtagAccess (a : Word) (data : Option Word)
  /-- ENGINE_LOAD_DELIVERY (R161): every load of physical engine pe that is due delivers its result. -/
  | engineLoadDelivery (pe : Fin 72)
  -- Commands without operands, of every chapter.
  /-- SUPPLY_RISE (R30). -/
  | supplyRise
  /-- RESET_N_LOW (R30). -/
  | resetNLow
  /-- VERIFY_COMPLETE (R425). -/
  | verifyComplete
  /-- BOUNDARY (R56). -/
  | boundary
  /-- COMMIT_CUT (R58). -/
  | commitCut
  /-- FABRIC_PASS_A (R211). -/
  | fabricPassA
  /-- FABRIC_SWAP (R51). -/
  | fabricSwap
  /-- FABRIC_PASS_B (R211). -/
  | fabricPassB
  /-- QUIESCENCE_DECISION (R224). -/
  | quiescenceDecision
  /-- SECTION_RUN (R243). -/
  | sectionRun
  /-- GUARD_EVALUATION (R269). -/
  | guardEvaluation
  /-- PROBE_TIMEOUT (R67). -/
  | probeTimeout
  /-- TOKEN_ACCEPT (R312, R313): one HUBCLK cycle's acceptance. -/
  | tokenAccept
  /-- DISPATCH (R317). -/
  | dispatch
  /-- AGING (R321). -/
  | aging
  /-- C0_REFILL (R335). -/
  | c0Refill
  /-- FLIP_WHILE_STOPPED (R185). -/
  | flipWhileStopped
  /-- REROUTE_TARGET (R293). -/
  | rerouteTarget
  /-- TUNNEL_TIMEOUT (R298). -/
  | tunnelTimeout
  /-- CALIBRATION_COMPLETE (R383). -/
  | calibrationComplete
  /-- REF_LOSS (R385). -/
  | refLoss
  /-- DIVIDER_RESET (R386). -/
  | dividerReset
  /-- SYNC_IN (R391). -/
  | syncIn
  /-- RAMP_SEGMENT_END (R392). -/
  | rampSegmentEnd
  /-- VOTE_COMPLETE (R400). -/
  | voteComplete
  /-- AON_TIMER_EXPIRE (R406). -/
  | aonTimerExpire
  /-- REGULATOR_MODE_CHANGE (R410). -/
  | regulatorModeChange
  /-- LOW_POWER_RETURN (R410). -/
  | lowPowerReturn
  /-- BROWN_OUT (R411). -/
  | brownOut
  /-- SEAL_OPERATION_DONE (R434). -/
  | sealOperationDone
  /-- SEALED_LOAD_DONE (R437). -/
  | sealedLoadDone
  /-- NONCE_EXPIRE (R439). -/
  | nonceExpire
  /-- HANDOVER_TIMEOUT (R452). -/
  | handoverTimeout
  /-- OWNER_LAPSED (R453). -/
  | ownerLapsed
deriving DecidableEq, Repr

end Sys2Proof
end

