-- ==== Sys2Proof/Decode.lean ====
section
/-! DEFINITION. Reading words: decodeTableWord over the table's bits (the table gives none), and the decoding of Ramtal words
in both profiles (03_ramtal_encoding.md R68 to R92). A word that is undefined in the profile (R92) decodes to none. -/

namespace Sys2Proof

open Machine

/-- The command that a word spells by the table's bits. No row of spec/opcode_table.json gives bits, so no word spells one. -/
def decodeTableWord (_nbits _w : Nat) : Option Instr := none

namespace Ramtal

/-- A register field of five bits at lo, and a field of three. -/
def r5 (w : Word) (lo : Nat) : Fin 32 := Fin.ofNat 32 (fld w (lo + 4) lo)
def r3 (v : Nat) (lo : Nat) : Fin 8 := Fin.ofNat 8 (v / 2 ^ lo)

/-- The value, if the reserved bits of a word are all zero (R92). -/
def guardZero {α : Type} (w : Word) (mask : Nat) (x : α) : Option α := if w.toNat &&& mask = 0 then some x else none

/-- The value, if a condition holds. -/
def guardB {α : Type} (b : Bool) (x : α) : Option α := if b then some x else none

/-- Whether a 5-bit field may be read, and written, in the profile (R73, R92). -/
def rd_ok (core : Bool) (r : Fin 32) : Bool := core || decide (r.val ≤ 14)
def wr_ok (core : Bool) (r : Fin 32) : Bool := core || decide (r.val ≤ 11) || r.val == 14

def condOf (n : Nat) : Option Cond :=
  match n with
  | 0 => some .eq | 1 => some .ne | 2 => some .cs | 3 => some .cc | 4 => some .mi | 5 => some .pl | 6 => some .vs
  | 7 => some .vc | 8 => some .hi | 9 => some .ls | 10 => some .ge | 11 => some .lt | 12 => some .gt | 13 => some .le
  | 14 => some .al | _ => none

def pmOf (n : Nat) : PtrMod :=
  match n % 4 with | 0 => .keep | 1 => .inc | 2 => .dec | _ => .inc2

def spaceOf (n : Nat) : Space :=
  match n % 4 with | 0 => .delay | 1 => .palette | 2 => .scratch | _ => .cross

def shiftOf (n : Nat) : ShiftKind :=
  match n % 4 with | 0 => .shl | 1 => .shr | 2 => .sar | _ => .ror

/-- An engine memory operand of 17 bits (R80 to R82). -/
def memOp (v : Nat) : Option MemOp :=
  let sp := spaceOf (v / 2 ^ 15)
  if v / 2 ^ 14 % 2 = 0 then
    let off := v % 16384
    if sp = .cross ∧ 512 ≤ off then none else some ⟨sp, .imm (Fin.ofNat 16384 off)⟩
  else if v % 1024 = 0 then some ⟨sp, .ptr (Fin.ofNat 4 (v / 2 ^ 12)) (pmOf (v / 2 ^ 10))⟩
  else none

/-- The operands of MAC, MSU and MPY (R79). -/
def macArgs (core : Bool) (w : Word) : Option MacArgs :=
  match fld w 22 21 with
  | 0 =>
    let rs := r5 w 16
    let rt := r5 w 11
    if fld w 10 0 = 0 ∧ rd_ok core rs ∧ rd_ok core rt then some (.regs rs rt) else none
  | 1 => if core ∨ fld w 2 0 ≠ 0 then none else
      some (.tapPtr (Fin.ofNat 16384 (fld w 20 7)) (Fin.ofNat 4 (fld w 6 5)) (pmOf (fld w 4 3)))
  | 2 => if core ∨ fld w 0 0 ≠ 0 then none else
      (memOp (fld w 17 1)).map (fun op => .regMem (Fin.ofNat 8 (fld w 20 18)) op)
  | _ => if core ∨ fld w 3 0 ≠ 0 then none else
      some (.ptrCoef (Fin.ofNat 4 (fld w 20 19)) (pmOf (fld w 18 17)) (Fin.ofNat 8192 (fld w 16 4)))

/-- Whether a NUM of SYS is defined, for the direction (R90). -/
def sysOk (core toSys : Bool) (num : Nat) : Bool :=
  match num with
  | 0 | 0x10 => true
  | 1 | 4 | 5 | 6 => core
  | 2 | 3 => !toSys
  | _ => false

/-- A long word (R75 to R79, R92). -/
def long (u : Agent) (w : Word) : Option Instr :=
  let core := match u with | .core _ => true | .eng _ => false
  let rd := r5 w 20
  let rs := r5 w 15
  let rt := r5 w 10
  let imm := BitVec.ofNat 15 w.toNat
  let rrr (x : Instr) : Option Instr := if wr_ok core rd && rd_ok core rs && rd_ok core rt then guardZero w 0x3FF x else none
  let rr (x : Instr) : Option Instr := if wr_ok core rd && rd_ok core rs then guardZero w 0x7FFF x else none
  let ri (x : Instr) : Option Instr := guardB (wr_ok core rd && rd_ok core rs) x
  let ld (x : Instr) : Option Instr := guardB (wr_ok core rd && rd_ok core rs) x
  let st (x : Instr) : Option Instr := guardB (rd_ok core rd && rd_ok core rs) x
  let bf (wr : Bool) (x : Instr) : Option Instr :=
    if wr && rd_ok core rs then guardZero w 0x1F x else none
  let ad : Fin 4 := Fin.ofNat 4 (fld w 24 23)
  match fld w 30 25 with
  | 0x00 => guardZero w 0x1FFFFFF (.nop u)
  | 0x01 => rrr (.add u rd rs rt)
  | 0x02 => rrr (.sub u rd rs rt)
  | 0x03 => rrr (.adds u rd rs rt)
  | 0x04 => rrr (.subs u rd rs rt)
  | 0x05 => rrr (.andR u rd rs rt)
  | 0x06 => rrr (.orR u rd rs rt)
  | 0x07 => rrr (.xorR u rd rs rt)
  | 0x08 => rrr (.andn u rd rs rt)
  | 0x09 => rrr (.shl u rd rs rt)
  | 0x0A => rrr (.shr u rd rs rt)
  | 0x0B => rrr (.sar u rd rs rt)
  | 0x0C => rrr (.ror u rd rs rt)
  | 0x0D => rr (.neg u rd rs)
  | 0x0E => rr (.abs u rd rs)
  | 0x0F => if rd_ok core rs && rd_ok core rt then guardZero w 0x1F003FF (.cmp u rs rt) else none
  | 0x10 => ri (.addi u rd rs imm)
  | 0x11 => if rd_ok core rs then guardZero w 0x1F00000 (.cmpi u rs imm) else none
  | 0x12 => ri (.andi u rd rs imm)
  | 0x13 => ri (.ori u rd rs imm)
  | 0x14 => ri (.xori u rd rs imm)
  | 0x15 => guardB (wr_ok core rd) (.movi u rd (BitVec.ofNat 20 w.toNat))
  | 0x16 =>
    if wr_ok core rd then guardZero w (if core then 0xF0000 else 0xFFF00) (.movhi u rd (BitVec.ofNat 16 w.toNat)) else none
  | 0x17 =>
    if wr_ok core rd && rd_ok core rs then
      guardZero w 0xFF (.shi u (shiftOf (fld w 14 13)) rd rs (Fin.ofNat 32 (fld w 12 8))) else none
  | 0x18 => bf (wr_ok core rd) (.bfx u rd rs rt (r5 w 5))
  | 0x19 => bf (wr_ok core rd) (.bfxs u rd rs rt (r5 w 5))
  | 0x1A => bf (wr_ok core rd) (.bfi u rd rs rt (r5 w 5))
  | 0x1B => rr (.clz u rd rs)
  | 0x1C => rr (.cls u rd rs)
  | 0x1D =>
    if wr_ok core rd && rd_ok core rs then guardZero w 0x7F (.perm u rd rs (BitVec.ofNat 8 (fld w 14 7))) else none
  | 0x1E => rrr (.mul u rd rs rt)
  | 0x1F => if core then guardZero w 0x1F (.div u rd rs rt (r5 w 5)) else none
  | 0x20 => if core then guardZero w 0x1F (.divu u rd rs rt (r5 w 5)) else none
  | 0x21 => (macArgs core w).map (fun x => .mac u ad x)
  | 0x22 => (macArgs core w).map (fun x => .msu u ad x)
  | 0x23 => (macArgs core w).map (fun x => .mpy u ad x)
  | 0x24 => if rd_ok core (r5 w 16) then guardZero w 0x6003FF (.accld u ad (r5 w 16) (Fin.ofNat 64 (fld w 15 10))) else none
  | 0x25 => if wr_ok core rd then
      guardZero w 0xFFF (.sta u rd (Fin.ofNat 4 (fld w 19 18)) (Fin.ofNat 64 (fld w 17 12))) else none
  | 0x26 => guardZero w 0x3FFF (.sha u ad (Fin.ofNat 4 (fld w 22 21)) (fld w 20 20 == 1) (Fin.ofNat 64 (fld w 19 14)))
  | 0x28 => ld (.ldw u rd rs imm)
  | 0x29 => st (.stw u rd rs imm)
  | 0x2A => ld (.ldh u rd rs imm)
  | 0x2B => st (.sth u rd rs imm)
  | 0x2C => ld (.ldb u rd rs imm)
  | 0x2D => st (.stb u rd rs imm)
  | 0x2E =>
    if core then some (.ldx u rd (.base rs imm))
    else if wr_ok core rd && fld w 2 0 == 0 then (memOp (fld w 19 3)).map (fun op => .ldx u rd (.mem op)) else none
  | 0x2F =>
    if core then some (.stx u rd (.base rs imm))
    else if rd_ok core rd && fld w 2 0 == 0 then
      (memOp (fld w 19 3)).bind (fun op =>
        if op.space = .palette ∨ op.space = .cross then none else some (.stx u rd (.mem op)))
    else none
  | 0x30 =>
    (condOf (fld w 24 21)).bind (fun k =>
      if core then some (.bcond u k (.off (BitVec.ofNat 21 w.toNat)))
      else if fld w 20 6 = 0 ∧ fld w 5 0 ≠ 0 then some (.bcond u k (.ncnt (Fin.ofNat 64 (fld w 5 0)))) else none)
  | 0x31 => guardB core (.bl u (BitVec.ofNat 25 w.toNat))
  | 0x32 => if core then guardZero w 0x7FFF (.jr u rd rs) else none
  | 0x33 => if core then guardZero w 0x1FFFFF0 (.rot u (Fin.ofNat 16 (fld w 3 0))) else none
  | 0x34 => if core then guardZero w 0x1FFFFFF (.get u) else none
  | 0x35 => if core then guardZero w 0x1FFFFFF (.doneItem u) else none
  | 0x36 => if rd_ok core rs && rd_ok core rt then guardZero w 0x1F003FF (.pusht u rs rt) else none
  | 0x37 => guardZero w 0x1FFFFFF (.fence u)
  | 0x38 => if core then guardZero w 0x1F003FF (.clean u rs rt) else none
  | 0x39 => if core then guardZero w 0x1F003FF (.inval u rs rt) else none
  | 0x3A =>
    let toSys := fld w 19 19 == 1
    let num := fld w 18 7
    if sysOk core toSys num && (if toSys then rd_ok core rd else wr_ok core rd) then
      guardZero w 0x7F (.sys u rd toSys (BitVec.ofNat 12 num)) else none
  | 0x3B => if core then guardZero w 0x1FFFF00 (.trap u (BitVec.ofNat 8 w.toNat)) else none
  | 0x3C =>
    if wr_ok core rd && decide (fld w 19 18 ≤ 1) then guardZero w 0x3FFFF (.dice u rd (fld w 19 18 == 1)) else none
  | _ => none

/-- A short operation of 15 bits (R86 to R89); none where it is undefined (R92). -/
def short (core : Bool) (v : Nat) : Option ShortOp :=
  let rd := r3 v 8
  let rs := r3 v 5
  let rt := r3 v 0
  let imm : Fin 32 := Fin.ofNat 32 v
  let b := v % 2048
  let ad : Fin 4 := Fin.ofNat 4 (v / 256)
  let t3 (x : ShortOp) : Option ShortOp := if v / 8 % 4 = 0 then some x else none
  match v / 2048 % 16 with
  | 0x0 => if b = 0 then some .nops else none
  | 0x1 => if v % 32 = 0 then some (.mov rd rs) else none
  | 0x2 => t3 (.add rd rs rt)
  | 0x3 => t3 (.sub rd rs rt)
  | 0x4 => t3 (.and rd rs rt)
  | 0x5 => t3 (.or rd rs rt)
  | 0x6 => t3 (.xor rd rs rt)
  | 0x7 => some (.shli rd rs imm)
  | 0x8 => some (.sari rd rs imm)
  | 0x9 => some (.addi5 rd rs (BitVec.ofNat 5 v))
  | 0xA => if v / 256 % 8 = 0 then t3 (.cmp rs rt) else none
  | 0xB =>
    if v / 1024 % 2 = 0 then
      t3 (.macs ad (if core then .regs rs rt
        else .ptrs (Fin.ofNat 4 (v / 32)) (v / 128 % 2 == 1) (Fin.ofNat 4 v) (v / 4 % 2 == 1)))
    else none
  | 0xC => some (.ldxs rd (if core then .base rs imm else .ptr (v / 128 % 2 == 1) (Fin.ofNat 4 (v / 32)) (BitVec.ofNat 5 v)))
  | 0xD => some (.stxs rd (if core then .base rs imm else .ptr (v / 128 % 2 == 1) (Fin.ofNat 4 (v / 32)) (BitVec.ofNat 5 v)))
  | 0xE => if v / 1024 % 2 = 0 then t3 (.mpys ad rs rt) else none
  | _ => none

/-- The row a pair goes by: its slot A operation, with slot B's beside it. -/
def pairOf (u : Agent) (a b : ShortOp) : Instr :=
  match a with
  | .nops => .nops u .a b
  | .mov rd rs => .mov u .a rd rs b
  | .add rd rs rt => .shortAdd u .a rd rs rt b
  | .sub rd rs rt => .shortSub u .a rd rs rt b
  | .and rd rs rt => .shortAnd u .a rd rs rt b
  | .or rd rs rt => .shortOr u .a rd rs rt b
  | .xor rd rs rt => .shortXor u .a rd rs rt b
  | .shli rd rs imm => .shli u .a rd rs imm b
  | .sari rd rs imm => .sari u .a rd rs imm b
  | .addi5 rd rs imm => .addi5 u .a rd rs imm b
  | .cmp rs rt => .shortCmp u .a rs rt b
  | .macs ad x => .macs u .a ad x b
  | .ldxs rd x => .ldxs u .a rd x b
  | .stxs rd x => .stxs u .a rd x b
  | .mpys ad rs rt => .mpys u .a ad rs rt b

end Ramtal

/-- The Ramtal word w, executed by u; none where R92 makes it undefined in u's profile. -/
def decodeRamtal (u : Agent) (w : Word) : Option Instr :=
  let core := match u with | .core _ => true | .eng _ => false
  if bitOf w 31 then
    if bitOf w 30 then none else
      (Ramtal.short core (fld w 29 15)).bind (fun a => (Ramtal.short core (fld w 14 0)).map (fun b => Ramtal.pairOf u a b))
  else Ramtal.long u w

/-! The encoder, from the same tables (R68, R69, R75 to R82, R86 to R89). -/

namespace Ramtal

def shiftBits : ShiftKind → Nat
  | .shl => 0 | .shr => 1 | .sar => 2 | .ror => 3

def pmBits : PtrMod → Nat
  | .keep => 0 | .inc => 1 | .dec => 2 | .inc2 => 3

def spaceBits : Space → Nat
  | .delay => 0 | .palette => 1 | .scratch => 2 | .cross => 3

def condBits : Cond → Nat
  | .eq => 0 | .ne => 1 | .cs => 2 | .cc => 3 | .mi => 4 | .pl => 5 | .vs => 6 | .vc => 7 | .hi => 8 | .ls => 9 | .ge => 10
  | .lt => 11 | .gt => 12 | .le => 13 | .al => 14

/-- The 17 bits of an engine memory operand (R80). -/
def memBits (op : MemOp) : Nat :=
  spaceBits op.space * 2 ^ 15 + (match op.off with
    | .imm o => o.val
    | .ptr p pm => 2 ^ 14 + p.val * 2 ^ 12 + pmBits pm * 2 ^ 10)

/-- MODE and the fields of MAC, MSU and MPY (R79). -/
def macBits : MacArgs → Nat
  | .regs rs rt => rs.val * 2 ^ 16 + rt.val * 2 ^ 11
  | .tapPtr tap p pm => 2 ^ 21 + tap.val * 2 ^ 7 + p.val * 2 ^ 5 + pmBits pm * 2 ^ 3
  | .regMem tr op => 2 * 2 ^ 21 + tr.val * 2 ^ 18 + memBits op * 2
  | .ptrCoef p pm coef => 3 * 2 ^ 21 + p.val * 2 ^ 19 + pmBits pm * 2 ^ 17 + coef.val * 2 ^ 4

/-- A long word: OP and its operand fields (R68). -/
def lw (op fields : Nat) : Option Word := some (BitVec.ofNat 32 (op * 2 ^ 25 + fields))

/-- Formats R and I (R77). -/
def rrr (rd rs rt : Fin 32) : Nat := rd.val * 2 ^ 20 + rs.val * 2 ^ 15 + rt.val * 2 ^ 10
def ri (rd rs : Fin 32) (imm : BitVec 15) : Nat := rd.val * 2 ^ 20 + rs.val * 2 ^ 15 + imm.toNat

/-- LDX and STX: format I in core profile, format X in engine profile. -/
def xBits (rd : Fin 32) : XAddr → Nat
  | .base rs imm => ri rd rs imm
  | .mem op => rd.val * 2 ^ 20 + memBits op * 2 ^ 3

/-- A short operation's fields (R69). -/
def sBits (sop rd rs low : Nat) : Nat := sop * 2 ^ 11 + rd * 2 ^ 8 + rs * 2 ^ 5 + low

def xsBits (sop : Nat) (rd : Fin 8) : XsAddr → Nat
  | .base rs imm => sBits sop rd.val rs.val imm.val
  | .ptr sc p imm => sBits sop rd.val (b2n sc * 4 + p.val) imm.toNat

/-- The 15 bits of a short operation (R86 to R89). -/
def shortBits : ShortOp → Nat
  | .nops => 0
  | .mov rd rs => sBits 0x1 rd.val rs.val 0
  | .add rd rs rt => sBits 0x2 rd.val rs.val rt.val
  | .sub rd rs rt => sBits 0x3 rd.val rs.val rt.val
  | .and rd rs rt => sBits 0x4 rd.val rs.val rt.val
  | .or rd rs rt => sBits 0x5 rd.val rs.val rt.val
  | .xor rd rs rt => sBits 0x6 rd.val rs.val rt.val
  | .shli rd rs imm => sBits 0x7 rd.val rs.val imm.val
  | .sari rd rs imm => sBits 0x8 rd.val rs.val imm.val
  | .addi5 rd rs imm => sBits 0x9 rd.val rs.val imm.toNat
  | .cmp rs rt => sBits 0xA 0 rs.val rt.val
  | .macs ad (.regs rs rt) => sBits 0xB ad.val rs.val rt.val
  | .macs ad (.ptrs tp ti cp ci) => sBits 0xB ad.val (b2n ti * 4 + tp.val) (b2n ci * 4 + cp.val)
  | .ldxs rd x => xsBits 0xC rd x
  | .stxs rd x => xsBits 0xD rd x
  | .mpys ad rs rt => sBits 0xE ad.val rs.val rt.val

/-- What executes a pair word, its slot A operation and its slot B operation. -/
def pairIn (u : Agent) (slot : Slot) (x y : ShortOp) : Agent × ShortOp × ShortOp :=
  match slot with | .a => (u, x, y) | .b => (u, y, x)

def pairParts : Instr → Option (Agent × ShortOp × ShortOp)
  | .nops u slot other => some (pairIn u slot .nops other)
  | .mov u slot rd rs other => some (pairIn u slot (.mov rd rs) other)
  | .shortAdd u slot rd rs rt other => some (pairIn u slot (.add rd rs rt) other)
  | .shortSub u slot rd rs rt other => some (pairIn u slot (.sub rd rs rt) other)
  | .shortAnd u slot rd rs rt other => some (pairIn u slot (.and rd rs rt) other)
  | .shortOr u slot rd rs rt other => some (pairIn u slot (.or rd rs rt) other)
  | .shortXor u slot rd rs rt other => some (pairIn u slot (.xor rd rs rt) other)
  | .shli u slot rd rs imm other => some (pairIn u slot (.shli rd rs imm) other)
  | .sari u slot rd rs imm other => some (pairIn u slot (.sari rd rs imm) other)
  | .addi5 u slot rd rs imm other => some (pairIn u slot (.addi5 rd rs imm) other)
  | .shortCmp u slot rs rt other => some (pairIn u slot (.cmp rs rt) other)
  | .macs u slot ad x other => some (pairIn u slot (.macs ad x) other)
  | .ldxs u slot rd x other => some (pairIn u slot (.ldxs rd x) other)
  | .stxs u slot rd x other => some (pairIn u slot (.stxs rd x) other)
  | .mpys u slot ad rs rt other => some (pairIn u slot (.mpys ad rs rt) other)
  | _ => none

/-- The word of a long instruction. -/
def encodeLong : Instr → Option Word
  | .nop _ => lw 0x00 0
  | .add _ rd rs rt => lw 0x01 (rrr rd rs rt)
  | .sub _ rd rs rt => lw 0x02 (rrr rd rs rt)
  | .adds _ rd rs rt => lw 0x03 (rrr rd rs rt)
  | .subs _ rd rs rt => lw 0x04 (rrr rd rs rt)
  | .andR _ rd rs rt => lw 0x05 (rrr rd rs rt)
  | .orR _ rd rs rt => lw 0x06 (rrr rd rs rt)
  | .xorR _ rd rs rt => lw 0x07 (rrr rd rs rt)
  | .andn _ rd rs rt => lw 0x08 (rrr rd rs rt)
  | .shl _ rd rs rt => lw 0x09 (rrr rd rs rt)
  | .shr _ rd rs rt => lw 0x0A (rrr rd rs rt)
  | .sar _ rd rs rt => lw 0x0B (rrr rd rs rt)
  | .ror _ rd rs rt => lw 0x0C (rrr rd rs rt)
  | .neg _ rd rs => lw 0x0D (rrr rd rs 0)
  | .abs _ rd rs => lw 0x0E (rrr rd rs 0)
  | .cmp _ rs rt => lw 0x0F (rrr 0 rs rt)
  | .addi _ rd rs imm => lw 0x10 (ri rd rs imm)
  | .cmpi _ rs imm => lw 0x11 (ri 0 rs imm)
  | .andi _ rd rs imm => lw 0x12 (ri rd rs imm)
  | .ori _ rd rs imm => lw 0x13 (ri rd rs imm)
  | .xori _ rd rs imm => lw 0x14 (ri rd rs imm)
  | .movi _ rd imm => lw 0x15 (rd.val * 2 ^ 20 + imm.toNat)
  | .movhi _ rd imm => lw 0x16 (rd.val * 2 ^ 20 + imm.toNat)
  | .shi _ kind rd rs amt => lw 0x17 (rrr rd rs 0 + shiftBits kind * 2 ^ 13 + amt.val * 2 ^ 8)
  | .bfx _ rd rs pos wm1 => lw 0x18 (rrr rd rs pos + wm1.val * 2 ^ 5)
  | .bfxs _ rd rs pos wm1 => lw 0x19 (rrr rd rs pos + wm1.val * 2 ^ 5)
  | .bfi _ rd rs pos wm1 => lw 0x1A (rrr rd rs pos + wm1.val * 2 ^ 5)
  | .clz _ rd rs => lw 0x1B (rrr rd rs 0)
  | .cls _ rd rs => lw 0x1C (rrr rd rs 0)
  | .perm _ rd rs sel => lw 0x1D (rrr rd rs 0 + sel.toNat * 2 ^ 7)
  | .mul _ rd rs rt => lw 0x1E (rrr rd rs rt)
  | .div _ rd rs rt rr => lw 0x1F (rrr rd rs rt + rr.val * 2 ^ 5)
  | .divu _ rd rs rt rr => lw 0x20 (rrr rd rs rt + rr.val * 2 ^ 5)
  | .mac _ ad x => lw 0x21 (ad.val * 2 ^ 23 + macBits x)
  | .msu _ ad x => lw 0x22 (ad.val * 2 ^ 23 + macBits x)
  | .mpy _ ad x => lw 0x23 (ad.val * 2 ^ 23 + macBits x)
  | .accld _ ad rs sh => lw 0x24 (ad.val * 2 ^ 23 + rs.val * 2 ^ 16 + sh.val * 2 ^ 10)
  | .sta _ rd as sh => lw 0x25 (rd.val * 2 ^ 20 + as.val * 2 ^ 18 + sh.val * 2 ^ 12)
  | .sha _ ad as right amt => lw 0x26 (ad.val * 2 ^ 23 + as.val * 2 ^ 21 + b2n right * 2 ^ 20 + amt.val * 2 ^ 14)
  | .ldw _ rd rs imm => lw 0x28 (ri rd rs imm)
  | .stw _ rd rs imm => lw 0x29 (ri rd rs imm)
  | .ldh _ rd rs imm => lw 0x2A (ri rd rs imm)
  | .sth _ rd rs imm => lw 0x2B (ri rd rs imm)
  | .ldb _ rd rs imm => lw 0x2C (ri rd rs imm)
  | .stb _ rd rs imm => lw 0x2D (ri rd rs imm)
  | .ldx _ rd x => lw 0x2E (xBits rd x)
  | .stx _ rd x => lw 0x2F (xBits rd x)
  | .bcond _ k (.off o) => lw 0x30 (condBits k * 2 ^ 21 + o.toNat)
  | .bcond _ k (.ncnt n) => lw 0x30 (condBits k * 2 ^ 21 + n.val)
  | .bl _ off => lw 0x31 off.toNat
  | .jr _ rd rs => lw 0x32 (rrr rd rs 0)
  | .rot _ k => lw 0x33 k.val
  | .get _ => lw 0x34 0
  | .doneItem _ => lw 0x35 0
  | .pusht _ rs rt => lw 0x36 (rrr 0 rs rt)
  | .fence _ => lw 0x37 0
  | .clean _ rs rt => lw 0x38 (rrr 0 rs rt)
  | .inval _ rs rt => lw 0x39 (rrr 0 rs rt)
  | .sys _ rd toSys num => lw 0x3A (rd.val * 2 ^ 20 + b2n toSys * 2 ^ 19 + num.toNat * 2 ^ 7)
  | .trap _ code => lw 0x3B code.toNat
  | .dice _ rd triangular => lw 0x3C (rd.val * 2 ^ 20 + b2n triangular * 2 ^ 18)
  | _ => none

/-- A pair word (R68). -/
def encodePair (a b : ShortOp) : Word := BitVec.ofNat 32 (2 ^ 31 + shortBits a * 2 ^ 15 + shortBits b)

end Ramtal

/-- The word of a Ramtal command; none where the command is no word of an instruction set. -/
def encodeRamtal (i : Instr) : Option Word :=
  match Ramtal.pairParts i with
  | some (_, a, b) => some (Ramtal.encodePair a b)
  | none => Ramtal.encodeLong i

end Sys2Proof
end

