-- ==== Sys2Proof/Machine/Crypto.lean ====
section
/-! DEFINITION. The standard functions chapter 16 names: CRC-32 of IEEE 802.3, SHA-256 (FIPS 180-4), HMAC-SHA-256 (FIPS 198-1)
and AES-256-GCM (FIPS 197, NIST SP 800-38D) over lists of bytes. -/

namespace Sys2Proof.Machine

/-! CRC-32. -/

/-- Eight shifts of the reflected polynomial. -/
def crcShift : Nat → BitVec 32 → BitVec 32
  | 0, c => c
  | n + 1, c => crcShift n (if c.getLsbD 0 then (c >>> 1) ^^^ 0xEDB88320 else c >>> 1)

def crc32 (l : List Byte) : Word := ~~~(l.foldl (fun c b => crcShift 8 (c ^^^ b.setWidth 32)) (0xFFFFFFFF : BitVec 32))

/-! SHA-256. -/

def sha256K : List (BitVec 32) := [
  0x428a2f98, 0x71374491, 0xb5c0fbcf, 0xe9b5dba5, 0x3956c25b, 0x59f111f1, 0x923f82a4, 0xab1c5ed5, 0xd807aa98, 0x12835b01, 0x243185be,
  0x550c7dc3, 0x72be5d74, 0x80deb1fe, 0x9bdc06a7, 0xc19bf174, 0xe49b69c1, 0xefbe4786, 0x0fc19dc6, 0x240ca1cc, 0x2de92c6f, 0x4a7484aa,
  0x5cb0a9dc, 0x76f988da, 0x983e5152, 0xa831c66d, 0xb00327c8, 0xbf597fc7, 0xc6e00bf3, 0xd5a79147, 0x06ca6351, 0x14292967] ++ [
  0x27b70a85, 0x2e1b2138, 0x4d2c6dfc, 0x53380d13, 0x650a7354, 0x766a0abb, 0x81c2c92e, 0x92722c85, 0xa2bfe8a1, 0xa81a664b, 0xc24b8b70,
  0xc76c51a3, 0xd192e819, 0xd6990624, 0xf40e3585, 0x106aa070, 0x19a4c116, 0x1e376c08, 0x2748774c, 0x34b0bcb5, 0x391c0cb3, 0x4ed8aa4a,
  0x5b9cca4f, 0x682e6ff3, 0x748f82ee, 0x78a5636f, 0x84c87814, 0x8cc70208, 0x90befffa, 0xa4506ceb, 0xbef9a3f7, 0xc67178f2]

def sha256Init : List (BitVec 32) :=
  [0x6a09e667, 0xbb67ae85, 0x3c6ef372, 0xa54ff53a, 0x510e527f, 0x9b05688c, 0x1f83d9ab, 0x5be0cd19]

def rotr32 (x : BitVec 32) (n : Nat) : BitVec 32 := x.rotateRight n

/-- The big-endian word of four bytes. -/
def beWord : List Byte → BitVec 32
  | [a, b, c, d] => a ++ b ++ c ++ d
  | _ => 0

def beBytes (w : BitVec 32) : List Byte :=
  [w.extractLsb' 24 8, w.extractLsb' 16 8, w.extractLsb' 8 8, w.extractLsb' 0 8]

/-- The message schedule, newest word first: n more words. -/
def shaExpand : Nat → List (BitVec 32) → List (BitVec 32)
  | 0, w => w
  | n + 1, w =>
    let a := w.getD 14 0
    let b := w.getD 1 0
    let s0 := rotr32 a 7 ^^^ rotr32 a 18 ^^^ (a >>> 3)
    let s1 := rotr32 b 17 ^^^ rotr32 b 19 ^^^ (b >>> 10)
    shaExpand n ((w.getD 15 0 + s0 + w.getD 6 0 + s1) :: w)

/-- One round of the compression function. -/
def shaRound (h : List (BitVec 32)) (kw : BitVec 32 × BitVec 32) : List (BitVec 32) :=
  match h with
  | [a, b, c, d, e, f, g, hh] =>
    let t1 := hh + (rotr32 e 6 ^^^ rotr32 e 11 ^^^ rotr32 e 25) + ((e &&& f) ^^^ (~~~e &&& g)) + kw.1 + kw.2
    let t2 := (rotr32 a 2 ^^^ rotr32 a 13 ^^^ rotr32 a 22) + ((a &&& b) ^^^ (a &&& c) ^^^ (b &&& c))
    [t1 + t2, a, b, c, d + t1, e, f, g]
  | l => l

/-- The 16 words of a block of 64 bytes. -/
def blockWords (b : List Byte) : List (BitVec 32) := (List.range 16).map (fun i => beWord ((b.drop (4 * i)).take 4))

def shaBlock (h : List (BitVec 32)) (b : List Byte) : List (BitVec 32) :=
  let w := (shaExpand 48 (blockWords b).reverse).reverse
  List.zipWith (· + ·) h ((sha256K.zip w).foldl shaRound h)

/-- n big-endian bytes of a number. -/
def beNat (n v : Nat) : List Byte := (bytesLE n v).reverse

def shaPad (l : List Byte) : List Byte :=
  let n := l.length
  l ++ [0x80] ++ List.replicate ((119 - n % 64) % 64) 0 ++ beNat 8 (8 * n)

def sha256 (l : List Byte) : List Byte :=
  let p := shaPad l
  ((List.range (p.length / 64)).foldl (fun h i => shaBlock h ((p.drop (64 * i)).take 64)) sha256Init).flatMap beBytes

def hmacSha256 (key msg : List Byte) : List Byte :=
  let k := (if 64 < key.length then sha256 key else key)
  let k := k ++ List.replicate (64 - k.length) 0
  sha256 (k.map (fun b => b ^^^ 0x5c) ++ sha256 (k.map (fun b => b ^^^ 0x36) ++ msg))

/-! AES-256. -/

/-- Multiplication by x in GF(2^8). -/
def xtime (b : Byte) : Byte := if b.getLsbD 7 then (b <<< 1) ^^^ 0x1b else b <<< 1

/-- The product in GF(2^8), by n bits of the second factor. -/
def gmul8 : Nat → Byte → Byte → Byte
  | 0, _, _ => 0
  | n + 1, a, b => (if b.getLsbD 0 then a else 0) ^^^ gmul8 n (xtime a) (b >>> 1)

def gfMul (a b : Byte) : Byte := gmul8 8 a b

/-- b^254, the inverse, zero for zero. -/
def gfInv (b : Byte) : Byte :=
  let p2 := gfMul b b
  let p4 := gfMul p2 p2
  let p8 := gfMul p4 p4
  let p16 := gfMul p8 p8
  let p32 := gfMul p16 p16
  let p64 := gfMul p32 p32
  let p128 := gfMul p64 p64
  gfMul p2 (gfMul p4 (gfMul p8 (gfMul p16 (gfMul p32 (gfMul p64 p128)))))

def sbox (b : Byte) : Byte :=
  let v := gfInv b
  v ^^^ v.rotateLeft 1 ^^^ v.rotateLeft 2 ^^^ v.rotateLeft 3 ^^^ v.rotateLeft 4 ^^^ 0x63

def xorBytes (a b : List Byte) : List Byte := List.zipWith (· ^^^ ·) a b

/-- The key schedule, newest word first: words i to 59. -/
def aesExpand : Nat → Nat → Byte → List (List Byte) → List (List Byte)
  | 0, _, _, w => w
  | n + 1, i, rcon, w =>
    let t := w.getD 0 []
    let old := w.getD 7 []
    if i % 8 = 0 then
      let r := (t.drop 1 ++ t.take 1).map sbox
      aesExpand n (i + 1) (xtime rcon) (xorBytes old (xorBytes r [rcon, 0, 0, 0]) :: w)
    else if i % 8 = 4 then aesExpand n (i + 1) rcon (xorBytes old (t.map sbox) :: w)
    else aesExpand n (i + 1) rcon (xorBytes old t :: w)

/-- The 15 round keys of a 32-byte key. -/
def aesKeys (key : List Byte) : List (List Byte) :=
  let w0 := (List.range 8).map (fun i => (key.drop (4 * i)).take 4)
  let w := (aesExpand 52 8 1 w0.reverse).reverse
  (List.range 15).map (fun i => ((w.drop (4 * i)).take 4).flatten)

def shiftRows (s : List Byte) : List Byte :=
  (List.range 16).map (fun i => s.getD ((i % 4) + 4 * ((i / 4 + i % 4) % 4)) 0)

def mixColumn : List Byte → List Byte
  | [a, b, c, d] =>
    [xtime a ^^^ xtime b ^^^ b ^^^ c ^^^ d, a ^^^ xtime b ^^^ xtime c ^^^ c ^^^ d, a ^^^ b ^^^ xtime c ^^^ xtime d ^^^ d,
      xtime a ^^^ a ^^^ b ^^^ c ^^^ xtime d]
  | l => l

def mixColumns (s : List Byte) : List Byte := (List.range 4).flatMap (fun c => mixColumn ((s.drop (4 * c)).take 4))

/-- AES-256 of one block under its round keys. -/
def aesBlock (ks : List (List Byte)) (b : List Byte) : List Byte :=
  let s := xorBytes b (ks.getD 0 [])
  let s := (List.range 13).foldl (fun s r => xorBytes (mixColumns (shiftRows (s.map sbox))) (ks.getD (r + 1) [])) s
  xorBytes (shiftRows (s.map sbox)) (ks.getD 14 [])

/-! GCM. -/

/-- The 128-bit number of 16 bytes, first byte highest. -/
def beNum (l : List Byte) : Nat := l.foldl (fun n b => 256 * n + b.toNat) 0

/-- Multiplication in GF(2^128) in GCM's bit order: n steps on (z, v) by the bits of x from the highest. -/
def ghashSteps : Nat → BitVec 128 → BitVec 128 → BitVec 128 → BitVec 128
  | 0, _, z, _ => z
  | n + 1, x, z, v =>
    let z' := if x.getLsbD n then z ^^^ v else z
    let v' := if v.getLsbD 0 then (v >>> 1) ^^^ (0xE1#128 <<< 120) else v >>> 1
    ghashSteps n x z' v'

def ghashMul (x y : BitVec 128) : BitVec 128 := ghashSteps 128 x 0 y

/-- Bytes filled up with zeros to whole blocks of 16. -/
def pad16 (l : List Byte) : List Byte := l ++ List.replicate ((16 - l.length % 16) % 16) 0

def ghash (h : BitVec 128) (l : List Byte) : BitVec 128 :=
  (List.range (l.length / 16)).foldl (fun y i => ghashMul (y ^^^ BitVec.ofNat 128 (beNum ((l.drop (16 * i)).take 16))) h) 0

/-- The key stream of a 96-bit IV from counter 2 on. -/
def gctr (ks : List (List Byte)) (iv : List Byte) (data : List Byte) : List Byte :=
  ((List.range ((data.length + 15) / 16)).map (fun i =>
    xorBytes ((data.drop (16 * i)).take 16) (aesBlock ks (iv ++ beNat 4 (i + 2))))).flatten

/-- The tag of additional data and ciphertext. -/
def gcmTag (ks : List (List Byte)) (iv aad ct : List Byte) : List Byte :=
  let h := BitVec.ofNat 128 (beNum (aesBlock ks (List.replicate 16 0)))
  let y := ghash h (pad16 aad ++ pad16 ct ++ beNat 8 (8 * aad.length) ++ beNat 8 (8 * ct.length))
  xorBytes (beNat 16 y.toNat) (aesBlock ks (iv ++ beNat 4 1))

/-- Ciphertext and tag. -/
def gcmSeal (key iv aad pt : List Byte) : List Byte × List Byte :=
  let ks := aesKeys key
  let ct := gctr ks iv pt
  (ct, gcmTag ks iv aad ct)

/-- The plaintext, where the tag passes. -/
def gcmOpen (key iv aad ct tag : List Byte) : Option (List Byte) :=
  let ks := aesKeys key
  if gcmTag ks iv aad ct = tag then some (gctr ks iv ct) else none

end Sys2Proof.Machine
end

