-- ==== Sys2Proof/Machine/Region.lean ====
section
/-! DEFINITION. The address map (13_memory_and_coherence.md R365, R369): which region an address lies in. -/

namespace Sys2Proof.Machine

/-- The regions of R365. -/
inductive Region where
  | rom | localMem | shared | sharedAlias | hub | hubAlias | lane | prog | sectMem | fabric | regs | flash
  | aonRegs | faultLog | saveMem | gap
deriving DecidableEq, Repr

/-- The region of a byte address. -/
def regionOf (a : Nat) : Region :=
  if a < 0x00040000 then .rom
  else if a < 0x08000000 then .gap
  else if a < 0x08100000 then .localMem
  else if a < 0x10000000 then .gap
  else if a < 0x10800000 then .shared
  else if a < 0x14000000 then .gap
  else if a < 0x14800000 then .sharedAlias
  else if a < 0x18000000 then .gap
  else if a < 0x18400000 then .hub
  else if a < 0x1C000000 then .gap
  else if a < 0x1C400000 then .hubAlias
  else if a < 0x20000000 then .gap
  else if a < 0x21200000 then .lane
  else if a < 0x30000000 then .gap
  else if a < 0x30240000 then .prog
  else if a < 0x38000000 then .gap
  else if a < 0x38320000 then .sectMem
  else if a < 0x3C000000 then .gap
  else if a < 0x3C120400 then .fabric
  else if a < 0x40000000 then .gap
  else if a < 0x44000000 then .regs
  else if a < 0x80000000 then .gap
  else if a < 0x90000000 then .flash
  else if a < 0xF0000000 then .gap
  else if a < 0xF0001000 then .aonRegs
  else if a < 0xF0008000 then .gap
  else if a < 0xF0008400 then .faultLog
  else if a < 0xF000C000 then .gap
  else if a < 0xF0010000 then .saveMem
  else .gap

/-- The primary address of a byte: an alias reaches the byte 0x0400_0000 below it (R369). -/
def primary (a : Nat) : Nat :=
  match regionOf a with
  | .sharedAlias | .hubAlias => a - 0x04000000
  | _ => a

/-- Whether two ranges overlap. -/
def overlap (a n b m : Nat) : Bool := decide (a < b + m) && decide (b < a + n)

end Sys2Proof.Machine
end

