-- ==== Sys2Proof/Config.lean ====
section
/-! DEFINITION. What an implementation fixes and the spec leaves open: opaque constants, so that no proof can see a value. -/

namespace Sys2Proof.Config

/-- SYS_REV: "silicon-dependent" (R3, R9). DESIGN CHOICE, safe: log entry 7. -/
opaque sysRev : Word

/-- A free value: what the spec leaves open at the n-th place it leaves a value open. DESIGN CHOICE, safe: log entry 6. -/
opaque freeNat : Nat → Nat

/-- A free value: how far a tone generator's value lies from the truncated product, of which R206 says only that it is within
2 LSB of the exact product; by the level and the phase. DESIGN CHOICE, safe: log entry 8. -/
opaque toneErr : Nat → Nat → Nat

/-- The contents of the boot ROM by address (R365), which the spec does not give. DESIGN CHOICE, safe: log entry 9. -/
opaque romByte : Nat → Byte

/-- OTP words that the factory programs: DEVICE_ID, the band table defaults and the trim (R429). DESIGN CHOICE, safe: log entry 10. -/
opaque otpFactory : Nat → Word

end Sys2Proof.Config
end

