-- ==== Sys2Proof/Machine/Store.lean ====
section
/-! DEFINITION. Sparse contents by key in one canonical form: keys strictly rising, and no entry equal to what an
unlisted key reads as. Registers, memories and register files are held so, and equal contents are equal lists. -/

namespace Sys2Proof.Machine

/-- Contents by key. -/
abbrev Store (α : Type) := List (Nat × α)

/-- What key a holds, where d says what an unlisted key reads as. -/
def Store.get {α : Type} (d : Nat → α) : Store α → Nat → α
  | [], a => d a
  | (b, v) :: t, a => if a = b then v else Store.get d t a

/-- An entry put in its place by key. -/
def Store.insert {α : Type} (a : Nat) (v : α) : Store α → Store α
  | [] => [(a, v)]
  | (b, w) :: t => if a < b then (a, v) :: (b, w) :: t else (b, w) :: Store.insert a v t

/-- Every entry but a's. -/
def Store.erase {α : Type} (m : Store α) (a : Nat) : Store α := m.filter (fun e => e.1 != a)

/-- The contents with a holding v; writing what an unlisted key reads as removes the entry. -/
def Store.set {α : Type} [DecidableEq α] (d : Nat → α) (m : Store α) (a : Nat) (v : α) : Store α :=
  if v = d a then m.erase a else Store.insert a v (m.erase a)

/-- The canonical form. DESIGN CHOICE: log entry 73. -/
def Store.wf {α : Type} [DecidableEq α] (d : Nat → α) : Store α → Bool
  | [] => true
  | [(a, v)] => !(decide (v = d a))
  | (a, v) :: (b, w) :: t => !(decide (v = d a)) && decide (a < b) && Store.wf d ((b, w) :: t)

/-- Contents whose unlisted keys read as zero. DESIGN CHOICE: log entry 3. -/
def zeroOf {n : Nat} (_ : Nat) : BitVec n := 0

end Sys2Proof.Machine
end

