-- ==== Sys2Proof/Machine/Regs.lean ====
section
/-! DEFINITION. The register map: one name per register of the manual, its address, how many instances it has, its
reset value and the access code of every bit, as the register tables of chapters 00 to 17 give them (R5 to R12). -/

namespace Sys2Proof.Machine

/-- The registers, named as the manual names them; a lowercase letter in a name stands for the instance index. -/
inductive RegName where
  | SYS_PART | SYS_REV | SYS_STATE | SYS_STATE_REQ | SYS_STATUS | SYS_TURN_CFG | SYS_TURN_COUNT_LO
  | SYS_TURN_COUNT_HI | SYS_STAMP | SYS_PROBE_CTRL | SYS_PROBE_WATCH | SYS_PROBE_RESULT | SYS_OWNER_CLAIM
  | SYS_OWNER | SYS_HANDOVER | SYS_ACCEPT | SYS_LEASE | SYS_GPIO_IN | SYS_GPIO_OUT | SYS_GPIO_EDGE
  | SYS_GPIO_CFG_i | PWR_REQ_MASK_LO | PWR_REQ_MASK_HI | PWR_REQ_CTRL | PWR_REQ_STAT | PWR_REFUSE | PWR_FAULT
  | PWR_AUTO_RET | PWR_AUTO_RET_DELAY | PWR_WAKE_EN | PWR_GPIO_WAKE_CFG | PWR_AON_TIMER | PWR_AON_TIMER_CTRL
  | PWR_LAST_WAKE | PWR_LAST_WAKE_TURN | PWR_STATE_w | PWR_WAKE_MAP_s_LO | PWR_WAKE_MAP_s_HI | SYNTH_CTRL
  | SYNTH_CFG | SYNTH_REF_FREQ | SYNTH_RDIV | SYNTH_N_INT | SYNTH_NUM | SYNTH_DEN | SYNTH_SEED | SYNTH_STATUS
  | SYNTH_PHASE | SYNTH_PHASE_WIN | SYNTH_SLEW_LIMIT | SYNTH_FAULT | SYNTH_REF_LOSS_CNT | SYNTH_RELOCK_CNT
  | SYNTH_OUT_n_CFG | SYNTH_SYNC_MASK | SYNTH_CEIL_n | SYNTH_LOCK | SYNTH_RAMP_CTRL | SYNTH_RAMP_STAT
  | SYNTH_RAMP_OFFSET | SYNTH_RAMP_SEG_n | SYNTH_BAND_n | SEC_STATUS | SEC_BOOT_INFO | SEC_BOOT_SEQ
  | SEC_SLOT_FAIL_n | SEC_STRAP | SEC_BOOT_CTRL | SEC_PIN_LOCK | SEC_SEAL_CTRL | SEC_SEAL_SRC | SEC_SEAL_DST
  | SEC_SEAL_LEN | SEC_SEAL_VER | SEC_SEAL_STAT | SEC_SEALED_LOAD | SEC_SEALED_LOAD_CTRL
  | SEC_SEALED_LOAD_STAT | SEC_FLOOR | SEC_KEY_CHECK | SEC_SVC_CTRL | SEC_SVC_STAT | SEC_SVC_NONCE_i
  | SEC_SVC_RESP_i | SEC_OTP_CTRL | SEC_OTP_DATA | SEC_OTP_STAT | HOSTIF_MSTAT_m | HOSTIF_WIGN_CNT_m
  | HOSTIF_STRAP | HOSTIF_STATUS | EVT_RAW_w | EVT_SET_w | EVT_IRQ_CFG | EVT_CFG_SRC | EVT_DMA_DONE
  | EVT_TIMER | EVT_PEND | EVT_IRQ_x_EN_w | EVT_CORE_n_EN_w | SCHED_CTRL | SCHED_STATUS | SCHED_C0_CORES
  | SCHED_C0_RATE | SCHED_AFFINITY | SCHED_CLASS_CFG_c | SCHED_CLASS_BUDGET_c | SCHED_SPILL_BASE
  | SCHED_SPILL_SIZE | SCHED_SPILL_LEVEL_c | SCHED_LEVELS | SCHED_STORE_LEVEL | SCHED_ROB_LEVEL
  | SCHED_HOST_TOK_VAL | SCHED_HOST_TOK_PUSH | SCHED_CANCEL | SCHED_CANCEL_STAT | SCHED_TOK_BAD
  | SCHED_CPL_DROP | SCHED_KILL_CNT | SCHED_AGED_CNT | SCHED_C0_OVER | SCHED_TRACE_DROP | SCHED_PAR_CORR
  | SCHED_TRACE_BASE | SCHED_TRACE_SIZE | SCHED_TRACE_CTRL | SCHED_TRACE_PTR | SCHED_CORE_n_CTRL
  | SCHED_CORE_n_STAT | SCHED_CORE_n_BOOT | SCHED_CORE_n_WERR | SCHED_FLOW_STAT_w | SCHED_FLOW_f
  | SCHED_DESC0_t | SCHED_DESC1_t | DMA_STATUS | DMA_HALTED | DMA_CH_n_CTRL | DMA_CH_n_CFG | DMA_CH_n_DESC
  | DMA_CH_n_STAT | DMA_CH_n_CUR | DMA_CH_n_REMAIN | DMA_CH_n_ERRADDR | DMA_CH_n_ERRDIR | DMA_CH_n_TRIG_OVR
  | TIMER_n_CTRL | TIMER_n_PERIOD | TIMER_n_COUNT | TIMER_n_TOK | TIMER_n_OVR | TIMER_STATUS | SAFE_COMMIT
  | SAFE_PENDING | SAFE_DONE | SAFE_MIRROR_EN | SAFE_MIRROR_BUSY | SAFE_MIRROR_VALID | SAFE_FABRIC_GROUP
  | SAFE_STATUS | SAFE_GROUP_n_STAMP | SAFE_STROKE_n_CTRL | SAFE_STROKE_n_BASE | SAFE_STROKE_n_LEN
  | SAFE_STROKE_n_STAT | SAFE_STROKE_n_ERRADDR | FABRIC_BANK_A_LEN | FABRIC_BANK_B_LEN | FABRIC_CHK
  | FABRIC_CHK_SPLIT | FABRIC_FAULT | FABRIC_SAT_CNT | FABRIC_ECC_CORR | FABRIC_QUIET_STAT
  | FABRIC_SIL_THRESH_n | FABRIC_SIL_HOLD_n | FABRIC_QUIET_n | FABRIC_CONST_n | FABRIC_TONE_n_INC
  | FABRIC_TONE_n_LEVEL | FABRIC_SIL_STAT_w | SECTION_CHK | SECTION_LOAD | SECTION_STAGED_LOAD
  | SECTION_FAULT | SECTION_SAT_CNT | SECTION_ECC_CORR | SECTION_CLR | SECTION_ACT_w | SECTION_EN_w
  | SECTION_MUTE_w | ASRC_CH_n_CFG | ASRC_LOCK_w | ASRC_TRK_p | ASRC_FAULT | ASRC_UNLOCK_CNT | GUARD_LOCK
  | GUARD_STATUS | GUARD_CLIP_CNT | GUARD_SLEW_CNT | GUARD_FIRST_0 | GUARD_FIRST_1 | GUARD_PROF_n_CEIL
  | GUARD_PROF_n_DC | GUARD_PROF_n_HOLD | GUARD_PROF_n_SLEW | GUARD_PSEL_w | GUARD_LSEL_l | GUARD_XMUTE_P0
  | GUARD_XMUTE_P1 | GUARD_XMUTE_L | GUARD_PFAULT_w | GUARD_LFAULT_l | FLASH_CFG | ENG_CTRL | ENG_STATUS
  | ENG_LANE_MAP | ENG_PROG_A | ENG_PROG_B | ENG_PROG_CHK | ENG_FAULT | ENG_TOKDROP | ENG_ECC_CORR
  | ENG_ECC_LAST | ENG_DB | ENG_SCRUB | ENGC_REMAP | ENGC_RETIRE | ENGC_MIG_CTRL | ENGC_MIG_STAT | ENGC_TOKQ
  | SAP_CTRL | SAP_CFG | SAP_STAT | SAP_FAULT | SAP_SYNC_CNT | SAP_CONCEAL | LINK_CTRL | LINK_CFG | LINK_STAT
  | LINK_FAULT | LINK_CRC_CNT | LINK_RETRAIN_CNT | LINK_DELAY | LINK_POS | LINK_RING_CFG | LINK_RING_STAT
  | LINK_RING_FAULT | LINK_TUN_ADDR | LINK_TUN_DATA | LINK_TUN_CMD | LINK_TUN_STAT | AON_FAULT_STAT
  | AON_FAULT_CLR | AON_REG
deriving DecidableEq, Repr

/-- A field with reserved encodings (R8): its bits, and which values are not reserved. -/
structure Enc where
  hi : Nat
  lo : Nat
  ok : Nat → Bool

/-- One line of a register table. Instance i stands at base + stride * i; rw, w1c, w1s and rwl are the bits of each
access code (R10); cnt names each overflow flag with the counter it clears (R460), as (flag bit, high, low). -/
structure RegRow where
  base : Nat
  stride : Nat
  count : Nat
  reset : Nat → Nat
  rw : Nat
  w1c : Nat
  w1s : Nat
  rwl : Nat
  cnt : List (Nat × Nat × Nat)
  enc : List Enc


/-- The register tables of block SYS, in the order of RegName. -/
def Reg.rowsSys : List RegRow := [
  -- SYS_PART
  .mk 0x40000000 0x4 1 (fun _ => 0x6400) 0 0 0 0 [] [],
  -- SYS_REV
  .mk 0x40000004 0x4 1 (fun _ => Config.sysRev.toNat % 65536) 0 0 0 0 [] [],
  -- SYS_STATE
  .mk 0x40000008 0x4 1 (fun _ => 0x12) 0 0x40 0 0 [] [],
  -- SYS_STATE_REQ
  .mk 0x4000000c 0x4 1 (fun _ => 0) 0 0 0 0 [] [],
  -- SYS_STATUS
  .mk 0x40000010 0x4 1 (fun _ => 0) 0 0x80000000 0 0 [] [],
  -- SYS_TURN_CFG
  .mk 0x40000020 0x4 1 (fun _ => 0) 0x3 0 0 0 [] [⟨1, 0, fun v => v < 3⟩],
  -- SYS_TURN_COUNT_LO
  .mk 0x40000024 0x4 1 (fun _ => 0) 0xffffffff 0 0 0 [] [],
  -- SYS_TURN_COUNT_HI
  .mk 0x40000028 0x4 1 (fun _ => 0) 0xffff 0 0 0 [] [],
  -- SYS_STAMP
  .mk 0x4000002c 0x4 1 (fun _ => 0) 0 0 0 0 [] [],
  -- SYS_PROBE_CTRL
  .mk 0x40000030 0x4 1 (fun _ => 0) 0xff0001 0 0 0 [] [],
  -- SYS_PROBE_WATCH
  .mk 0x40000034 0x4 1 (fun _ => 0) 0x13fff 0 0 0 [] [⟨13, 0, fun v => v < 0x3000⟩],
  -- SYS_PROBE_RESULT
  .mk 0x40000038 0x4 1 (fun _ => 0) 0 0 0 0 [] [],
  -- SYS_OWNER_CLAIM
  .mk 0x40000040 0x4 1 (fun _ => 0) 0 0 0 0 [] [],
  -- SYS_OWNER
  .mk 0x40000044 0x4 1 (fun _ => 0) 0 0 0 0 [] [],
  -- SYS_HANDOVER
  .mk 0x40000048 0x4 1 (fun _ => 0) 0 0 0 0 [] [],
  -- SYS_ACCEPT
  .mk 0x4000004c 0x4 1 (fun _ => 0) 0 0 0 0 [] [],
  -- SYS_LEASE
  .mk 0x40000050 0x4 1 (fun _ => 0) 0xffff 0 0 0 [] [],
  -- SYS_GPIO_IN
  .mk 0x40000060 0x4 1 (fun _ => 0) 0 0 0 0 [] [],
  -- SYS_GPIO_OUT
  .mk 0x40000064 0x4 1 (fun _ => 0) 0xffff 0 0 0 [] [],
  -- SYS_GPIO_EDGE
  .mk 0x40000068 0x4 1 (fun _ => 0) 0 0xffff 0 0 [] [],
  -- SYS_GPIO_CFG_i
  .mk 0x40000080 0x4 16 (fun _ => 0) 0 0 0 0x33c [] [⟨9, 8, fun v => v < 3⟩, ⟨5, 4, fun v => v < 3⟩]]

/-- The register tables of block PWR, in the order of RegName. -/
def Reg.rowsPwr : List RegRow := [
  -- PWR_REQ_MASK_LO
  .mk 0x40010000 0x4 1 (fun _ => 0) 0xfffffffe 0 0 0 [] [],
  -- PWR_REQ_MASK_HI
  .mk 0x40010004 0x4 1 (fun _ => 0) 0x3 0 0 0 [] [],
  -- PWR_REQ_CTRL
  .mk 0x40010008 0x4 1 (fun _ => 0x1) 0x3 0 0 0 [] [⟨1, 0, fun v => v ≠ 0⟩],
  -- PWR_REQ_STAT
  .mk 0x4001000c 0x4 1 (fun _ => 0) 0 0 0 0 [] [],
  -- PWR_REFUSE
  .mk 0x40010010 0x4 1 (fun _ => 0) 0 0x80000000 0 0 [] [],
  -- PWR_FAULT
  .mk 0x40010014 0x4 1 (fun _ => 0) 0 0x80000003 0 0 [] [],
  -- PWR_AUTO_RET
  .mk 0x40010018 0x4 1 (fun _ => 0) 0xff 0 0 0 [] [],
  -- PWR_AUTO_RET_DELAY
  .mk 0x4001001c 0x4 1 (fun _ => 0x10) 0xffff 0 0 0 [] [⟨15, 0, fun v => v ≠ 0⟩],
  -- PWR_WAKE_EN
  .mk 0x40010020 0x4 1 (fun _ => 0x1c000000) 0x1fffffff 0 0 0 [] [],
  -- PWR_GPIO_WAKE_CFG
  .mk 0x40010024 0x4 1 (fun _ => 0) 0xffffffff 0 0 0 [] [],
  -- PWR_AON_TIMER
  .mk 0x40010028 0x4 1 (fun _ => 0x8000) 0xffffffff 0 0 0 [] [⟨31, 0, fun v => v ≠ 0⟩],
  -- PWR_AON_TIMER_CTRL
  .mk 0x4001002c 0x4 1 (fun _ => 0) 0x3 0 0 0 [] [],
  -- PWR_LAST_WAKE
  .mk 0x40010030 0x4 1 (fun _ => 0) 0 0x80000000 0 0 [] [],
  -- PWR_LAST_WAKE_TURN
  .mk 0x40010034 0x4 1 (fun _ => 0) 0 0 0 0 [] [],
  -- PWR_STATE_w
  .mk 0x40010040 0x4 3 (fun _ => 0) 0 0 0 0 [] [],
  -- PWR_WAKE_MAP_s_LO
  .mk 0x40010100 0x8 26 (fun _ => 0) 0xfffffffe 0 0 0 [] [],
  -- PWR_WAKE_MAP_s_HI
  .mk 0x40010104 0x8 26 (fun _ => 0) 0x3 0 0 0 [] []]

/-- The register tables of block SYNTH, in the order of RegName. -/
def Reg.rowsSynth : List RegRow := [
  -- SYNTH_CTRL
  .mk 0x40020000 0x4 1 (fun _ => 0) 0x1 0 0 0 [] [],
  -- SYNTH_CFG
  .mk 0x40020004 0x4 1 (fun _ => 0x80000000) 0xe100000f 0 0 0 [] [⟨3, 0, fun v => v < 2 || v ≥ 8⟩],
  -- SYNTH_REF_FREQ
  .mk 0x40020008 0x4 1 (fun _ => 0) 0x3ffffff 0 0 0 [] [],
  -- SYNTH_RDIV
  .mk 0x4002000c 0x4 1 (fun _ => 0x1) 0x3ff 0 0 0 [] [⟨9, 0, fun v => v ≠ 0⟩],
  -- SYNTH_N_INT
  .mk 0x40020010 0x4 1 (fun _ => 0x10000) 0x3ffff 0 0 0 [] [⟨17, 0, fun v => v ≥ 8⟩],
  -- SYNTH_NUM
  .mk 0x40020014 0x4 1 (fun _ => 0) 0xffffff 0 0 0 [] [],
  -- SYNTH_DEN
  .mk 0x40020018 0x4 1 (fun _ => 0x1) 0xffffff 0 0 0 [] [⟨23, 0, fun v => v ≠ 0⟩],
  -- SYNTH_SEED
  .mk 0x4002001c 0x4 1 (fun _ => 0xace1) 0xffff 0 0 0 [] [],
  -- SYNTH_STATUS
  .mk 0x40020020 0x4 1 (fun _ => 0x2000000) 0 0 0 0 [] [],
  -- SYNTH_PHASE
  .mk 0x40020024 0x4 1 (fun _ => 0) 0 0 0 0 [] [],
  -- SYNTH_PHASE_WIN
  .mk 0x40020028 0x4 1 (fun _ => 0x4) 0xffff 0 0 0 [] [],
  -- SYNTH_SLEW_LIMIT
  .mk 0x4002002c 0x4 1 (fun _ => 0xa) 0xffff 0 0 0 [] [⟨15, 0, fun v => 1 ≤ v && v ≤ 1000⟩],
  -- SYNTH_FAULT
  .mk 0x40020030 0x4 1 (fun _ => 0) 0 0x800700ff 0 0 [] [],
  -- SYNTH_REF_LOSS_CNT
  .mk 0x40020034 0x4 1 (fun _ => 0) 0 0x80000000 0 0 [(31, 15, 0)] [],
  -- SYNTH_RELOCK_CNT
  .mk 0x40020038 0x4 1 (fun _ => 0) 0 0x80000000 0 0 [(31, 15, 0)] [],
  -- SYNTH_OUT_n_CFG
  .mk 0x40020040 0x4 12 (fun i => if i ≤ 1 then 0x80000008 else if i = 2 then 0x80000010 else if i = 3 then
      0x80000002 else 0x40) 0x80ff0fff 0 0 0 [] [],
  -- SYNTH_SYNC_MASK
  .mk 0x40020070 0x4 1 (fun _ => 0) 0xfff 0 0 0 [] [],
  -- SYNTH_CEIL_n
  .mk 0x40020080 0x4 12 (fun i => if i ≤ 1 then 420000 else if i = 2 then 210000 else if i = 3 then 1680000 else
      55000) 0 0 0 0x1fffff [] [],
  -- SYNTH_LOCK
  .mk 0x400200b0 0x4 1 (fun _ => 0) 0 0 0x1 0 [] [],
  -- SYNTH_RAMP_CTRL
  .mk 0x400200c0 0x4 1 (fun _ => 0) 0xf 0 0 0 [] [],
  -- SYNTH_RAMP_STAT
  .mk 0x400200c4 0x4 1 (fun _ => 0) 0 0 0 0 [] [],
  -- SYNTH_RAMP_OFFSET
  .mk 0x400200c8 0x4 1 (fun _ => 0) 0 0 0 0 [] [],
  -- SYNTH_RAMP_SEG_n
  .mk 0x40020100 0x4 16 (fun _ => 0x1) 0xffffffff 0 0 0 [] [⟨15, 0, fun v => v ≠ 0⟩],
  -- SYNTH_BAND_n
  .mk 0x40020200 0x4 32 (fun _ => 0) 0x3fffffff 0 0 0 [] []]

/-- The register tables of block SEC, in the order of RegName. -/
def Reg.rowsSec : List RegRow := [
  -- SEC_STATUS
  .mk 0x40030000 0x4 1 (fun _ => 0) 0 0x80000000 0 0 [] [],
  -- SEC_BOOT_INFO
  .mk 0x40030004 0x4 1 (fun _ => 0) 0 0x100 0 0 [(8, 7, 0)] [],
  -- SEC_BOOT_SEQ
  .mk 0x40030008 0x4 1 (fun _ => 0) 0 0 0 0 [] [],
  -- SEC_SLOT_FAIL_n
  .mk 0x4003000c 0x4 2 (fun _ => 0) 0 0 0 0 [] [],
  -- SEC_STRAP
  .mk 0x40030014 0x4 1 (fun _ => 4) 0 0 0 0 [] [],
  -- SEC_BOOT_CTRL
  .mk 0x40030018 0x4 1 (fun _ => 0) 0 0 0 0 [] [],
  -- SEC_PIN_LOCK
  .mk 0x40030020 0x4 1 (fun _ => 0) 0 0 0x80000000 0x1ffff [] [],
  -- SEC_SEAL_CTRL
  .mk 0x40030030 0x4 1 (fun _ => 0) 0x3 0 0x40000000 0 [] [⟨1, 0, fun v => v < 2⟩],
  -- SEC_SEAL_SRC
  .mk 0x40030034 0x4 1 (fun _ => 0) 0xfffffffc 0 0 0 [] [],
  -- SEC_SEAL_DST
  .mk 0x40030038 0x4 1 (fun _ => 0) 0xfffffffc 0 0 0 [] [],
  -- SEC_SEAL_LEN
  .mk 0x4003003c 0x4 1 (fun _ => 0) 0x7fff 0 0 0 [] [],
  -- SEC_SEAL_VER
  .mk 0x40030040 0x4 1 (fun _ => 0) 0xfff 0 0 0 [] [],
  -- SEC_SEAL_STAT
  .mk 0x40030044 0x4 1 (fun _ => 0) 0 0x60000000 0 0 [] [],
  -- SEC_SEALED_LOAD
  .mk 0x40030050 0x4 1 (fun _ => 0) 0xfffffffc 0 0 0 [] [],
  -- SEC_SEALED_LOAD_CTRL
  .mk 0x40030054 0x4 1 (fun _ => 0) 0 0 0 0 [] [],
  -- SEC_SEALED_LOAD_STAT
  .mk 0x40030058 0x4 1 (fun _ => 0) 0 0x60000000 0 0 [] [],
  -- SEC_FLOOR
  .mk 0x40030060 0x4 1 (fun _ => 0) 0 0 0 0 [] [],
  -- SEC_KEY_CHECK
  .mk 0x40030064 0x4 1 (fun _ => 0) 0 0 0 0 [] [],
  -- SEC_SVC_CTRL
  .mk 0x40030080 0x4 1 (fun _ => 0) 0x1000003f 0 0 0 [] [],
  -- SEC_SVC_STAT
  .mk 0x40030084 0x4 1 (fun _ => 0) 0 0x10000000 0 0 [] [],
  -- SEC_SVC_NONCE_i
  .mk 0x40030090 0x4 4 (fun _ => 0) 0 0 0 0 [] [],
  -- SEC_SVC_RESP_i
  .mk 0x400300a0 0x4 8 (fun _ => 0) 0xffffffff 0 0 0 [] [],
  -- SEC_OTP_CTRL
  .mk 0x40030100 0x4 1 (fun _ => 0) 0 0 0 0 [] [],
  -- SEC_OTP_DATA
  .mk 0x40030104 0x4 1 (fun _ => 0) 0xffffffff 0 0 0 [] [],
  -- SEC_OTP_STAT
  .mk 0x40030108 0x4 1 (fun _ => 0) 0 0x70000000 0 0 [] []]

/-- The register tables of block HOSTIF, in the order of RegName. -/
def Reg.rowsHostif : List RegRow := [
  -- HOSTIF_MSTAT_m
  .mk 0x40040000 0x10 5 (fun _ => 0) 0 0xf8000000 0 0 [] [],
  -- HOSTIF_WIGN_CNT_m
  .mk 0x40040004 0x10 5 (fun _ => 0) 0 0x80000000 0 0 [(31, 23, 0)] [],
  -- HOSTIF_STRAP
  .mk 0x40040100 0x4 1 (fun _ => 0x38) 0 0 0 0 [] [],
  -- HOSTIF_STATUS
  .mk 0x40040104 0x4 1 (fun _ => 0) 0 0x80000000 0 0 [] []]

/-- The register tables of block EVT, in the order of RegName. -/
def Reg.rowsEvt : List RegRow := [
  -- EVT_RAW_w
  .mk 0x40050000 0x4 4 (fun _ => 0) 0 0xffffffff 0 0 [] [],
  -- EVT_SET_w
  .mk 0x40050010 0x4 4 (fun _ => 0) 0 0 0 0 [] [],
  -- EVT_IRQ_CFG
  .mk 0x40050020 0x4 1 (fun _ => 0) 0 0 0 0x3333 [] [⟨1, 0, fun v => v < 3⟩, ⟨5, 4, fun v => v < 3⟩, ⟨9, 8, fun v
      => v < 3⟩, ⟨13, 12, fun v => v < 3⟩],
  -- EVT_CFG_SRC
  .mk 0x40050024 0x4 1 (fun _ => 0) 0 0x80004000 0 0 [] [],
  -- EVT_DMA_DONE
  .mk 0x40050028 0x4 1 (fun _ => 0) 0 0xffffffff 0 0 [] [],
  -- EVT_TIMER
  .mk 0x4005002c 0x4 1 (fun _ => 0) 0 0xff 0 0 [] [],
  -- EVT_PEND
  .mk 0x40050030 0x4 1 (fun _ => 0) 0 0 0 0 [] [],
  -- EVT_IRQ_x_EN_w
  .mk 0x40050100 0x4 16 (fun _ => 0) 0xffffffff 0 0 0 [] [],
  -- EVT_CORE_n_EN_w
  .mk 0x40050200 0x4 64 (fun _ => 0) 0xffffffff 0 0 0 [] []]

/-- The register tables of block SCHED, in the order of RegName. -/
def Reg.rowsSched : List RegRow := [
  -- SCHED_CTRL
  .mk 0x40060000 0x4 1 (fun _ => 0) 0x1 0 0 0 [] [],
  -- SCHED_STATUS
  .mk 0x40060004 0x4 1 (fun _ => 0) 0 0x80000002 0 0 [] [],
  -- SCHED_C0_CORES
  .mk 0x40060008 0x4 1 (fun _ => 0xc000) 0xffff 0 0 0 [] [],
  -- SCHED_C0_RATE
  .mk 0x4006000c 0x4 1 (fun _ => 0x80800) 0xffffff 0 0 0 [] [⟨23, 16, fun v => v ≠ 0⟩, ⟨15, 0, fun v => v ≠ 0⟩],
  -- SCHED_AFFINITY
  .mk 0x40060010 0x4 1 (fun _ => 0x40) 0xffff 0 0 0 [] [],
  -- SCHED_CLASS_CFG_c
  .mk 0x40060020 0x4 4 (fun i => if i = 0 then 0 else if i = 1 then 0x8 else if i = 2 then 0x1004 else 0x1002)
      0xfffff0f 0 0 0 [] [],
  -- SCHED_CLASS_BUDGET_c
  .mk 0x40060030 0x4 4 (fun i => if i = 0 then 0x1000 else 0x100000) 0xffffff 0 0 0 [] [⟨23, 0, fun v => v ≠ 0⟩],
  -- SCHED_SPILL_BASE
  .mk 0x40060040 0x4 1 (fun _ => 0x18300000) 0xffff0000 0 0 0 [] [],
  -- SCHED_SPILL_SIZE
  .mk 0x40060044 0x4 1 (fun _ => 0x100000) 0x7f0000 0 0 0 [] [⟨22, 16, fun v => 1 ≤ v && v ≤ 64⟩],
  -- SCHED_SPILL_LEVEL_c
  .mk 0x40060048 0x4 3 (fun _ => 0) 0xffff0000 0 0 0 [] [],
  -- SCHED_LEVELS
  .mk 0x40060054 0x4 1 (fun _ => 0) 0 0 0 0 [] [],
  -- SCHED_STORE_LEVEL
  .mk 0x40060058 0x4 1 (fun _ => 0) 0 0 0 0 [] [],
  -- SCHED_ROB_LEVEL
  .mk 0x4006005c 0x4 1 (fun _ => 0) 0 0 0 0 [] [],
  -- SCHED_HOST_TOK_VAL
  .mk 0x40060060 0x4 1 (fun _ => 0) 0xffffffff 0 0 0 [] [],
  -- SCHED_HOST_TOK_PUSH
  .mk 0x40060064 0x4 1 (fun _ => 0) 0 0 0 0 [] [],
  -- SCHED_CANCEL
  .mk 0x40060068 0x4 1 (fun _ => 0) 0 0 0 0 [] [],
  -- SCHED_CANCEL_STAT
  .mk 0x4006006c 0x4 1 (fun _ => 0) 0 0xc0000000 0 0 [] [],
  -- SCHED_TOK_BAD
  .mk 0x40060070 0x4 1 (fun _ => 0) 0 0x80000000 0 0 [(31, 23, 0)] [],
  -- SCHED_CPL_DROP
  .mk 0x40060074 0x4 1 (fun _ => 0) 0 0x80000000 0 0 [(31, 23, 0)] [],
  -- SCHED_KILL_CNT
  .mk 0x40060078 0x4 1 (fun _ => 0) 0 0x80000000 0 0 [(31, 23, 0)] [],
  -- SCHED_AGED_CNT
  .mk 0x4006007c 0x4 1 (fun _ => 0) 0 0x80000000 0 0 [(31, 23, 0)] [],
  -- SCHED_C0_OVER
  .mk 0x40060080 0x4 1 (fun _ => 0) 0 0x80000000 0 0 [(31, 23, 0)] [],
  -- SCHED_TRACE_DROP
  .mk 0x40060084 0x4 1 (fun _ => 0) 0 0x80000000 0 0 [(31, 23, 0)] [],
  -- SCHED_PAR_CORR
  .mk 0x40060088 0x4 1 (fun _ => 0) 0 0x80000000 0 0 [(31, 23, 0)] [],
  -- SCHED_TRACE_BASE
  .mk 0x40060090 0x4 1 (fun _ => 0x182f0000) 0xfffff000 0 0 0 [] [],
  -- SCHED_TRACE_SIZE
  .mk 0x40060094 0x4 1 (fun _ => 0x4) 0x7 0 0 0 [] [],
  -- SCHED_TRACE_CTRL
  .mk 0x40060098 0x4 1 (fun _ => 0xff00) 0xff03 0x4 0 0 [] [],
  -- SCHED_TRACE_PTR
  .mk 0x4006009c 0x4 1 (fun _ => 0) 0x7fff0 0 0 0 [] [],
  -- SCHED_CORE_n_CTRL
  .mk 0x40060100 0x10 16 (fun _ => 0) 0x4 0 0 0 [] [],
  -- SCHED_CORE_n_STAT
  .mk 0x40060104 0x10 16 (fun i => if i = 0 then 0x20000000 else 0) 0 0xe00000 0 0 [] [],
  -- SCHED_CORE_n_BOOT
  .mk 0x40060108 0x10 16 (fun i => 0x08000000 + i * 0x10000) 0xfffffffc 0 0 0 [] [],
  -- SCHED_CORE_n_WERR
  .mk 0x4006010c 0x10 16 (fun _ => 0) 0 0 0 0 [] [],
  -- SCHED_FLOW_STAT_w
  .mk 0x40060200 0x4 32 (fun _ => 0) 0 0 0 0 [] [],
  -- SCHED_FLOW_f
  .mk 0x40062000 0x4 1024 (fun _ => 0) 0xf000fffc 0 0 0 [] [],
  -- SCHED_DESC0_t
  .mk 0x40068000 0x8 4096 (fun _ => 0) 0xbfff0000 0 0 0 [] [],
  -- SCHED_DESC1_t
  .mk 0x40068004 0x8 4096 (fun _ => 0) 0xffff 0 0 0 [] []]

/-- The register tables of block DMA, in the order of RegName. -/
def Reg.rowsDma : List RegRow := [
  -- DMA_STATUS
  .mk 0x40070000 0x4 1 (fun _ => 0) 0 0x80000000 0 0 [] [],
  -- DMA_HALTED
  .mk 0x40070004 0x4 1 (fun _ => 0) 0 0 0 0 [] [],
  -- DMA_CH_n_CTRL
  .mk 0x40070100 0x40 32 (fun _ => 0) 0x3 0 0 0 [] [],
  -- DMA_CH_n_CFG
  .mk 0x40070104 0x40 32 (fun _ => 0) 0xffff1f31 0 0 0 [] [⟨5, 4, fun v => v < 3⟩],
  -- DMA_CH_n_DESC
  .mk 0x40070108 0x40 32 (fun _ => 0) 0xffffffe0 0 0 0 [] [],
  -- DMA_CH_n_STAT
  .mk 0x4007010c 0x40 32 (fun _ => 0) 0 0x100000 0 0 [] [],
  -- DMA_CH_n_CUR
  .mk 0x40070110 0x40 32 (fun _ => 0) 0 0 0 0 [] [],
  -- DMA_CH_n_REMAIN
  .mk 0x40070114 0x40 32 (fun _ => 0) 0 0 0 0 [] [],
  -- DMA_CH_n_ERRADDR
  .mk 0x40070118 0x40 32 (fun _ => 0) 0 0 0 0 [] [],
  -- DMA_CH_n_ERRDIR
  .mk 0x4007011c 0x40 32 (fun _ => 0) 0 0 0 0 [] [],
  -- DMA_CH_n_TRIG_OVR
  .mk 0x40070120 0x40 32 (fun _ => 0) 0 0x80000000 0 0 [(31, 23, 0)] []]

/-- The register tables of block TIMER, in the order of RegName. -/
def Reg.rowsTimer : List RegRow := [
  -- TIMER_n_CTRL
  .mk 0x40080000 0x20 8 (fun _ => 0) 0x1fff000f 0 0 0 [] [],
  -- TIMER_n_PERIOD
  .mk 0x40080004 0x20 8 (fun _ => 0x1) 0xffffffff 0 0 0 [] [⟨31, 0, fun v => v ≠ 0⟩],
  -- TIMER_n_COUNT
  .mk 0x40080008 0x20 8 (fun _ => 0) 0 0 0 0 [] [],
  -- TIMER_n_TOK
  .mk 0x4008000c 0x20 8 (fun _ => 0) 0x80003fff 0 0 0 [] [],
  -- TIMER_n_OVR
  .mk 0x40080010 0x20 8 (fun _ => 0) 0 0x80000000 0 0 [(31, 23, 0)] [],
  -- TIMER_STATUS
  .mk 0x40080100 0x4 1 (fun _ => 0) 0 0x80000000 0 0 [] []]

/-- The register tables of block SAFE, in the order of RegName. -/
def Reg.rowsSafe : List RegRow := [
  -- SAFE_COMMIT
  .mk 0x40090000 0x4 1 (fun _ => 0) 0 0 0 0 [] [],
  -- SAFE_PENDING
  .mk 0x40090004 0x4 1 (fun _ => 0) 0 0 0 0 [] [],
  -- SAFE_DONE
  .mk 0x40090008 0x4 1 (fun _ => 0) 0 0xffffffff 0 0 [] [],
  -- SAFE_MIRROR_EN
  .mk 0x4009000c 0x4 1 (fun _ => 0) 0xffff 0 0 0 [] [],
  -- SAFE_MIRROR_BUSY
  .mk 0x40090010 0x4 1 (fun _ => 0) 0 0 0 0 [] [],
  -- SAFE_MIRROR_VALID
  .mk 0x40090014 0x4 1 (fun _ => 0) 0 0 0 0 [] [],
  -- SAFE_FABRIC_GROUP
  .mk 0x40090018 0x4 1 (fun _ => 0) 0xff 0 0 0 [] [],
  -- SAFE_STATUS
  .mk 0x4009001c 0x4 1 (fun _ => 0) 0 0x80000000 0 0 [] [],
  -- SAFE_GROUP_n_STAMP
  .mk 0x40090040 0x4 16 (fun _ => 0) 0 0x8000 0 0 [(15, 14, 0)] [],
  -- SAFE_STROKE_n_CTRL
  .mk 0x40090100 0x20 8 (fun _ => 0x100) 0xffffff00 0 0 0 [] [],
  -- SAFE_STROKE_n_BASE
  .mk 0x40090104 0x20 8 (fun _ => 0) 0xfffffff8 0 0 0 [] [],
  -- SAFE_STROKE_n_LEN
  .mk 0x40090108 0x20 8 (fun _ => 0) 0xff 0 0 0 [] [],
  -- SAFE_STROKE_n_STAT
  .mk 0x4009010c 0x20 8 (fun _ => 0) 0 0x800000 0 0 [(23, 22, 16)] [],
  -- SAFE_STROKE_n_ERRADDR
  .mk 0x40090110 0x20 8 (fun _ => 0) 0 0 0 0 [] []]

/-- The register tables of block FABRIC, in the order of RegName. -/
def Reg.rowsFabric : List RegRow := [
  -- FABRIC_BANK_A_LEN
  .mk 0x400a0000 0x4 1 (fun _ => 0) 0x1ffff 0 0 0 [] [⟨16, 0, fun v => v ≤ 65536⟩],
  -- FABRIC_BANK_B_LEN
  .mk 0x400a0004 0x4 1 (fun _ => 0) 0x1ffff 0 0 0 [] [⟨16, 0, fun v => v ≤ 65536⟩],
  -- FABRIC_CHK
  .mk 0x400a0008 0x4 1 (fun _ => 0x80000000) 0 0 0 0 [] [],
  -- FABRIC_CHK_SPLIT
  .mk 0x400a000c 0x4 1 (fun _ => 0) 0 0 0 0 [] [],
  -- FABRIC_FAULT
  .mk 0x400a0010 0x4 1 (fun _ => 0) 0 0x8000000f 0 0 [] [],
  -- FABRIC_SAT_CNT
  .mk 0x400a0014 0x4 1 (fun _ => 0) 0 0x80000000 0 0 [(31, 23, 0)] [],
  -- FABRIC_ECC_CORR
  .mk 0x400a0018 0x4 1 (fun _ => 0) 0 0x80000000 0 0 [(31, 23, 0)] [],
  -- FABRIC_QUIET_STAT
  .mk 0x400a001c 0x4 1 (fun _ => 0) 0 0 0 0 [] [],
  -- FABRIC_SIL_THRESH_n
  .mk 0x400a0020 0x4 4 (fun _ => 0x10) 0xffffff 0 0 0 [] [],
  -- FABRIC_SIL_HOLD_n
  .mk 0x400a0030 0x4 4 (fun _ => 0xbb80) 0x1fffff 0 0 0 [] [⟨20, 0, fun v => v ≤ 1048576⟩],
  -- FABRIC_QUIET_n
  .mk 0x400a0040 0x4 8 (fun _ => 0xbb80) 0x831fffff 0 0 0 [] [⟨20, 0, fun v => 1 ≤ v && v ≤ 1048576⟩],
  -- FABRIC_CONST_n
  .mk 0x400a0100 0x4 32 (fun _ => 0) 0xffffff 0 0 0 [] [],
  -- FABRIC_TONE_n_INC
  .mk 0x400a0180 0x8 8 (fun _ => 0) 0xffffff 0 0 0 [] [],
  -- FABRIC_TONE_n_LEVEL
  .mk 0x400a0184 0x8 8 (fun _ => 0) 0xffffff 0 0 0 [] [],
  -- FABRIC_SIL_STAT_w
  .mk 0x400a1000 0x4 512 (fun _ => 0) 0 0 0 0 [] []]

/-- The register tables of block SECTION, in the order of RegName. -/
def Reg.rowsSection : List RegRow := [
  -- SECTION_CHK
  .mk 0x400b0000 0x4 1 (fun _ => 0x80000000) 0 0 0 0 [] [],
  -- SECTION_LOAD
  .mk 0x400b0004 0x4 1 (fun _ => 0) 0 0 0 0 [] [],
  -- SECTION_STAGED_LOAD
  .mk 0x400b0008 0x4 1 (fun _ => 0) 0 0 0 0 [] [],
  -- SECTION_FAULT
  .mk 0x400b000c 0x4 1 (fun _ => 0) 0 0x8000003f 0 0 [] [],
  -- SECTION_SAT_CNT
  .mk 0x400b0010 0x4 1 (fun _ => 0) 0 0x80000000 0 0 [(31, 23, 0)] [],
  -- SECTION_ECC_CORR
  .mk 0x400b0014 0x4 1 (fun _ => 0) 0 0x80000000 0 0 [(31, 23, 0)] [],
  -- SECTION_CLR
  .mk 0x400b0018 0x4 1 (fun _ => 0) 0 0 0 0 [] [],
  -- SECTION_ACT_w
  .mk 0x400b0100 0x4 16 (fun _ => 0) 0 0 0 0 [] [],
  -- SECTION_EN_w
  .mk 0x400b0140 0x4 16 (fun _ => 0) 0 0 0 0 [] [],
  -- SECTION_MUTE_w
  .mk 0x400b0180 0x4 16 (fun _ => 0) 0 0 0 0 [] []]

/-- The register tables of block ASRC, in the order of RegName. -/
def Reg.rowsAsrc : List RegRow := [
  -- ASRC_CH_n_CFG
  .mk 0x400c0000 0x4 256 (fun _ => 0) 0x800003ff 0 0 0 [] [],
  -- ASRC_LOCK_w
  .mk 0x400c0400 0x4 8 (fun _ => 0) 0 0 0 0 [] [],
  -- ASRC_TRK_p
  .mk 0x400c0800 0x4 64 (fun _ => 0) 0 0x40000000 0 0 [] [],
  -- ASRC_FAULT
  .mk 0x400c0a00 0x4 1 (fun _ => 0) 0 0x80000000 0 0 [] [],
  -- ASRC_UNLOCK_CNT
  .mk 0x400c0a04 0x4 1 (fun _ => 0) 0 0x80000000 0 0 [(31, 15, 0)] []]

/-- The register tables of block GUARD, in the order of RegName. -/
def Reg.rowsGuard : List RegRow := [
  -- GUARD_LOCK
  .mk 0x400d0000 0x4 1 (fun _ => 0) 0 0 0x1 0 [] [],
  -- GUARD_STATUS
  .mk 0x400d0004 0x4 1 (fun _ => 0) 0 0x80000000 0 0 [] [],
  -- GUARD_CLIP_CNT
  .mk 0x400d0008 0x4 1 (fun _ => 0) 0 0x80000000 0 0 [(31, 23, 0)] [],
  -- GUARD_SLEW_CNT
  .mk 0x400d000c 0x4 1 (fun _ => 0) 0 0x80000000 0 0 [(31, 23, 0)] [],
  -- GUARD_FIRST_0
  .mk 0x400d0010 0x4 1 (fun _ => 0) 0 0x80000000 0 0 [] [],
  -- GUARD_FIRST_1
  .mk 0x400d0014 0x4 1 (fun _ => 0) 0 0 0 0 [] [],
  -- GUARD_PROF_n_CEIL
  .mk 0x400d0100 0x10 16 (fun _ => 0x7fffff) 0 0 0 0x37fffff [] [],
  -- GUARD_PROF_n_DC
  .mk 0x400d0104 0x10 16 (fun _ => 0) 0 0 0 0xf07fffff [] [⟨31, 28, fun v => v = 0 || v ≥ 4⟩],
  -- GUARD_PROF_n_HOLD
  .mk 0x400d0108 0x10 16 (fun _ => 0) 0 0 0 0xffffffff [] [],
  -- GUARD_PROF_n_SLEW
  .mk 0x400d010c 0x10 16 (fun _ => 0) 0 0 0 0x7fffff [] [],
  -- GUARD_PSEL_w
  .mk 0x400d0200 0x4 128 (fun _ => 0) 0 0 0 0xffffffff [] [],
  -- GUARD_LSEL_l
  .mk 0x400d0400 0x4 8 (fun _ => 0) 0 0 0 0xf [] [],
  -- GUARD_XMUTE_P0
  .mk 0x400d0420 0x4 1 (fun _ => 0xffffffff) 0 0 0 0xffffffff [] [],
  -- GUARD_XMUTE_P1
  .mk 0x400d0424 0x4 1 (fun _ => 0xffffffff) 0 0 0 0xffffffff [] [],
  -- GUARD_XMUTE_L
  .mk 0x400d0428 0x4 1 (fun _ => 0xff) 0 0 0 0xff [] [],
  -- GUARD_PFAULT_w
  .mk 0x400d0800 0x4 32 (fun _ => 0) 0 0xffffffff 0 0 [] [],
  -- GUARD_LFAULT_l
  .mk 0x400d0880 0x4 8 (fun _ => 0) 0 0x80000000 0 0 [] []]

/-- The register tables of block FLASH, in the order of RegName. -/
def Reg.rowsFlash : List RegRow := [
  -- FLASH_CFG
  .mk 0x400e0000 0x4 1 (fun _ => 0x03000014) 0xf0f311f 0 0 0 [] [⟨13, 12, fun v => v < 2⟩, ⟨4, 0, fun v => 20 ≤ v
      && v ≤ 28⟩]]

/-- The register tables of block ENG, in the order of RegName. -/
def Reg.rowsEng : List RegRow := [
  -- ENG_CTRL
  .mk 0x41000000 0x1000 72 (fun _ => 0) 0xff01 0 0 0 [] [],
  -- ENG_STATUS
  .mk 0x41000004 0x1000 72 (fun i => ((i / 9) * 8 + (if i % 9 = 8 then 0 else i % 9)) * 0x1000000 + (if i % 9 = 8
      then 0x100 else 0)) 0 0 0 0 [] [],
  -- ENG_LANE_MAP
  .mk 0x41000008 0x1000 72 (fun _ => 0x4) 0x3ff0007 0 0 0 [] [⟨2, 0, fun v => v < 5⟩],
  -- ENG_PROG_A
  .mk 0x41000010 0x1000 72 (fun _ => 0) 0x1fff1fff 0 0 0 [] [],
  -- ENG_PROG_B
  .mk 0x41000014 0x1000 72 (fun _ => 0) 0x1fff1fff 0 0 0 [] [],
  -- ENG_PROG_CHK
  .mk 0x41000018 0x1000 72 (fun _ => 0) 0 0 0 0 [] [],
  -- ENG_FAULT
  .mk 0x41000020 0x1000 72 (fun _ => 0) 0 0x8000003f 0 0 [] [],
  -- ENG_TOKDROP
  .mk 0x41000024 0x1000 72 (fun _ => 0) 0 0x80000000 0 0 [(31, 23, 0)] [],
  -- ENG_ECC_CORR
  .mk 0x41000028 0x1000 72 (fun _ => 0) 0 0x80000000 0 0 [(31, 23, 0)] [],
  -- ENG_ECC_LAST
  .mk 0x4100002c 0x1000 72 (fun _ => 0) 0 0 0 0 [] [],
  -- ENG_DB
  .mk 0x41000030 0x1000 72 (fun _ => 0) 0x3fff 0 0 0 [] [],
  -- ENG_SCRUB
  .mk 0x41000034 0x1000 72 (fun _ => 0x1) 0x3 0 0 0 [] []]

/-- The register tables of block ENGC, in the order of RegName. -/
def Reg.rowsEngc : List RegRow := [
  -- ENGC_REMAP
  .mk 0x41048000 0x1000 8 (fun _ => 0x76543210) 0xffffffff 0 0 0 [] [],
  -- ENGC_RETIRE
  .mk 0x41048004 0x1000 8 (fun _ => 0) 0x1ff 0 0 0 [] [],
  -- ENGC_MIG_CTRL
  .mk 0x41048008 0x1000 8 (fun _ => 0) 0x70 0 0 0 [] [],
  -- ENGC_MIG_STAT
  .mk 0x4104800c 0x1000 8 (fun _ => 0) 0 0x38000000 0 0 [] [],
  -- ENGC_TOKQ
  .mk 0x41048010 0x1000 8 (fun _ => 0) 0x3f00 0 0 0 [] []]

/-- The register tables of block SAP, in the order of RegName. -/
def Reg.rowsSap : List RegRow := [
  -- SAP_CTRL
  .mk 0x42000000 0x100 64 (fun _ => 0) 0x1 0 0 0 [] [],
  -- SAP_CFG
  .mk 0x42000004 0x100 64 (fun _ => 0x22100) 0xf33f33 0 0 0 [] [⟨17, 16, fun v => v < 3⟩, ⟨13, 12, fun v => v < 3⟩,
      ⟨5, 4, fun v => v < 3⟩, ⟨1, 0, fun v => v < 3⟩],
  -- SAP_STAT
  .mk 0x42000008 0x100 64 (fun _ => 0) 0 0 0 0 [] [],
  -- SAP_FAULT
  .mk 0x4200000c 0x100 64 (fun _ => 0) 0 0x80000007 0 0 [] [],
  -- SAP_SYNC_CNT
  .mk 0x42000010 0x100 64 (fun _ => 0) 0 0x80008000 0 0 [(31, 30, 16), (15, 14, 0)] [],
  -- SAP_CONCEAL
  .mk 0x42000014 0x100 64 (fun _ => 0x4) 0xff 0 0 0 [] []]

/-- The register tables of block LINK, in the order of RegName. -/
def Reg.rowsLink : List RegRow := [
  -- LINK_CTRL
  .mk 0x43000000 0x10000 8 (fun _ => 0) 0x1 0 0 0 [] [],
  -- LINK_CFG
  .mk 0x43000004 0x10000 8 (fun _ => 0x400) 0xff13 0 0 0 [] [⟨1, 0, fun v => v < 2⟩],
  -- LINK_STAT
  .mk 0x43000008 0x10000 8 (fun _ => 0) 0 0 0 0 [] [],
  -- LINK_FAULT
  .mk 0x4300000c 0x10000 8 (fun _ => 0) 0 0x8000003f 0 0 [] [],
  -- LINK_CRC_CNT
  .mk 0x43000010 0x10000 8 (fun _ => 0) 0 0x80000000 0 0 [(31, 23, 0)] [],
  -- LINK_RETRAIN_CNT
  .mk 0x43000014 0x10000 8 (fun _ => 0) 0 0x80000000 0 0 [(31, 30, 16)] [],
  -- LINK_DELAY
  .mk 0x43000018 0x10000 8 (fun _ => 0) 0 0 0 0 [] []]

/-- The register tables of block RING, in the order of RegName. -/
def Reg.rowsRing : List RegRow := [
  -- LINK_POS
  .mk 0x43080000 0x4 1 (fun _ => 0) 0 0 0 0 [] [],
  -- LINK_RING_CFG
  .mk 0x43080004 0x4 1 (fun _ => 0x10) 0x8f0000ff 0 0 0 [] [⟨7, 0, fun v => v ≠ 0⟩],
  -- LINK_RING_STAT
  .mk 0x43080008 0x4 1 (fun _ => 0) 0 0x30000000 0 0 [] [],
  -- LINK_RING_FAULT
  .mk 0x4308000c 0x4 1 (fun _ => 0) 0 0x80000000 0 0 [] [],
  -- LINK_TUN_ADDR
  .mk 0x43080010 0x4 1 (fun _ => 0) 0xffffffff 0 0 0 [] [],
  -- LINK_TUN_DATA
  .mk 0x43080014 0x4 1 (fun _ => 0) 0xffffffff 0 0 0 [] [],
  -- LINK_TUN_CMD
  .mk 0x43080018 0x4 1 (fun _ => 0) 0x10f 0 0 0 [] [⟨3, 0, fun v => v ≠ 0⟩],
  -- LINK_TUN_STAT
  .mk 0x4308001c 0x4 1 (fun _ => 0) 0 0x60008000 0 0 [(15, 14, 0)] []]

/-- The register tables of block AON, in the order of RegName. -/
def Reg.rowsAon : List RegRow := [
  -- AON_FAULT_STAT
  .mk 0xf0000010 0x4 1 (fun _ => 0) 0 0x8000 0 0 [] [],
  -- AON_FAULT_CLR
  .mk 0xf0000014 0x4 1 (fun _ => 0) 0 0 0 0 [] [],
  -- AON_REG
  .mk 0xf0000020 0x4 1 (fun _ => 0x80000101) 0x80000001 0 0 0 [] []]

/-- Every register table; a line gives base, stride, count, reset, rw, w1c, w1s, rwl, cnt, enc. DESIGN CHOICE: log entry 4. -/
def Reg.rows : List RegRow := Reg.rowsSys ++ Reg.rowsPwr ++ Reg.rowsSynth ++ Reg.rowsSec ++ Reg.rowsHostif ++
      Reg.rowsEvt ++ Reg.rowsSched ++ Reg.rowsDma ++ Reg.rowsTimer ++ Reg.rowsSafe ++ Reg.rowsFabric ++
      Reg.rowsSection ++ Reg.rowsAsrc ++ Reg.rowsGuard ++ Reg.rowsFlash ++ Reg.rowsEng ++ Reg.rowsEngc ++
      Reg.rowsSap ++ Reg.rowsLink ++ Reg.rowsRing ++ Reg.rowsAon

/-- The table of a register. -/
def Reg.row (r : RegName) : RegRow := Reg.rows.getD r.ctorIdx (.mk 0 4 0 (fun _ => 0) 0 0 0 0 [] [])


/-- The blocks of register space (R366): from, up to, and the registers that stand there. -/
def Reg.blocks : List (Nat × Nat × List RegName) := [
  (0x40000000, 0x40010000, [.SYS_PART, .SYS_REV, .SYS_STATE, .SYS_STATE_REQ, .SYS_STATUS, .SYS_TURN_CFG,
      .SYS_TURN_COUNT_LO, .SYS_TURN_COUNT_HI, .SYS_STAMP, .SYS_PROBE_CTRL, .SYS_PROBE_WATCH, .SYS_PROBE_RESULT,
      .SYS_OWNER_CLAIM, .SYS_OWNER, .SYS_HANDOVER, .SYS_ACCEPT, .SYS_LEASE, .SYS_GPIO_IN, .SYS_GPIO_OUT,
      .SYS_GPIO_EDGE, .SYS_GPIO_CFG_i]),
  (0x40010000, 0x40020000, [.PWR_REQ_MASK_LO, .PWR_REQ_MASK_HI, .PWR_REQ_CTRL, .PWR_REQ_STAT, .PWR_REFUSE,
      .PWR_FAULT, .PWR_AUTO_RET, .PWR_AUTO_RET_DELAY, .PWR_WAKE_EN, .PWR_GPIO_WAKE_CFG, .PWR_AON_TIMER,
      .PWR_AON_TIMER_CTRL, .PWR_LAST_WAKE, .PWR_LAST_WAKE_TURN, .PWR_STATE_w, .PWR_WAKE_MAP_s_LO,
      .PWR_WAKE_MAP_s_HI]),
  (0x40020000, 0x40030000, [.SYNTH_CTRL, .SYNTH_CFG, .SYNTH_REF_FREQ, .SYNTH_RDIV, .SYNTH_N_INT, .SYNTH_NUM,
      .SYNTH_DEN, .SYNTH_SEED, .SYNTH_STATUS, .SYNTH_PHASE, .SYNTH_PHASE_WIN, .SYNTH_SLEW_LIMIT, .SYNTH_FAULT,
      .SYNTH_REF_LOSS_CNT, .SYNTH_RELOCK_CNT, .SYNTH_OUT_n_CFG, .SYNTH_SYNC_MASK, .SYNTH_CEIL_n, .SYNTH_LOCK,
      .SYNTH_RAMP_CTRL, .SYNTH_RAMP_STAT, .SYNTH_RAMP_OFFSET, .SYNTH_RAMP_SEG_n, .SYNTH_BAND_n]),
  (0x40030000, 0x40040000, [.SEC_STATUS, .SEC_BOOT_INFO, .SEC_BOOT_SEQ, .SEC_SLOT_FAIL_n, .SEC_STRAP,
      .SEC_BOOT_CTRL, .SEC_PIN_LOCK, .SEC_SEAL_CTRL, .SEC_SEAL_SRC, .SEC_SEAL_DST, .SEC_SEAL_LEN, .SEC_SEAL_VER,
      .SEC_SEAL_STAT, .SEC_SEALED_LOAD, .SEC_SEALED_LOAD_CTRL, .SEC_SEALED_LOAD_STAT, .SEC_FLOOR, .SEC_KEY_CHECK,
      .SEC_SVC_CTRL, .SEC_SVC_STAT, .SEC_SVC_NONCE_i, .SEC_SVC_RESP_i, .SEC_OTP_CTRL, .SEC_OTP_DATA, .SEC_OTP_STAT]),
  (0x40040000, 0x40050000, [.HOSTIF_MSTAT_m, .HOSTIF_WIGN_CNT_m, .HOSTIF_STRAP, .HOSTIF_STATUS]),
  (0x40050000, 0x40060000, [.EVT_RAW_w, .EVT_SET_w, .EVT_IRQ_CFG, .EVT_CFG_SRC, .EVT_DMA_DONE, .EVT_TIMER,
      .EVT_PEND, .EVT_IRQ_x_EN_w, .EVT_CORE_n_EN_w]),
  (0x40060000, 0x40070000, [.SCHED_CTRL, .SCHED_STATUS, .SCHED_C0_CORES, .SCHED_C0_RATE, .SCHED_AFFINITY,
      .SCHED_CLASS_CFG_c, .SCHED_CLASS_BUDGET_c, .SCHED_SPILL_BASE, .SCHED_SPILL_SIZE, .SCHED_SPILL_LEVEL_c,
      .SCHED_LEVELS, .SCHED_STORE_LEVEL, .SCHED_ROB_LEVEL, .SCHED_HOST_TOK_VAL, .SCHED_HOST_TOK_PUSH,
      .SCHED_CANCEL, .SCHED_CANCEL_STAT, .SCHED_TOK_BAD, .SCHED_CPL_DROP, .SCHED_KILL_CNT, .SCHED_AGED_CNT,
      .SCHED_C0_OVER, .SCHED_TRACE_DROP, .SCHED_PAR_CORR, .SCHED_TRACE_BASE, .SCHED_TRACE_SIZE, .SCHED_TRACE_CTRL,
      .SCHED_TRACE_PTR, .SCHED_CORE_n_CTRL, .SCHED_CORE_n_STAT, .SCHED_CORE_n_BOOT, .SCHED_CORE_n_WERR,
      .SCHED_FLOW_STAT_w, .SCHED_FLOW_f, .SCHED_DESC0_t, .SCHED_DESC1_t]),
  (0x40070000, 0x40080000, [.DMA_STATUS, .DMA_HALTED, .DMA_CH_n_CTRL, .DMA_CH_n_CFG, .DMA_CH_n_DESC,
      .DMA_CH_n_STAT, .DMA_CH_n_CUR, .DMA_CH_n_REMAIN, .DMA_CH_n_ERRADDR, .DMA_CH_n_ERRDIR, .DMA_CH_n_TRIG_OVR]),
  (0x40080000, 0x40090000, [.TIMER_n_CTRL, .TIMER_n_PERIOD, .TIMER_n_COUNT, .TIMER_n_TOK, .TIMER_n_OVR,
      .TIMER_STATUS]),
  (0x40090000, 0x400a0000, [.SAFE_COMMIT, .SAFE_PENDING, .SAFE_DONE, .SAFE_MIRROR_EN, .SAFE_MIRROR_BUSY,
      .SAFE_MIRROR_VALID, .SAFE_FABRIC_GROUP, .SAFE_STATUS, .SAFE_GROUP_n_STAMP, .SAFE_STROKE_n_CTRL,
      .SAFE_STROKE_n_BASE, .SAFE_STROKE_n_LEN, .SAFE_STROKE_n_STAT, .SAFE_STROKE_n_ERRADDR]),
  (0x400a0000, 0x400b0000, [.FABRIC_BANK_A_LEN, .FABRIC_BANK_B_LEN, .FABRIC_CHK, .FABRIC_CHK_SPLIT, .FABRIC_FAULT,
      .FABRIC_SAT_CNT, .FABRIC_ECC_CORR, .FABRIC_QUIET_STAT, .FABRIC_SIL_THRESH_n, .FABRIC_SIL_HOLD_n,
      .FABRIC_QUIET_n, .FABRIC_CONST_n, .FABRIC_TONE_n_INC, .FABRIC_TONE_n_LEVEL, .FABRIC_SIL_STAT_w]),
  (0x400b0000, 0x400c0000, [.SECTION_CHK, .SECTION_LOAD, .SECTION_STAGED_LOAD, .SECTION_FAULT, .SECTION_SAT_CNT,
      .SECTION_ECC_CORR, .SECTION_CLR, .SECTION_ACT_w, .SECTION_EN_w, .SECTION_MUTE_w]),
  (0x400c0000, 0x400d0000, [.ASRC_CH_n_CFG, .ASRC_LOCK_w, .ASRC_TRK_p, .ASRC_FAULT, .ASRC_UNLOCK_CNT]),
  (0x400d0000, 0x400e0000, [.GUARD_LOCK, .GUARD_STATUS, .GUARD_CLIP_CNT, .GUARD_SLEW_CNT, .GUARD_FIRST_0,
      .GUARD_FIRST_1, .GUARD_PROF_n_CEIL, .GUARD_PROF_n_DC, .GUARD_PROF_n_HOLD, .GUARD_PROF_n_SLEW, .GUARD_PSEL_w,
      .GUARD_LSEL_l, .GUARD_XMUTE_P0, .GUARD_XMUTE_P1, .GUARD_XMUTE_L, .GUARD_PFAULT_w, .GUARD_LFAULT_l]),
  (0x400e0000, 0x400f0000, [.FLASH_CFG]),
  (0x41000000, 0x41048000, [.ENG_CTRL, .ENG_STATUS, .ENG_LANE_MAP, .ENG_PROG_A, .ENG_PROG_B, .ENG_PROG_CHK,
      .ENG_FAULT, .ENG_TOKDROP, .ENG_ECC_CORR, .ENG_ECC_LAST, .ENG_DB, .ENG_SCRUB]),
  (0x41048000, 0x41050000, [.ENGC_REMAP, .ENGC_RETIRE, .ENGC_MIG_CTRL, .ENGC_MIG_STAT, .ENGC_TOKQ]),
  (0x42000000, 0x42004000, [.SAP_CTRL, .SAP_CFG, .SAP_STAT, .SAP_FAULT, .SAP_SYNC_CNT, .SAP_CONCEAL]),
  (0x43000000, 0x43080000, [.LINK_CTRL, .LINK_CFG, .LINK_STAT, .LINK_FAULT, .LINK_CRC_CNT, .LINK_RETRAIN_CNT,
      .LINK_DELAY]),
  (0x43080000, 0x43090000, [.LINK_POS, .LINK_RING_CFG, .LINK_RING_STAT, .LINK_RING_FAULT, .LINK_TUN_ADDR,
      .LINK_TUN_DATA, .LINK_TUN_CMD, .LINK_TUN_STAT]),
  (0xf0000000, 0xf0010000, [.AON_FAULT_STAT, .AON_FAULT_CLR, .AON_REG])]

/-- The registers of the block whose address range holds a. -/
def Reg.blockIn (a : Nat) : List (Nat × Nat × List RegName) → List RegName
  | [] => []
  | (lo, hi, l) :: t => if decide (lo ≤ a) && decide (a < hi) then l else Reg.blockIn a t

def Reg.block (a : Nat) : List RegName := Reg.blockIn a Reg.blocks

/-- Instance i's address (R5). -/
def Reg.addr (r : RegName) (i : Nat) : Nat := (Reg.row r).base + (Reg.row r).stride * i

/-- Whether a is the address of an instance of r. -/
def Reg.covers (r : RegName) (a : Nat) : Bool :=
  let t := Reg.row r
  decide (t.base ≤ a) && decide ((a - t.base) % t.stride = 0) && decide ((a - t.base) / t.stride < t.count)

/-- The register at an address, and its instance. -/
def Reg.lookup (a : Nat) : Option (RegName × Nat) :=
  ((Reg.block a).find? (fun r => Reg.covers r a)).map (fun r => (r, (a - (Reg.row r).base) / (Reg.row r).stride))

/-- Where the state keeps instance i of r: one number for each pair. -/
def Reg.key (r : RegName) (i : Nat) : Nat := 512 * i + r.ctorIdx


/-- What a register reads as while nothing has been stored in it: its reset value (R9). DESIGN CHOICE: log entry 4. -/
def Reg.resetOf (k : Nat) : Word := 
  BitVec.ofNat 32 ((Reg.rows.getD (k % 512) (.mk 0 4 0 (fun _ => 0) 0 0 0 0 [] [])).reset (k / 512))

/-- The register that holds the CFG_ERR flag of the block that owns r, with its instance and bit (R8). -/
def Reg.cfgErr (r : RegName) (i : Nat) : RegName × Nat × Nat :=
  let b := (Reg.row r).base
  if b < 0x40010000 then (.SYS_STATUS, 0, 31)
  else if b < 0x40020000 then (.PWR_FAULT, 0, 31)
  else if b < 0x40030000 then (.SYNTH_FAULT, 0, 31)
  else if b < 0x40040000 then (.SEC_STATUS, 0, 31)
  else if b < 0x40050000 then (.HOSTIF_STATUS, 0, 31)
  else if b < 0x40060000 then (.EVT_CFG_SRC, 0, 31)
  else if b < 0x40070000 then (.SCHED_STATUS, 0, 31)
  else if b < 0x40080000 then (.DMA_STATUS, 0, 31)
  else if b < 0x40090000 then (.TIMER_STATUS, 0, 31)
  else if b < 0x400A0000 then (.SAFE_STATUS, 0, 31)
  else if b < 0x400B0000 then (.FABRIC_FAULT, 0, 31)
  else if b < 0x400C0000 then (.SECTION_FAULT, 0, 31)
  else if b < 0x400D0000 then (.ASRC_FAULT, 0, 31)
  else if b < 0x400E0000 then (.GUARD_STATUS, 0, 31)
  else if b < 0x41000000 then (.EVT_CFG_SRC, 0, 14)
  else if b < 0x41048000 then (.ENG_FAULT, i, 31)
  else if b < 0x42000000 then (.ENGC_MIG_STAT, i, 27)
  else if b < 0x43000000 then (.SAP_FAULT, i, 31)
  else if b < 0x43080000 then (.LINK_FAULT, i, 31)
  else if b < 0x44000000 then (.LINK_RING_FAULT, 0, 31)
  else (.PWR_FAULT, 0, 31)

end Sys2Proof.Machine
end

