-- ==== Sys2Proof/Machine/State.lean ====
section
/-! DEFINITION. The state of the block as plain data, its faults and refusals, and the state after reset. -/

namespace Sys2Proof.Machine

/-- The registers of the control cores and the lanes. A hart is numbered c for core c, and 16 + 4 * pe + L for lane L of
physical engine pe. -/
structure HartState where
  /-- Data registers, key 64 * hart + n: core g1 to g15 under 1 to 15 and the physical rotating registers under 16 to 31
  (R71, R72); lane t0 to t7 under 0 to 7 and p0 to p3 under 8 to 11 (R73). -/
  r : Store Word
  /-- Accumulators a0 to a3, key 4 * hart + x (R116). -/
  acc : Store (BitVec 56)
  /-- STAT (R73). -/
  stat : Store Word
  /-- Generator state (R126). -/
  dice : Store Sample
deriving DecidableEq, Repr

/-- The generator state of a hart at reset (R90). -/
def diceReset (h : Nat) : Sample := if h < 16 then BitVec.ofNat 24 (0x200 + h) else BitVec.ofNat 24 (h - 15)

/-- VBASE at reset (R90). -/
def vbaseReset (_ : Nat) : Word := 0x08000000

/-- What a load does with the value that arrives (R121). -/
inductive LoadKind where
  | word | half | byte | sample
deriving DecidableEq, Repr

/-- A load whose value has not arrived (R101): its core, the physical register it writes, its address, whether the register is
still the load's (a later word may have written it), and the bytes it has: all of them for an uncached load, for a cached one those
that its core's write buffer held at its issue. -/
structure PendLoad where
  core : Nat
  dst : Nat
  addr : Nat
  kind : LoadKind
  live : Bool
  data : List (Nat × Byte)
deriving DecidableEq, Repr

/-- Where an entry of a write buffer goes: to the bus, to the data cache (a store to a cached region, R303), or to a target that
denies it whatever its address (R6, R121). -/
inductive WKind where
  | bus | cache | deny
deriving DecidableEq, Repr

/-- An entry of a core's write buffer (R102): up to 64 bytes of one line, oldest first; a register store is kept by itself
(R370). -/
structure WEntry where
  core : Nat
  addr : Nat
  kind : WKind
  data : List (Nat × Byte)
deriving DecidableEq, Repr

/-- A line of a core's data cache (R303): its address, its 64 bytes, and whether it is dirty. -/
structure Line where
  core : Nat
  addr : Nat
  data : List Byte
  dirty : Bool
deriving DecidableEq, Repr

/-- What a control core holds beside its registers and SCHED_CORE_n_CTRL and STAT. -/
structure CoreState where
  pc : Store Word
  rrb : Store (BitVec 4)
  vbase : Store Word
  epc : Store Word
  ecause : Store Word
  pend : List PendLoad
  wbuf : List WEntry
  /-- Cores whose FENCE has not completed (R133). -/
  fence : List Nat
  dcache : List Line
  /-- Cores that stop executing because of a fourth parity fault, before the retirement takes effect (R309). -/
  stopped : List Nat
deriving DecidableEq, Repr

/-- A token (R311). -/
structure Tok where
  tag : Nat
  slot : Nat
  value : Word
deriving DecidableEq, Repr

/-- A work item (R310, R313 to R321). own is its own class (R315), lst the class of the list it is on. -/
structure Item where
  tag : Nat
  own : Nat
  lst : Nat
  flow : Nat
  ordered : Bool
  nops : Nat
  pool : Nat
  ops : List (Option Word)
  seq : Option Nat
  aged : Bool
  stamp : Word
  readyAt : Nat
  born : Nat
deriving DecidableEq, Repr

/-- The status of a release (R323). -/
inductive RelStatus where
  | finished | aborted | cancelled
deriving DecidableEq, Repr

/-- An ordered item that has been dispatched or cancelled and has not completed its release (R323): st is its status once
released, rob whether it holds a reorder-buffer entry and c0 whether that is one of the 128 reserved to class 0 (R324). -/
structure Await where
  item : Item
  core : Nat
  st : Option RelStatus
  rob : Bool
  c0 : Bool
deriving DecidableEq, Repr

/-- A dispatched item, its core, and the HUBCLK cycle of its dispatch (R322). -/
structure Held where
  core : Nat
  item : Item
  start : Nat
deriving DecidableEq, Repr

/-- The scheduler, beside its registers. -/
structure SchedState where
  /-- Open instances, oldest first (R313). -/
  opens : List Item
  /-- On-chip ready lists of every class, oldest first; lst tells the class (R329). -/
  ready : List Item
  /-- Ready items that stay in their matching-store entries (R331). -/
  waiting : List Item
  /-- Items in the spill rings, oldest first; lst tells the ring (R329). -/
  spilled : List Item
  /-- Births of the spilled items that were released in their place and whose ring entries are still to pass (R320). -/
  gone : List Nat
  /-- Entry index of the head of each class's ring. -/
  ringHead : Store Nat
  held : List Held
  await : List Await
  nextSeq : Store Nat
  nextRel : Store Nat
  /-- Last core of a flow, plus one; 0 is none (R317). -/
  lastCore : Store Nat
  credit : Store Nat
  rr : Nat
  bucket : Nat
  coreQ : List (Nat × Tok)
  hostQ : List Tok
  dmaQ : List (Nat × Tok)
  timerQ : List (Nat × Tok)
  relQ : List Tok
  rrEng : Nat
  rrCore : Nat
  /-- Spilled items a CANCEL has named, by their births (R326). -/
  cancels : List Nat
  tracePtr0 : Nat
  births : Nat
  /-- Births of the items whose matching-store entry holds a double-bit error (R312, R30). -/
  bad : List Nat
  /-- HUBCLK cycle at which the class-0 bucket was last refilled (R335). -/
  refill : Nat
  /-- Trace entries of the HUBCLK cycle traceHub, each with the rank of its event (R336), and the cycle at which the trace's port
  is free again (R338). -/
  traceCyc : List (Nat × List Word)
  traceHub : Nat
  traceFree : Nat
deriving DecidableEq, Repr

/-- A shared-memory load of a lane that has not been delivered (R161): it writes rd at the end of word at. -/
structure Delivery where
  pe : Nat
  lane : Nat
  rd : Nat
  value : Word
  due : Nat
deriving DecidableEq, Repr

/-- A queued bus access to lane memory (R144, R150); write holds the data of a write. -/
structure LaneAcc where
  pe : Nat
  lane : Nat
  word : Nat
  write : Option Word
  who : Initiator
deriving DecidableEq, Repr

/-- An entry of a lane's fault-address table (R166). -/
structure FaultEntry where
  pe : Nat
  lane : Nat
  word : Nat
  count : Nat
  turn : Nat
deriving DecidableEq, Repr

/-- What started a migration (R169, R172, R176). -/
inductive MigKind where
  | correctable | doubleBit | request
deriving DecidableEq, Repr

/-- A migration in progress (R169, R172): cluster, logical slot, source physical engine, its kind, and whether the switch
is set for the next exchange (doubleBit: the grid time of the detection). -/
structure Mig where
  cl : Nat
  slot : Nat
  src : Nat
  kind : MigKind
  copied : Bool
  at_ : Nat
deriving DecidableEq, Repr

/-- A token of an engine's lane waiting in its cluster's queue (R162). -/
structure EngTok where
  cl : Nat
  tok : Tok
deriving DecidableEq, Repr

/-- The engines, beside their registers. -/
structure EngState where
  /-- Physical engines whose enable is in effect (R140). -/
  on : List Nat
  /-- Runs in progress: physical engine and next word offset (R137). -/
  run : List (Nat × Nat)
  /-- Words still nullified, by hart number of the lane (R85). -/
  null : Store Nat
  deliver : List Delivery
  /-- Mailboxes, key 64 * e + 16 * L + i for logical engine e (R147). -/
  inF : Store Sample
  inE : Store Sample
  outE : Store Sample
  outF : Store Sample
  /-- Engines muted by a double-bit lane-memory error until a switch or retirement (R172). -/
  muted : List Nat
  busq : List LaneAcc
  /-- Responses to queued bus reads: who, and the word or none for a bus error. -/
  resp : List (Initiator × Option Word)
  /-- Corrected words waiting for their write-back: physical engine, lane, word (R164). -/
  wback : List (Nat × Nat × Nat)
  /-- Corrections counted this turn (R164). -/
  corrected : List (Nat × Nat × Nat)
  scrubPos : Store Nat
  faultTab : List FaultEntry
  /-- Check results, key 2 * pe + d, in the layout of ENG_PROG_CHK; STATE 00 counts as passed (R157). -/
  chk : Store Word
  tokq : List EngTok
  mig : List Mig
deriving DecidableEq, Repr

/-- A change that takes effect at the coming boundary (R58). -/
inductive PendAct where
  | engEn (pe : Nat) (on : Bool)
  | retireEngine (pe : Nat) (detail : Word)
  | retireCore (c : Nat)
  | retirePort (p : Nat) (count : Nat)
  | retireLink (l : Nat) (count : Nat)
  | disarm
  | testExit
  | sapEn (p : Nat) (on : Bool)
  | asrcEn (n : Nat) (on : Bool)
  | linkEn (l : Nat) (on : Bool)
  | chainEn (c : Nat) (on : Bool)
  | chainZero (c : Nat)
  | chainZeroAll
  | timerStart (n : Nat)
  | rampGo
deriving DecidableEq, Repr

/-- Time (R48, R51, R59, R60). -/
structure TimeState where
  /-- HUBCLK cycles counted since reset. -/
  hub : Nat
  /-- The ENGCLK cycle within the turn of the turn grid. -/
  clk : Nat
  /-- TURN_COUNT. -/
  turn : BitVec 48
  /-- Boundaries of the turn grid since reset, whether turns run or not (R390). -/
  grid : Nat
deriving DecidableEq, Repr

/-- A latency measurement (R67): turns since T0, none before T0. -/
inductive Probe where
  | idle
  | armed
  | running (age : Nat)
deriving DecidableEq, Repr

/-- The operating state, beside SYS_STATE. -/
structure DevState where
  /-- TEST was entered from ROM (R32). -/
  testRom : Bool
  /-- START or TEST_ENTER has been accepted, and turns start at the coming boundary (R30, R59). -/
  starting : Bool
  /-- The number of the first turn after the last START, T_s of R61, and the turns that have begun since. -/
  first : BitVec 48
  runs : Nat
  /-- The freeze decided at the last commit cut (R35). -/
  freeze : Bool
  /-- The commit cut of the current turn has passed. -/
  cutPast : Bool
  /-- Clusters whose output mailboxes have been swapped in this turn, and clusters that have had their whole exchange (R51, R147),
  and clusters whose runs of this turn have started. -/
  swapped : List Nat
  exchanged : List Nat
  started : List Nat
  /-- Clusters whose exchange of the last turn was made at its end, and whose runs of that turn are still to start (R53). -/
  late : List Nat
  /-- Requests for the coming boundary that have arrived since the last cut, and those the last cut took (R58). -/
  pendNew : List PendAct
  pendCut : List PendAct
  /-- Changes of this turn's boundary whose first work is the engine or section run, until the exchange at clk N/2 (R56). -/
  exch : List PendAct
  probe : Probe
  /-- The turn is T0 of a measurement: its marker stands (R67). -/
  marker : Bool
  /-- The last entry to HALT or SERVICE, return from SERVICE or hold cause: its HUBCLK cycle and its rank in R37. -/
  won : Option (Nat × Nat)
  /-- Turns end with the turn in progress whatever the cut, because of a relock (R35). -/
  relockEnd : Bool
deriving DecidableEq, Repr

/-- A safe-load member (R179). -/
inductive Member where
  | palette (e : Nat)
  | prog (e : Nat)
  | chain (c : Nat)
  | gain
  | route
deriving DecidableEq, Repr

/-- A commit request that waits for its decision, or whose flip has been decided: its groups, and the stroke channels whose
steps are part of it (R182). -/
structure SafeReq where
  groups : List Nat
  strokes : List Nat
deriving DecidableEq, Repr

/-- The mirror of a group (R188, R189): the members it copies, whether a shadow was written while it was busy, and the shadow
addresses whose new contents the copy does not reach any more. -/
structure Mirror where
  group : Nat
  members : List Member
  dirty : Bool
  kept : List Nat
deriving DecidableEq, Repr

/-- A running stroke channel (R190, R193): what START captured; the step in progress and its address; the turns that have to
begin before its writes; whether its writes have begun, wait for the commit window, have been accepted; whether its commit takes
effect at the coming boundary; whether the step in hand has been found late; whether the step in hand has taken effect and the
channel ends; whether a step of this run has moved (R194); whether the commit of the step before is still to be recorded (R196); and the
entries that wait for a credit of the stroke port (R21). -/
structure Stroke where
  ch : Nat
  steps : Nat
  groups : Nat
  period : Nat
  step : Nat
  addr : Nat
  mask : Nat
  due : Nat
  begun : Bool
  blocked : Bool
  accepted : Bool
  eff : Bool
  late : Bool
  fin : Bool
  moved : Bool
  comm : Bool
  rest : List (Word × Word)
deriving DecidableEq, Repr

/-- Safe-load, beside its registers. -/
structure SafeState where
  /-- Pending requests, in the order in which they were made (R182, R247). -/
  reqs : List SafeReq
  /-- Members that flip at the coming boundary; those that flip before the runs of the turn that follows it, as the cut decided; and
  those of them whose boundary has come (R56). -/
  flipFab : List Member
  flipNext : List Member
  flipEng : List Member
  /-- Requests decided at the last cut, and those whose DONE is due at clk N/2 + 128 (R184). -/
  decided : List SafeReq
  doneDue : List SafeReq
  mirrors : List Mirror
  /-- Groups whose mirror was enabled when their members flipped (R188). -/
  mirGroups : List Nat
  strokes : List Stroke
deriving DecidableEq, Repr

/-- The result of a program or route check that has never run: passed (R215). -/
def chkReset (_ : Nat) : Word := 0x80000000

/-- The mixing fabric, beside its registers and its memory. -/
structure FabState where
  /-- What the fabric reads: port input slots under p * 16 + s, link input channels under l * 512 + c (R203). -/
  portIn : Store Sample
  linkIn : Store Sample
  /-- What pass B of the turn gave the port output slots and link output channels. -/
  portOut : Store Sample
  linkOut : Store Sample
  /-- The two values of a bus (R210). -/
  busA : Store Sample
  busB : Store Sample
  /-- FABRIC_CONST_n and FABRIC_TONE_n_LEVEL as the turn uses them (R206). -/
  const : Store Word
  level : Store Word
  /-- Tone generators whose phase the next boundary clears (R206). -/
  clr : List Nat
  /-- Phases of the tone generators (R206). -/
  phase : Store Nat
  /-- Counts of the silence detectors, and the buses that were loud since the last boundary (R221). -/
  detCnt : Store Nat
  loud : List Nat
  /-- cnt_c of each cluster (R224). -/
  quietCnt : Store Nat
  /-- Check results of route banks A 0 and B 1 in the layout of FABRIC_CHK, their splits, and the banks being checked. -/
  chk : Store Word
  split : Store Nat
  chkRun : List Nat
  /-- The commit window of the route bank, and the writes that wait for its end: initiator, address and data (R218). -/
  hold : Bool
  held : List (Initiator × Nat × Word)
deriving DecidableEq, Repr

/-- The section bank, beside its registers and its memory. -/
structure SectState where
  /-- Chain inputs as pass A wrote them, outputs of the last run, and outputs as the fabric reads them (R54). -/
  chainIn : Store Sample
  chainRun : Store Sample
  chainOut : Store Sample
  /-- Chains whose check runs, and reasons of the checks that refused, by chain (R247). -/
  chkRun : List Nat
  bad : Store Nat
  /-- Chains whose staged writes are held, and the writes: address and data (R248). -/
  holdChains : List Nat
  held : List (Nat × Word)
deriving DecidableEq, Repr

/-- The 64 ports, beside their registers. Slots are named by their fabric address p * 16 + s. -/
structure PortState where
  /-- Ports whose enable is in effect (R263). -/
  on : List Nat
  /-- Samples of the last good frame, as the next boundary delivers them, and those of a port that adds a sample on the way
  in (R260). -/
  cap : Store Sample
  capLate : Store Sample
  /-- Consecutive good frames seen in CONFIRM. -/
  good : Store Nat
  /-- Period of the previous frame of an asynchronous port (R262). -/
  period : Store Nat
  /-- Failed attempts: port and HUBCLK cycle, newest first (R265). -/
  fails : List (Nat × Nat)
  /-- Turns of repetition left, plus one, for a port in concealment (R264). -/
  left : Store Nat
  /-- Ports whose retirement waits for the boundary. -/
  retiring : List Nat
  /-- Output stage as the boundary loaded it, for port slots (R269). -/
  stage : Store Sample
  /-- Words of the frame being serialised, as the formatter gave them (R261). -/
  sent : Store Word
  /-- Ports whose configuration or enable has been written since reset, so that their clock pins are no longer as reset left them (R469). -/
  touched : List Nat
deriving DecidableEq, Repr

/-- The ASRC bank, beside its registers: channels whose enable is in effect (R267). -/
structure AsrcState where
  on : List Nat
deriving DecidableEq, Repr

/-- The guard stages, beside their registers; a channel is named by its sink address, 0 to 0x13FF (R269). -/
structure GuardState where
  mean : Store (BitVec 40)
  dcn : Store Nat
  run : Store Nat
  yPrev : Store Sample
  /-- Guard-muted channels, and outputs muted as a whole: port p as p, link l as 64 + l (R270). -/
  muted : List Nat
  outMuted : List Nat
  /-- Link channels with a fault (R271). -/
  lfault : List Nat
  /-- MUTE_N has been low since the last evaluation, and is low now (R272). -/
  latch : Bool
  low : Bool
deriving DecidableEq, Repr

/-- A loop configuration (R379): SYNTH_CFG, SYNTH_REF_FREQ, SYNTH_RDIV, SYNTH_N_INT, SYNTH_NUM and SYNTH_DEN. -/
structure LoopCfg where
  cfg : Word
  hz : Word
  rdiv : Word
  nint : Word
  num : Word
  den : Word
deriving DecidableEq, Repr

/-- The synthesiser, beside its registers. -/
structure SynthState where
  /-- The configuration in use; the registers hold the staged copy while EN is 1 (R379). -/
  use : LoopCfg
  /-- How often each output's divider has been reset (R386, R391). -/
  resets : Store Nat
  /-- The seed that the last start of acquisition loaded into the dither generator (R382). -/
  dither : Nat
  /-- HUBCLK cycle, plus one, of the last switch of the internal clocks, and of the last overspeed trip of each output (R394). -/
  switched : Nat
  trips : Store Nat
deriving DecidableEq, Repr

/-- A frame a link has sent (R280 to R284); rd is the running disparity before its first symbol, positive or not (R279). -/
structure TxFrame where
  rxOk : Bool
  train : Bool
  mute : Bool
  stop : Bool
  pos : Nat
  posValid : Bool
  rate : Nat
  family : Bool
  seq : Nat
  hold : Nat
  echo : Nat
  link : Nat
  audio : Store Sample
  msgs : List Msg
  wake : Bool
  rd : Bool
deriving DecidableEq, Repr

/-- A reroute that waits for its target boundary (R293): its segment, boundaries left, and the link that brought the message. -/
structure Reroute where
  seg : Nat
  left : Nat
  via : Nat
deriving DecidableEq, Repr

/-- The links, beside their registers; a channel is named l * 512 + c. -/
structure LinkState where
  /-- Received audio of this turn's frames, the links whose audio is due at clk N/2, the physical inputs, and those as the last pass B read
  them (R283, R292). -/
  rx : Store Sample
  due : List Nat
  phys : Store Sample
  fwd : Store Sample
  /-- Output stage as the boundary loaded it, and the guard outputs the frame carries (R269, R282, R292). -/
  stage : Store Sample
  guarded : Store Sample
  /-- The last frame each link sent. -/
  sent : List (Nat × TxFrame)
  /-- Next SEQ to send, SEQ of the last good frame received, and when it arrived (R281). -/
  seq : Store Nat
  echo : Store Nat
  arrived : Store Nat
  /-- Links whose last frame was good; links whose far side sent STOP in it (R285, R291). -/
  rxOk : List Nat
  farStop : List Nat
  /-- Consecutive good frames in TRAIN (R285). -/
  good : Store Nat
  /-- CRC failures and missing frames: link and boundary count, newest first (R290). -/
  crc : List (Nat × Nat)
  /-- Turns or frames since a link left UP to retrain, plus one; none while it does not retrain (R289). -/
  away : Store Nat
  /-- Consecutive turns in UP (R291). -/
  upTurns : Store Nat
  /-- Turns of repetition left, plus one (R288). -/
  left : Store Nat
  /-- Retirements that wait for the boundary: link and count (R290). -/
  retiring : List (Nat × Nat)
  /-- Wake patterns to send after the next frame, and wake patterns sent (R299). -/
  wakeReq : List Nat
  wakes : Store Nat
  /-- Messages that wait for a frame: link and message, oldest first (R296). -/
  outbox : List (Nat × Msg)
  /-- The head's access in flight: its tag, whether it is a read, and its age in turns or frames (R298). -/
  tun : Option (Nat × Bool × Nat)
  tag : Nat
  reroute : List Reroute
  /-- Code violations and disparity errors of the turn (R288). -/
  viol : Store Nat
deriving DecidableEq, Repr

/-- What a DMA activation does next (R341, R343, R350, R351): fetch a descriptor, counted in DESC_CNT or fetched again; move
its data; or wait, complete, for its token entry. -/
inductive DmaStage where
  | fetch (counted : Bool)
  | move
  | tokWait
deriving DecidableEq, Repr

/-- The activation of a DMA channel: its descriptor's words, source words read, destination words written, and bytes read but
not yet written (R344 to R349). -/
structure DmaJob where
  ch : Nat
  stage : DmaStage
  desc : List Word
  rd : Nat
  wr : Nat
  buf : List Byte
deriving DecidableEq, Repr

/-- Where a write of a DMA channel stands: its target has given no error; it has, and the answer is on its way; the channel has taken the
answer; RESUME has issued it again; the channel has gone OFF since it issued it (R353, R356, R357). -/
inductive WriteStage where
  | sent | failed | told | again | left
deriving DecidableEq, Repr

/-- A write that has left a DMA channel (R350, R353, R356, R357): its channel, the address of its word, its bytes, where it stands, and
whether its descriptor has completed. -/
structure DmaWrite where
  ch : Nat
  addr : Nat
  bytes : List (Nat × Byte)
  stage : WriteStage
  done : Bool
deriving DecidableEq, Repr

/-- The DMA engine, beside its registers. -/
structure DmaState where
  jobs : List DmaJob
  /-- The state RESUME returns a channel to after a late error (R357). -/
  back : Store Nat
  /-- HUBCLK cycle of a channel's last trigger, plus one, while no descriptor has been fetched for it (R342). -/
  trig : Store Nat
  /-- Writes whose targets have answered with an error or that wait for them, and the last two of each channel without an error, whose
  answers may still be due (R21, R357). -/
  failed : List DmaWrite
  sent : List DmaWrite
deriving DecidableEq, Repr

/-- The hub timers, beside their registers (R360). -/
structure TimerState where
  /-- Timers whose enable is in effect. -/
  on : List Nat
  /-- HUBCLK cycle at which COUNT of a MODE 0 timer was last 0. -/
  start : Store Nat
  /-- PERIOD and PHASE in use. -/
  period : Store Nat
  phase : Store Nat
  /-- MODE 1 timers that have expired in the turn. -/
  fired : List Nat
deriving DecidableEq, Repr


/-- A register or memory access of 32 bits that waits for its answer (R368, R446); write holds the data of a write. -/
structure Access where
  who : Initiator
  addr : Nat
  write : Option Word
deriving DecidableEq, Repr

/-- A sleep request in its vote (R399, R400): target 1 retention or 2 off, the domains that were on, those in retention that
go off without a vote, the core group that wrote the request, the domains that had an access in flight at GO, and those that refuse at
GO, whose clocks go on. -/
structure Vote where
  target : Nat
  voters : List Nat
  others : List Nat
  self : Option Nat
  busy : List Nat
  keeps : List Nat
deriving DecidableEq, Repr

/-- The power controller, beside its registers. A domain's state is its field of PWR_STATE_w. -/
structure PwrState where
  vote : Option Vote
  /-- Domains entering a state under the request: domain and target. -/
  enter : List (Nat × Nat)
  /-- Domains waking, and whether from off. -/
  wake : List (Nat × Bool)
  /-- Wakes latched during a request (R405): source and domain. -/
  latch : List (Nat × Nat)
  /-- Domains that a request with target on still wakes (R400, R401). -/
  rising : List Nat
  /-- HUBCLK cycle, plus one, of the wake on record, and of the wakes that found their domains on: sources and domains (R405, R406). -/
  wokeAt : Nat
  firedAt : Nat
  fired : List (Nat × Nat)
  /-- Accesses that wait. -/
  stalled : List Access
  /-- Consecutive quiet decisions of a cluster without an access (R409). -/
  quiet : Store Nat
  /-- A PWR_WAKE_EN write that waits for full mode, and whether the regulator is changing to it (R410). -/
  waitEn : Option Word
  stepping : Bool
deriving DecidableEq, Repr

/-- A seal operation (R434): its reason if it is refused, else 0. -/
structure SealJob where
  isOpen : Bool
  src : Nat
  dst : Nat
  len : Nat
  ver : Nat
  reason : Nat
deriving DecidableEq, Repr

/-- Boot, keys and OTP, beside the SEC registers (chapter 16). -/
structure BootState where
  /-- OTP, 512 words (R429), and the program in progress: word and data (R431). -/
  otp : Store Word
  otpBusy : Option (Nat × Word)
  /-- The external flash device: its bytes, and whether it answers with the SFDP signature (R417). -/
  flash : Store Byte
  sfdp : Bool
  /-- Slots still to be tried, the slot in hand, and slot offsets (R417, R422). -/
  order : List Nat
  slot : Nat
  slotOff : Store Nat
  /-- FCFG of the directory. -/
  fcfg : Word
  /-- The floor of this boot, 64 × FUSES (R422, R436). -/
  floor : Nat
  /-- SEC staging memory: stream bytes outside the segments (R424). -/
  staging : Store Byte
  /-- The load window of R427 is open. -/
  window : Bool
  /-- The SEC version key, of version VERSION, 32 bytes, or none (R433). -/
  verKey : List Byte
  sealJob : Option SealJob
  /-- SEAL_LOCK is set once the operation in progress completes (R441). -/
  lockAfter : Bool
  /-- A sealed load in progress: its address and the bytes it protects (R437). -/
  load : Option (Nat × Nat)
  /-- The image in staging waits to be placed from the load window (R427). -/
  place : Bool
  /-- HUBCLK cycle, plus one, of a host master's last write of an SEC_SVC register, and its port index (R438). -/
  svcAt : Nat
  svcPort : Nat
deriving DecidableEq, Repr

/-- A transaction of a host master that waits for an access (R446): its address, whether it is a write, the words still to be
written, the words still to be read, the answers so far, the message that carried a tunnelled one (R297), whether it holds one
of the four entries of the host channel's pool (R21), whether the access in hand was accepted as one its master may make (R452), and the
HUBCLK cycle, plus one, from which its time-out counts (R446). -/
structure HostTx where
  m : Nat
  addr : Nat
  write : Bool
  data : List Word
  left : Nat
  out : List (Nat × Word)
  msg : Option Msg
  cred : Bool
  own : Bool
  since : Nat
deriving DecidableEq, Repr

/-- The host interfaces, beside their registers. -/
structure HostState where
  /-- High-word latches of R462, by initiator. -/
  latch : Store Word
  /-- Transactions that wait. -/
  tx : List HostTx
  /-- What the last transaction of a master returned: response bytes of R448 and words. -/
  answer : List (Nat × List (Nat × Word))
  /-- The address an address-only I²C write left (R449). -/
  i2cAddr : Nat
  /-- JTAG holds ownership by seizure (R454). -/
  seized : Bool
  /-- The master the round robin of the host channel looks at first (R21). -/
  rr : Nat
  /-- HUBCLK cycle, plus one, at which the owner's lease was last restarted; 0 while none runs (R453). -/
  lease : Nat
deriving DecidableEq, Repr

/-- Levels of the input pins that the registers do not hold. -/
structure PinState where
  /-- Levels outside the device on GPIO_0 to GPIO_15 (R463). -/
  gpio : BitVec 16
deriving DecidableEq, Repr


/-- The whole machine. -/
structure State where
  /-- Registers, by Reg.key; an unlisted one reads its reset value. -/
  regs : Store Word
  /-- Bytes of core local, cluster shared and hub memory, by primary address (R365). -/
  mem : Store Byte
  /-- 32-bit slots of lane, program, section and fabric memory and of the always-on region, by address (R144, R201, R233). -/
  wmem : Store Word
  /-- Check-bit condition of a stored word, by address: 1 a single-bit error, 2 a double-bit error. -/
  upset : Store Nat
  hart : HartState
  core : CoreState
  eng : EngState
  sched : SchedState
  time : TimeState
  dev : DevState
  safe : SafeState
  fab : FabState
  sect : SectState
  port : PortState
  asrc : AsrcState
  guard : GuardState
  link : LinkState
  dma : DmaState
  timer : TimerState
  synth : SynthState
  pwr : PwrState
  boot : BootState
  host : HostState
  pins : PinState
  /-- The MODEL's own: how many values the spec leaves open have been drawn. DESIGN CHOICE, safe: log entry 6. -/
  free : Nat
  /-- The commands that are waiting, first in, first out. -/
  pending : List Instr
deriving DecidableEq, Repr

/-- Why a step stops with a fault. -/
inductive Fault where
  /-- BROWN_OUT: the always-on domain has browned out and "the state of the device is undefined until a power-on reset"
  (R411). Raised by execBrownOut. Safe: the model stops where the spec gives no behaviour. -/
  | alwaysOnBrownOut
deriving DecidableEq, Repr

/-- Why a step refuses a command. -/
inductive Refusal where
  /-- No meaning yet for the command of that mnemonic: an arm of exec raises it. Safe: the model stops. -/
  | notModelled (mnemonic : String)
deriving DecidableEq, Repr

/-- Unlisted counts read as zero. -/
def natZero (_ : Nat) : Nat := 0

/-- The state after the release of reset: every store empty, so that every register reads the value R9 gives it (SYS_STATE
reads 0x0000_0012: ROM, muted). DESIGN CHOICE: values the spec does not give are named in log entries 2 to 6. -/
def State.reset : State where
  regs := []
  mem := []
  wmem := []
  upset := []
  hart := ⟨[], [], [], []⟩
  core := { pc := [], rrb := [], vbase := [], epc := [], ecause := [], pend := [], wbuf := [], fence := [],
            dcache := [], stopped := [] }
  eng := { on := [], run := [], null := [], deliver := [], inF := [], inE := [], outE := [], outF := [],
           muted := [], busq := [], resp := [], wback := [], corrected := [], scrubPos := [], faultTab := [], chk := [],
           tokq := [], mig := [] }
  sched := { opens := [], ready := [], waiting := [], spilled := [], gone := [], ringHead := [], held := [], await := [],
             nextSeq := [], nextRel := [], lastCore := [], credit := [(1, 8), (2, 4), (3, 2)], rr := 1, bucket := 8, coreQ := [],
             hostQ := [], dmaQ := [], timerQ := [], relQ := [], rrEng := 0, rrCore := 0, cancels := [], tracePtr0 := 0,
             births := 0, bad := [], refill := 0, traceCyc := [], traceHub := 0, traceFree := 0 }
  time := ⟨0, 0, 0, 0⟩
  dev := { testRom := false, starting := false, first := 0, runs := 0, freeze := false, cutPast := false, swapped := [],
           exchanged := [], started := [], late := [], pendNew := [], pendCut := [], exch := [], probe := .idle, marker := false,
           won := none, relockEnd := false }
  safe := { reqs := [], flipFab := [], flipNext := [], flipEng := [], decided := [], doneDue := [], mirrors := [], mirGroups := [], strokes := [] }
  fab := { portIn := [], linkIn := [], portOut := [], linkOut := [], busA := [], busB := [], const := [], level := [], clr := [], phase := [],
           detCnt := [], loud := [], quietCnt := [], chk := [], split := [], chkRun := [], hold := false, held := [] }
  sect := { chainIn := [], chainRun := [], chainOut := [], chkRun := [], bad := [], holdChains := [], held := [] }
  port := { on := [], cap := [], capLate := [], good := [], period := [], fails := [], left := [], retiring := [], stage := [],
            sent := [], touched := [] }
  asrc := ⟨[]⟩
  guard := { mean := [], dcn := [], run := [], yPrev := [], muted := [], outMuted := [], lfault := [], latch := false,
             low := false }
  synth := { use := ⟨0x80000000, 0, 1, 0x10000, 0, 1⟩, resets := [], dither := 0, switched := 0, trips := [] }
  link := { rx := [], due := [], phys := [], fwd := [], stage := [], guarded := [], sent := [], seq := [], echo := [], arrived := [],
            rxOk := [], farStop := [], good := [], crc := [], away := [], upTurns := [], left := [], retiring := [],
            wakeReq := [], wakes := [], outbox := [], tun := none, tag := 0, reroute := [], viol := [] }
  dma := { jobs := [], back := [], trig := [], failed := [], sent := [] }
  timer := { on := [], start := [], period := [], phase := [], fired := [] }
  pwr := { vote := none, enter := [], wake := [], latch := [], rising := [], wokeAt := 0, firedAt := 0, fired := [], stalled := [],
           quiet := [], waitEn := none, stepping := false }
  boot := { otp := [], otpBusy := none, flash := [], sfdp := true, order := [], slot := 0, slotOff := [], fcfg := 0, floor := 0,
            staging := [], window := false, verKey := [], sealJob := none, lockAfter := false, load := none, place := false,
            svcAt := 0, svcPort := 0 }
  host := { latch := [], tx := [], answer := [], i2cAddr := 0, seized := false, rr := 0, lease := 0 }
  pins := { gpio := 0 }
  free := 0
  pending := []

end Sys2Proof.Machine
end

