-- ==== Sys2Proof/Machine/Descriptor.lean ====
section
/-! DEFINITION. The fields of a DMA descriptor and the accesses it asks for (12_dma.md R344 to R349). -/

namespace Sys2Proof.Machine

/-! Fields (R344). -/

def DmaJob.word (j : DmaJob) (k : Nat) : Word := j.desc.getD k 0
def DmaJob.src (j : DmaJob) : Nat := (j.word 0).toNat
def DmaJob.dst (j : DmaJob) : Nat := (j.word 1).toNat
def DmaJob.len (j : DmaJob) : Nat := fld (j.word 2) 23 0
def DmaJob.last (j : DmaJob) : Bool := bitOf (j.word 3) 7
def DmaJob.fence (j : DmaJob) : Bool := bitOf (j.word 3) 6
def DmaJob.irq (j : DmaJob) : Bool := bitOf (j.word 3) 5
def DmaJob.tok (j : DmaJob) : Bool := bitOf (j.word 3) 4
def DmaJob.trigout (j : DmaJob) : Bool := bitOf (j.word 3) 3
def DmaJob.dstFix (j : DmaJob) : Bool := bitOf (j.word 3) 1
def DmaJob.srcFix (j : DmaJob) : Bool := bitOf (j.word 3) 0

/-- Words of the source and of the destination of a descriptor, and the bytes of word k of the destination (R345, R347). -/
def ceil4 (n : Nat) : Nat := (n + 3) / 4 * 4
def DmaJob.reads (j : DmaJob) : Nat := if j.srcFix then j.len / 4 else (ceil4 (j.src + j.len) - j.src / 4 * 4) / 4
def DmaJob.writes (j : DmaJob) : Nat := if j.dstFix then j.len / 4 else (ceil4 (j.dst + j.len) - j.dst / 4 * 4) / 4
def DmaJob.readAddr (j : DmaJob) : Nat := if j.srcFix then j.src else j.src / 4 * 4 + 4 * j.rd
def DmaJob.writeAddr (j : DmaJob) : Nat := if j.dstFix then j.dst else j.dst / 4 * 4 + 4 * j.wr
def DmaJob.writeBytes (j : DmaJob) : List Nat :=
  if j.dstFix then upTo 4 |>.map (fun k => j.dst + k)
  else ((upTo 4).map (fun k => j.writeAddr + k)).filter (fun a => decide (j.dst ≤ a) && decide (a < j.dst + j.len))

/-- What the next access of a descriptor is: 0 a data read, 1 a data write, 2 the descriptor fetch; 3 where none is left. -/
def DmaJob.dir (j : DmaJob) : Nat :=
  match j.stage with
  | .fetch _ => 2
  | .tokWait => 3
  | .move =>
    if j.writes ≤ j.wr then 3
    else if j.writeBytes.length ≤ j.buf.length then 1 else 0

/-- Whether destination byte a takes an unspecified value (R349): the ranges overlap with DST above SRC, and the byte or the byte
it is copied from lies in the overlap. -/
def DmaJob.open_ (j : DmaJob) (a : Nat) : Bool :=
  let src := primary j.src
  let dst := primary j.dst
  let b := primary a
  let past (x : Nat) : Bool := decide (dst ≤ x) && decide (x < src + j.len)
  !j.srcFix && !j.dstFix && decide (src < dst) && decide (dst < src + j.len) && (past b || past (b - dst + src))

end Sys2Proof.Machine
end

