-- ==== Sys2Proof/Machine/Flags.lean ====
section
/-! DEFINITION. The results and flags of Ramtal's register operations, as functions of operand values and the profile
width W (04_ramtal_reference.md R95 to R119). A value is the number of its bits. -/

namespace Sys2Proof.Machine

/-- The flags an operation writes: none where the flag keeps its value; a sticky flag is only ever set (R74, R97). -/
structure Flg where
  n : Option Bool := none
  z : Option Bool := none
  c : Option Bool := none
  v : Option Bool := none
  dz : Bool := false
  aov : Bool := false
  sat : Bool := false
deriving DecidableEq, Repr

/-- A result with its flags. -/
structure Res where
  val : Nat
  flg : Flg
deriving DecidableEq, Repr

/-- nz(r) of R95: N and Z of a W-bit result. -/
def nzOf (W r : Nat) : Flg := { n := some (r.testBit (W - 1)), z := some (r == 0) }

/-- Whether an exact signed result lies outside [mins, maxs]. -/
def outside (W : Nat) (x : Int) : Bool := decide (x < minS W) || decide (maxS W < x)

/-- Addition (R103). -/
def aluAdd (W x y : Nat) : Res :=
  let r := (x + y) % 2 ^ W
  ⟨r, { nzOf W r with c := some (decide (2 ^ W ≤ x + y)), v := some (outside W (sxN W x + sxN W y)) }⟩

/-- Subtraction (R103): C is 1 when no borrow occurs. -/
def aluSub (W x y : Nat) : Res :=
  let r := toU W ((x : Int) - (y : Int))
  ⟨r, { nzOf W r with c := some (decide (y ≤ x)), v := some (outside W (sxN W x - sxN W y)) }⟩

/-- Saturation of an exact result, with the carry of the modular operation (R104). -/
def aluSat (W : Nat) (exact : Int) (c : Bool) : Res :=
  let res := satI W exact
  let r := toU W res
  ⟨r, { nzOf W r with c := some c, v := some (decide (res ≠ exact)), sat := decide (res ≠ exact) }⟩

/-- ADDS (R104). -/
def aluAdds (W x y : Nat) : Res := aluSat W (sxN W x + sxN W y) (decide (2 ^ W ≤ x + y))

/-- SUBS (R104). -/
def aluSubs (W x y : Nat) : Res := aluSat W (sxN W x - sxN W y) (decide (y ≤ x))

/-- ABS (R105): C keeps its value. -/
def aluAbs (W x : Nat) : Res :=
  let r := if sxN W x < 0 then toU W (-(x : Int)) else x
  ⟨r, { nzOf W r with v := some (decide (sxN W x = minS W)) }⟩

/-- A bitwise result (R106): C and V keep their values. -/
def aluLogic (W r : Nat) : Res := ⟨r % 2 ^ W, nzOf W (r % 2 ^ W)⟩

/-- rs and not rt (R106). -/
def andNot (W x y : Nat) : Nat := x &&& ((2 ^ W - 1) ^^^ (y % 2 ^ W))

/-- The shifts and the rotation of R108; k is the amount. With k = 0, C keeps its value. -/
def aluShift (W : Nat) (kind : ShiftKind) (x k : Nat) : Res :=
  if k = 0 then ⟨x, nzOf W x⟩ else
  let (r, c) : Nat × Bool := match kind with
    | .shl => (if k < W then (x * 2 ^ k) % 2 ^ W else 0, if k ≤ W then x.testBit (W - k) else false)
    | .shr => (if k < W then x / 2 ^ k else 0, if k ≤ W then x.testBit (k - 1) else false)
    | .sar => (toU W (sar (sxN W x) (min k W)), if k ≤ W then x.testBit (k - 1) else x.testBit (W - 1))
    | .ror =>
      let m := k % W
      let r := (x / 2 ^ m + x * 2 ^ (W - m)) % 2 ^ W
      (r, r.testBit (W - 1))
  ⟨r, { nzOf W r with c := some c }⟩

/-- The highest bit of a field of wm1 + 1 bits at pos, cut at bit W - 1 (R109). -/
def fieldTop (W pos wm1 : Nat) : Nat := min (pos + wm1 + 1) W - 1

/-- BFX and BFXS (R109). -/
def aluBfx (W : Nat) (signed : Bool) (x pos wm1 : Nat) : Res :=
  let r := if W ≤ pos then 0 else
    let len := fieldTop W pos wm1 - pos + 1
    let f := (x / 2 ^ pos) % 2 ^ len
    if signed then toU W (sxN len f) else f
  ⟨r, nzOf W r⟩

/-- BFI (R109): d is the old value of rd. -/
def aluBfi (W d x pos wm1 : Nat) : Res :=
  let r := if W ≤ pos then d else
    let top := fieldTop W pos wm1
    let len := top - pos + 1
    d % 2 ^ pos + (x % 2 ^ len) * 2 ^ pos + (d / 2 ^ (top + 1)) * 2 ^ (top + 1)
  ⟨r, nzOf W r⟩

/-- How many of the bits n - 1 downwards equal b, contiguously. -/
def leading (b : Bool) (x : Nat) : Nat → Nat
  | 0 => 0
  | n + 1 => if x.testBit n == b then leading b x n + 1 else 0

/-- CLZ and CLS (R110). -/
def aluClz (W x : Nat) : Nat := leading false x W
def aluCls (W x : Nat) : Nat := leading (x.testBit (W - 1)) x (W - 1)

/-- PERM (R111): the source is taken as 32 bits, sign-extended in engine profile. -/
def aluPerm (W x : Nat) (sel : Nat) : Nat :=
  let src := toU 32 (sxN W x)
  let byte (i : Nat) : Nat := (src / 256 ^ ((sel / 4 ^ i) % 4)) % 256
  (byte 0 + byte 1 * 256 + byte 2 * 65536 + byte 3 * 16777216) % 2 ^ W

/-- MUL (R112). -/
def aluMul (W x y : Nat) : Res :=
  let p := sxN W x * sxN W y
  let r := toU W p
  ⟨r, { nzOf W r with v := some (outside W p) }⟩

/-- DIV (R113): quotient and remainder. -/
def aluDiv (x y : Nat) : Res × Nat :=
  let a := sxN 32 x
  let b := sxN 32 y
  if y % 2 ^ 32 = 0 then
    let q := if 0 ≤ a then 0x7FFFFFFF else 0x80000000
    (⟨q, { nzOf 32 q with v := some true, dz := true }⟩, x)
  else if x = 0x80000000 ∧ b = -1 then
    (⟨0x80000000, { nzOf 32 0x80000000 with v := some true }⟩, 0)
  else
    let q := a.tdiv b
    let u := toU 32 q
    (⟨u, { nzOf 32 u with v := some false }⟩, toU 32 (a - q * b))

/-- DIVU (R113). -/
def aluDivu (x y : Nat) : Res × Nat :=
  if y = 0 then (⟨0xFFFFFFFF, { nzOf 32 0xFFFFFFFF with v := some true, dz := true }⟩, x)
  else (⟨x / y, { nzOf 32 (x / y) with v := some false }⟩, x % y)

/-- s24(x) × s24(y) of R115. -/
def prod24 (x y : Nat) : Int := sxN 24 x * sxN 24 y

/-- acc_write of R116: the wrapped value, and whether AOV is set. -/
def accWrap (v : Int) : Int × Bool := (wrapI 56 v, decide (wrapI 56 v ≠ v))

/-- STA (R119): the 24-bit word at width W, and whether it saturated. -/
def staOf (W : Nat) (acc : Int) (sh : Nat) : Res :=
  let v := sar acc sh
  let w := satI 24 v
  ⟨toU W w, { sat := decide (w ≠ v) }⟩

/-- One generator step of R126. -/
def diceStep (x : Nat) : Nat := if x % 2 = 1 then (x / 2) ^^^ 0xE10000 else x / 2

/-- DICE (R126): the value at width W and the new generator state. -/
def diceOf (W : Nat) (triangular : Bool) (x : Nat) : Nat × Nat :=
  let s1 := diceStep x
  if triangular then
    let s2 := diceStep s1
    (toU W (wrapI 24 (sar (sxN 24 s1) 1 + sar (sxN 24 s2) 1)), s2)
  else (toU W (sxN 24 s1), s1)

/-- The condition codes of R84, on N, Z, C and V. -/
def condHolds (k : Cond) (n z c v : Bool) : Bool :=
  match k with
  | .eq => z | .ne => !z | .cs => c | .cc => !c | .mi => n | .pl => !n | .vs => v | .vc => !v
  | .hi => c && !z | .ls => !c || z | .ge => n == v | .lt => n != v
  | .gt => !z && n == v | .le => z || n != v | .al => true

/-- A STAT word's flag bits updated (R73, R74). DEDUCED: log entry 63. -/
def statWith (st : Word) (f : Flg) : Word :=
  let keep (w : Word) (i : Nat) (b : Option Bool) : Word := match b with | some x => putBit w i x | none => w
  let raise (w : Word) (i : Nat) (b : Bool) : Word := if b then putBit w i true else w
  let w := keep (keep (keep (keep st 31 f.n) 30 f.z) 29 f.c) 28 f.v
  raise (raise (raise w 3 f.dz) 2 f.aov) 1 f.sat

end Sys2Proof.Machine
end

