-- ==== Sys2Proof/Machine/Ops.lean ====
section
/-! DEFINITION. The named operations over registers, events, counters, memory, the turn's time, the operating state and the
fault log, which every chapter's meanings use. -/

namespace Sys2Proof.Machine

/-- The value of instance i of register r. -/
def State.reg (s : State) (r : RegName) (i : Nat) : Word := Store.get Reg.resetOf s.regs (Reg.key r i)

/-- Instance i of register r given a value. -/
def State.setReg (s : State) (r : RegName) (i : Nat) (v : Word) : State :=
  { s with regs := Store.set Reg.resetOf s.regs (Reg.key r i) v }

/-- Field [hi:lo] of a register, as a number. -/
def State.f (s : State) (r : RegName) (i hi lo : Nat) : Nat := fld (s.reg r i) hi lo

/-- A register with field [hi:lo] replaced. -/
def State.setF (s : State) (r : RegName) (i hi lo n : Nat) : State := s.setReg r i (setFld (s.reg r i) hi lo n)

/-- Bit b of a register. -/
def State.bit (s : State) (r : RegName) (i b : Nat) : Bool := bitOf (s.reg r i) b

/-- A register with bit b set to x. -/
def State.setBit (s : State) (r : RegName) (i b : Nat) (x : Bool) : State := s.setReg r i (putBit (s.reg r i) b x)

/-! Events (R456). -/

/-- The number of the event with bit b of EVT_RAW_w. -/
def evAt (w b : Nat) : Nat := 32 * w + b

def Ev.FAULT_LOGGED := evAt 0 0
def Ev.CFG_ERR := evAt 0 1
def Ev.OWNER_CHANGED := evAt 0 2
def Ev.HANDOVER_TIMEOUT := evAt 0 3
def Ev.OWNER_LAPSED := evAt 0 4
def Ev.HOST_WIGN := evAt 0 5
def Ev.GPIO_EDGE := evAt 0 6
def Ev.PROG_REJECT := evAt 0 8
def Ev.ENG_MIGRATED := evAt 0 9
def Ev.ENG_RETIRED := evAt 0 10
def Ev.ENG_ILL := evAt 0 11
def Ev.ENG_RANGE := evAt 0 12
def Ev.ENG_TOKDROP := evAt 0 13
def Ev.SAFE_COMMIT_DONE := evAt 0 16
def Ev.SAFE_REJECT := evAt 0 17
def Ev.STROKE_DONE := evAt 0 18
def Ev.STROKE_ERR := evAt 0 19
def Ev.LATE_STEP := evAt 0 20
def Ev.CLUSTER_QUIET := evAt 0 24
def Ev.CLUSTER_WAKE := evAt 0 25
def Ev.FABRIC_SAT := evAt 0 26
def Ev.FABRIC_AOV := evAt 0 27
def Ev.FABRIC_AWR := evAt 0 28

def Ev.SECTION_MUTED := evAt 1 0
def Ev.SECTION_SAT := evAt 1 1
def Ev.SECTION_DED := evAt 1 2
def Ev.SECTION_AWR := evAt 1 3
def Ev.SAP_SYNC_LOSS := evAt 1 8
def Ev.SAP_RETIRED := evAt 1 9
def Ev.ASRC_LOCK := evAt 1 10
def Ev.ASRC_UNLOCK := evAt 1 11
def Ev.GUARD_FAULT := evAt 1 12
def Ev.GUARD_XMUTE := evAt 1 13
def Ev.LINK_UP := evAt 1 16
def Ev.LINK_DOWN := evAt 1 17
def Ev.LINK_RETIRED := evAt 1 18
def Ev.LINK_REMOTE_FAULT := evAt 1 19
def Ev.LINK_LATENCY_CHANGED := evAt 1 20
def Ev.LINK_TUN_DONE := evAt 1 21
def Ev.SCHED_SPILL_FULL := evAt 1 24
def Ev.SCHED_C0_OVER := evAt 1 25
def Ev.SCHED_KILL := evAt 1 26
def Ev.SCHED_CPL_DROP := evAt 1 27
def Ev.SCHED_TRACE_DROP := evAt 1 28
def Ev.SCHED_TRACE_FULL := evAt 1 29
def Ev.CORE_RETIRED := evAt 1 30
def Ev.CORE_HALTED := evAt 1 31

def Ev.CORE_WERR := evAt 2 0
def Ev.DMA_DONE := evAt 2 8
def Ev.DMA_HALT := evAt 2 9
def Ev.DMA_TRIG_OVR := evAt 2 10
def Ev.TIMER_EXPIRE := evAt 2 11
def Ev.TIMER_OVR := evAt 2 12
def Ev.SYNTH_LOCK_GAINED := evAt 2 16
def Ev.SYNTH_LOCK_LOST := evAt 2 17
def Ev.SYNTH_REF_LOSS := evAt 2 18
def Ev.SYNTH_RELOCK := evAt 2 19
def Ev.SYNTH_MCLK_OVER := evAt 2 20
def Ev.SYNTH_RAMP_DONE := evAt 2 21
def Ev.PWR_SLEEP_DONE := evAt 2 24
def Ev.PWR_SLEEP_REFUSED := evAt 2 25
def Ev.PWR_WAKE := evAt 2 26
def Ev.PWR_AUTO_RET_DROP := evAt 2 27

def Ev.SEC_SVC_OPEN := evAt 3 0
def Ev.SEC_SVC_FAIL := evAt 3 1
def Ev.SEC_SVC_LOCKOUT := evAt 3 2
def Ev.SEC_SEAL_DONE := evAt 3 3
def Ev.SEC_LOAD_DONE := evAt 3 4
def Ev.SEC_LOAD_ERR := evAt 3 5

/-- An event is raised: its bit of EVT_RAW_(e / 32) ends set (R456, R11). -/
def raise (e : Nat) (s : State) : State := s.setBit .EVT_RAW_w (e / 32) (e % 32) true

/-- Whether any of n instances of a register has bit b set. -/
def anyBit (s : State) (r : RegName) (n b : Nat) : Bool := (List.range n).any (fun i => s.bit r i b)

/-- Bit k of EVT_CFG_SRC.SRC: whether a CFG_ERR flag of block k is set, in R467's bit order (R457). -/
def cfgSrcBit (s : State) (k : Nat) : Bool :=
  match k with
  | 0 => s.bit .SYS_STATUS 0 31
  | 1 => s.bit .PWR_FAULT 0 31
  | 2 => s.bit .SYNTH_FAULT 0 31
  | 3 => s.bit .SEC_STATUS 0 31
  | 4 => s.bit .HOSTIF_STATUS 0 31
  | 5 => s.bit .EVT_CFG_SRC 0 31
  | 6 => s.bit .SCHED_STATUS 0 31
  | 7 => s.bit .DMA_STATUS 0 31
  | 8 => s.bit .TIMER_STATUS 0 31
  | 9 => s.bit .SAFE_STATUS 0 31
  | 10 => s.bit .FABRIC_FAULT 0 31
  | 11 => s.bit .SECTION_FAULT 0 31
  | 12 => s.bit .ASRC_FAULT 0 31
  | 13 => s.bit .GUARD_STATUS 0 31
  | 14 => s.bit .EVT_CFG_SRC 0 14
  | 15 => anyBit s .ENG_FAULT 72 31 || anyBit s .ENGC_MIG_STAT 8 27
  | 16 => anyBit s .SAP_FAULT 64 31
  | 17 => anyBit s .LINK_FAULT 8 31 || s.bit .LINK_RING_FAULT 0 31
  | _ => false

/-- The bit of EVT_CFG_SRC that mirrors the block owning r (R457). -/
def cfgSrcOf (r : RegName) : Nat :=
  let b := (Reg.row r).base
  if b < 0x400F0000 then (b - 0x40000000) / 0x10000
  else if b < 0x42000000 then 15
  else if b < 0x43000000 then 16
  else if b < 0x44000000 then 17
  else 1

/-- The CFG_ERR flag of the block that owns instance i of r is set; CFG_ERR is raised when the block's bit of EVT_CFG_SRC
changes from 0 to 1 (R8, R457). -/
def cfgErr (r : RegName) (i : Nat) (s : State) : State :=
  let (q, j, b) := Reg.cfgErr r i
  let s' := s.setBit q j b true
  if cfgSrcBit s (cfgSrcOf r) then s' else raise Ev.CFG_ERR s'

/-- An event counter steps: it stops at all ones and then sets its OVF bit; the event named for it is raised when it first
changes from zero (R460). -/
def count (r : RegName) (i ovf hi lo : Nat) (ev : Option Nat) (s : State) : State :=
  let n := s.f r i hi lo
  let top := 2 ^ (hi + 1 - lo) - 1
  let s1 := if n < top then s.setF r i hi lo (n + 1) else s
  let s2 := if top ≤ n + 1 then s1.setBit r i ovf true else s1
  match ev with
  | some e => if n = 0 then raise e s2 else s2
  | none => s2

/-- A counter of 24 bits with OVF in bit 31. -/
def count24 (r : RegName) (i : Nat) (ev : Option Nat) (s : State) : State := count r i 31 23 0 ev s

/-- A sticky flag is set, and its event raised when it was clear. -/
def flagEv (r : RegName) (i b e : Nat) (s : State) : State :=
  if s.bit r i b then s else raise e (s.setBit r i b true)

/-- A value the spec leaves open: drawn from the opaque free values, never the same draw twice. DESIGN CHOICE: log entries 6, 68. -/
def draw (s : State) : Nat × State := (Config.freeNat s.free, { s with free := s.free + 1 })

/-! Operating state (R28 to R36). -/

/-- STATE encodings of SYS_STATE. -/
def St.OFF : Nat := 0
def St.POR : Nat := 1
def St.ROM : Nat := 2
def St.FETCH : Nat := 3
def St.VERIFY : Nat := 4
def St.ARMED : Nat := 5
def St.RUN : Nat := 6
def St.HOLD : Nat := 7
def St.RECOVERY : Nat := 8
def St.SERVICE : Nat := 9
def St.TEST : Nat := 10
def St.HALT : Nat := 11

/-- SYS_STATE.STATE. -/
def sysState (s : State) : Nat := s.f .SYS_STATE 0 3 0

/-- SYS_STATE.TURNS: the turn clock runs. -/
def turnsOn (s : State) : Bool := s.bit .SYS_STATE 0 5

/-- The state an event acts on: in SERVICE the state held in PREV (R34, R482). -/
def effState (s : State) : Nat := if sysState s = St.SERVICE then s.f .SYS_STATE 0 19 16 else sysState s

/-- SYS_STATE.HOLD_CAUSE. -/
def holdCause (s : State) : Nat := s.f .SYS_STATE 0 23 20

/-- A transition: PREV takes the state before it (SYS_STATE table). -/
def enter (n : Nat) (s : State) : State :=
  (s.setF .SYS_STATE 0 19 16 (sysState s)).setF .SYS_STATE 0 3 0 n

/-- A transition among ARMED, RUN and HOLD: in SERVICE it moves PREV and STATE stays SERVICE (R34). -/
def enterEff (n : Nat) (s : State) : State :=
  if sysState s = St.SERVICE then s.setF .SYS_STATE 0 19 16 n else enter n s

/-- TURNS and MUTED. -/
def setTurns (b : Bool) (s : State) : State := s.setBit .SYS_STATE 0 5 b
def setMuted (b : Bool) (s : State) : State := s.setBit .SYS_STATE 0 4 b

/-- Bits of HOLD_CAUSE in SYS_STATE. -/
def Hold.REQ : Nat := 20
def Hold.RELOCK : Nat := 21
def Hold.GUARD : Nat := 22
def Hold.SNAP : Nat := 23

/-- An entry to HALT or SERVICE, a return from SERVICE, or a hold cause, with its rank in R37. -/
def markWon (rank : Nat) (s : State) : State := { s with dev := { s.dev with won := some (s.time.hub, rank) } }

/-- Whether an event of this HUBCLK cycle has won over a request of a rank (R37). DESIGN CHOICE: log entry 15. -/
def beaten (s : State) (rank : Nat) : Bool :=
  match s.dev.won with
  | some (h, r) => h == s.time.hub && decide (r < rank)
  | none => false

/-- A hold cause is raised or cleared; one that is raised wins over the requests below it in its HUBCLK cycle (R37). -/
def setHold (c : Nat) (b : Bool) (s : State) : State :=
  let t := s.setBit .SYS_STATE 0 c b
  if b && !s.bit .SYS_STATE 0 c && !beaten s 4 then markWon 4 t else t

/-- The boot states: ROM, FETCH, VERIFY, RECOVERY, and TEST entered from ROM (R367). -/
def bootState (s : State) : Bool :=
  let k := sysState s
  k == St.ROM || k == St.FETCH || k == St.VERIFY || k == St.RECOVERY || (k == St.TEST && s.dev.testRom)

/-- The states in which an image runs on the cores: every state but OFF, POR, the boot states and HALT (R31). -/
def alive (s : State) : Bool := !(sysState s == St.OFF || sysState s == St.POR || sysState s == St.HALT)

/-! Time (R48, R59, R60). -/

/-- N, the ENGCLK cycles of a turn (R48). -/
def turnLen (s : State) : Nat :=
  match s.f .SYS_TURN_CFG 0 1 0 with
  | 0 => 8192
  | 1 => 4096
  | _ => 2048

/-- The rate multiplier 1, 2 or 4. -/
def rateMul (s : State) : Nat := 8192 / turnLen s

/-- The ENGCLK cycle within the turn; 0 while turns are stopped or frozen (R60). DESIGN CHOICE: log entry 26. -/
def cycleNow (s : State) : Nat := if turnsOn s then s.time.clk else 0

/-- The 32-bit time stamp (R60). -/
def stamp (s : State) : Word := BitVec.ofNat 32 ((s.time.turn.toNat % 65536) * 65536 + cycleNow s % 65536)

/-- The enable a change writes: of a later write and an earlier one that wait for the same boundary, the later stands. -/
def PendAct.enable : PendAct → Option (Nat × Nat)
  | .engEn pe _ => some (0, pe)
  | .sapEn p _ => some (1, p)
  | .asrcEn n _ => some (2, n)
  | .linkEn l _ => some (3, l)
  | .chainEn c _ => some (4, c)
  | _ => none

/-- A change that takes effect at the coming boundary, while turns run: it waits for the next commit cut (R58). -/
def later (a : PendAct) (s : State) : State :=
  let rest := s.dev.pendNew.filter (fun b => a.enable.isNone || b.enable != a.enable)
  { s with dev := { s.dev with pendNew := rest ++ [a] } }

/-- The grid stands at clk n, or where it stood if that is later; HUBCLK, at half of ENGCLK, has counted with it (R48). DESIGN
CHOICE: log entries 2, 26. -/
def setClk (n : Nat) (s : State) : State :=
  { s with time := { s.time with clk := max n s.time.clk, hub := s.time.hub + (max n s.time.clk / 2 - s.time.clk / 2) } }

/-- The grid reaches its next boundary. -/
def nextGrid (s : State) : State :=
  let s := setClk (turnLen s) s
  { s with time := { s.time with grid := s.time.grid + 1, clk := 0 } }

/-- Outputs are muted: every output is zero, and so is y_prev of the guards (R33, R269). -/
def muteOutputs (s : State) : State :=
  { setMuted true s with guard := { s.guard with yPrev := [] }, port := { s.port with sent := [] },
                         link := { s.link with guarded := [] } }

/-- An ENGCLK instant counted over the grid's boundaries. -/
def gridTime (s : State) : Nat := s.time.grid * turnLen s + s.time.clk

/-! Memory: bytes by primary address, words by address. -/

/-- A stored byte; unwritten memory reads zero (log entry 3). -/
def getByte (s : State) (a : Nat) : Byte := Store.get zeroOf s.mem a
def setByte (s : State) (a : Nat) (v : Byte) : State := { s with mem := Store.set zeroOf s.mem a v }

/-- n bytes from address a up. -/
def getBytes (s : State) : Nat → Nat → List Byte
  | _, 0 => []
  | a, n + 1 => getByte s a :: getBytes s (a + 1) n

/-- Bytes stored from address a up. -/
def setBytes (s : State) : Nat → List Byte → State
  | _, [] => s
  | a, b :: t => setBytes (setByte s a b) (a + 1) t

/-- The little-endian word at a byte address. -/
def getWord (s : State) (a : Nat) : Word := wordOfBytes (getBytes s a 4)
def setWord (s : State) (a : Nat) (v : Word) : State := setBytes s a (bytesOfWord v)

/-- A 32-bit slot of the memories that hold words. DESIGN CHOICE: log entry 3. -/
def getSlot (s : State) (a : Nat) : Word := Store.get zeroOf s.wmem a

/-- The condition of a stored word's check bits: 0 clean, 1 a single-bit, 2 a double-bit error. DESIGN CHOICE: log entry 13. -/
def upsetOf (s : State) (a : Nat) : Nat := Store.get natZero s.upset a
def setUpset (s : State) (a n : Nat) : State := { s with upset := Store.set natZero s.upset a n }

/-- A slot is written, with valid check bits. -/
def setSlot (s : State) (a : Nat) (v : Word) : State :=
  { s with wmem := Store.set zeroOf s.wmem a v, upset := Store.set natZero s.upset a 0 }

/-! The fault log (R43 to R47). -/

/-- One entry, written at NEXT; COUNT saturates and sets OVF; FAULT_LOGGED is raised. -/
def logFault (event utype unit : Nat) (detail : Word) (s : State) : State :=
  let next := s.f .AON_FAULT_STAT 0 5 0
  let a := 0xF0008000 + 16 * next
  let t := s.time.turn.toNat
  let s := setSlot s a (BitVec.ofNat 32 (0x80000000 + event * 65536 + utype * 4096 + unit))
  let s := setSlot s (a + 4) (BitVec.ofNat 32 t)
  let s := setSlot s (a + 8) (BitVec.ofNat 32 (t / 2 ^ 32 * 65536 + cycleNow s))
  let s := setSlot s (a + 12) detail
  let s := s.setF .AON_FAULT_STAT 0 5 0 (next + 1)
  raise Ev.FAULT_LOGGED (count .AON_FAULT_STAT 0 15 31 16 none s)

/-- An entry's words read back, oldest address first. -/
def faultEntryAt (s : State) (n : Nat) : List Word := (List.range 4).map (fun k => getSlot s (0xF0008000 + 16 * n + 4 * k))

/-- A measurement in progress is abandoned when the device leaves TEST: BUSY clears and TIMEOUT is set (R66). -/
def abandonProbe (s : State) : State :=
  if s.bit .SYS_PROBE_RESULT 0 29 then
    let s := ((s.setReg .SYS_PROBE_RESULT 0 0x40000000))
    { s with dev := { s.dev with probe := .idle, marker := false } }
  else s

/-- The writes of an initiator that the fabric's commit window holds are gone. -/
def dropHeld (who : Initiator) (s : State) : State :=
  { s with fab := { s.fab with held := s.fab.held.filter (fun e => e.1 != who) } }

/-- The bytes of the next write; unspecified ones are free values. DEDUCED: log entry 40. -/
def dmaBytes (j : DmaJob) : List Nat → List Byte → State → List (Nat × Byte) × State
  | a :: t, b :: u, s =>
    let (v, s) := if j.open_ a then (let (x, s) := draw s; (BitVec.ofNat 8 x, s)) else (b, s)
    let (l, s) := dmaBytes j t u s
    ((a, v) :: l, s)
  | _, _, s => ([], s)

/-- The write of a running channel that has left it and waits for its target (R353). -/
def dmaInFlight (n : Nat) (s : State) : List DmaWrite × State :=
  match s.dma.jobs.find? (fun j => j.ch == n) with
  | some j =>
    if s.f .DMA_CH_n_STAT n 31 29 = 2 ∧ j.dir = 1 then
      let (l, t) := dmaBytes j j.writeBytes j.buf s
      ([⟨n, j.writeAddr, l, .left, false⟩], t)
    else ([], s)
  | none => ([], s)

/-- What a DMA channel still holds of its last trigger and of its writes is gone, but for the writes that have left it: those complete at
their targets (R353). -/
def dmaDrop (n : Nat) (s : State) : State :=
  let (now, s) := dmaInFlight n s
  let old := (s.dma.failed.filter (fun w => w.ch == n && (w.stage == .again || w.stage == .left))).map (fun w => { w with stage := .left })
  { s with dma := { s.dma with trig := Store.set natZero s.dma.trig n 0,
                               failed := s.dma.failed.filter (fun w => w.ch != n) ++ old ++ now,
                               sent := s.dma.sent.filter (fun w => w.ch != n) } }

/-- A write of 0 to CH_EN of DMA channel n (R353): OFF, pending trigger discarded, unwritten data lost; CUR, REMAIN and DESC_CNT
are undefined until the next activation, so free values; ERRADDR, ERRDIR and ERR stay. -/
def dmaOff (n : Nat) (s : State) : State :=
  let s := s.setBit .DMA_CH_n_CTRL n 0 false
  if s.f .DMA_CH_n_STAT n 31 29 = 0 then s else
  let (a, s) := draw s
  let (b, s) := draw s
  let (c, s) := draw s
  let s := dmaDrop n s
  let s := s.setF .DMA_CH_n_STAT n 31 29 0
  let s := s.setF .DMA_CH_n_STAT n 22 21 0
  let s := s.setF .DMA_CH_n_STAT n 15 0 c
  let s := s.setReg .DMA_CH_n_CUR n (BitVec.ofNat 32 a)
  let s := s.setReg .DMA_CH_n_REMAIN n (BitVec.ofNat 32 (b % 2 ^ 24))
  let s := s.setBit .DMA_HALTED 0 n false
  { s with dma := { s.dma with jobs := s.dma.jobs.filter (fun j => j.ch != n) } }

/-- In HALT every DMA channel behaves as if CH_EN had been written 0 (R358). -/
def dmaAllOff (s : State) : State := (List.range 32).foldl (fun t n => dmaOff n t) s

/-- Entry to HALT with a cause (R30, R43, R47): not from OFF, POR or HALT. The fault log entry is written first; outputs are
muted and turns stop; of what comes in the same HUBCLK cycle, a lower event loses (R37). -/
def haltEnter (cause : Nat) (s : State) : State :=
  if alive s then
    let s := logFault 0x08 0 0 (BitVec.ofNat 32 cause) s
    let s := abandonProbe s
    let s := (enter St.HALT s).setF .SYS_STATE 0 15 8 cause
    let s := dmaAllOff (muteOutputs (setTurns false s))
    { s with dev := { s.dev with starting := false, freeze := false, cutPast := false, late := [], pendNew := [], pendCut := [],
                                 exch := [], won := some (s.time.hub, 3) } }
  else s

/-! Harts: control cores and lanes. -/

/-- The hart number of lane L of physical engine pe. -/
def laneHart (pe L : Nat) : Nat := 16 + 4 * pe + L

/-- The profile width W of a hart (R95). -/
def widthOf (h : Nat) : Nat := if h < 16 then 32 else 24

/-- The accumulator x of a hart, as a signed number. -/
def getAcc (s : State) (h x : Nat) : Int := (Store.get zeroOf s.hart.acc (4 * h + x)).toInt
def setAcc (h x : Nat) (v : Int) (s : State) : State :=
  { s with hart := { s.hart with acc := Store.set zeroOf s.hart.acc (4 * h + x) (BitVec.ofInt 56 v) } }

/-- STAT of a hart. -/
def getStat (s : State) (h : Nat) : Word := Store.get zeroOf s.hart.stat h
def setStat (h : Nat) (v : Word) (s : State) : State :=
  { s with hart := { s.hart with stat := Store.set zeroOf s.hart.stat h v } }

/-- Flags written by an operation. -/
def putFlags (h : Nat) (f : Flg) (s : State) : State := setStat h (statWith (getStat s h) f) s

/-- The generator state of a hart; a write of 0 stores 1 (R127). -/
def getDice (s : State) (h : Nat) : Nat := (Store.get diceReset s.hart.dice h).toNat
def setDice (h v : Nat) (s : State) : State :=
  { s with hart := { s.hart with dice := Store.set diceReset s.hart.dice h
                                    (BitVec.ofNat 24 (if v % 2 ^ 24 = 0 then 1 else v)) } }

/-- A stored data register, by the number HartState gives it. -/
def getPhys (s : State) (h n : Nat) : Word := Store.get zeroOf s.hart.r (64 * h + n)
def setPhys (h n : Nat) (v : Word) (s : State) : State :=
  { s with hart := { s.hart with r := Store.set zeroOf s.hart.r (64 * h + n) v } }

/-- A lane's pointer register, 14 bits (R73). -/
def getPtr (s : State) (h p : Nat) : Nat := (getPhys s h (8 + p)).toNat
def setPtr (h p v : Nat) (s : State) : State := setPhys h (8 + p) (BitVec.ofNat 32 (v % 16384)) s

end Sys2Proof.Machine
end

