-- ==== Sys2Proof/Machine/AddrMap.lean ====
section
/-! DEFINITION. What a region of the address map permits (13_memory_and_coherence.md R365 to R367, 16_boot_and_security.md R423,
R437). -/

namespace Sys2Proof.Machine

/-- From entering ROM until the device leaves VERIFY, or the test entered from ROM, ends (R423). SERVICE opened in RECOVERY keeps
it closed. DEDUCED: log entry 56. -/
def fenceClosed (s : State) : Bool :=
  bootState s || (sysState s == St.SERVICE && s.f .SYS_STATE 0 19 16 == St.RECOVERY)

/-- Whether the boot fence keeps everyone but the ROM from an address: all but the load window while it is open (R423, R427). -/
def fenceBars (a : Nat) (s : State) : Bool :=
  fenceClosed s && !(s.boot.window && (regionOf a == .hub || regionOf a == .hubAlias))

/-- Whether n bytes at an address meet the stream of a sealed load, which takes no write (R437). -/
def loadBars (a n : Nat) (s : State) : Bool :=
  match s.boot.load with | some (b, m) => overlap (primary a) n b m | none => false

/-- Memory made of bytes. -/
def isByteMem (r : Region) : Bool :=
  r == .localMem || r == .shared || r == .sharedAlias || r == .hub || r == .hubAlias

/-- Regions whose accesses must be 32 bits wide and aligned (R365, R6). -/
def isWordOnly (r : Region) : Bool :=
  r == .lane || r == .prog || r == .sectMem || r == .fabric || r == .regs || r == .aonRegs || r == .faultLog || r == .saveMem

/-- Regions a core's data cache holds. -/
def isCached (r : Region) : Bool := r == .shared || r == .hub

/-- Whether a core may fetch from an address (R365, R367). -/
def canFetch (s : State) (a : Nat) : Bool :=
  match regionOf a with
  | .rom => bootState s
  | .localMem | .shared | .hub => true
  | _ => false

/-- Bytes of the flash device, from FLASH_CFG.SIZE (R443). -/
def flashSize (s : State) : Nat := 2 ^ s.f .FLASH_CFG 0 4 0

/-- Whether a register stands at an address (R366); the always-on registers included. -/
def regAt (a : Nat) : Bool := (Reg.lookup a).isSome

/-- The OTP window (R429) and the alternate route table (R292). -/
def inOtp (a : Nat) : Bool := decide (0x40030400 ≤ a) && decide (a < 0x40030C00)
def inAltTable (a : Nat) : Bool := decide (0x43081000 ≤ a) && decide (a < 0x43083000)

/-- The gap that fabric memory leaves unmapped, and the part of it that only reads (R201). -/
def fabGap (a : Nat) : Bool := decide (0x3C108000 ≤ a) && decide (a < 0x3C110000)
def fabReadOnly (a : Nat) : Bool := decide (0x3C120000 ≤ a)

/-- Whether a read of n bytes at an address, aligned, is answered with data rather than a bus error. A core load from the boot
ROM outside the boot states is not readable (R367). -/
def readable (s : State) (isCore : Bool) (a n : Nat) : Bool :=
  let r := regionOf a
  if isWordOnly r && n != 4 then false
  else match r with
    | .gap => false
    | .fabric => !fabGap a
    | .rom => !isCore || bootState s
    | .flash => decide (sysState s ≠ St.ROM) && decide (a - 0x80000000 < flashSize s)
    | .regs | .aonRegs => regAt a || inOtp a || inAltTable a
    | _ => true

end Sys2Proof.Machine
end

