-- ==== Sys2Proof/Machine/Operands.lean ====
section
/-! DEFINITION. Ramtal's operand forms (03_ramtal_encoding.md R69 to R82, 05_engines.md R142 to R148, R159): registers of
both profiles, and the engine memory operands. -/

namespace Sys2Proof.Machine

/-- The number under which HartState keeps core register g, given RRB (R72). -/
def physIdx (rrb g : Nat) : Nat := if g < 16 then g else 16 + (g - 16 + rrb) % 16

/-- RRB of a core. -/
def getRrb (s : State) (c : Nat) : Nat := (Store.get zeroOf s.core.rrb c).toNat

/-- Whether a register field of a word is defined for a read, and for a write, in the hart's profile (R73, R92). -/
def legalRead (h r : Nat) : Bool := decide (h < 16) || decide (r ≤ 14)
def legalWrite (h r : Nat) : Bool := decide (h < 16) || decide (r ≤ 11) || r == 14

/-- The physical engine of a lane's hart number, and the lane. -/
def peOf (h : Nat) : Nat := (h - 16) / 4
def laneOf (h : Nat) : Nat := (h - 16) % 4

/-- The value of a register field (R71, R73). -/
def readReg (s : State) (h r : Nat) : Nat :=
  if h < 16 then
    if r = 0 then 0 else (getPhys s h (physIdx (getRrb s h) r)).toNat
  else if r ≤ 11 then (getPhys s h r).toNat
  else if r = 12 then s.f .ENG_DB (peOf h) 13 0
  else if r = 13 then laneOf h
  else 0

/-- A write to a register field; g0 and ZR discard it (R96). A core register written by a later word is no longer a pending
load's. -/
def writeReg (h r v : Nat) (s : State) : State :=
  if h < 16 then
    if r = 0 then s else
      let p := physIdx (getRrb s h) r
      let s := setPhys h p (BitVec.ofNat 32 v) s
      { s with core := { s.core with pend := s.core.pend.map (fun l =>
          if l.core = h ∧ l.dst = p then { l with live := false } else l) } }
  else if r ≤ 7 then setPhys h r (BitVec.ofNat 32 (v % 2 ^ 24)) s
  else if r ≤ 11 then setPhys h r (BitVec.ofNat 32 (v % 2 ^ 14)) s
  else s

/-! Lane memory regions (R142). -/

def dWords (s : State) (pe : Nat) : Nat := 1024 * 2 ^ s.f .ENG_LANE_MAP pe 2 0
def pWords (s : State) (pe : Nat) : Nat := 16 * s.f .ENG_LANE_MAP pe 25 16
def sWords (s : State) (pe : Nat) : Nat := 16384 - dWords s pe - 2 * pWords s pe

/-- DB of an engine. -/
def dbOf (s : State) (pe : Nat) : Nat := s.f .ENG_DB pe 13 0

/-- Byte address of a lane word (R144), and of a program word. -/
def laneAddr (pe L w : Nat) : Nat := 0x20000000 + pe * 0x40000 + L * 0x10000 + 4 * w
def progAddr (pe w : Nat) : Nat := 0x30000000 + pe * 0x8000 + 4 * w

/-- What an engine memory operand reaches (R145). -/
inductive Reach where
  | word (w : Nat)
  | inBox (i : Nat)
  | outBox (i : Nat)
  | cross (e L i : Nat)
  | none
deriving DecidableEq, Repr

/-- The cluster of a physical engine and its slot; the physical engine that runs a logical slot (R13, R14). -/
def clusterOf (pe : Nat) : Nat := pe / 9
def remapSlot (s : State) (cl k : Nat) : Nat := s.f .ENGC_REMAP cl (4 * k + 3) (4 * k)
def physOf (s : State) (e : Nat) : Nat := 9 * (e / 8) + remapSlot s (e / 8) (e % 8)

/-- Whether a physical engine is retired (R175). -/
def engRetired (s : State) (pe : Nat) : Bool := s.bit .ENGC_RETIRE (pe / 9) (pe % 9)

/-- The logical slot that a physical engine runs. -/
def slotOf (s : State) (pe : Nat) : Option Nat :=
  (List.range 8).find? (fun k => remapSlot s (pe / 9) k == pe % 9)

/-- The logical engine that a physical engine runs; a spare that runs none is given its cluster's first. -/
def logicalOf (s : State) (pe : Nat) : Nat := 8 * (pe / 9) + (slotOf s pe).getD 0

/-- The word reached by an offset in a space (R145). -/
def reach (s : State) (pe : Nat) (sp : Space) (o : Nat) : Reach :=
  let D := dWords s pe
  let P := pWords s pe
  match sp with
  | .delay => .word ((dbOf s pe + o) % D)
  | .palette => if o < P then .word (D + (if s.bit .ENG_STATUS pe 3 then P else 0) + o) else .none
  | .scratch =>
    if o < 16 then .inBox o else if o < 32 then .outBox (o - 16)
    else if o < sWords s pe + 32 then .word (D + 2 * P + (o - 32)) else .none
  | .cross => .cross (8 * clusterOf pe + o / 64 % 8) (o / 16 % 4) (o % 16)

/-- The mailbox key of EngState. -/
def boxKey (e L i : Nat) : Nat := 64 * e + 16 * L + i

/-- The value a lane reads through an operand (R144, R148, R159); a word with a double-bit error reads 0 (R167), a word marked
"none" reads zero. The number is the 24-bit word. -/
def readReach (s : State) (pe L : Nat) : Reach → Nat
  | .word w => if upsetOf s (laneAddr pe L w) = 2 then 0 else (getSlot s (laneAddr pe L w)).toNat % 2 ^ 24
  | .inBox i => (Store.get zeroOf s.eng.inE (boxKey (logicalOf s pe) L i)).toNat
  | .outBox i => (Store.get zeroOf s.eng.outE (boxKey (logicalOf s pe) L i)).toNat
  | .cross e L' i => (Store.get zeroOf s.eng.outF (boxKey e L' i)).toNat
  | .none => 0

/-- The offset of an operand, given the pointers of a lane. -/
def offsetOf (s : State) (h : Nat) : Offset → Nat
  | .imm o => o.val
  | .ptr p _ => getPtr s h p.val

/-- A pointer after its modification, modulo 2^14 (R81). -/
def ptrAfter (pm : PtrMod) (v : Nat) : Nat :=
  match pm with
  | .keep => v
  | .inc => (v + 1) % 16384
  | .dec => (v + 16383) % 16384
  | .inc2 => (v + 2) % 16384

/-- The reach of a memory operand for a lane (R80 to R82). -/
def opReach (s : State) (h : Nat) (op : MemOp) : Reach := reach s (peOf h) op.space (offsetOf s h op.off)

/-- The pointer modification of an operand, from the state s0 before the word (R91). -/
def opModify (s0 : State) (h : Nat) (op : MemOp) (s : State) : State :=
  match op.off with
  | .imm _ => s
  | .ptr p pm => if pm = .keep then s else setPtr h p.val (ptrAfter pm (getPtr s0 h p.val)) s

/-- An offset that stands in the word: OFF[13:9] is reserved in SPACE 11 (R82). -/
def opLegal (op : MemOp) : Bool :=
  match op.space, op.off with
  | .cross, .imm o => decide (o.val < 512)
  | _, _ => true

/-- A target of writes to a migrating engine's memory (R169, R172): the spare of its cluster, if the engine is the source. -/
def mirrorPe (s : State) (pe : Nat) : Option Nat :=
  (s.eng.mig.find? (fun m => m.src == pe)).map (fun m => 9 * m.cl + 8)

/-- A write to a word of lane memory: its check bits become valid, a waiting write-back is cancelled (R164), and the word of
the spare follows while the engine migrates (R169); after a double-bit error only the palettes do (R172). -/
def writeLane (pe L w v : Nat) (s : State) : State :=
  let put (p : Nat) (s : State) : State := setSlot s (laneAddr p L w) (slot24 v)
  let s1 := put pe s
  let s2 := { s1 with eng := { s1.eng with wback := s1.eng.wback.filter (fun x => x != (pe, L, w)) } }
  let D := dWords s pe
  let inPal := decide (D ≤ w) && decide (w < D + 2 * pWords s pe)
  match s.eng.mig.find? (fun m => m.src == pe) with
  | some m => if m.kind != .doubleBit || inPal then put (9 * m.cl + 8) s2 else s2
  | none => s2

/-- A lane writes a 24-bit value through an operand (R145, R148). -/
def writeReach (pe L : Nat) (x : Reach) (v : Nat) (s : State) : State :=
  match x with
  | .word w => writeLane pe L w v s
  | .inBox i => { s with eng := { s.eng with inE := Store.set zeroOf s.eng.inE (boxKey (logicalOf s pe) L i) (BitVec.ofNat 24 v) } }
  | .outBox i => { s with eng := { s.eng with outE := Store.set zeroOf s.eng.outE (boxKey (logicalOf s pe) L i) (BitVec.ofNat 24 v) } }
  | .cross _ _ _ | .none => s

/-! System registers (R90). -/

/-- The system registers of a core, and those of an engine. -/
def sysDefined (h num : Nat) (toSys : Bool) : Bool :=
  match num with
  | 0 => true
  | 1 | 4 | 5 | 6 => decide (h < 16)
  | 2 | 3 => !toSys
  | 0x10 => true
  | _ => false

/-- What SYS reads (R90); the number has the profile's width. -/
def sysRead (s : State) (h num : Nat) : Nat :=
  match num with
  | 0 =>
    let st := (getStat s h).toNat
    if h < 16 then st else (st / 2 ^ 28) * 2 ^ 20 + st % 2 ^ 20
  | 1 => getRrb s h
  | 2 => if h < 16 then h else logicalOf s (peOf h)
  | 3 => (stamp s).toNat % 2 ^ widthOf h
  | 4 => (Store.get vbaseReset s.core.vbase h).toNat
  | 5 => (Store.get zeroOf s.core.epc h).toNat
  | 6 => (Store.get zeroOf s.core.ecause h).toNat
  | 0x10 => getDice s h
  | _ => 0

/-- What SYS writes (R73, R74, R90, R127). -/
def sysWrite (h num v : Nat) (s : State) : State :=
  let w : Word := BitVec.ofNat 32 v
  match num with
  | 0 =>
    if h < 16 then setStat h (w &&& 0xF000000E) s
    else setStat h (BitVec.ofNat 32 ((v / 2 ^ 20 % 16) * 2 ^ 28 + (v / 2 % 4) * 2)) s
  | 1 => { s with core := { s.core with rrb := Store.set zeroOf s.core.rrb h (BitVec.ofNat 4 v) } }
  | 4 => { s with core := { s.core with vbase := Store.set vbaseReset s.core.vbase h (w &&& 0xFFFFFF00) } }
  | 5 => { s with core := { s.core with epc := Store.set zeroOf s.core.epc h w } }
  | 6 => { s with core := { s.core with ecause := Store.set zeroOf s.core.ecause h (w &&& 0xFFFF) } }
  | 0x10 => setDice h v s
  | _ => s

end Sys2Proof.Machine
end

