-- ==== Sys2Proof/Machine/Sched.lean ====
section
/-! DEFINITION. The hardware scheduler (11_cores_and_scheduler.md R310 to R340): tokens, matching, ready lists, spill,
dispatch, release, cancellation, aging and trace, as operations on the state. -/

namespace Sys2Proof.Machine

/-- The scheduler's state replaced. -/
def setSched (x : SchedState) (s : State) : State := { s with sched := x }

/-- SCHED_CORE_n_STAT.STATE: 0 STOPPED, 1 running, 2 waiting in GET, 3 HALTED, 4 RETIRED. -/
def coreMode (s : State) (c : Nat) : Nat := s.f .SCHED_CORE_n_STAT c 31 29
def setCoreMode (c n : Nat) (s : State) : State := s.setF .SCHED_CORE_n_STAT c 31 29 n

/-- A core that is retired, or has stopped for its retirement (R309). -/
def coreGone (s : State) (c : Nat) : Bool := coreMode s c == 4 || s.core.stopped.contains c

/-! Trace (R336 to R338). -/

def Tr.READY : Nat := 1
def Tr.DISPATCH : Nat := 2
def Tr.DONE : Nat := 3
def Tr.RELEASE : Nat := 4
def Tr.CANCEL : Nat := 5
def Tr.SPILL : Nat := 6
def Tr.UNSPILL : Nat := 7
def Tr.KILL : Nat := 8

/-- STATUS of R323 and R337. -/
def relCode : RelStatus → Nat
  | .finished => 0
  | .aborted => 1
  | .cancelled => 2

/-- Size of the trace ring in bytes. -/
def traceSize (s : State) : Nat := 4096 * 2 ^ s.f .SCHED_TRACE_SIZE 0 2 0

/-- The words of a trace entry (R337). -/
def traceWords (s : State) (ev : Nat) (it : Item) (core : Nat) (st : Nat) : List Word :=
  let seq := match it.seq with | some q => 32768 + q | none => 0
  [stamp s,
   BitVec.ofNat 32 (ev * 2 ^ 28 + it.lst * 2 ^ 26 + it.flow * 2 ^ 16 + core * 2 ^ 12 + it.tag),
   BitVec.ofNat 32 (st * 2 ^ 30 + seq),
   BitVec.ofNat 32 (s.time.turn.toNat / 65536)]

/-- The place of an event among those of one cycle (R336). -/
def traceRank (ev : Nat) : Nat :=
  if ev = Tr.READY then 0 else if ev = Tr.CANCEL then 1 else if ev = Tr.DISPATCH then 2 else if ev = Tr.DONE then 3
  else if ev = Tr.KILL then 4 else if ev = Tr.RELEASE then 5 else if ev = Tr.SPILL then 6 else 7

/-- An entry put in its place among those of its cycle, after those of its own kind. -/
def insertEntry (e : Nat × List Word) : List (Nat × List Word) → List (Nat × List Word)
  | [] => [e]
  | x :: t => if e.1 < x.1 then e :: x :: t else x :: insertEntry e t

/-- The scheduler starts no new access to memory in HALT (R367). -/
def inHalt (s : State) : Bool := sysState s == St.HALT

/-- A word written through the scheduler's port to hub memory, with valid check bits (R20, R330). One that the boot fence or a
sealed load keeps from memory ends with a bus error and changes nothing (R423, R437). DEDUCED: log entry 95. -/
def putWord (a : Nat) (w : Word) (s : State) : State :=
  if fenceBars a s || loadBars a 4 s then s else setUpset (setWord s a w) a 0

/-- Words written through the scheduler's port at consecutive addresses. -/
def putWords (s : State) : Nat → List Word → State
  | _, [] => s
  | a, w :: t => putWords (putWord a w s) (a + 4) t

/-- The entries of a cycle at their places in the ring, the first at offset p. -/
def putEntries (base size : Nat) : Nat → List (Nat × List Word) → State → State
  | _, [], s => s
  | p, e :: t, s => putEntries base size ((p + 16) % size) t (putWords s (base + p) e.2)

/-- The ring is stopped: STOP and FULL (R338). -/
def traceStopped (s : State) : Bool := s.bit .SCHED_TRACE_CTRL 0 1 && s.bit .SCHED_TRACE_CTRL 0 2

/-- The port still takes the entries of an earlier cycle. DEDUCED: log entry 66. -/
def traceBusy (s : State) : Bool := s.time.hub != s.sched.traceHub && decide (s.time.hub < s.sched.traceFree)

/-- A traced event writes its entry at SCHED_TRACE_BASE + PTR and advances PTR; the entries of one cycle stand in the order of R336.
A stopped ring and a busy port drop the entry and count it. With STOP, the ring is full once PTR is back where it was at the last
write of EN := 1 (R338). Nothing is written in HALT (R367). DEDUCED: log entries 66, 95. -/
def trace (ev : Nat) (it : Item) (core : Nat) (st : Nat) (s : State) : State :=
  if inHalt s then s
  else if s.bit .SCHED_TRACE_CTRL 0 0 && s.bit .SCHED_TRACE_CTRL 0 (7 + ev) then
    if traceStopped s || traceBusy s then count24 .SCHED_TRACE_DROP 0 (some Ev.SCHED_TRACE_DROP) s
    else
      let old := if s.time.hub = s.sched.traceHub then s.sched.traceCyc else []
      let cyc := insertEntry (traceRank ev, traceWords s ev it core st) old
      let size := traceSize s
      let ptr := (s.reg .SCHED_TRACE_PTR 0).toNat
      let first := (ptr + (size - 16 * old.length % size)) % size
      let ptr' := (ptr + 16) % size
      let s1 := putEntries (s.reg .SCHED_TRACE_BASE 0).toNat size first cyc s
      let free := (if s.time.hub = s.sched.traceHub then max s.sched.traceFree s.time.hub else s.time.hub) + 2
      let s2 := setSched { s1.sched with traceCyc := cyc, traceHub := s.time.hub, traceFree := free }
        (s1.setReg .SCHED_TRACE_PTR 0 (BitVec.ofNat 32 ptr'))
      if s.bit .SCHED_TRACE_CTRL 0 1 && ptr' == s.sched.tracePtr0 then
        raise Ev.SCHED_TRACE_FULL (s2.setBit .SCHED_TRACE_CTRL 0 2 true)
      else s2
  else s

/-! Places of items. -/

/-- The on-chip list of class c, oldest first. -/
def onChip (s : State) (c : Nat) : List Item := s.sched.ready.filter (fun i => i.lst == c)
def waitingOf (s : State) (c : Nat) : List Item := s.sched.waiting.filter (fun i => i.lst == c)
def ringOf (s : State) (c : Nat) : List Item := s.sched.spilled.filter (fun i => i.lst == c)

/-- The spilled items that have not been released in their place (R320). -/
def undispatched (s : State) : List Item := s.sched.spilled.filter (fun i => !s.sched.gone.contains i.born)

/-- The list with the first item born at b removed. -/
def dropBorn (b : Nat) (l : List Item) : List Item := l.filter (fun i => i.born != b)

/-- Items that hold matching-store entries: open, on an on-chip list, or waiting (R313). -/
def inStore (s : State) : List Item := s.sched.opens ++ s.sched.ready ++ s.sched.waiting

/-- Matching-store entries in use by class 0, and by classes 1 to 3. -/
def storeC0 (s : State) : Nat := ((inStore s).filter (fun i => i.own == 0)).length
def storeShared (s : State) : Nat := ((inStore s).filter (fun i => i.own != 0)).length

/-- Whether a matching-store entry is free for a class (R21, R313). -/
def entryFree (s : State) (cls : Nat) : Bool :=
  if cls = 0 then decide (storeC0 s < 256) else decide (storeShared s < 3840)

/-- Entries of each spill region, E of R329. -/
def ringSize (s : State) : Nat := s.f .SCHED_SPILL_SIZE 0 22 16 * 65536 / 96

/-- Whether the scheduler may write one more entry to a class's ring (R329, R367). -/
def ringRoom (s : State) (c : Nat) : Bool := !inHalt s && decide ((ringOf s c).length < ringSize s)

/-- Reorder-buffer entries in use: of class 0's reserve, and in all (R324). -/
def robC0 (s : State) : Nat := (s.sched.await.filter (fun a => a.rob && a.c0)).length
def robAll (s : State) : Nat := (s.sched.await.filter (fun a => a.rob)).length

/-- Whether class 0's reserve has an entry, and whether a reorder-buffer entry is free for a class (R324). -/
def robReserve (s : State) (own : Nat) : Bool := own == 0 && decide (robC0 s < 128)
def robFree (s : State) (own : Nat) : Bool := robReserve s own || decide (robAll s - robC0 s < 1920)

/-- Whether any item of a flow exists (R314). -/
def flowBusy (s : State) (f : Nat) : Bool :=
  (inStore s ++ undispatched s).any (fun i => i.flow == f) || s.sched.held.any (fun h => h.item.flow == f) ||
    s.sched.await.any (fun a => a.item.flow == f)

/-- The reserved class-0 cores that are not retired: res of R317. -/
def resCores (s : State) : List Nat :=
  (List.range 16).filter (fun c => s.bit .SCHED_C0_CORES 0 c && coreMode s c != 4)

/-- A completion token of a flow with CPL_EN, offered to the release group of R312 (R323). -/
def completion (it : Item) (st : RelStatus) (s : State) : State :=
  let fl := s.reg .SCHED_FLOW_f it.flow
  if bitOf fl 30 then
    let seq := match it.seq with | some q => 32768 + q | none => 0
    let v : Word := BitVec.ofNat 32 (relCode st * 2 ^ 30 + it.tag * 2 ^ 16 + seq)
    setSched { s.sched with relQ := s.sched.relQ ++ [⟨fld fl 15 4, fld fl 3 2, v⟩] } s
  else s

/-- A release completes: its trace entry and its completion token (R323). -/
def complete (it : Item) (core : Nat) (st : RelStatus) (s : State) : State :=
  completion it st (trace Tr.RELEASE it core (relCode st) s)

/-- An item that was never dispatched is released: at once if it holds no sequence number, else in its place (R320, R325). -/
def releaseUndispatched (it : Item) (st : RelStatus) (s : State) : State :=
  match it.seq with
  | none => complete it 0 st s
  | some _ => setSched { s.sched with await := s.sched.await ++ [⟨it, 0, some st, false, false⟩] } s

/-- The words of a spill entry (R319, R330). -/
def dispatchWord (it : Item) : Word :=
  BitVec.ofNat 32 (it.lst * 2 ^ 30 + b2n it.ordered * 2 ^ 29 + b2n it.aged * 2 ^ 28 + (it.nops - 1) * 2 ^ 26 +
    it.flow * 2 ^ 16 + it.tag)

/-- An operand slot; one the item does not use gives zero (R130). -/
def opSlot (it : Item) (k : Nat) : Word := ((it.ops.getD k none).getD 0)

/-- Word 1 of a spill entry. -/
def seqWord (it : Item) : Word := BitVec.ofNat 32 (match it.seq with | some q => 32768 + q | none => 0)

def spillWords (it : Item) : List Word :=
  [dispatchWord it, seqWord it, it.stamp, BitVec.ofNat 32 it.pool, opSlot it 0, opSlot it 1, opSlot it 2, opSlot it 3]

/-- Address of entry k of class c's ring (R329). -/
def ringAddr (s : State) (c k : Nat) : Nat := (s.reg .SCHED_SPILL_BASE 0).toNat + 32 * ((c - 1) * ringSize s + k % ringSize s)

/-- SCHED_STATUS.SPILL_FULL follows the regions; its event is raised on a change from 0 to 1 (R331). -/
def refreshFull (s : State) : State :=
  let full := [1, 2, 3].any (fun c => decide (ringSize s ≤ (ringOf s c).length))
  let s' := s.setBit .SCHED_STATUS 0 3 full
  if full && !s.bit .SCHED_STATUS 0 3 then raise Ev.SCHED_SPILL_FULL s' else s'

/-- An item goes to the tail of its class's ring: entry written, SPILL traced, HIGH kept (R329). A double-bit error in its
matching-store entry enters HALT (R30). -/
def ringPut (it : Item) (s : State) : State :=
  if s.sched.bad.contains it.born then haltEnter 4 s else
  let c := it.lst
  let n := (ringOf s c).length
  let k := Store.get natZero s.sched.ringHead c + n
  let s := putWords s (ringAddr s c k) (spillWords it)
  let s := setSched { s.sched with spilled := s.sched.spilled ++ [it] } s
  let s := if s.f .SCHED_SPILL_LEVEL_c (c - 1) 31 16 < n + 1 then s.setF .SCHED_SPILL_LEVEL_c (c - 1) 31 16 (n + 1) else s
  refreshFull (trace Tr.SPILL it 0 0 s)

/-- Where a ready item goes: the on-chip list, the ring, or its matching-store entry (R329, R331). -/
def place (it : Item) (s : State) : State :=
  let c := it.lst
  let keep := setSched { s.sched with waiting := s.sched.waiting ++ [it] } s
  let room := decide ((onChip s c).length < 64) && (waitingOf s c).isEmpty
  if c = 0 then
    if room then setSched { s.sched with ready := s.sched.ready ++ [it] } s else keep
  else if room && (ringOf s c).isEmpty then setSched { s.sched with ready := s.sched.ready ++ [it] } s
  else if (waitingOf s c).isEmpty && ringRoom s c then ringPut it s
  else keep

/-- An item of classes 1 to 3 that no core may run, once the reserved and the retired ones are left out (R320). -/
def poolless (s : State) (it : Item) : Bool :=
  it.own != 0 && !(List.range 16).any (fun c => it.pool.testBit c && !(resCores s).contains c && coreMode s c != 4)

/-- The head entries of a ring whose items have been released leave it; l is the ring. -/
def trimHeads (c : Nat) : List Item → State → State
  | [], s => s
  | it :: t, s =>
    if s.sched.gone.contains it.born then trimHeads c t (setSched { s.sched with
      spilled := dropBorn it.born s.sched.spilled, gone := s.sched.gone.erase it.born,
      ringHead := Store.set natZero s.sched.ringHead c ((Store.get natZero s.sched.ringHead c + 1) % ringSize s) } s)
    else s

/-- The head of every ring is an item that is still undispatched. -/
def trimRings (s : State) : State :=
  refreshFull ([1, 2, 3].foldl (fun t c => trimHeads c (ringOf t c) t) s)

/-- The items that no core may run any more are released as ABORTED at once, and NOPOOL set (R320). A spilled one leaves its entry
behind, which leaves the ring when it comes to the head. DEDUCED: log entry 70. -/
def dropPoolless (s : State) : State :=
  trimRings (((s.sched.ready ++ s.sched.waiting ++ undispatched s).filter (poolless s)).foldl (fun t it =>
    let far := t.sched.spilled.any (fun x => x.born == it.born)
    let t := setSched { t.sched with
      ready := dropBorn it.born t.sched.ready, waiting := dropBorn it.born t.sched.waiting, cancels := t.sched.cancels.erase it.born,
      gone := if far then t.sched.gone ++ [it.born] else t.sched.gone } t
    releaseUndispatched it .aborted (t.setBit .SCHED_STATUS 0 1 true)) s)

/-- An instance whose slots are all filled becomes ready (R316, R320, R335). -/
def becomeReady (it : Item) (s : State) : State :=
  let q := Store.get natZero s.sched.nextSeq it.flow
  let seq := if it.ordered then some q else none
  let it := { it with seq := seq, stamp := stamp s, readyAt := s.time.hub }
  let s := if it.ordered then
      setSched { s.sched with nextSeq := Store.set natZero s.sched.nextSeq it.flow ((q + 1) % 32768) } s else s
  let s := if it.own = 0 then
      (if s.sched.bucket = 0 then raise Ev.SCHED_C0_OVER (count24 .SCHED_C0_OVER 0 none s)
       else setSched { s.sched with bucket := s.sched.bucket - 1 } s) else s
  let s := trace Tr.READY it 0 0 s
  if poolless s it then releaseUndispatched it .aborted (s.setBit .SCHED_STATUS 0 1 true) else place it s

/-- A token matched into an instance (R313): the state after, and whether it was accepted. An instance whose last slot it
fills is left for the end of the cycle; a double-bit error in its entry enters HALT (R30). -/
def matchToken (t : Tok) (s : State) : Bool × State :=
  let d0 := s.reg .SCHED_DESC0_t t.tag
  let nops := fld d0 27 26 + 1
  if !bitOf d0 31 || decide (nops ≤ t.slot) then (true, count24 .SCHED_TOK_BAD 0 none s)
  else
    match s.sched.opens.find? (fun i => i.tag == t.tag && (i.ops.getD t.slot none).isNone && decide (t.slot < i.nops)) with
    | some i =>
      if s.sched.bad.contains i.born then (true, haltEnter 4 s) else
      let i' := { i with ops := i.ops.set t.slot (some t.value) }
      (true, setSched { s.sched with opens := s.sched.opens.map (fun x => if x.born = i.born then i' else x) } s)
    | none =>
      let flow := fld d0 25 16
      let fl := s.reg .SCHED_FLOW_f flow
      let ordered := bitOf fl 31
      let cls := if ordered then fld fl 29 28 else fld d0 29 28
      if entryFree s cls then
        let i : Item := { tag := t.tag, own := cls, lst := cls, flow := flow, ordered := ordered, nops := nops,
                          pool := fld (s.reg .SCHED_DESC1_t t.tag) 15 0,
                          ops := ([none, none, none, none] : List (Option Word)).set t.slot (some t.value),
                          seq := none, aged := false, stamp := 0, readyAt := 0, born := s.sched.births }
        (true, setSched { s.sched with opens := s.sched.opens ++ [i], births := s.sched.births + 1 } s)
      else (false, s)

/-- Whether every slot an instance uses is filled. -/
def filled (i : Item) : Bool := (List.range i.nops).all (fun k => (i.ops.getD k none).isSome)

/-- Items in ascending tag order, keeping the order of equal tags. -/
def insertByTag (i : Item) : List Item → List Item
  | [] => [i]
  | j :: t => if i.tag < j.tag then i :: j :: t else j :: insertByTag i t

/-- The instances filled in this cycle become ready in ascending tag order (R316). -/
def settleReady (s : State) : State :=
  let full := s.sched.opens.filter filled
  let s := setSched { s.sched with opens := s.sched.opens.filter (fun i => !filled i) } s
  (full.foldr insertByTag []).foldl (fun s i => becomeReady i s) s

/-- The first of a list satisfying p, and the list without it. -/
def takeFirst {α : Type} (p : α → Bool) : List α → Option (α × List α)
  | [] => none
  | x :: t => if p x then some (x, t) else (takeFirst p t).map (fun r => (r.1, x :: r.2))

/-- The first of a group's producers, in the order p gives them, whose oldest token the store takes; a refused token stays with its
producer and the next producer is asked (R312, R24). -/
def acceptInTurn {α : Type} (who : α → Nat) (tok : α → Tok) (q : List α) (p : List Nat) (s : State) : Option (Nat × List α × State) :=
  p.findSome? (fun k => (takeFirst (fun x => who x == k) q).bind (fun r =>
    let m := matchToken (tok r.1) s
    if m.1 then some (k, r.2, m.2) else none))

/-- k to n − 1, then 0 to k − 1. -/
def fromOn (k n : Nat) : List Nat := (List.range n).map (fun j => (k + j) % n)

/-- The engine group of R312: one token, clusters in round-robin order from the one after the last served. -/
def acceptEng (s : State) : State :=
  match acceptInTurn EngTok.cl EngTok.tok s.eng.tokq (fromOn s.sched.rrEng 8) s with
  | some (cl, rest, t) => setSched { t.sched with rrEng := (cl + 1) % 8 } { t with eng := { t.eng with tokq := rest } }
  | none => s

/-- The core group: one token, cores in round-robin order. -/
def acceptCore (s : State) : State :=
  match acceptInTurn Prod.fst Prod.snd s.sched.coreQ (fromOn s.sched.rrCore 16) s with
  | some (c, rest, t) => setSched { t.sched with coreQ := rest, rrCore := (c + 1) % 16 } t
  | none => s

/-- One token of a DMA channel, oldest first, or else of a timer (log entry 31). -/
def acceptUnits (s : State) : State :=
  match acceptInTurn Prod.fst Prod.snd s.sched.dmaQ (s.sched.dmaQ.map Prod.fst) s with
  | some (_, rest, t) => setSched { t.sched with dmaQ := rest } t
  | none =>
    match acceptInTurn Prod.fst Prod.snd s.sched.timerQ (s.sched.timerQ.map Prod.fst) s with
    | some (_, rest, t) => setSched { t.sched with timerQ := rest } t
    | none => s

/-- The DMA, timer and release group: one token, release tokens first (log entry 31). A release token that is refused is dropped and
counted (R324). -/
def acceptOther (s : State) : State :=
  match s.sched.relQ with
  | t :: rest =>
    let (ok, s1) := matchToken t s
    let s1 := setSched { s1.sched with relQ := rest } s1
    if ok then s1 else count24 .SCHED_CPL_DROP 0 (some Ev.SCHED_CPL_DROP) s1
  | [] => acceptUnits s

/-- The host group. -/
def acceptHost (s : State) : State :=
  match s.sched.hostQ with
  | t :: rest =>
    let (ok, s1) := matchToken t s
    if ok then setSched { s1.sched with hostQ := rest } s1 else s
  | [] => s

/-- One HUBCLK cycle of acceptance: one token of each group, in the order of R312; then the filled instances become ready. -/
def tokenAcceptCycle (s : State) : State := settleReady (acceptHost (acceptOther (acceptCore (acceptEng s))))

/-! Release and cancellation. -/

/-- The held item of a core. -/
def heldBy (s : State) (c : Nat) : Option Held := s.sched.held.find? (fun h => h.core == c)

/-- A core's held item is released (R323). tr is its trace event: DONE, KILL, or none where the manual gives none. An
unordered item completes at once; an ordered one waits for RELEASE. -/
def releaseHeld (c : Nat) (st : RelStatus) (tr : Option Nat) (s : State) : State :=
  match heldBy s c with
  | none => s
  | some h =>
    let s := setSched { s.sched with held := s.sched.held.filter (fun x => x.core != c) } s
    let s := s.setBit .SCHED_CORE_n_STAT c 28 false
    let s := match tr with | some e => trace e h.item c (if e = Tr.DONE then relCode st else 0) s | none => s
    if h.item.ordered then
      setSched { s.sched with await := s.sched.await.map (fun a =>
        if a.item.born = h.item.born then { a with st := some st } else a) } s
    else complete h.item c st s

/-- The next release of an ordered flow completes (R323). -/
def releaseNext (f : Nat) (s : State) : State :=
  let q := Store.get natZero s.sched.nextRel f
  match s.sched.await.find? (fun a => a.item.flow == f && a.item.seq == some q) with
  | some a =>
    match a.st with
    | some st =>
      let s := setSched { s.sched with await := s.sched.await.filter (fun x => x.item.born != a.item.born),
                                       nextRel := Store.set natZero s.sched.nextRel f ((q + 1) % 32768) } s
      complete a.item a.core st s
    | none => s
  | none => s

/-- The oldest of some items. -/
def oldest : List Item → Option Item
  | [] => none
  | i :: t =>
    match oldest t with
    | some j => if i.born ≤ j.born then some i else some j
    | none => some i

/-- Spilled items of a tag that no pending cancel names. -/
def spilledFree (s : State) (tag : Nat) : List Item :=
  (undispatched s).filter (fun i => i.tag == tag && !s.sched.cancels.contains i.born)

/-- A sequence number after q in flow f, one lower, modulo 32,768. -/
def seqDown (f q : Nat) (i : Item) : Item :=
  match i.seq with
  | some n =>
    let d := (n + 32768 - q) % 32768
    if i.flow = f ∧ 0 < d ∧ d < 16384 then { i with seq := some ((n + 32767) % 32768) } else i
  | none => i

/-- The entries of class c's ring from entry k on hold their items' sequence numbers. -/
def putSeqs (c : Nat) : Nat → List Item → State → State
  | _, [], s => s
  | k, it :: t, s =>
    let a := ringAddr s c k + 4
    putSeqs c (k + 1) t (if getWord s a = seqWord it then s else putWord a (seqWord it) s)

/-- Every ring's entries hold their items' sequence numbers. -/
def writeSeqs (s : State) : State :=
  [1, 2, 3].foldl (fun t c => putSeqs c (Store.get natZero t.sched.ringHead c) (ringOf t c) t) s

/-- An item that became ready in this HUBCLK cycle and is cancelled holds no sequence number: the items after it in its flow, ready
since this cycle too, move down, with their entries in the rings (R327). DEDUCED: log entry 31. -/
def giveBack (i : Item) (s : State) : Item × State :=
  match i.seq with
  | some q =>
    if i.readyAt = s.time.hub then
      let m := seqDown i.flow q
      ({ i with seq := none },
       writeSeqs <| setSched { s.sched with
         ready := s.sched.ready.map m, waiting := s.sched.waiting.map m, spilled := s.sched.spilled.map m,
         await := s.sched.await.map (fun a => { a with item := m a.item }),
         nextSeq := Store.set natZero s.sched.nextSeq i.flow ((Store.get natZero s.sched.nextSeq i.flow + 32767) % 32768) } s)
    else (i, s)
  | none => (i, s)

/-- A ready item that waits in its matching-store entry moves on when space frees (R331); class 0 to its list (R21). -/
def spillStep (c : Nat) (s : State) : State :=
  match waitingOf s c with
  | [] => s
  | it :: _ =>
    let s1 := setSched { s.sched with waiting := dropBorn it.born s.sched.waiting } s
    if (ringOf s c).isEmpty && decide ((onChip s c).length < 64) then
      setSched { s1.sched with ready := s1.sched.ready ++ [it] } s1
    else if c ≠ 0 && ringRoom s c then ringPut it s1
    else s

/-- SCHED_CANCEL (R325 to R327). -/
def cancelTag (tag : Nat) (s : State) : State :=
  match oldest ((inStore s).filter (fun i => i.tag == tag) ++ spilledFree s tag) with
  | none => s.setBit .SCHED_CANCEL_STAT 0 31 true
  | some i =>
    if s.sched.spilled.any (fun x => x.born == i.born) then
      if s.sched.cancels.length < 64 then setSched { s.sched with cancels := s.sched.cancels ++ [i.born] } s
      else s.setBit .SCHED_CANCEL_STAT 0 30 true
    else
      let s := setSched { s.sched with opens := dropBorn i.born s.sched.opens, ready := dropBorn i.born s.sched.ready,
                                       waiting := dropBorn i.born s.sched.waiting } s
      let (i, s) := giveBack i s
      spillStep 0 (releaseUndispatched i .cancelled (trace Tr.CANCEL i 0 0 s))

/-! Unspill and aging. -/

/-- An item as its spill entry in memory holds it (R330); what the entry does not hold is as it was when it spilled. -/
def unspillItem (s : State) (a : Nat) (it : Item) : Item :=
  let w (k : Nat) : Word := getWord s (a + 4 * k)
  let d := w 0
  let nops := fld d 27 26 + 1
  { it with ordered := bitOf d 29, aged := bitOf d 28, nops := nops, flow := fld d 25 16, tag := fld d 11 0,
            seq := if bitOf (w 1) 15 then some (fld (w 1) 14 0) else none, stamp := w 2, pool := fld (w 3) 15 0,
            ops := (List.range 4).map (fun k => if k < nops then some (w (4 + k)) else none) }

/-- With 48 items or fewer on chip the ring's head moves to the tail of the list (R329); it is cancelled if a pending cancel names it
(R326), and released if its entry leaves no core that may run it (R320). A double-bit error on the read enters HALT (R330). -/
def unspillStep (c : Nat) (s : State) : State :=
  match ringOf s c with
  | [] => s
  | it :: _ =>
    if 48 < (onChip s c).length || inHalt s then s else
    let k := Store.get natZero s.sched.ringHead c
    let a := ringAddr s c k
    if (List.range 8).any (fun j => upsetOf s (a + 4 * j) == 2) then haltEnter 4 s else
    let it := unspillItem s a it
    let s := setSched { s.sched with spilled := dropBorn it.born s.sched.spilled,
                                     ringHead := Store.set natZero s.sched.ringHead c ((k + 1) % ringSize s) } s
    let s := trimRings (trace Tr.UNSPILL it 0 0 s)
    if s.sched.cancels.contains it.born then
      let s := setSched { s.sched with cancels := s.sched.cancels.erase it.born } s
      releaseUndispatched it .cancelled (trace Tr.CANCEL it 0 0 s)
    else if poolless s it then releaseUndispatched it .aborted (s.setBit .SCHED_STATUS 0 1 true)
    else setSched { s.sched with ready := s.sched.ready ++ [it] } s

/-- One class's examination of R321: its oldest item moves up when it has waited too long. DEDUCED: log entry 70. -/
def ageOne (c : Nat) (s : State) : State :=
  let limit := s.f .SCHED_CLASS_CFG_c c 27 8
  match (onChip s c).head? with
  | none => s
  | some it =>
    if limit ≠ 0 && decide (16 * limit < s.time.hub - it.readyAt) then
      let it' := { it with lst := c - 1, aged := true }
      let s1 := setSched { s.sched with ready := dropBorn it.born s.sched.ready } s
      let s1 := count24 .SCHED_AGED_CNT 0 none s1
      if (ringOf s (c - 1)).isEmpty && decide ((onChip s (c - 1)).length < 64) then
        setSched { s1.sched with ready := s1.sched.ready ++ [it'] } s1
      else if ringRoom s (c - 1) then ringPut it' s1
      else s
    else s

/-- AGING: the oldest item of class 2 and of class 3 (R321). -/
def agingStep (s : State) : State := ageOne 3 (ageOne 2 s)

/-! Dispatch (R317, R318). -/

/-- Whether an earlier item of the same ordered flow is neither dispatched nor cancelled, or no reorder entry is free. DEDUCED: log entry 70. -/
def blocked (s : State) (it : Item) : Bool :=
  it.ordered &&
    (let base := Store.get natZero s.sched.nextRel it.flow
     let pos (q : Nat) : Nat := (q + 32768 - base) % 32768
     (s.sched.ready ++ s.sched.waiting ++ undispatched s).any (fun j =>
        j.flow == it.flow && j.born != it.born &&
          (match j.seq, it.seq with | some a, some b => decide (pos a < pos b) | _, _ => false)) ||
      !robFree s it.own)

/-- Power domain COREGRP of a core is on or in retention is judged by PWR_STATE (R303, R317); w is its state code. -/
def domainCode (s : State) (d : Nat) : Nat := s.f .PWR_STATE_w (d / 16) (2 * (d % 16) + 1) (2 * (d % 16))

/-- The lowest core of a list that satisfies p. -/
def lowest (l : List Nat) (p : Nat → Bool) : Option Nat := l.find? p

/-- The core that class 0's procedure chooses for an item. -/
def pickC0 (s : State) (idle : List Nat) (it : Item) : Option Nat :=
  let res := resCores s
  let last := Store.get natZero s.sched.lastCore it.flow
  let a := last - 1
  if last ≠ 0 && idle.contains a && (res.contains a || it.pool.testBit a) then some a
  else match lowest idle (fun c => res.contains c) with
    | some k => some k
    | none => lowest idle (fun c => it.pool.testBit c)

/-- The core that the procedure of classes 1 to 3 chooses for an item. -/
def pickC (s : State) (idle : List Nat) (it : Item) : Option Nat :=
  let res := resCores s
  let p := idle.filter (fun c => it.pool.testBit c && !res.contains c)
  let last := Store.get natZero s.sched.lastCore it.flow
  let a := last - 1
  if last ≠ 0 && p.contains a then some a
  else if last ≠ 0 && it.pool.testBit a && !res.contains a &&
      decide (s.time.hub - it.readyAt < s.f .SCHED_AFFINITY 0 15 0) then none
  else p.head?

/-- The first of a class's first four on-chip items that is not blocked and has a core. -/
def choose (s : State) (pick : Item → Option Nat) (c : Nat) : Option (Item × Nat) :=
  ((onChip s c).take 4).findSome? (fun it => if blocked s it then none else (pick it).map (fun k => (it, k)))

/-- A core's GET completes: g1 is the dispatch word and g2 to g5 the operand slots, whatever older loads still bring for them; the
core goes on at the next word (R130). -/
def loadItem (k : Nat) (it : Item) (s : State) : State :=
  let s := { s with core := { s.core with pend := s.core.pend.map (fun l =>
    if l.core = k ∧ 1 ≤ l.dst ∧ l.dst ≤ 5 then { l with live := false } else l) } }
  let s := setPhys k 1 (dispatchWord it) s
  let s := setPhys k 2 (opSlot it 0) s
  let s := setPhys k 3 (opSlot it 1) s
  let s := setPhys k 4 (opSlot it 2) s
  let s := setPhys k 5 (opSlot it 3) s
  let s := setCoreMode k 1 s
  let s := s.setBit .SCHED_CORE_n_STAT k 28 true
  let s := s.setF .SCHED_CORE_n_STAT k 11 0 it.tag
  { s with core := { s.core with pc := Store.set zeroOf s.core.pc k (Store.get zeroOf s.core.pc k + 4) } }

/-- dispatch(item, k) of R317; a double-bit error in its matching-store entry enters HALT (R30). -/
def dispatchTo (it : Item) (k : Nat) (s : State) : State :=
  if s.sched.bad.contains it.born then haltEnter 4 s else
  let aw : List Await := if it.ordered then [⟨it, k, none, true, robReserve s it.own⟩] else []
  let s := setSched { s.sched with ready := dropBorn it.born s.sched.ready,
                                   await := s.sched.await ++ aw,
                                   lastCore := Store.set natZero s.sched.lastCore it.flow (k + 1),
                                   held := s.sched.held ++ [⟨k, it, s.time.hub⟩] } s
  loadItem k it (trace Tr.DISPATCH it k 0 (spillStep 0 s))

/-- The credit a class has left, and its weight (R317). -/
def creditOf (s : State) (c : Nat) : Nat := Store.get natZero s.sched.credit c
def setCredit (c n : Nat) (s : State) : State :=
  setSched { s.sched with credit := Store.set natZero s.sched.credit c n } s

/-- Cores executing GET that may be dispatched to: not gone, domain on or in retention (R317). -/
def idleCores (s : State) : List Nat :=
  (List.range 16).filter (fun c => coreMode s c == 2 && !coreGone s c && (domainCode s (14 + c / 4) == 0 || domainCode s (14 + c / 4) == 2))

/-- One HUBCLK cycle of dispatch: at most one item (R317), and none in HALT (R31). -/
def dispatchCycle (s : State) : State :=
  if !s.bit .SCHED_CTRL 0 0 || sysState s == St.HALT then s else
  let idle := idleCores s
  match choose s (pickC0 s idle) 0 with
  | some (it, k) => dispatchTo it k s
  | none =>
    let order := (List.range 3).map (fun j => (s.sched.rr - 1 + j) % 3 + 1)
    match order.findSome? (fun c => if creditOf s c = 0 then none else (choose s (pickC s idle) c).map (fun r => (c, r))) with
    | some (c, it, k) =>
      let s := setCredit c (creditOf s c - 1) (dispatchTo it k s)
      setSched { s.sched with rr := c } s
    | none =>
      let w (c : Nat) : Nat := s.f .SCHED_CLASS_CFG_c c 3 0
      setCredit 3 (w 3) (setCredit 2 (w 2) (setCredit 1 (w 1) s))

/-! Register writes of the scheduler. -/

/-- SCHED_HOST_TOK_PUSH: a host token with the value of SCHED_HOST_TOK_VAL; at zero credit the interface holds the write, so
nothing happens yet (R311, R21, R333). DEDUCED: log entry 51. -/
def hostTokPush (v : Word) (s : State) : State :=
  if s.sched.hostQ.length < 16 then
    setSched { s.sched with hostQ := s.sched.hostQ ++ [⟨fld v 13 2, fld v 1 0, s.reg .SCHED_HOST_TOK_VAL 0⟩] } s
  else s

/-- SCHED_C0_RATE: reserved zero fields take their reset values (R8); the bucket is filled (R335). -/
def c0RateWrite (v : Word) (s : State) : State :=
  let items := if fld v 23 16 = 0 then 8 else fld v 23 16
  let period := if fld v 15 0 = 0 then 0x800 else fld v 15 0
  let s := s.setReg .SCHED_C0_RATE 0 (BitVec.ofNat 32 (items * 65536 + period))
  let s := if fld v 23 16 = 0 ∨ fld v 15 0 = 0 then cfgErr .SCHED_C0_RATE 0 s else s
  setSched { s.sched with bucket := items, refill := s.time.hub } s

/-- C0_REFILL (R335): one credit for every PERIOD HUBCLK cycles that have passed. -/
def c0Refill (s : State) : State :=
  let n := s.sched.refill + s.f .SCHED_C0_RATE 0 15 0
  if n ≤ s.time.hub then
    setSched { s.sched with bucket := min (s.sched.bucket + 1) (s.f .SCHED_C0_RATE 0 23 16), refill := n } s
  else s

/-- SCHED_C0_CORES (R320). -/
def c0CoresWrite (v : Word) (s : State) : State := dropPoolless (s.setReg .SCHED_C0_CORES 0 (v &&& 0xFFFF))

/-- SCHED_FLOW_f: accepted only while no item of the flow exists (R314). -/
def flowWrite (f : Nat) (v : Word) (s : State) : State :=
  if flowBusy s f then cfgErr .SCHED_FLOW_f 0 s else s.setReg .SCHED_FLOW_f f (v &&& 0xF000FFFC)

/-- Whether [a, a + n) lies in hub memory. -/
def inHub (a n : Nat) : Bool := decide (0x18000000 ≤ a) && decide (a + n ≤ 0x18400000)

/-- SCHED_SPILL_BASE and SCHED_SPILL_SIZE (R332); a reserved SIZE of 0 or above 64 takes its reset value (R8). -/
def spillAreaWrite (size : Bool) (v : Word) (s : State) : State :=
  let reserved := size && (fld v 22 16 == 0 || decide (64 < fld v 22 16))
  let v := if reserved then setFld v 22 16 0x10 else v
  let base := if size then (s.reg .SCHED_SPILL_BASE 0).toNat else fld v 31 16 * 65536
  let n := (if size then fld v 22 16 else s.f .SCHED_SPILL_SIZE 0 22 16) * 65536
  let r : RegName := if size then .SCHED_SPILL_SIZE else .SCHED_SPILL_BASE
  let s := if reserved then cfgErr r 0 s else s
  if !s.bit .SCHED_CTRL 0 0 && s.sched.spilled.isEmpty && inHub base n &&
      !overlap base n (s.reg .SCHED_TRACE_BASE 0).toNat (traceSize s) then
    let s := s.setReg r 0 (BitVec.ofNat 32 ((if size then fld v 22 16 else fld v 31 16) * 65536))
    setSched { s.sched with ringHead := [] } s
  else cfgErr r 0 s

/-- SCHED_TRACE_BASE and SCHED_TRACE_SIZE: ignored with CFG_ERR while EN is 1 or where the ring would leave hub memory, given by its
primary addresses (R369), or overlap the spill area. -/
def traceAreaWrite (size : Bool) (v : Word) (s : State) : State :=
  let base := if size then (s.reg .SCHED_TRACE_BASE 0).toNat else fld v 31 12 * 4096
  let n := if size then 4096 * 2 ^ fld v 2 0 else traceSize s
  let r : RegName := if size then .SCHED_TRACE_SIZE else .SCHED_TRACE_BASE
  if s.bit .SCHED_TRACE_CTRL 0 0 || !inHub base n ||
      overlap base n (s.reg .SCHED_SPILL_BASE 0).toNat (s.f .SCHED_SPILL_SIZE 0 22 16 * 65536) then cfgErr r 0 s
  else setSched { s.sched with traceCyc := [] } (s.setReg r 0 (if size then BitVec.ofNat 32 (fld v 2 0) else BitVec.ofNat 32 base))

/-- SCHED_TRACE_CTRL: FULL is W1C; a write of EN := 1 marks where the ring stops (R338). -/
def traceCtrlWrite (v : Word) (s : State) : State :=
  let full := s.bit .SCHED_TRACE_CTRL 0 2 && !bitOf v 2
  let s := s.setReg .SCHED_TRACE_CTRL 0 (putBit (v &&& 0xFF03) 2 full)
  let s := setSched { s.sched with traceCyc := [] } s
  if bitOf v 0 then setSched { s.sched with tracePtr0 := (s.reg .SCHED_TRACE_PTR 0).toNat } s else s

/-- SCHED_TRACE_PTR: writable while EN is 0. -/
def tracePtrWrite (v : Word) (s : State) : State :=
  if s.bit .SCHED_TRACE_CTRL 0 0 then cfgErr .SCHED_TRACE_PTR 0 s else s.setReg .SCHED_TRACE_PTR 0 (v &&& 0x7FFF0)

/-- SCHED_CLASS_CFG_c: AGE_LIMIT is reserved for classes 0 and 1, WEIGHT for class 0; a WEIGHT of 0 takes its reset value. -/
def classCfgWrite (c : Nat) (v : Word) (s : State) : State :=
  if c = 0 then s else
  let bad := fld v 3 0 == 0
  let w := if bad then (if c = 1 then 8 else if c = 2 then 4 else 2) else fld v 3 0
  let age := if c = 1 then 0 else fld v 27 8
  let s := s.setReg .SCHED_CLASS_CFG_c c (BitVec.ofNat 32 (age * 256 + w))
  if bad then cfgErr .SCHED_CLASS_CFG_c 0 s else s

/-- SCHED_LEVELS, SCHED_STORE_LEVEL, SCHED_ROB_LEVEL, SCHED_FLOW_STAT_w, SCHED_CANCEL_STAT.PENDING, SCHED_SPILL_LEVEL.LEVEL
and SCHED_STATUS.C0_NORES as a read gives them (R339). -/
def schedLevels (s : State) : Word :=
  BitVec.ofNat 32 ((onChip s 3).length * 2 ^ 24 + (onChip s 2).length * 2 ^ 16 + (onChip s 1).length * 2 ^ 8 + (onChip s 0).length)
def schedStoreLevel (s : State) : Word := BitVec.ofNat 32 (storeShared s * 65536 + storeC0 s)
def schedRobLevel (s : State) : Word := BitVec.ofNat 32 (robAll s * 65536 + robC0 s)
def schedFlowStat (s : State) (w : Nat) : Word :=
  BitVec.ofNat 32 (((List.range 32).map (fun i => b2n (flowBusy s (32 * w + i)) * 2 ^ i)).foldl (· + ·) 0)
def schedCancelStat (s : State) : Word := setFld (s.reg .SCHED_CANCEL_STAT 0) 6 0 s.sched.cancels.length
def schedSpillLevel (s : State) (k : Nat) : Word :=
  setFld (s.reg .SCHED_SPILL_LEVEL_c k) 15 0 ((undispatched s).filter (fun i => i.lst == k + 1)).length
def schedStatus (s : State) : Word := putBit (s.reg .SCHED_STATUS 0) 2 (resCores s).isEmpty

end Sys2Proof.Machine
end

