-- ==== Sys2Proof/Machine/CoreUnit.lean ====
section
/-! DEFINITION. The control cores (R101, R102, R122, R303 to R309, R370 to R372): the data cache, the write buffer, loads
that have not arrived, traps, interrupts, start and stop. -/

namespace Sys2Proof.Machine

/-- The program counter of a core. -/
def getPc (s : State) (c : Nat) : Word := Store.get zeroOf s.core.pc c
def setPc (c : Nat) (v : Word) (s : State) : State := { s with core := { s.core with pc := Store.set zeroOf s.core.pc c v } }

/-- Whether core c executes words: running, in a state in which cores run, not stopped for a retirement. -/
def coreRuns (s : State) (c : Nat) : Bool := coreMode s c == 1 && alive s && !s.core.stopped.contains c

/-! Traps. -/

/-- The causes of R305, with ECAUSE[7:0] and the vector's offset from VBASE. -/
inductive Cause where
  | undef | trap | align | load | fetch | kill | parity | irq
deriving DecidableEq, Repr

def causeCode : Cause → Nat
  | .undef => 1 | .trap => 2 | .align => 3 | .load => 4 | .fetch => 5 | .kill => 6 | .parity => 7 | .irq => 8

def causeVector : Cause → Nat
  | .undef => 0x000 | .trap => 0x040 | .align => 0x080 | .load => 0x0C0 | .fetch => 0x100 | .kill => 0x140
  | .parity => 0x180 | .irq => 0x1C0

/-- Entry to a vector (R305, R306): EPC and ECAUSE are written, IE cleared, the held item released ABORTED unless the cause
keeps it or has released it already; a vector that cannot be fetched halts the core. -/
def trapEnter (c : Nat) (k : Cause) (code : Nat) (epc : Word) (s : State) : State :=
  let s := if k = .irq ∨ k = .kill then s else releaseHeld c .aborted (some Tr.DONE) s
  let s := s.setBit .SCHED_CORE_n_CTRL c 2 false
  let vec := Store.get vbaseReset s.core.vbase c + BitVec.ofNat 32 (causeVector k)
  let s := { s with core := { s.core with
    epc := Store.set zeroOf s.core.epc c epc,
    ecause := Store.set zeroOf s.core.ecause c (BitVec.ofNat 32 (code * 256 + causeCode k)) } }
  let s := setPc c vec s
  if canFetch s vec.toNat then setCoreMode c 1 s
  else raise Ev.CORE_HALTED ((setCoreMode c 3 s).setBit .SCHED_CORE_n_STAT c 21 true)

/-! The write buffer. -/

/-- The entries of core c, oldest first. -/
def wbufOf (s : State) (c : Nat) : List WEntry := s.core.wbuf.filter (fun e => e.core == c)

/-- A line's address. -/
def lineOf (a : Nat) : Nat := a / 64 * 64

/-- Bytes of an address run. -/
def addrBytes (a : Nat) (l : List Byte) : List (Nat × Byte) := l.zipIdx.map (fun p => (a + p.2, p.1))

/-- Bytes put over others, the new ones standing. -/
def overlayBytes (old new : List (Nat × Byte)) : List (Nat × Byte) :=
  old.filter (fun p => !new.any (fun q => q.1 == p.1)) ++ new

/-- Register accesses keep their order and never merge (R370). -/
def isRegs (a : Nat) : Bool := regionOf a == .regs || regionOf a == .aonRegs

/-- Where a store of n bytes goes; sample tells an STX or STXS, which register space denies (R121). -/
def storeKind (ea n : Nat) (sample : Bool) : WKind :=
  let r := regionOf ea
  if isCached r then .cache
  else if isWordOnly r && (n != 4 || (sample && r == .regs)) then .deny
  else .bus

/-- The entry a store merges with (R102): one of the same core, line and kind. A register store never merges (R370). -/
def mergesWith (c a : Nat) (k : WKind) (e : WEntry) : Bool :=
  e.core == c && e.kind == k && k != .deny && !isRegs a && e.addr == lineOf a

/-- Whether a store by core c finds room: an entry to merge with, or fewer than eight entries. -/
def wbufRoom (s : State) (c a : Nat) (k : WKind) : Bool := s.core.wbuf.any (mergesWith c a k) || decide ((wbufOf s c).length < 8)

/-- A store enters the write buffer. -/
def wbufPut (c a : Nat) (k : WKind) (l : List Byte) (s : State) : State :=
  let bytes := addrBytes a l
  if s.core.wbuf.any (mergesWith c a k) then
    { s with core := { s.core with wbuf := s.core.wbuf.map (fun e =>
        if mergesWith c a k e then { e with data := overlayBytes e.data bytes } else e) } }
  else
    { s with core := { s.core with wbuf := s.core.wbuf ++ [⟨c, if k = .deny || isRegs a then a else lineOf a, k, bytes⟩] } }

/-- The youngest byte for address a among the entries of core c of a kind. -/
def ownByte (s : State) (c : Nat) (k : WKind) (a : Nat) : Option Byte :=
  (wbufOf s c).reverse.findSome? (fun e => if e.kind = k then (e.data.find? (fun p => p.1 == a)).map (fun p => p.2) else none)

/-- A byte of byte memory as core c sees it behind its cache: its own stores on the way to memory first. -/
def byteSeen (s : State) (c a : Nat) : Byte := (ownByte s c .bus a).getD (getByte s (primary a))

/-- n bytes as core c sees them. -/
def bytesSeen (s : State) (c : Nat) : Nat → Nat → List Byte
  | _, 0 => []
  | a, n + 1 => byteSeen s c a :: bytesSeen s c (a + 1) n

/-! The data cache. -/

/-- The line of core c that holds an address. -/
def lineAt (s : State) (c a : Nat) : Option Line := s.core.dcache.find? (fun l => l.core == c && l.addr == lineOf a)

/-- n bytes of a line from an address. -/
def lineBytes (l : Line) (a n : Nat) : List Byte := (l.data.drop (a - l.addr)).take n

/-- Bytes written into the line that holds the address; the line is dirty. DESIGN CHOICE: log entry 65. -/
def writeLine (c a : Nat) (b : List Byte) (s : State) : State :=
  { s with core := { s.core with dcache := s.core.dcache.map (fun l =>
      if l.core = c ∧ l.addr = lineOf a then
        { l with data := l.data.take (a - l.addr) ++ b ++ l.data.drop (a - l.addr + b.length), dirty := true } else l) } }

/-- A line leaves the cache: written to the write buffer first if it is dirty (R372). -/
def evictLine (c a : Nat) (s : State) : State :=
  match lineAt s c a with
  | none => s
  | some l =>
    let s1 := { s with core := { s.core with dcache := s.core.dcache.filter (fun x => !(x.core == c && x.addr == lineOf a)) } }
    if l.dirty then wbufPut c l.addr .bus l.data s1 else s1

/-- The set of a line: 32 KB of 64-byte lines in four ways are 128 sets (R303). PRESUMED: log entry 77. -/
def cacheSet (a : Nat) : Nat := a / 64 % 128

/-- The lines of core c in the set of an address. -/
def setLines (s : State) (c a : Nat) : List Line := s.core.dcache.filter (fun l => l.core == c && cacheSet l.addr == cacheSet a)

/-- Room for a line in its set (R303): of four lines one that the spec does not name leaves, a free value; none while it is dirty and
the write buffer is full (R102). DESIGN CHOICE: log entry 93. -/
def makeRoom (c a : Nat) (s : State) : Option State :=
  let l := setLines s c a
  if l.length < 4 then some s
  else
    let (n, t) := draw s
    match l[n % l.length]? with
    | some v => if v.dirty && !wbufRoom s c v.addr .bus then none else some (evictLine c v.addr t)
    | none => some t

/-- The line at an address is brought in, clean, unless the core holds it already (R101, R372). DESIGN CHOICE: log entry 65. -/
def fillLine (c a : Nat) (s : State) : Option State :=
  if (lineAt s c a).isSome then some s
  else (makeRoom c a s).map (fun s =>
    { s with core := { s.core with dcache := s.core.dcache ++ [⟨c, lineOf a, bytesSeen s c (lineOf a) 64, false⟩] } })

/-! Loads and stores of a core (R121). -/

/-- The bytes a load takes, and the value it writes from them, as a 32-bit number. -/
def loadSize : LoadKind → Nat
  | .word => 4 | .half => 2 | .byte => 1 | .sample => 4

def loadValue (k : LoadKind) (l : List Byte) : Nat :=
  let v := ofBytesLE l
  match k with
  | .word => v
  | .half => toU 32 (sxN 16 v)
  | .byte => toU 32 (sxN 8 v)
  | .sample => toU 32 (sxN 24 v)

/-- A memory access of a core word: its address, width, and what it does with the data; sample tells an STX or STXS. -/
inductive CoreAcc where
  | load (ea : Nat) (k : LoadKind) (dst : Nat)
  | store (ea : Nat) (n : Nat) (v : Nat) (sample : Bool)
deriving DecidableEq, Repr

def CoreAcc.ea : CoreAcc → Nat
  | .load a _ _ => a
  | .store a _ _ _ => a

def CoreAcc.size : CoreAcc → Nat
  | .load _ k _ => loadSize k
  | .store _ n _ _ => n

def CoreAcc.isLoad : CoreAcc → Bool
  | .load _ _ _ => true
  | .store _ _ _ _ => false

/-- Whether a core register's value has not arrived (R101). -/
def regPending (s : State) (c r : Nat) : Bool :=
  r != 0 && s.core.pend.any (fun l => l.core == c && l.live && l.dst == physIdx (getRrb s c) r)

/-- Bytes put over those of a memory run. -/
def overBytes (a : Nat) (own : List (Nat × Byte)) (l : List Byte) : List Byte :=
  l.zipIdx.map (fun x => ((own.find? (fun q => q.1 == a + x.2)).map (fun q => q.2)).getD x.1)

/-- Whether an uncached load still has to read its target, whose domain was not on when it was issued (R101, R368). -/
def PendLoad.unread (l : PendLoad) : Bool := l.data.isEmpty && !isCached (regionOf l.addr)

/-- A pending load's value arrives: the bytes it has, over those that memory or the line gives. -/
def deliverLoad (l : PendLoad) (bytes : List Byte) (s : State) : State :=
  if l.live then setPhys l.core l.dst (BitVec.ofNat 32 (loadValue l.kind (overBytes l.addr l.data bytes))) s else s

/-- Whether a load waits for the line of an address. -/
def waitsFor (c a : Nat) (l : PendLoad) : Bool := l.core == c && isCached (regionOf l.addr) && lineOf l.addr == lineOf a

/-- The line at an address has arrived: every load of the core that waits for it takes its value (R101). -/
def lineArrives (c a : Nat) (s : State) : State :=
  match lineAt s c a with
  | none => s
  | some line =>
    let t := (s.core.pend.filter (waitsFor c a)).foldl (fun t l => deliverLoad l (lineBytes line l.addr (loadSize l.kind)) t) s
    { t with core := { t.core with pend := s.core.pend.filter (fun l => !waitsFor c a l) } }

/-! Start, stop, interrupts, parity (R304 to R309). -/

/-- A core starts at an address: g1 to g31, a0 to a3, STAT and RRB zero, VBASE at its reset value (R304). DEDUCED: log entry 49. -/
def coreLaunch (c : Nat) (pc : Word) (s : State) : State :=
  let s := (List.range 32).foldl (fun s n => setPhys c n 0 s) s
  let s := (List.range 4).foldl (fun s x => setAcc c x 0 s) s
  let s := setStat c 0 s
  let s := { s with core := { s.core with
    rrb := Store.set zeroOf s.core.rrb c 0,
    vbase := Store.set vbaseReset s.core.vbase c (vbaseReset c),
    pend := s.core.pend.filter (fun l => l.core != c),
    fence := s.core.fence.filter (fun x => x != c) } }
  setCoreMode c 1 (setPc c pc s)

/-- START of a STOPPED or HALTED core (R304); in any other state it is ignored with CFG_ERR. -/
def coreStartStep (c : Nat) (s : State) : State :=
  if coreMode s c == 0 || coreMode s c == 3 then coreLaunch c (s.reg .SCHED_CORE_n_BOOT c) s
  else cfgErr .SCHED_CTRL 0 s

/-- STOP (R304): the core stops before its next word, its item is released ABORTED, its caches keep their contents. -/
def coreStopStep (c : Nat) (s : State) : State :=
  if coreMode s c == 1 || coreMode s c == 2 then setCoreMode c 0 (releaseHeld c .aborted none s) else s

/-- A write of SCHED_CORE_n_CTRL. -/
def coreCtrlWrite (c : Nat) (v : Word) (s : State) : State :=
  let s := s.setBit .SCHED_CORE_n_CTRL c 2 (bitOf v 2)
  let s := if bitOf v 0 then coreStartStep c s else s
  if bitOf v 1 then coreStopStep c s else s

/-- The pending condition of core n, and of IRQ pin x (R458). -/
def coreCond (s : State) (n : Nat) : Bool :=
  (List.range 4).any (fun w => (s.reg .EVT_RAW_w w &&& s.reg .EVT_CORE_n_EN_w (4 * n + w)) != 0)
def irqCond (s : State) (x : Nat) : Bool :=
  (List.range 4).any (fun w => (s.reg .EVT_RAW_w w &&& s.reg .EVT_IRQ_x_EN_w (4 * x + w)) != 0)

/-- INTERRUPT (R305, R458): taken while the condition is true and IE is 1; a core waiting in GET takes it too (R130). -/
def interruptStep (c : Nat) (s : State) : State :=
  if alive s && (coreMode s c == 1 || coreMode s c == 2) && !s.core.stopped.contains c &&
      s.bit .SCHED_CORE_n_CTRL c 2 && coreCond s c then trapEnter c .irq 0 (getPc s c) s
  else s

/-- BUDGET_KILL (R322): the item of core c has reached its class's budget. DEDUCED: log entry 70. -/
def budgetKillStep (c : Nat) (s : State) : State :=
  match heldBy s c with
  | none => s
  | some h =>
    if alive s && decide (s.f .SCHED_CLASS_BUDGET_c h.item.own 23 0 ≤ s.time.hub - h.start) then
      let s := count24 .SCHED_KILL_CNT 0 (some Ev.SCHED_KILL) s
      let s := releaseHeld c .aborted (some Tr.KILL) s
      trapEnter c .kill 0 (getPc s c) s
    else s

/-- A retirement of a core takes effect (R309); the items it leaves without a core are released (R320). -/
def retireCore (c : Nat) (s : State) : State :=
  if coreMode s c == 4 then s else
  let s := dropPoolless (setCoreMode c 4 s)
  let s := { s with core := { s.core with stopped := s.core.stopped.filter (fun x => x != c) } }
  let s := raise Ev.CORE_RETIRED (logFault 0x07 4 c 4 s)
  if (List.range 16).all (fun k => coreMode s k == 4) then haltEnter 5 s else s

/-- The fourth parity fault (R309). -/
def coreFourth (c : Nat) (s : State) : State :=
  let s := releaseHeld c .aborted none s
  let s := { s with core := { s.core with stopped := s.core.stopped ++ [c] } }
  let s := setSched { s.sched with lastCore := s.sched.lastCore.filter (fun e => e.2 != c + 1) } s
  if turnsOn s then later (.retireCore c) s else retireCore c s

/-- A store's bus error (R307). DEDUCED: log entry 43. -/
def storeError (c a : Nat) (s : State) : State :=
  if s.bit .SCHED_CORE_n_STAT c 22 then s
  else raise Ev.CORE_WERR ((s.setReg .SCHED_CORE_n_WERR c (BitVec.ofNat 32 a)).setBit .SCHED_CORE_n_STAT c 22 true)

/-! The words of a core. -/

/-- What one operation of a Ramtal word does on a hart: legal tells whether its fields are defined in the hart's profile
(R92), srcs the registers it reads, count its lane-memory accesses (R83), cacc a core's memory access, lacc what a lane's
operands reach (true for a read), fx its effect, from the state before the word. -/
structure Op where
  legal : Nat → Bool
  srcs : List Nat
  count : Nat
  cacc : State → Nat → Option CoreAcc
  lacc : State → Nat → List (Bool × Reach)
  fx : State → Nat → State → State

/-- An operation on registers alone. -/
def Op.plain (legal : Nat → Bool) (srcs : List Nat) (fx : State → Nat → State → State) : Op :=
  ⟨legal, srcs, 0, fun _ _ => none, fun _ _ => [], fx⟩

end Sys2Proof.Machine
end

