-- ==== Sys2Proof/Machine/EngUnit.lean ====
section
/-! DEFINITION. The sample-locked engines (05_engines.md): the run of a word on four lanes, lane-memory errors, migration to
the spare, retirement. -/

namespace Sys2Proof.Machine

def setEng (x : EngState) (s : State) : State := { s with eng := x }

/-- The active descriptor of an engine: which of the two, its word, BASE and PLEN. -/
def actProg (s : State) (pe : Nat) : Nat := s.f .ENG_STATUS pe 2 2
def progReg (s : State) (pe d : Nat) : Word := if d = 0 then s.reg .ENG_PROG_A pe else s.reg .ENG_PROG_B pe
def progBase (s : State) (pe d : Nat) : Nat := fld (progReg s pe d) 12 0
def progLen (s : State) (pe d : Nat) : Nat := fld (progReg s pe d) 28 16

/-- The next word offset of an engine's run. -/
def runAt (s : State) (pe : Nat) : Option Nat := (s.eng.run.find? (fun r => r.1 == pe)).map (fun r => r.2)

/-- The run of an engine ends: no word of it executes any more, its windows end with it (R85), undelivered loads are discarded. -/
def endRun (pe : Nat) (s : State) : State :=
  setEng { s.eng with run := s.eng.run.filter (fun r => r.1 != pe),
                      deliver := s.eng.deliver.filter (fun d => d.pe != pe),
                      null := s.eng.null.filter (fun e => peOf e.1 != pe) } s

/-- All outputs of the current run read zero (R158, R172): the engine-side output buffers of its logical engine are zeroed, and
the run is stopped. -/
def zeroOutE (e : Nat) (s : State) : State :=
  setEng { s.eng with outE := s.eng.outE.filter (fun x => x.1 / 64 != e) } s

def stopRun (pe : Nat) (s : State) : State :=
  match slotOf s pe with
  | some k => zeroOutE (8 * (pe / 9) + k) (endRun pe s)
  | none => endRun pe s

/-- A copy of a range of 32-bit slots to the same offsets from dst, with their double-bit errors where marks says so (R158); what dst
held is gone, and single-bit errors are corrected on the way (R169). -/
def inRange (src len a : Nat) : Bool := decide (src ≤ a) && decide (a < src + len)

def copySlots (marks : Bool) (src dst len : Nat) (s : State) : State :=
  let words := s.wmem.filter (fun e => inRange src len e.1)
  let marks := s.upset.filter (fun e => marks && e.2 == 2 && inRange src len e.1)
  { s with wmem := words.foldl (fun m e => Store.set zeroOf m (e.1 - src + dst) e.2) (s.wmem.filter (fun e => !inRange dst len e.1)),
           upset := marks.foldl (fun m e => Store.set natZero m (e.1 - src + dst) e.2)
                      (s.upset.filter (fun e => !inRange dst len e.1)) }

/-- A range of slots zeroed, with valid check bits. -/
def zeroSlots (a len : Nat) (s : State) : State :=
  { s with wmem := s.wmem.filter (fun e => !inRange a len e.1), upset := s.upset.filter (fun e => !inRange a len e.1) }

/-! Faults of lanes (R164 to R168, R172, R484). -/

/-- DETAIL of a lane fault (R44). -/
def laneDetail (L w : Nat) : Word := BitVec.ofNat 32 (L * 2 ^ 30 + w)

/-- The outputs of a logical engine read zero to the fabric and the cross-path, at once and from the run under way (R140, R175). -/
def zeroOutputs (e : Nat) (s : State) : State :=
  setEng { s.eng with outE := s.eng.outE.filter (fun x => x.1 / 64 != e), outF := s.eng.outF.filter (fun x => x.1 / 64 != e) } s

/-- A retired engine's run ends and its outputs read zero (R40, R175). -/
def stopEngine (pe : Nat) (s : State) : State :=
  let s := endRun pe (setEng { s.eng with muted := s.eng.muted.filter (fun x => x != pe) } s)
  match slotOf s pe with
  | some k => zeroOutputs (8 * (pe / 9) + k) s
  | none => s

/-- A physical engine is retired (R168, R175): PRET, LRET if it ran a logical slot, entry EVENT 0x03, ENG_RETIRED. DEDUCED: log entry 22. -/
def retireEngine (pe : Nat) (detail : Word) (s : State) : State :=
  if engRetired s pe then s else
  let cl := pe / 9
  let s := s.setBit .ENGC_RETIRE cl (pe % 9) true
  let s := match slotOf s pe with
    | some k => s.setBit .ENGC_RETIRE cl (24 + k) true
    | none => s
  raise Ev.ENG_RETIRED (logFault 0x03 1 pe detail (stopEngine pe s))

/-- A retirement takes effect at the coming boundary (R40), or at once while turns are stopped. -/
def retireSoon (pe : Nat) (detail : Word) (s : State) : State :=
  if turnsOn s then later (.retireEngine pe detail) s else retireEngine pe detail s

/-- Whether the retirement of a physical engine waits for its boundary. -/
def retiringSoon (s : State) (pe : Nat) : Bool :=
  (s.dev.pendNew ++ s.dev.pendCut ++ s.dev.exch).any (fun a => match a with | .retireEngine p _ => p == pe | _ => false)

/-- Whether the spare of a cluster is free: not retired or about to be, running no logical slot, target of no migration (R168,
R171). -/
def spareFree (s : State) (cl : Nat) : Bool :=
  !engRetired s (9 * cl + 8) && !retiringSoon s (9 * cl + 8) && (slotOf s (9 * cl + 8)).isNone && !s.eng.mig.any (fun m => m.cl == cl)

def migOf (s : State) (cl : Nat) : Option Mig := s.eng.mig.find? (fun m => m.cl == cl)

/-- A migration starts: ENGC_MIG_STAT shows it (R169, R172). -/
def migStart (pe : Nat) (kind : MigKind) (s : State) : State :=
  let cl := pe / 9
  let k := (slotOf s pe).getD 0
  let s := setEng { s.eng with mig := s.eng.mig.filter (fun m => m.cl != cl) ++ [⟨cl, k, pe, kind, false, gridTime s⟩] } s
  let st := if kind = .doubleBit then 2 else 1
  ((s.setF .ENGC_MIG_STAT cl 31 30 st).setF .ENGC_MIG_STAT cl 26 24 k).setF .ENGC_MIG_STAT cl 14 0 0

/-- The spare fails, retired at a boundary (R40, R168), also while it is the target of a migration (R484): the entry of the source has
the spare's DETAIL. DESIGN CHOICE: log entry 81. -/
def spareFault (cl : Nat) (detail : Word) (s : State) : State :=
  match migOf s cl with
  | some m =>
    let s := setEng { s.eng with mig := s.eng.mig.filter (fun x => x.cl != cl) } s
    let s := s.setF .ENGC_MIG_STAT cl 31 30 0
    let s := retireSoon (9 * cl + 8) detail s
    if m.kind = .request then s else retireSoon m.src detail s
  | none => retireSoon (9 * cl + 8) detail s

/-- An engine is muted from the faulting word (R168, R172). -/
def muteEngine (pe : Nat) (s : State) : State :=
  let s := stopRun pe s
  setEng { s.eng with muted := if s.eng.muted.contains pe then s.eng.muted else s.eng.muted ++ [pe] } s

/-- Whether a physical engine runs no logical slot. -/
def idleEngine (s : State) (pe : Nat) : Bool := (slotOf s pe).isNone

/-- A permanent fault in an engine that runs no logical slot retires it (R168). DEDUCED: log entry 85. -/
def idleFault (pe : Nat) (d : Word) (s : State) : State := if pe % 9 = 8 then spareFault (pe / 9) d s else retireSoon pe d s

/-- A permanent correctable fault of a lane (R166, R168, R169, R171). -/
def correctableFault (pe L w : Nat) (s : State) : State :=
  let d := laneDetail L w
  if engRetired s pe then s
  else if idleEngine s pe then idleFault pe d s
  else if s.eng.mig.any (fun m => m.src == pe) then s
  else if spareFree s (pe / 9) then logFault 0x01 1 pe d (migStart pe .correctable s)
  else retireSoon pe d s

/-- A double-bit error in a lane (R167, R168, R171, R172). -/
def doubleBitFault (pe L w : Nat) (s : State) : State :=
  let d := laneDetail L w
  if engRetired s pe then s else
  let s := s.setBit .ENG_FAULT pe 4 true
  if idleEngine s pe then idleFault pe d s
  else match s.eng.mig.find? (fun m => m.src == pe) with
    | some m =>
      if m.kind = .doubleBit then s
      else logFault 0x02 1 pe d (migStart pe .doubleBit (muteEngine pe s))
    | none =>
      if spareFree s (pe / 9) then logFault 0x02 1 pe d (migStart pe .doubleBit (muteEngine pe s))
      else retireSoon pe d (muteEngine pe s)

/-- The least useful entry of a lane's full table (R166): one whose window has passed, else the lowest count, the oldest among
equals. -/
def victim (now : Nat) : List FaultEntry → Option FaultEntry
  | [] => none
  | e :: t =>
    match victim now t with
    | none => some e
    | some f =>
      let old (x : FaultEntry) : Bool := decide (65536 ≤ now - x.turn)
      if old f && !old e then some f
      else if old e then some e
      else if e.count < f.count ∨ (e.count = f.count ∧ e.turn ≤ f.turn) then some e else some f

/-- The fault-address table records a correction (R166): the state after, and whether a count reached 4. The window counts the
boundaries of the turn grid. DESIGN CHOICE: log entry 80. -/
def recordFault (pe L w : Nat) (s : State) : Bool × State :=
  let now := s.time.grid
  let mine (e : FaultEntry) : Bool := e.pe == pe && e.lane == L
  match s.eng.faultTab.find? (fun e => mine e && e.word == w) with
  | some e =>
    let n := if now - e.turn < 65536 then e.count + 1 else 1
    let e' := { e with count := n, turn := if n = 1 then now else e.turn }
    (decide (n = 4), setEng { s.eng with faultTab := s.eng.faultTab.map (fun x => if x = e then e' else x) } s)
  | none =>
    let fresh : FaultEntry := ⟨pe, L, w, 1, now⟩
    if (s.eng.faultTab.filter mine).length < 4 then (false, setEng { s.eng with faultTab := s.eng.faultTab ++ [fresh] } s)
    else match victim now (s.eng.faultTab.filter mine) with
      | some v => (false, setEng { s.eng with faultTab := s.eng.faultTab.map (fun x => if x = v then fresh else x) } s)
      | none => (false, s)

/-- A single-bit error of a lane word is corrected (R164): counted once in a turn, recorded, queued for write-back. -/
def correctLane (pe L w : Nat) (s : State) : State :=
  if s.eng.corrected.contains (pe, L, w) then s else
  let s := setEng { s.eng with corrected := s.eng.corrected ++ [(pe, L, w)],
                               wback := if s.eng.wback.contains (pe, L, w) then s.eng.wback else s.eng.wback ++ [(pe, L, w)] } s
  let s := count24 .ENG_ECC_CORR pe none s
  let s := s.setReg .ENG_ECC_LAST pe (BitVec.ofNat 32 (2 ^ 31 + L * 2 ^ 28 + w))
  let (four, s) := recordFault pe L w s
  if four then correctableFault pe L w s else s

/-- A bus read of a lane word (R144, R167, R175): the slot, or none for the bus error of a double-bit error. DESIGN CHOICE: log entry 23. -/
def busReadLane (pe L w : Nat) (s : State) : Option Word × State :=
  let a := laneAddr pe L w
  if engRetired s pe then (some 0, s)
  else match upsetOf s a with
    | 0 => (some (getSlot s a), s)
    | 1 => (some (getSlot s a), correctLane pe L w s)
    | _ => (none, doubleBitFault pe L w s)

/-- A bus write of a lane word (R144, R151, R175). -/
def busWriteLane (pe L w : Nat) (v : Word) (s : State) : State :=
  if engRetired s pe then s else writeLane pe L w v.toNat s

/-! Words of a run (R70, R85, R93, R137, R145, R158). -/

/-- Words a lane still nullifies. -/
def nullOf (s : State) (h : Nat) : Nat := Store.get natZero s.eng.null h
def setNull (h n : Nat) (s : State) : State := setEng { s.eng with null := Store.set natZero s.eng.null h n } s

/-- Whether a read reaches a word with a double-bit error, and the word. DESIGN CHOICE: log entry 13. -/
def reachDed (s : State) (pe L : Nat) : Bool × Reach → Option Nat
  | (true, .word w) => if upsetOf s (laneAddr pe L w) = 2 then some w else none
  | _ => none

/-- What an access does beside its value: a correction (R164), or RANGE where it reaches no word (R145). -/
def reachFx (pe L : Nat) (x : Bool × Reach) (s : State) : State :=
  match x with
  | (true, .word w) => if upsetOf s (laneAddr pe L w) = 1 then correctLane pe L w s else s
  | (_, .none) => flagEv .ENG_FAULT pe 1 Ev.ENG_RANGE s
  | _ => s

/-- Loads of an engine that are due before word w write their rd (R161). -/
def deliverDue (pe w : Nat) (s : State) : State :=
  let due (d : Delivery) : Bool := d.pe == pe && decide (d.due < w)
  let t := (s.eng.deliver.filter due).foldl (fun t d => writeReg (laneHart pe d.lane) d.rd d.value.toNat t) s
  setEng { t.eng with deliver := t.eng.deliver.filter (fun d => !due d) } t

/-- The word of a run is done: windows step down, the run goes on, and ends after PLEN words, with the deliveries of its last word
(R161). s0 is the state before the word. -/
def runStep (pe w : Nat) (s0 s : State) : State :=
  let s := (List.range 4).foldl (fun t L =>
    let h := laneHart pe L
    if nullOf s0 h = 0 then t else setNull h (nullOf s0 h - 1) t) s
  if w + 1 < progLen s pe (actProg s pe) then
    setEng { s.eng with run := s.eng.run.map (fun r => if r.1 = pe then (pe, w + 1) else r) } s
  else endRun pe (deliverDue pe (w + 1) s)

/-- The first illegal or over-budget word since ILL was cleared is recorded (R93). DESIGN CHOICE: log entry 82. -/
def engIll (pe w : Nat) (s : State) : State :=
  if s.bit .ENG_FAULT pe 0 then s
  else raise Ev.ENG_ILL ((s.setF .ENG_FAULT pe 28 16 (progBase s pe (actProg s pe) + w)).setBit .ENG_FAULT pe 0 true)

/-- The lanes that do not nullify the word. -/
def liveLanes (s : State) (pe : Nat) : List Nat := (List.range 4).filter (fun L => nullOf s (laneHart pe L) == 0)

/-- A single-bit error in the program word is corrected and written back (R158). -/
def correctProg (pe a w : Nat) (s : State) : State :=
  if upsetOf s a = 1 then
    let s := count24 .ENG_ECC_CORR pe none (setUpset s a 0)
    (s.setF .ENG_ECC_LAST pe 31 30 3).setF .ENG_ECC_LAST pe 13 0 w
  else s

/-- A double-bit error in the program word (R158). -/
def progDed (pe : Nat) (s : State) : State :=
  (stopRun pe ((s.setBit .ENG_FAULT pe 3 true).setBit .ENG_STATUS pe 4 true))

/-- An engine executes the next word of its run, made of one operation or of the two of a pair, on the lanes that do not
nullify it, lane by lane. A delivery that is due comes first (R161). Of several lanes in error the lowest is the one the fault names, and the
others' corrections and RANGE are not counted. DESIGN CHOICE: log entries 1, 18, 84, 98; DEDUCED: log entry 20. -/
def engWord (pe : Nat) (ops : List Op) (s : State) : State :=
  match runAt s pe with
  | none => s
  | some w =>
    if s.eng.deliver.any (fun d => d.pe == pe && decide (d.due < w)) then s else
    let base := progBase s pe (actProg s pe)
    let a := progAddr pe (base + w)
    if upsetOf s a = 2 then progDed pe s else
    let s := correctProg pe a (base + w) s
    let live := liveLanes s pe
    if live.isEmpty then runStep pe w s s
    else if !ops.all (fun o => o.legal (laneHart pe 0)) || decide (2 < (ops.map (fun o => o.count)).foldl (· + ·) 0) then
      runStep pe w s (engIll pe w s)
    else
      let accs := live.flatMap (fun L => (ops.flatMap (fun o => o.lacc s (laneHart pe L))).map (fun x => (L, x)))
      match accs.findSome? (fun x => (reachDed s pe x.1 x.2).map (fun w => (x.1, w))) with
      | some (L, q) => doubleBitFault pe L q s
      | none =>
        let t := accs.foldl (fun t x => reachFx pe x.1 x.2 t) s
        let t := live.foldl (fun t L => ops.foldl (fun t o => o.fx s (laneHart pe L) t) t) t
        runStep pe w s t

/-- ENGINE_LOAD_DELIVERY (R161): every load due at the word just executed writes its rd. DEDUCED: log entry 64. -/
def deliveryStep (pe : Nat) (s : State) : State :=
  match runAt s pe with
  | none => s
  | some w => deliverDue pe w s

/-! Bus accesses, write-back and scrubbing (R149, R150, R164, R165). -/

/-- LANE_MEMORY_ACCESS: a bus access waits for a free slot of its lane. DESIGN CHOICE: log entry 23. -/
def laneQueue (x : LaneAcc) (s : State) : State := setEng { s.eng with busq := s.eng.busq ++ [x] } s

/-- LANE_ACCESS_COMPLETE: the oldest access of the lane lands. DESIGN CHOICE: log entry 23. -/
def laneComplete (pe L : Nat) (s : State) : State :=
  match takeFirst (fun x : LaneAcc => x.pe == pe && x.lane == L) s.eng.busq with
  | none => s
  | some (x, rest) =>
    let s := setEng { s.eng with busq := rest } s
    match x.write with
    | some v => busWriteLane pe L x.word v s
    | none =>
      let (r, s) := busReadLane pe L x.word s
      setEng { s.eng with resp := s.eng.resp ++ [(x.who, r)] } s

/-- WRITE_BACK: the oldest waiting write-back of the lane lands, with valid check bits. -/
def writeBackStep (pe L : Nat) (s : State) : State :=
  match s.eng.wback.find? (fun x => x.1 == pe && x.2.1 == L) with
  | none => s
  | some x => writeLane pe L x.2.2 (getSlot s (laneAddr pe L x.2.2)).toNat s

/-- Words the scrubber reads in a turn period (ENG_SCRUB.RATE). -/
def scrubRate (s : State) (pe : Nat) : Nat :=
  match s.f .ENG_SCRUB pe 1 0 with | 0 => 0 | 1 => 1 | 2 => 4 | _ => 16

/-- One word scrubbed. -/
def scrubWord (pe L : Nat) (s : State) : State :=
  let h := laneHart pe L
  let w := Store.get natZero s.eng.scrubPos h
  let s := match upsetOf s (laneAddr pe L w) with
    | 0 => s
    | 1 => correctLane pe L w s
    | _ => doubleBitFault pe L w s
  setEng { s.eng with scrubPos := Store.set natZero s.eng.scrubPos h ((w + 1) % 16384) } s

/-- SCRUB of one lane for one turn period (R165); a retired engine has no memory to scrub. -/
def scrubLane (pe L : Nat) (s : State) : State :=
  if engRetired s pe then s else (List.range (scrubRate s pe)).foldl (fun t _ => scrubWord pe L t) s

/-! Migration (R169 to R173). -/

/-- Lane words of an address range of one lane with a double-bit error. -/
def dedsIn (s : State) (pe L lo n : Nat) : List Nat :=
  (s.upset.filter (fun e => e.2 == 2 && inRange (laneAddr pe L lo) (4 * n) e.1)).map (fun e => (e.1 - laneAddr pe L 0) / 4)

/-- A palette word of the source that holds a double-bit error is rebuilt in the spare (R173). -/
def restoreWord (src dst L w : Nat) (s : State) : State :=
  let D := dWords s src
  let P := pWords s src
  let other := if w < D + P then w + P else w - P
  let g := s.f .ENG_CTRL src 15 12
  if s.bit .SAFE_MIRROR_VALID 0 g && upsetOf s (laneAddr src L other) != 2 then
    setSlot s (laneAddr dst L w) (getSlot s (laneAddr src L other))
  else (setSlot s (laneAddr dst L w) 0).setBit .ENGC_MIG_STAT (src / 9) 29 true

/-- Words of an address range with a single-bit error. -/
def secsIn (s : State) (a n : Nat) : List Nat := (s.upset.filter (fun e => e.2 == 1 && inRange a n e.1)).map (fun e => e.1)

/-- The copy reads of n words of a lane, and of the program memory, correct single-bit errors as they go (R164, R169). -/
def correctLanes (pe L lo n : Nat) (s : State) : State :=
  (secsIn s (laneAddr pe L lo) (4 * n)).foldl (fun t a => correctLane pe L ((a - laneAddr pe L 0) / 4) t) s
def correctProgs (pe : Nat) (s : State) : State :=
  (secsIn s (progAddr pe 0) 0x8000).foldl (fun t a => correctProg pe a ((a - progAddr pe 0) / 4) t) s

/-- MIGRATION_COPY_COMPLETE: the memories of the source stand in the spare. A correctable copy that meets a double-bit error
becomes the double-bit procedure (R167, R171); program words keep their check bits (R158). DEDUCED: log entry 22. -/
def migCopy (cl : Nat) (s : State) : State :=
  match migOf s cl with
  | none => s
  | some m =>
    let src := m.src
    let dst := 9 * cl + 8
    let fin (n : Nat) (s : State) : State :=
      let s := setEng { s.eng with mig := s.eng.mig.map (fun x => if x.cl = cl then { x with copied := true } else x) } s
      s.setF .ENGC_MIG_STAT cl 14 0 n
    if m.kind = .doubleBit then
      let s := copySlots true (progAddr src 0) (progAddr dst 0) 0x8000 (correctProgs src s)
      let s := zeroSlots (laneAddr dst 0 0) 0x40000 s
      let D := dWords s src
      let P := pWords s src
      fin (2 * P) ((List.range 4).foldl (fun t L =>
        let bad := dedsIn t src L D (2 * P)
        let t := copySlots false (laneAddr src L D) (laneAddr dst L D) (8 * P) (correctLanes src L D (2 * P) t)
        bad.foldl (fun t w => restoreWord src dst L w t) t) s)
    else
      match (List.range 4).findSome? (fun L => (dedsIn s src L 0 16384).head?.map (fun w => (L, w))) with
      | some (L, w) => doubleBitFault src L w s
      | none =>
        let s := copySlots true (progAddr src 0) (progAddr dst 0) 0x8000 (correctProgs src s)
        let s := (List.range 4).foldl (fun t L => correctLanes src L 0 16384 t) s
        fin 16384 (copySlots false (laneAddr src 0 0) (laneAddr dst 0 0) 0x40000 s)

/-- A register of the engine block moved from the source to the spare. -/
def moveReg (r : RegName) (src dst : Nat) (s : State) : State := s.setReg r dst (s.reg r src)

/-- The lane state moved by a switch: all of it, or the generator states with the rest zero (R169, R172). -/
def moveLane (src dst L : Nat) (whole : Bool) (s : State) : State :=
  let h := laneHart src L
  let k := laneHart dst L
  let s := (List.range 12).foldl (fun t n => setPhys k n (if whole then getPhys s h n else 0) t) s
  let s := (List.range 4).foldl (fun t x => setAcc k x (if whole then getAcc s h x else 0) t) s
  setDice k (getDice s h) (setStat k (if whole then getStat s h else 0) s)

/-- A change of an enable that waits goes to the spare at a switch (R140, R169). -/
def moveActs (src dst : Nat) (l : List PendAct) : List PendAct :=
  l.map (fun a => match a with | .engEn pe b => .engEn (if pe = src then dst else pe) b | _ => a)

/-- The switch to the spare at the mailbox exchange (R169, R172). DEDUCED: log entry 22. -/
def migSwitch (m : Mig) (s : State) : State :=
  let src := m.src
  let dst := 9 * m.cl + 8
  let s := (List.range 4).foldl (fun t L => moveLane src dst L (m.kind != .doubleBit) t) s
  let s := [RegName.ENG_CTRL, .ENG_LANE_MAP, .ENG_PROG_A, .ENG_PROG_B, .ENG_SCRUB, .ENG_DB].foldl (fun t r => moveReg r src dst t) s
  let s := s.setF .ENG_STATUS dst 3 2 (s.f .ENG_STATUS src 3 2)
  let s := setEng { s.eng with chk := Store.set zeroOf (Store.set zeroOf s.eng.chk (2 * dst) (Store.get zeroOf s.eng.chk (2 * src)))
                                         (2 * dst + 1) (Store.get zeroOf s.eng.chk (2 * src + 1)) } s
  let s := s.setF .ENGC_REMAP m.cl (4 * m.slot + 3) (4 * m.slot) 8
  let s := s.setBit .ENGC_RETIRE m.cl (src % 9) true
  let s := (s.setF .ENGC_MIG_STAT m.cl 31 30 0).setBit .ENGC_MIG_STAT m.cl 28 true
  let s := setEng { s.eng with mig := s.eng.mig.filter (fun x => x.cl != m.cl),
                               muted := s.eng.muted.filter (fun x => x != src),
                               on := s.eng.on.filter (fun x => x != dst) ++ (if s.eng.on.contains src then [dst] else []) } s
  let s := { s with dev := { s.dev with pendNew := moveActs src dst s.dev.pendNew, pendCut := moveActs src dst s.dev.pendCut,
                                        exch := moveActs src dst s.dev.exch } }
  raise Ev.ENG_RETIRED (raise Ev.ENG_MIGRATED (endRun src s))

/-- Whether a migration switches at this exchange: its copy is complete, and after a double-bit fault the coming run starts at
least N clk after the detection (R172). -/
def migReady (s : State) (m : Mig) : Bool :=
  m.copied && (m.kind != .doubleBit ||
    decide (m.at_ + turnLen s ≤ s.time.grid * turnLen s + turnLen s / 2 + 128))

/-! Register writes of the engine blocks. -/

/-- Whether DB steps at an engine's exchange: also with PLEN 0 (R137, R141, R146, R148, R163). DEDUCED: log entry 25. -/
def dbSteps (s : State) (pe : Nat) : Bool :=
  s.eng.on.contains pe && !engRetired s pe && (slotOf s pe).isSome && !s.bit .FABRIC_QUIET_STAT 0 (pe / 9)
    && !s.bit .ENG_STATUS pe 4 && !s.eng.muted.contains pe

/-- Whether an engine performs a run this turn. -/
def willRun (s : State) (pe : Nat) : Bool := dbSteps s pe && decide (progLen s pe (actProg s pe) ≠ 0)

/-- Whether runs of an engine are under way: ENG_STATUS.RUNNING (R137, R148), at the boundary for START and the stops, at the mailbox exchange
for EN and a retirement. DESIGN CHOICE: log entry 98. -/
def engRunning (s : State) (pe : Nat) : Bool := turnsOn s && willRun s pe

/-- DB steps before a run (R146). DEDUCED: log entry 25. -/
def stepDB (pe : Nat) (s : State) : State :=
  let d := dWords s pe
  s.setReg .ENG_DB pe (BitVec.ofNat 32 ((s.f .ENG_DB pe 13 0 + d - 1) % d))

/-- The enable of an engine takes effect (R140): a disable discards the outputs of the run before it. The enable in effect follows
ENG_CTRL.EN of a retired engine too, since software may end the retirement (R174). -/
def engEnable (pe : Nat) (b : Bool) (s : State) : State :=
  if b then setEng { s.eng with on := if s.eng.on.contains pe then s.eng.on else s.eng.on ++ [pe] } s
  else
    let s := setEng { s.eng with on := s.eng.on.filter (fun x => x != pe) } s
    match slotOf s pe with
    | some k => zeroOutputs (8 * (pe / 9) + k) (endRun pe s)
    | none => endRun pe s

/-- ENG_CTRL (R140, R175). -/
def engCtrlWrite (pe : Nat) (v : Word) (s : State) : State :=
  if engRetired s pe then s else
  let s := s.setReg .ENG_CTRL pe (v &&& 0xFF01)
  if turnsOn s then later (.engEn pe (bitOf v 0)) s else engEnable pe (bitOf v 0) s

/-- ENG_DB: writable while the engine is not running; bits at and above log2(D) are stored as 0. -/
def engDbWrite (pe : Nat) (v : Word) (s : State) : State :=
  if engRetired s pe then s
  else if engRunning s pe then cfgErr .ENG_DB pe s
  else s.setReg .ENG_DB pe (BitVec.ofNat 32 (fld v 13 0 % dWords s pe))

/-- ENGC_REMAP (R174): refused while turns run, for two logical slots on one physical slot, or for a changed field that names a
retired physical slot; a reserved value of a field takes its reset value (R8). It acts at once on runs that a freeze has left unfinished.
DESIGN CHOICE: log entry 98. -/
def remapWrite (cl : Nat) (v : Word) (s : State) : State :=
  let slot (k : Nat) : Nat := fld v (4 * k + 3) (4 * k)
  let bad := (List.range 8).any (fun k => decide (8 < slot k))
  let val (k : Nat) : Nat := if 8 < slot k then k else slot k
  let new := ((List.range 8).map (fun k => val k * 16 ^ k)).foldl (· + ·) 0
  let dup := (List.range 8).any (fun j => (List.range 8).any (fun k => decide (j < k) && val j == val k))
  let ret := (List.range 8).any (fun k => val k != remapSlot s cl k && engRetired s (9 * cl + val k))
  let s := if bad then cfgErr .ENGC_REMAP cl s else s
  if turnsOn s || dup || ret then cfgErr .ENGC_REMAP cl s
  else s.setReg .ENGC_REMAP cl (BitVec.ofNat 32 new)

/-- LRET after a change of REMAP or PRET: the logical slots whose physical engine is retired. -/
def lretOf (s : State) (cl : Nat) : Nat :=
  ((List.range 8).map (fun k => b2n (engRetired s (9 * cl + remapSlot s cl k)) * 2 ^ k)).foldl (· + ·) 0

/-- ENGC_RETIRE.PRET: written by software only while turns are stopped (R174); it raises no event and is not logged. DESIGN CHOICE:
log entry 83. -/
def retireWrite (cl : Nat) (v : Word) (s : State) : State :=
  if turnsOn s then cfgErr .ENGC_RETIRE cl s
  else
    let new := ((List.range 9).map (fun k => 9 * cl + k)).filter (fun pe => bitOf v (pe % 9) && !engRetired s pe)
    let s := s.setF .ENGC_RETIRE cl 8 0 (fld v 8 0)
    let s := new.foldl (fun t pe => stopEngine pe t) s
    s.setF .ENGC_RETIRE cl 31 24 (lretOf s cl)

/-- ENGC_MIG_CTRL (R176): SLOT is stored also where START is ignored. DESIGN CHOICE: log entry 98. -/
def migCtrlWrite (cl : Nat) (v : Word) (s : State) : State :=
  let s := s.setReg .ENGC_MIG_CTRL cl (v &&& 0x70)
  if !bitOf v 0 then s else
  let pe := physOf s (8 * cl + fld v 6 4)
  if spareFree s cl && !engRetired s pe then logFault 0x01 1 pe 0 (migStart pe .request s)
  else cfgErr .ENGC_MIG_CTRL cl s

/-- ENG_STATUS as a read gives it: LOGICAL, ROLE, QUIESCENT and RUNNING from the state (R177). An unretired engine that runs no logical
slot is a free spare. DESIGN CHOICE: log entry 98; DEDUCED: log entry 22. -/
def engStatus (s : State) (pe : Nat) : Word :=
  let role := if engRetired s pe then 2 else if s.eng.mig.any (fun m => m.cl == pe / 9) && pe % 9 == 8 then 3
    else if (slotOf s pe).isNone then 1 else 0
  let e := match s.eng.mig.find? (fun m => m.cl == pe / 9) with
    | some m => if role = 3 then 8 * m.cl + m.slot else logicalOf s pe
    | none => logicalOf s pe
  let w := setFld (s.reg .ENG_STATUS pe) 29 24 e
  let w := setFld w 9 8 role
  putBit (putBit w 1 (s.bit .FABRIC_QUIET_STAT 0 (pe / 9))) 0 (engRunning s pe)

/-- ENG_PROG_CHK as a read gives it: the result of the shadow descriptor (R157). -/
def engProgChk (s : State) (pe : Nat) : Word := Store.get zeroOf s.eng.chk (2 * pe + (1 - actProg s pe))

/-- ENGC_TOKQ as a read gives it. -/
def tokqLevel (s : State) (cl : Nat) : Nat := (s.eng.tokq.filter (fun t => t.cl == cl)).length
def engcTokq (s : State) (cl : Nat) : Word := setFld (s.reg .ENGC_TOKQ cl) 5 0 (tokqLevel s cl)

/-- A lane's token enters its cluster's queue, or is dropped and counted (R132, R162). -/
def engPush (pe : Nat) (t : Tok) (s : State) : State :=
  let cl := pe / 9
  if tokqLevel s cl < 32 then
    let s := setEng { s.eng with tokq := s.eng.tokq ++ [⟨cl, t⟩] } s
    if s.f .ENGC_TOKQ cl 13 8 < tokqLevel s cl then s.setF .ENGC_TOKQ cl 13 8 (tokqLevel s cl) else s
  else count24 .ENG_TOKDROP pe (some Ev.ENG_TOKDROP) s

end Sys2Proof.Machine
end

