-- ==== Sys2Proof/Machine/RegWrite.lean ====
section
/-! DEFINITION. What a write of a register does by its table alone: access codes, reserved fields, reserved encodings, locks
and counters (R7, R8, R10, R12, R460). -/

namespace Sys2Proof.Machine

/-- Whether the lock named for the RWL fields of a register is set (R10): SYNTH_LOCK, GUARD_LOCK, or SEC_PIN_LOCK.LOCK with the
bit of PINS that selects the pin (R463). -/
def rwlLocked (s : State) (r : RegName) (i : Nat) : Bool :=
  match r with
  | .SYS_GPIO_CFG_i => s.bit .SEC_PIN_LOCK 0 31 && s.bit .SEC_PIN_LOCK 0 i
  | .EVT_IRQ_CFG => s.bit .SEC_PIN_LOCK 0 31 && s.bit .SEC_PIN_LOCK 0 16
  | .SEC_PIN_LOCK => s.bit .SEC_PIN_LOCK 0 31
  | .SYNTH_CEIL_n => s.bit .SYNTH_LOCK 0 0
  | _ => s.bit .GUARD_LOCK 0 0

/-- The bits a write stores (RW, and RWL while not locked). -/
def writable (s : State) (r : RegName) (i : Nat) : Nat :=
  let t := Reg.row r
  if t.rwl ≠ 0 && !rwlLocked s r i then t.rw ||| t.rwl else t.rw

/-- Each written field that holds a reserved encoding takes its reset value (R8); the flag says whether there was one. -/
def fixEnc (reset : Word) (mask : Nat) : List Enc → Word → Word × Bool
  | [], v => (v, false)
  | e :: t, v =>
    let (v', bad) := fixEnc reset mask t v
    if mask.testBit e.lo && !e.ok (fld v' e.hi e.lo) then (setFld v' e.hi e.lo (fld reset e.hi e.lo), true) else (v', bad)

/-- A write of 1 to an OVF bit also zeroes the counter it stands for (R460). -/
def clearCounts (w : Nat) : List (Nat × Nat × Nat) → Word → Word
  | [], v => v
  | (b, hi, lo) :: t, v => clearCounts w t (if w.testBit b then setFld v hi lo 0 else v)

/-- The write of a register by its table alone. -/
def plainWrite (r : RegName) (i : Nat) (v : Word) (s : State) : State :=
  let t := Reg.row r
  let m := writable s r i
  let old := s.reg r i
  let (v1, bad) := fixEnc (Reg.resetOf (Reg.key r i)) m t.enc v
  let stored := (old &&& ~~~(BitVec.ofNat 32 m)) ||| (v1 &&& BitVec.ofNat 32 m)
  let cleared := stored &&& ~~~(v &&& BitVec.ofNat 32 t.w1c)
  let new := clearCounts v.toNat t.cnt (cleared ||| (v &&& BitVec.ofNat 32 t.w1s))
  let s := s.setReg r i new
  if bad then cfgErr r i s else s

end Sys2Proof.Machine
end

