-- ==== Sys2Proof/Machine/Member.lean ====
section
/-! DEFINITION. Safe-load members (06_safe_load.md R179, R181, R189): the group a member belongs to, and what a shadow write or
a change of membership does to SAFE_MIRROR_VALID. -/

namespace Sys2Proof.Machine

def setSafe (x : SafeState) (s : State) : State := { s with safe := x }
def setFab (x : FabState) (s : State) : State := { s with fab := x }
def setSect (x : SectState) (s : State) : State := { s with sect := x }

/-- Addresses of section memory (R233). -/
def coefAddr (side c : Nat) : Nat := 0x38000000 + side * 0x100000 + 2048 * c
def stateAddr (c : Nat) : Nat := 0x38200000 + 2048 * c
def stagedAddr (c w : Nat) : Nat := 0x38300000 + 128 * c + 4 * w
def activeAddr (c w : Nat) : Nat := 0x38310000 + 128 * c + 4 * w

/-- The commit group a member is assigned to now (R179). -/
def groupOf (s : State) : Member → Nat
  | .palette e => s.f .ENG_CTRL (physOf s e) 15 12
  | .prog e => s.f .ENG_CTRL (physOf s e) 11 8
  | .chain c => fld (getSlot s (stagedAddr c 0)) 7 4
  | .gain => s.f .SAFE_FABRIC_GROUP 0 7 4
  | .route => s.f .SAFE_FABRIC_GROUP 0 3 0

/-- Every member of the device. -/
def allMembers : List Member :=
  (List.range 64).map .palette ++ (List.range 64).map .prog ++ (List.range 512).map .chain ++ [.gain, .route]

/-- The members of a group, read now (R181). -/
def membersOf (s : State) (g : Nat) : List Member := allMembers.filter (fun m => groupOf s m == g)

/-- VALID of a group is cleared, and a mirror of it that is busy will not set it (R189). -/
def unvalid (g : Nat) (s : State) : State :=
  let s := s.setBit .SAFE_MIRROR_VALID 0 g false
  setSafe { s.safe with mirrors := s.safe.mirrors.map (fun m => if m.group = g then { m with dirty := true } else m) } s

/-- A shadow word of a member of group g is written at address a: VALID clears. While a mirror of the group is busy, whether
its copy still reaches the word is open (R189), so a free value decides. DEDUCED: log entry 57. -/
def shadowWritten (g a : Nat) (s : State) : State :=
  if s.safe.mirrors.any (fun m => m.group == g) then
    let (x, s) := draw s
    let keep (m : Mirror) : Mirror :=
      if m.group = g then
        { m with dirty := true,
                 kept := if x % 2 = 1 then a :: m.kept else m.kept.filter (fun b => b != a) }
      else m
    (setSafe { s.safe with mirrors := s.safe.mirrors.map keep } s).setBit .SAFE_MIRROR_VALID 0 g false
  else s.setBit .SAFE_MIRROR_VALID 0 g false

/-- A member moves from group g to group h (R189). -/
def regrouped (g h : Nat) (s : State) : State := if g = h then s else unvalid h (unvalid g s)

/-- A write to a lane word that lies in the shadow palette of an engine with a logical slot (R189). -/
def laneShadowWritten (pe L w : Nat) (s : State) : State :=
  let D := dWords s pe
  let P := pWords s pe
  let lo := D + (if s.bit .ENG_STATUS pe 3 then 0 else P)
  if decide (lo ≤ w) && decide (w < lo + P) && (slotOf s pe).isSome && !engRetired s pe then
    shadowWritten (groupOf s (.palette (logicalOf s pe))) (laneAddr pe L w) s
  else s

/-- A write to the shadow descriptor of an engine with a logical slot (R189). -/
def shadowProgWritten (pe : Nat) (s : State) : State :=
  if (slotOf s pe).isSome && !engRetired s pe then unvalid (s.f .ENG_CTRL pe 11 8) s else s

/-- ENGC_REMAP or ENGC_RETIRE written by software; a logical engine whose pairs come to other groups moves them (R189). -/
def remapOrRetire (cl : Nat) (isRetire : Bool) (v : Word) (s : State) : State :=
  if isRetire then retireWrite cl v s
  else
    let t := remapWrite cl v s
    let t := t.setF .ENGC_RETIRE cl 31 24 (lretOf t cl)
    (List.range 8).foldl (fun u k =>
      let e := 8 * cl + k
      regrouped (groupOf s (.prog e)) (groupOf t (.prog e)) (regrouped (groupOf s (.palette e)) (groupOf t (.palette e)) u)) t

/-! What tells a sink of the fabric that it is there: ports (R255 to R258), links (R280, R285), chains (R237). -/

/-- STATE of SAP_STAT. -/
def Sap.IDLE : Nat := 0
def Sap.SEARCH : Nat := 1
def Sap.CONFIRM : Nat := 2
def Sap.LOCKED : Nat := 3
def Sap.RETIRED : Nat := 4

def sapState (s : State) (p : Nat) : Nat := s.f .SAP_STAT p 31 29
def setSapState (p n : Nat) (s : State) : State := s.setF .SAP_STAT p 31 29 n
def sapMode (s : State) (p : Nat) : Nat := s.f .SAP_CFG p 1 0
def sapFmt (s : State) (p : Nat) : Nat := s.f .SAP_CFG p 5 4

/-- NSLOT, SW and WL. -/
def sapSlots (s : State) (p : Nat) : Nat := if sapFmt s p = 2 then s.f .SAP_CFG p 11 8 + 1 else 2
def sapSw (s : State) (p : Nat) : Nat := match s.f .SAP_CFG p 13 12 with | 0 => 16 | 1 => 24 | _ => 32
def sapWl (s : State) (p : Nat) : Nat := match s.f .SAP_CFG p 17 16 with | 0 => 16 | 1 => 20 | _ => 24

/-- STATE of LINK_STAT. -/
def Lk.IDLE : Nat := 0
def Lk.SIGNAL : Nat := 1
def Lk.ALIGN : Nat := 2
def Lk.TRAIN : Nat := 3
def Lk.UP : Nat := 4
def Lk.FAULT_RX : Nat := 5
def Lk.RETIRED : Nat := 6

def linkState (s : State) (l : Nat) : Nat := s.f .LINK_STAT l 31 28

/-- Channels of a link at the current rate (R280). -/
def linkChannels (s : State) : Nat := 512 / rateMul s

def chainEn (s : State) (c : Nat) : Bool := s.bit .SECTION_EN_w (c / 32) (c % 32)

end Sys2Proof.Machine
end

