-- ==== Sys2Proof/Machine/ProgCheck.lean ====
section
/-! DEFINITION. The check of an engine program (05_engines.md R152 to R157, R160): what a word makes of lane memory, and the
reasons for which a program is refused. -/

namespace Sys2Proof.Machine

/-- Lane-memory accesses of a short operation in engine profile (R83). -/
def shortAccesses : ShortOp → Nat
  | .macs _ (.ptrs _ _ _ _) => 2
  | .ldxs _ (.ptr _ _ _) | .stxs _ (.ptr _ _ _) => 1
  | _ => 0

/-- Lane-memory accesses of the operands of MAC, MSU and MPY (R83). -/
def macAccesses : MacArgs → Nat
  | .regs _ _ => 0
  | .regMem _ _ => 1
  | .tapPtr _ _ _ | .ptrCoef _ _ _ => 2

/-- Lane-memory accesses of an engine word (R83). -/
def accessesOf : Instr → Nat
  | .ldx _ _ (.mem _) | .stx _ _ (.mem _) => 1
  | .mac _ _ x | .msu _ _ x | .mpy _ _ x => macAccesses x
  | .macs _ _ _ (.ptrs _ _ _ _) o => 2 + shortAccesses o
  | .macs _ _ _ (.regs _ _) o => shortAccesses o
  | .ldxs _ _ _ (.ptr _ _ _) o | .stxs _ _ _ (.ptr _ _ _) o => 1 + shortAccesses o
  | .ldxs _ _ _ (.base _ _) o | .stxs _ _ _ (.base _ _) o => shortAccesses o
  | .nops _ _ o | .mov _ _ _ _ o | .shortAdd _ _ _ _ _ o | .shortSub _ _ _ _ _ o | .shortAnd _ _ _ _ _ o
  | .shortOr _ _ _ _ _ o | .shortXor _ _ _ _ _ o | .shli _ _ _ _ _ o | .sari _ _ _ _ _ o | .addi5 _ _ _ _ _ o
  | .shortCmp _ _ _ _ o | .mpys _ _ _ _ _ o => shortAccesses o
  | _ => 0

/-- The static offsets of a memory operand, with their spaces. -/
def opStatic (op : MemOp) : List (Space × Nat) :=
  match op.off with
  | .imm o => [(op.space, o.val)]
  | .ptr _ _ => []

def macStatic : MacArgs → List (Space × Nat)
  | .tapPtr t _ _ => [(.delay, t.val)]
  | .regMem _ op => opStatic op
  | .ptrCoef _ _ c => [(.palette, c.val)]
  | .regs _ _ => []

/-- The static offsets of an engine word (R154 RANGE). -/
def staticsOf : Instr → List (Space × Nat)
  | .ldx _ _ (.mem op) | .stx _ _ (.mem op) => opStatic op
  | .mac _ _ x | .msu _ _ x | .mpy _ _ x => macStatic x
  | _ => []

/-- Whether an engine word is a load or store of cluster shared memory (R124, R160). -/
def isShared : Instr → Bool
  | .ldw _ _ _ _ | .stw _ _ _ _ | .ldh _ _ _ _ | .sth _ _ _ _ | .ldb _ _ _ _ | .stb _ _ _ _ => true
  | _ => false

/-- Whether a static offset lies outside its region, for regions of P and S words (R154). -/
def outOfRegion (P S : Nat) : Space × Nat → Bool
  | (.palette, o) => decide (P ≤ o)
  | (.scratch, o) => decide (S + 32 ≤ o)
  | _ => false

/-- The stored program word at offset w of a program, decoded in engine profile. -/
def progInstr (s : State) (pe : Fin 72) (base w : Nat) : Option Instr := decodeRamtal (.eng pe) (getSlot s (progAddr pe (base + w)))

/-- A word-level reason that holds for word w (R154), in the table's numbers. Shared-memory words of an engine that runs no logical slot are
refused. DESIGN CHOICE: log entry 98. -/
def wordReason (s : State) (pe : Fin 72) (base len w reason : Nat) : Bool :=
  if upsetOf s (progAddr pe (base + w)) = 2 then reason == 7
  else
    match progInstr s pe base w with
    | none => reason == 1
    | some i =>
      match reason with
      | 2 => decide (2 < accessesOf i)
      | 5 => (staticsOf i).any (outOfRegion (pWords s pe) (sWords s pe))
      | 6 => isShared i && ((match slotOf s pe with | some k => w % 128 != 16 * k | none => true) || decide (len < w + 17))
      | _ => false

/-- The first word for which a word-level reason holds. -/
def reasonAt (s : State) (pe : Fin 72) (base len reason : Nat) : Option Nat :=
  (List.range (min (base + len) 8192 - base)).find? (fun w => wordReason s pe base len w reason)

/-- Two ranges of program words overlap. -/
def rangesMeet (b1 n1 b2 n2 : Nat) : Bool := decide (0 < n1) && decide (0 < n2) && decide (b1 < b2 + n2) && decide (b2 < b1 + n1)

/-- The result of the check of descriptor d (R154): the reason, 0 for a pass, and the offset it reports. -/
def progResult (s : State) (pe : Fin 72) (d : Nat) : Nat × Nat :=
  let b := progBase s pe d
  let n := progLen s pe d
  let a := 1 - d
  match reasonAt s pe b n 1 with
  | some w => (1, w)
  | none =>
  match reasonAt s pe b n 2 with
  | some w => (2, w)
  | none =>
  if turnLen s - 128 < n then (3, 0)
  else if 8192 < b + n || rangesMeet b n (progBase s pe a) (progLen s pe a) then (4, 0)
  else
  match reasonAt s pe b n 5 with
  | some w => (5, w)
  | none =>
  match reasonAt s pe b n 6 with
  | some w => (6, w)
  | none =>
  match reasonAt s pe b n 7 with
  | some w => (7, w)
  | none => (0, 0)

def setChk (pe d : Nat) (v : Word) (s : State) : State := setEng { s.eng with chk := Store.set zeroOf s.eng.chk (2 * pe + d) v } s

/-- The check of the shadow program of an engine starts, abandoning one that runs (R153); the result of the active one, if none has
run, is passed (R157). -/
def startProgCheck (pe : Nat) (s : State) : State :=
  let a := actProg s pe
  let s := if Store.get zeroOf s.eng.chk (2 * pe + a) = 0 then setChk pe a 0x80000000 s else s
  setChk pe (1 - a) 0x40000000 s

/-- Whether a flip of an engine's program has been decided and is still to take place (R156, R184). -/
def progDecided (s : State) (pe : Nat) : Bool :=
  (s.safe.flipNext ++ s.safe.flipEng).any (fun m => match m with | .prog e => physOf s e == pe | _ => false)

/-- The check of the shadow program completes (R154); single-bit errors it reads are corrected (R158). -/
def progCheckDone (pe : Fin 72) (s : State) : State :=
  let d := 1 - actProg s pe
  if fld (engProgChk s pe) 31 30 ≠ 1 then s
  else
    let (r, w) := progResult s pe d
    let b := progBase s pe d
    let s := (List.range (min (b + progLen s pe d) 8192 - b)).foldl (fun t k => correctProg pe (progAddr pe (b + k)) (b + k) t) s
    setChk pe d (BitVec.ofNat 32 (if r = 0 then 2 * 2 ^ 30 else 3 * 2 ^ 30 + r * 2 ^ 24 + w)) s

/-- ENG_PROG_A and ENG_PROG_B (R152, R153, R175): from the decision of a flip on, the program that will run is protected like the one
that runs (R156). DEDUCED: log entry 86. -/
def progDescWrite (pe d : Nat) (v : Word) (s : State) : State :=
  let r : RegName := if d = 0 then .ENG_PROG_A else .ENG_PROG_B
  if engRetired s pe then s
  else if actProg s pe = d || progDecided s pe then cfgErr r pe s
  else shadowProgWritten pe (startProgCheck pe (plainWrite r pe v s))

/-- A write of program word w lands, in the spare too while the engine migrates (R169, R172). -/
def progLand (pe w : Nat) (v : Word) (s : State) : State :=
  let s := setSlot s (progAddr pe w) v
  match mirrorPe s pe with
  | some q => setSlot s (progAddr q w) v
  | none => s

/-- A bus write to program memory (R152, R153, R156, R175). DEDUCED: log entry 86. -/
def progMemWrite (pe w : Nat) (v : Word) (s : State) : State :=
  let a := actProg s pe
  let within (d : Nat) : Bool := decide (progBase s pe d ≤ w) && decide (w < progBase s pe d + progLen s pe d)
  if engRetired s pe then s
  else if within a || (progDecided s pe && within (1 - a)) then s.setBit .ENG_FAULT pe 2 true
  else
    let s := progLand pe w v s
    if within (1 - a) then startProgCheck pe s else s

/-- A bus read of program memory; none is a bus error (R158, R175). -/
def progMemRead (pe w : Nat) (s : State) : Option Word × State :=
  let a := progAddr pe w
  if engRetired s pe then (some 0, s)
  else if upsetOf s a = 2 then (none, s.setBit .ENG_FAULT pe 3 true)
  else (some (getSlot s a), correctProg pe a w s)

/-- ENG_LANE_MAP (R143, R157): refused while the engine runs, for regions that do not fit, or for an active program with a
static offset outside the new regions. A reserved PSIZE takes its reset value, as R8 says. -/
def laneMapWrite (pe : Fin 72) (v : Word) (s : State) : State :=
  if engRetired s pe then s
  else
    let t := plainWrite .ENG_LANE_MAP pe v s
    let tooBig := 16384 < dWords t pe + 2 * pWords t pe
    let t := if tooBig then cfgErr .ENG_LANE_MAP pe (t.setF .ENG_LANE_MAP pe 25 16 0) else t
    let a := actProg s pe
    let b := progBase s pe a
    let bad := (List.range (min (b + progLen s pe a) 8192 - b)).any (fun w =>
      upsetOf s (progAddr pe (b + w)) != 2 && match progInstr s pe b w with
      | some i => (staticsOf i).any (outOfRegion (pWords t pe) (sWords t pe))
      | none => false)
    if engRunning s pe || bad then cfgErr .ENG_LANE_MAP pe s
    else startProgCheck pe t

/-- ENG_CTRL: the groups move (R189). -/
def engCtrl (pe : Nat) (v : Word) (s : State) : State :=
  let c := s.f .ENG_CTRL pe 15 12
  let p := s.f .ENG_CTRL pe 11 8
  let s := engCtrlWrite pe v s
  match slotOf s pe with
  | some _ => regrouped p (s.f .ENG_CTRL pe 11 8) (regrouped c (s.f .ENG_CTRL pe 15 12) s)
  | none => s

/-- Another register of an engine's block: a retired engine keeps all but ENG_FAULT and the counters (R175). -/
def engPlainWrite (r : RegName) (pe : Nat) (v : Word) (s : State) : State :=
  if engRetired s pe && !(r == .ENG_FAULT || r == .ENG_TOKDROP || r == .ENG_ECC_CORR) then s else plainWrite r pe v s

end Sys2Proof.Machine
end

