-- ==== Sys2Proof/Machine/Wake.lean ====
section
/-! DEFINITION. The states of the power domains, their wakes and the wake record (15_power_domains.md R397, R401 to R406), which
every block's wakes use. -/

namespace Sys2Proof.Machine

def setPwr (x : PwrState) (s : State) : State := { s with pwr := x }

/-- PWR_STATE codes (R414). -/
def Dom.ON : Nat := 0
def Dom.MOVING : Nat := 1
def Dom.RET : Nat := 2
def Dom.OFF : Nat := 3

def setDomainCode (d n : Nat) (s : State) : State :=
  s.setF .PWR_STATE_w (d / 16) (2 * (d % 16) + 1) (2 * (d % 16)) n

def domainOn (s : State) (d : Nat) : Bool := domainCode s d == Dom.ON
def domainDown (s : State) (d : Nat) : Bool := domainCode s d == Dom.RET || domainCode s d == Dom.OFF

/-- Numbers of the domains (R397). -/
def domCluster (pe : Nat) : Nat := 6 + pe / 9
def domCore (c : Nat) : Nat := 14 + c / 4
def domPort (p : Nat) : Nat := 18 + p / 8
def domLink (l : Nat) : Nat := 26 + l

/-! Wakes (R401, R403, R405, R406). -/

/-- Whether the record holds a wake of this HUBCLK cycle of a lower source, or of the same source and a lower domain (R406). -/
def recordStands (s : State) (src d : Nat) : Bool :=
  s.pwr.wokeAt == s.time.hub + 1 && s.bit .PWR_LAST_WAKE 0 31 &&
    decide (64 * s.f .PWR_LAST_WAKE 0 4 0 + s.f .PWR_LAST_WAKE 0 13 8 ≤ 64 * src + d)

/-- The wake record: of the wakes of one HUBCLK cycle the lowest source is recorded. -/
def recordWake (src d : Nat) (replayed : Bool) (s : State) : State :=
  if recordStands s src d then s
  else
    let s := setPwr { s.pwr with wokeAt := s.time.hub + 1 } s
    let s := s.setReg .PWR_LAST_WAKE 0 (BitVec.ofNat 32 (2 ^ 31 + b2n replayed * 2 ^ 30 + d * 256 + src))
    raise Ev.PWR_WAKE (s.setReg .PWR_LAST_WAKE_TURN 0 (BitVec.ofNat 32 s.time.turn.toNat))

/-- A domain that is down begins to wake. -/
def startWake (d : Nat) (s : State) : State :=
  let off := domainCode s d == Dom.OFF
  setDomainCode d Dom.MOVING (setPwr { s.pwr with wake := s.pwr.wake ++ [(d, off)] } s)

/-- Whether a domain is in a vote or an entry, so that a wake is latched (R405). DEDUCED: log entry 53. -/
def inRequest (s : State) (d : Nat) : Bool :=
  s.pwr.enter.any (fun e => e.1 == d) ||
    (match s.pwr.vote with | some v => v.voters.contains d || v.others.contains d | none => false)

/-- The wakes of this HUBCLK cycle that have found their domains on (R405). -/
def firedNow (s : State) : List (Nat × Nat) := if s.pwr.firedAt == s.time.hub + 1 then s.pwr.fired else []

/-- A wake of some domains by one source: those that are down wake and the wake is recorded; those in a request latch it; one that finds
its domain on is kept for its HUBCLK cycle. -/
def wakeDomains (src : Nat) (ds : List Nat) (s : State) : State :=
  let late := ds.filter (fun d => inRequest s d)
  let on := ds.filter (fun d => domainOn s d && !late.contains d)
  let s := setPwr { s.pwr with latch := s.pwr.latch ++ late.map (fun d => (src, d)), firedAt := s.time.hub + 1,
                               fired := firedNow s ++ on.map (fun d => (src, d)) } s
  let down := ds.filter (fun d => domainDown s d && !late.contains d)
  let s := down.foldl (fun t d => startWake d t) s
  match (List.range 34).find? (fun d => down.contains d) with
  | some d => recordWake src d false s
  | none => s

/-- The domains of a wake map. -/
def wakeMap (s : State) (k : Nat) : List Nat :=
  (List.range 34).filter (fun d => d ≠ 0 && (if d < 32 then s.bit .PWR_WAKE_MAP_s_LO k d else s.bit .PWR_WAKE_MAP_s_HI k (d - 32)))

/-- A source of PWR_WAKE_EN with a map fires (R406). -/
def fireSource (k : Nat) (s : State) : State := if s.bit .PWR_WAKE_EN 0 k then wakeDomains k (wakeMap s k) s else s

/-- Source 27 or 28, for one link or port group. -/
def fireUnit (k d : Nat) (s : State) : State := if s.bit .PWR_WAKE_EN 0 k then wakeDomains k [d] s else s

end Sys2Proof.Machine
end

