-- ==== Sys2Proof/Machine/DmaUnit.lean ====
section
/-! DEFINITION. DMA channels and hub timers (12_dma.md R341 to R364): triggers, completions, halts and register writes. The
accesses a channel makes stand in Movers.lean. -/

namespace Sys2Proof.Machine

def setDma (x : DmaState) (s : State) : State := { s with dma := x }
def setTimer (x : TimerState) (s : State) : State := { s with timer := x }

/-- States of a channel (R341), the encodings of DMA_CH_n_STAT.STATE. -/
def Dma.OFF : Nat := 0
def Dma.IDLE : Nat := 1
def Dma.RUN : Nat := 2
def Dma.PAUSED : Nat := 3
def Dma.HALTED : Nat := 4

def dmaState (s : State) (n : Nat) : Nat := s.f .DMA_CH_n_STAT n 31 29
def setDmaState (n k : Nat) (s : State) : State := s.setF .DMA_CH_n_STAT n 31 29 k
def dmaPause (s : State) (n : Nat) : Bool := s.bit .DMA_CH_n_CTRL n 1
def dmaPend (s : State) (n : Nat) : Bool := s.bit .DMA_CH_n_STAT n 22
def setDmaPend (n : Nat) (b : Bool) (s : State) : State := s.setBit .DMA_CH_n_STAT n 22 b
def dmaErr (s : State) (n : Nat) : Nat := s.f .DMA_CH_n_STAT n 28 26

/-- The activation of a channel. -/
def jobOf (s : State) (n : Nat) : Option DmaJob := s.dma.jobs.find? (fun j => j.ch == n)
def dropJob (n : Nat) (s : State) : State := setDma { s.dma with jobs := s.dma.jobs.filter (fun j => j.ch != n) } s
def putJob (j : DmaJob) (s : State) : State :=
  setDma { s.dma with jobs := s.dma.jobs.filter (fun x => x.ch != j.ch) ++ [j] } s

/-- The channel is to fetch the descriptor at CUR. -/
def dmaFetch (n : Nat) (counted : Bool) (s : State) : State :=
  putJob ⟨n, .fetch counted, [], 0, 0, []⟩ (setDmaState n Dma.RUN s)

/-- IDLE to RUN (R341): an activation starts. -/
def dmaActivate (n : Nat) (s : State) : State :=
  let s := setDmaPend n false s
  let s := s.setF .DMA_CH_n_STAT n 15 0 0
  let s := s.setReg .DMA_CH_n_CUR n (s.reg .DMA_CH_n_DESC n)
  dmaFetch n true s

/-- A trigger of a channel (R342, R358, R359): triggers of one HUBCLK cycle count as one. DESIGN CHOICE: log entry 50. -/
def dmaTrigger (n : Nat) (s : State) : State :=
  let k := dmaState s n
  if k = Dma.OFF || Store.get natZero s.dma.trig n == s.time.hub + 1 then s
  else
    let s := setDma { s.dma with trig := Store.set natZero s.dma.trig n (s.time.hub + 1) } s
    if k = Dma.IDLE && !dmaPause s n then dmaActivate n s
    else if dmaPend s n then count24 .DMA_CH_n_TRIG_OVR n (some Ev.DMA_TRIG_OVR) s
    else setDmaPend n true s

/-- The channels that listen to a timer, and to a channel (R342). -/
def timerListeners (s : State) (t : Nat) : List Nat :=
  (List.range 32).filter (fun n => s.f .DMA_CH_n_CFG n 5 4 == 1 && s.f .DMA_CH_n_CFG n 10 8 == t)
def channelListeners (s : State) (c : Nat) : List Nat :=
  (List.range 32).filter (fun n => s.f .DMA_CH_n_CFG n 5 4 == 2 && s.f .DMA_CH_n_CFG n 12 8 == c)

/-- Entry to HALTED (R356). -/
def dmaHalt (n err reason : Nat) (addr : Nat) (dir : Nat) (timeout late : Bool) (s : State) : State :=
  let s := setDma { s.dma with back := Store.set natZero s.dma.back n (dmaState s n) } s
  let s := setDmaState n Dma.HALTED s
  let s := s.setF .DMA_CH_n_STAT n 28 26 err
  let s := s.setF .DMA_CH_n_STAT n 25 23 reason
  let s := s.setReg .DMA_CH_n_ERRADDR n (BitVec.ofNat 32 addr)
  let s := s.setReg .DMA_CH_n_ERRDIR n (BitVec.ofNat 32 (b2n late * 8 + b2n timeout * 4 + dir))
  raise Ev.DMA_HALT (s.setBit .DMA_HALTED 0 n true)

/-- The address of the next access of a descriptor: CUR, or a word of its destination or source. -/
def DmaJob.next (j : DmaJob) (s : State) : Nat :=
  if j.dir = 2 then (s.reg .DMA_CH_n_CUR j.ch).toNat else if j.dir = 1 then j.writeAddr else j.readAddr

/-- PROG_REASON of a descriptor, 0 where none holds (R346). -/
def progReason (compat : Bool) (j : DmaJob) : Nat :=
  let m4 (n : Nat) : Bool := n % 4 != 0
  if fld (j.word 2) 31 24 ≠ 0 ∨ fld (j.word 3) 31 8 ≠ 0 ∨ bitOf (j.word 3) 2 ∨ fld (j.word 4) 4 0 ≠ 0 ∨ fld (j.word 5) 31 14 ≠ 0 ∨
      j.word 7 ≠ 0 then 1
  else if !compat && (m4 j.src || m4 j.dst || m4 j.len) then 2
  else if j.srcFix && (m4 j.src || m4 j.len) || j.dstFix && (m4 j.dst || m4 j.len) then 3
  else if decide (2 ^ 32 < j.src + j.len) || decide (2 ^ 32 < j.dst + j.len) then 4
  else 0

/-- The actions of a completion (R351). -/
def dmaActions (j : DmaJob) (s : State) : State :=
  let s := if j.trigout then (channelListeners s j.ch).foldl (fun t n => dmaTrigger n t) s else s
  let s := if j.irq then raise Ev.DMA_DONE (s.setBit .EVT_DMA_DONE 0 j.ch true) else s
  if j.tok then
    setSched { s.sched with dmaQ := s.sched.dmaQ ++ [(j.ch, ⟨fld (j.word 5) 13 2, fld (j.word 5) 1 0, j.word 6⟩)] } s
  else s

/-- Whether one more fetch would pass CHAIN_LIMIT (R343). -/
def chainFull (s : State) (n : Nat) : Bool :=
  s.f .DMA_CH_n_CFG n 31 16 != 0 && decide (s.f .DMA_CH_n_CFG n 31 16 ≤ s.f .DMA_CH_n_STAT n 15 0)

/-- A fetch begins (R343): where it is counted, DESC_CNT increments, or the channel halts at its limit. The flag says whether the channel
fetches. -/
def dmaBegin (n : Nat) (counted : Bool) (s : State) : Bool × State :=
  if counted && chainFull s n then (false, dmaHalt n 3 0 (s.reg .DMA_CH_n_CUR n).toNat 2 false false s)
  else
    let s := setDma { s.dma with trig := Store.set natZero s.dma.trig n 0 } s
    (true, if counted then s.setF .DMA_CH_n_STAT n 15 0 (s.f .DMA_CH_n_STAT n 15 0 + 1) else s)

/-- What follows a completion (R341, R359). -/
def dmaNext (j : DmaJob) (s : State) : State :=
  let n := j.ch
  let s := dropJob n s
  if j.last then
    let s := setDmaState n Dma.IDLE s
    if dmaPend s n && !dmaPause s n then dmaActivate n s else s
  else
    let s := s.setReg .DMA_CH_n_CUR n (j.word 4 &&& 0xFFFFFFE0)
    if !dmaPause s n then dmaFetch n true s
    else if chainFull s n then dmaHalt n 3 0 (s.reg .DMA_CH_n_CUR n).toNat 2 false false s
    else setDmaState n Dma.PAUSED s

/-- Whether a channel's token ingress entry holds a token (R21, R351). -/
def dmaTokFull (s : State) (n : Nat) : Bool := s.sched.dmaQ.any (fun t => t.1 == n)

/-- The writes of a channel that are in error (R357), and those that RESUME has issued again and that still wait (R356). -/
def dmaFailed (s : State) (n : Nat) : List DmaWrite :=
  s.dma.failed.filter (fun w => w.ch == n && (w.stage == .failed || w.stage == .told))
def dmaAgain (s : State) (n : Nat) : List DmaWrite := s.dma.failed.filter (fun w => w.ch == n && w.stage == .again)

/-- The channel has taken the error of a write. -/
def dmaTold (w : DmaWrite) (s : State) : State :=
  setDma { s.dma with failed := s.dma.failed.map (fun x => if x = w then { w with stage := .told } else x) } s

/-- A write error halts the channel, late where the write's descriptor has completed (R356, R357). -/
def dmaWriteError (w : DmaWrite) (timeout : Bool) (s : State) : State :=
  dmaHalt w.ch 2 0 w.addr 1 timeout w.done (dmaTold w s)

/-- The writes of a channel are those of a completed descriptor (R357). -/
def dmaDone (n : Nat) (s : State) : State :=
  let m (w : DmaWrite) : DmaWrite := if w.ch = n then { w with done := true } else w
  setDma { s.dma with failed := s.dma.failed.map m, sent := s.dma.sent.map m } s

/-- A descriptor completes, or waits for the token entry (R351), or, with FENCE, for the responses of the channel's writes, of which an
error halts it (R350, R357). -/
def dmaComplete (j : DmaJob) (s : State) : State :=
  match if j.fence then dmaFailed s j.ch else [] with
  | w :: _ => dmaWriteError w false (putJob j s)
  | [] =>
    if j.fence && !(dmaAgain s j.ch).isEmpty then putJob j s else
    let s := if j.fence then setDma { s.dma with sent := s.dma.sent.filter (fun w => w.ch != j.ch) } s else dmaDone j.ch s
    if j.tok && dmaTokFull s j.ch then (putJob { j with stage := .tokWait } s).setBit .DMA_CH_n_STAT j.ch 21 true
    else dmaNext j (dmaActions j (s.setBit .DMA_CH_n_STAT j.ch 21 false))

/-- The completions that waited for a token entry that has freed (R351). -/
def dmaTokFreed (s : State) : State :=
  (s.dma.jobs.filter (fun j => j.stage == .tokWait)).foldl (fun t j =>
    if dmaTokFull t j.ch || dmaState t j.ch != Dma.RUN then t else dmaComplete j t) s

/-- RESUME in HALTED, by cause (R356, R357): the failed writes the channel has been told of are issued again. DESIGN CHOICE: log
entry 50. -/
def dmaResume (n : Nat) (s : State) : State :=
  let err := dmaErr s n
  let late := s.bit .DMA_CH_n_ERRDIR n 3
  let s := s.setF .DMA_CH_n_STAT n 28 23 0
  let s := s.setBit .DMA_HALTED 0 n false
  let s := setDma { s.dma with failed := s.dma.failed.map (fun w =>
    if w.ch = n ∧ w.stage = .told then { w with stage := .again } else w) } s
  if late then setDmaState n (Store.get natZero s.dma.back n) s
  else if err = 1 then dmaFetch n false s
  else if err = 3 then dmaFetch n true (s.setF .DMA_CH_n_STAT n 15 0 0)
  else setDmaState n Dma.RUN s

/-- The writes of completed descriptors whose errors are on their way still arrive after an ABORT (R354, R357). -/
def dmaEnd (n : Nat) (s : State) : State :=
  let s := dropHeld (.dma (Fin.ofNat 32 n)) s
  setDma { s.dma with
    trig := Store.set natZero s.dma.trig n 0
    failed := s.dma.failed.filter (fun w => w.ch != n || (w.done && w.stage != .told))
    sent := s.dma.sent.filter (fun w => w.ch != n || w.done) } s

/-- ABORT in PAUSED or HALTED (R354). -/
def dmaAbort (n : Nat) (s : State) : State :=
  let s := setDmaPend n false s
  let s := s.setF .DMA_CH_n_STAT n 28 23 0
  let s := (s.setBit .DMA_CH_n_STAT n 20 true).setBit .DMA_CH_n_STAT n 21 false
  let s := s.setBit .DMA_HALTED 0 n false
  setDmaState n Dma.IDLE (dmaEnd n (dropJob n s))

/-- A channel that PAUSE no longer holds goes on (R341). -/
def dmaGoOn (n : Nat) (s : State) : State :=
  if dmaPause s n then s
  else if dmaState s n = Dma.PAUSED then dmaFetch n true s
  else if dmaState s n = Dma.IDLE && dmaPend s n then dmaActivate n s
  else s

/-- DMA_CH_n_CTRL (R341, R342, R352, R353, R359): ABORT before RESUME, then PAUSE, then START. In HALT the channel stays OFF (R358).
DESIGN CHOICE: log entry 50. -/
def dmaCtrlWrite (n : Nat) (v : Word) (s : State) : State :=
  let k := dmaState s n
  let start := bitOf v 2
  let s := s.setBit .DMA_CH_n_CTRL n 1 (bitOf v 1)
  let en := bitOf v 0 && sysState s != St.HALT
  if k = Dma.OFF then
    let s := if start || bitOf v 3 || bitOf v 4 then cfgErr .DMA_CH_n_CTRL n s else s
    if en then setDmaState n Dma.IDLE (setDmaPend n false (s.setBit .DMA_CH_n_CTRL n 0 true)) else s
  else if !en then dmaOff n s
  else
    let s :=
      if bitOf v 4 then (if k = Dma.PAUSED ∨ k = Dma.HALTED then dmaAbort n s else cfgErr .DMA_CH_n_CTRL n s)
      else if bitOf v 3 then (if k = Dma.HALTED then dmaResume n s else cfgErr .DMA_CH_n_CTRL n s)
      else s
    let s := dmaGoOn n s
    if start then dmaTrigger n s else s

/-- Whether a trigger has taken the channel from IDLE to RUN in this HUBCLK cycle (R359). -/
def dmaJustStarted (s : State) (n : Nat) : Bool :=
  Store.get natZero s.dma.trig n == s.time.hub + 1 && dmaState s n == Dma.RUN && !dmaPend s n && s.f .DMA_CH_n_STAT n 15 0 == 0 &&
    (match jobOf s n with | some j => j.stage == .fetch true | none => false)

/-- DMA_CH_n_CFG and DMA_CH_n_DESC: accepted in OFF and IDLE, and beside a trigger in IDLE, whose activation then uses the new value (R359);
TRIG_SEL [12:11] is zero with TRIG_SRC 01 (R362). -/
def dmaCfgWrite (r : RegName) (n : Nat) (v : Word) (s : State) : State :=
  let k := dmaState s n
  let fresh := dmaJustStarted s n
  if k = Dma.OFF ∨ k = Dma.IDLE ∨ fresh = true then
    if r = .DMA_CH_n_CFG && fld v 5 4 == 1 && fld v 12 11 != 0 then cfgErr r n (plainWrite r n (setFld v 12 8 0) s)
    else
      let t := plainWrite r n v s
      if fresh && r == .DMA_CH_n_DESC then t.setReg .DMA_CH_n_CUR n (t.reg .DMA_CH_n_DESC n) else t
  else cfgErr r n s

/-! Timers (R360, R361). -/

def timerMode (s : State) (n : Nat) : Bool := s.bit .TIMER_n_CTRL n 1

/-- PERIOD and PHASE as they now stand come into use. -/
def timerLoad (n : Nat) (s : State) : State :=
  setTimer { s.timer with period := Store.set natZero s.timer.period n (s.reg .TIMER_n_PERIOD n).toNat,
                          phase := Store.set natZero s.timer.phase n (s.f .TIMER_n_CTRL n 28 16) } s

/-- The enable of a timer takes effect: COUNT is 0. -/
def timerStart (n : Nat) (s : State) : State :=
  if s.bit .TIMER_n_CTRL n 0 then
    let s := timerLoad n (s.setReg .TIMER_n_COUNT n 0)
    setTimer { s.timer with on := n :: s.timer.on.filter (fun x => x != n), start := Store.set natZero s.timer.start n s.time.hub } s
  else s

/-- COUNT as a read gives it. -/
def timerCount (s : State) (n : Nat) : Word :=
  if s.timer.on.contains n && !timerMode s n then
    BitVec.ofNat 32 ((s.time.hub - Store.get natZero s.timer.start n) % Store.get natZero s.timer.period n)
  else s.reg .TIMER_n_COUNT n

/-- A change that waited for a boundary is withdrawn. -/
def withdraw (a : PendAct) (s : State) : State :=
  { s with dev := { s.dev with pendNew := s.dev.pendNew.filter (fun b => b != a), pendCut := s.dev.pendCut.filter (fun b => b != a) } }

/-- EN is cleared: COUNT stays where it is, and an enable that waits for its boundary is withdrawn (R360). -/
def timerStop (n : Nat) (s : State) : State :=
  let s := withdraw (.timerStart n) (s.setReg .TIMER_n_COUNT n (timerCount s n))
  let s := setTimer { s.timer with on := s.timer.on.filter (fun x => x != n) } s
  s.setBit .TIMER_n_CTRL n 0 false

/-- TIMER_n_CTRL (R360, R363): MODE is refused while EN is 1; in MODE 1 the enable waits for the coming boundary. -/
def timerCtrlWrite (n : Nat) (v : Word) (s : State) : State :=
  let en := s.bit .TIMER_n_CTRL n 0
  let bad := en && bitOf v 1 != timerMode s n
  let v' := if bad then putBit v 1 (timerMode s n) else v
  let s := if bad then cfgErr .TIMER_n_CTRL n s else s
  let s := plainWrite .TIMER_n_CTRL n (putBit v' 0 en) s
  if bitOf v 0 && !en then
    let s := s.setBit .TIMER_n_CTRL n 0 true
    if timerMode s n && turnsOn s then later (.timerStart n) s else timerStart n s
  else if !bitOf v 0 && en then timerStop n s
  else s

/-- What an expiry does (R361, R406). -/
def timerFire (n : Nat) (s : State) : State :=
  let s := fireSource (16 + n) ((timerListeners s n).foldl (fun t c => dmaTrigger c t) s)
  let s := if s.bit .TIMER_n_CTRL n 3 then raise Ev.TIMER_EXPIRE (s.setBit .EVT_TIMER 0 n true) else s
  let tk := s.reg .TIMER_n_TOK n
  let s :=
    if bitOf tk 31 then
      if s.sched.timerQ.any (fun t => t.1 == n) then count24 .TIMER_n_OVR n (some Ev.TIMER_OVR) s
      else setSched { s.sched with timerQ := s.sched.timerQ ++ [(n, ⟨fld tk 13 2, fld tk 1 0, stamp s⟩)] } s
    else s
  let s := timerLoad n s
  if s.bit .TIMER_n_CTRL n 2 then timerStop n s else s

/-- TIMER_EXPIRE (R360): in MODE 0 the HUBCLK count has reached PERIOD, and COUNT returns to 0; in MODE 1 a turn in which COUNT is 0 reaches
clk PHASE mod N, once. DESIGN CHOICE: log entry 26. -/
def timerExpire (n : Nat) (s : State) : State :=
  if !s.timer.on.contains n then s
  else if timerMode s n then
    if turnsOn s && s.reg .TIMER_n_COUNT n == 0 && !s.timer.fired.contains n then
      timerFire n (setClk (Store.get natZero s.timer.phase n % turnLen s) (setTimer { s.timer with fired := n :: s.timer.fired } s))
    else s
  else
    let due := Store.get natZero s.timer.start n + Store.get natZero s.timer.period n
    if due ≤ s.time.hub then
      timerFire n (setTimer { s.timer with start := Store.set natZero s.timer.start n due } (s.setReg .TIMER_n_COUNT n 0))
    else s

/-- A boundary of running turns moves the turn-synchronised timers on (R360). -/
def timersBoundary (s : State) : State :=
  (List.range 8).foldl (fun t n =>
    if t.timer.on.contains n && timerMode t n then
      let k := (t.reg .TIMER_n_COUNT n).toNat + 1
      t.setReg .TIMER_n_COUNT n (if Store.get natZero t.timer.period n ≤ k then 0 else BitVec.ofNat 32 k)
    else t) (setTimer { s.timer with fired := [] } s)

end Sys2Proof.Machine
end

