-- ==== Sys2Proof/Machine/Frame.lean ====
section
/-! DEFINITION. The frames of the cascade links as symbols (10_cascade_links.md R279 to R281, R294): ordered sets, the parts of a frame,
its CRC, its header and its message slots, and the 10-bit code groups of a lane. -/

namespace Sys2Proof.Machine

/-! Ordered sets (R279): control symbol Kx.y is 32 * y + x. -/

def commaK28_5 : Sym := .ctrl 0xBC
def commaK28_7 : Sym := .ctrl 0xFC
def thrice (a b : Sym) : List Sym := [a, b, b, b]
def idleSet : List Sym := thrice commaK28_5 (.data 0x50)
def sofSet : List Sym := thrice commaK28_5 (.ctrl 0xFB)
def eofSet : List Sym := thrice (.ctrl 0xFD) (.ctrl 0xFD)
def faultSet : List Sym := thrice commaK28_5 (.ctrl 0xFE)
def wakeSet : List Sym := thrice commaK28_7 (.data 0xB5)

/-! Code groups (R279): 8b/10b as ANSI INCITS 230 defines it. A symbol is coded as 6 bits abcdei of its low five and 4 bits fghj of its high
three, a leaving first and standing highest. PRESUMED: log entry 100. -/

/-- The 6-bit groups of 0 to 31 at negative running disparity. -/
def code6 : List Nat :=
  [0b100111, 0b011101, 0b101101, 0b110001, 0b110101, 0b101001, 0b011001, 0b111000,
   0b111001, 0b100101, 0b010101, 0b110100, 0b001101, 0b101100, 0b011100, 0b010111,
   0b011011, 0b100011, 0b010011, 0b110010, 0b001011, 0b101010, 0b011010, 0b111010,
   0b110011, 0b100110, 0b010110, 0b110110, 0b001110, 0b101110, 0b011110, 0b101011]

/-- The 4-bit groups of 0 to 7 at negative running disparity, of data and of control symbols. -/
def code4 : List Nat := [0b1011, 0b1001, 0b0101, 0b1100, 0b1101, 0b1010, 0b0110, 0b1110]
def code4K : List Nat := [0b1011, 0b0110, 0b1010, 0b1100, 0b1101, 0b0101, 0b1001, 0b0111]

/-- The ones among the low n bits. -/
def onesIn (n x : Nat) : Nat := ((List.range n).filter (fun i => x.testBit i)).length

/-- The running disparity after a group of 2 * h bits: that of the group, or the one before a balanced group. -/
def rdAfter (rd : Bool) (h x : Nat) : Bool :=
  if h < onesIn (2 * h) x then true else if onesIn (2 * h) x < h then false else rd

/-- The 6-bit group of x: at positive disparity an unbalanced one, and that of 7, is complemented. -/
def group6 (ctrl : Bool) (x : Nat) (rd : Bool) : Nat :=
  let c := if ctrl && x == 28 then 0b001111 else code6.getD x 0
  if rd && (onesIn 6 c != 3 || c == 0b111000) then 63 - c else c

/-- The 4-bit group of y after the 6-bit group of x: data symbols that would make a run of five take the other group of 7. -/
def group4 (ctrl : Bool) (x y : Nat) (rd : Bool) : Nat :=
  if ctrl then (if rd then 15 - code4K.getD y 0 else code4K.getD y 0)
  else
    let alt := if rd then x == 11 || x == 13 || x == 14 else x == 17 || x == 18 || x == 20
    let c := if y = 7 ∧ alt then 0b0111 else code4.getD y 0
    if rd && (onesIn 4 c != 2 || c == 0b1100) then 15 - c else c

/-- The code group of a symbol and the running disparity after it. -/
def codeGroup (rd : Bool) (x : Sym) : BitVec 10 × Bool :=
  let of (ctrl : Bool) (b : Nat) : BitVec 10 × Bool :=
    let c6 := group6 ctrl (b % 32) rd
    let rd1 := rdAfter rd 3 c6
    let c4 := group4 ctrl (b % 32) (b / 32) rd1
    (BitVec.ofNat 10 (16 * c6 + c4), rdAfter rd1 2 c4)
  match x with
  | .data b => of false b.toNat
  | .ctrl k => of true k.toNat
  | .bad => (0, rd)

/-- The code groups of symbols from a running disparity on, and the disparity after them. -/
def laneGroups : Bool → List Sym → List (BitVec 10) × Bool
  | rd, [] => ([], rd)
  | rd, x :: t =>
    let (c, rd1) := codeGroup rd x
    let (l, rd2) := laneGroups rd1 t
    (c :: l, rd2)

/-- What a lane carries between frames and where none are sent (R284). -/
inductive LineContent where
  | electricalIdle | idle | frames | fault
deriving DecidableEq, Repr

/-- The ordered set that fills a lane. -/
def LineContent.fill : LineContent → List Sym
  | .electricalIdle => []
  | .idle | .frames => idleSet
  | .fault => faultSet

/-! Numbers of several bytes: the audio channels stand MSB first (R280); the header, the slots and the CRC are read lowest byte first.
DESIGN CHOICE: log entry 88. -/

/-- The number in n bytes from a position of a list. -/
def numAt (l : List Byte) (at_ n : Nat) : Nat := ofBytesLE ((l.drop at_).take n)

/-- The channels of a lane at a rate (R280); RATE 11 stands for none. -/
def rateChannels (rate : Nat) : Option Nat := match rate with | 0 => some 512 | 1 => some 256 | 2 => some 128 | _ => none

/-! Message slots (R294). -/

def msgCode : MsgKind → Nat
  | .readReq => 1 | .writeReq => 2 | .readResp => 3 | .writeResp => 4 | .owner => 5 | .reroute => 6 | .other => 0xFF

def msgKindOf (n : Nat) : MsgKind :=
  match n with
  | 1 => .readReq | 2 => .writeReq | 3 => .readResp | 4 => .writeResp | 5 => .owner | 6 => .reroute | _ => .other

/-- The 16 bytes of a message. -/
def slotBytes (m : Msg) : List Byte :=
  [BitVec.ofNat 8 (msgCode m.kind), BitVec.ofNat 8 (m.dst.val * 16 + m.src.val), m.tag, m.status] ++ bytesLE 4 m.addr.toNat ++ bytesLE 4 m.data.toNat ++
    List.replicate 4 0

/-- The message in a slot; none where the slot is empty. -/
def readSlot (l : List Byte) : Option Msg :=
  let t := numAt l 0 1
  if t = 0 then none
  else some ⟨msgKindOf t, Fin.ofNat 16 (numAt l 1 1 / 16), Fin.ofNat 16 (numAt l 1 1), BitVec.ofNat 8 (numAt l 2 1),
             BitVec.ofNat 8 (numAt l 3 1), BitVec.ofNat 32 (numAt l 4 4), BitVec.ofNat 32 (numAt l 8 4)⟩

/-! A frame sent (R280, R281). -/

def TxFrame.header (f : TxFrame) : List Byte :=
  [BitVec.ofNat 8 (f.rxOk.toNat * 8 + f.train.toNat * 4 + f.mute.toNat * 2 + f.stop.toNat),
   BitVec.ofNat 8 (f.pos % 16 * 16 + f.posValid.toNat * 8 + f.rate % 4 * 2 + f.family.toNat)] ++
    bytesLE 2 f.seq ++ bytesLE 2 f.hold ++ bytesLE 2 f.echo ++ [BitVec.ofNat 8 (f.link % 8), 0, 0, 0]

/-- The audio payload: three bytes a channel. -/
def TxFrame.payload (f : TxFrame) : List Byte :=
  (List.range ((rateChannels f.rate).getD 0)).flatMap (fun c =>
    (bytesLE 3 (Store.get zeroOf f.audio (512 * f.link + c)).toNat).reverse)

/-- The control channel: 16 slots, the empty ones zero. -/
def TxFrame.control (f : TxFrame) : List Byte :=
  (List.range 16).flatMap (fun k => match f.msgs[k]? with | some m => slotBytes m | none => List.replicate 16 0)

def TxFrame.body (f : TxFrame) : List Byte := f.header ++ f.payload ++ f.control

/-- The symbols of a frame, SOF to EOF. -/
def TxFrame.symbols (f : TxFrame) : List Sym :=
  sofSet ++ (f.body ++ bytesLE 4 (crc32 f.body).toNat).map .data ++ eofSet

/-- The symbols of a frame and of the wake pattern that follows it, if one does (R299). -/
def TxFrame.lane (f : TxFrame) : List Sym := f.symbols ++ (if f.wake then (List.replicate 64 wakeSet).flatten else [])

/-! A frame received. -/

/-- A frame that passes its check: its place and delay, its header, its channels and the messages of its slots that are not empty. -/
structure RxFrame where
  arrival : Nat
  rtt : Nat
  rxOk : Bool
  train : Bool
  mute : Bool
  stop : Bool
  pos : Fin 16
  posValid : Bool
  rate : Fin 4
  family : Bool
  seq : BitVec 16
  hold : Nat
  echo : Nat
  link : Fin 8
  audio : List Sample
  msgs : List Msg
deriving DecidableEq, Repr

/-- The bytes of data symbols; none where another symbol stands among them. -/
def dataBytes : List Sym → Option (List Byte)
  | [] => some []
  | .data b :: t => (dataBytes t).map (fun l => b :: l)
  | _ :: _ => none

/-- A control symbol of the five ordered sets; a receiver passes over every other one (R279). -/
def symUsed : Sym → Bool
  | .ctrl k => k == 0xBC || k == 0xFB || k == 0xFD || k == 0xFE || k == 0xFC
  | _ => true

/-- The channels of a payload. -/
def samplesBE : Nat → List Byte → List Sample
  | n + 1, a :: b :: c :: t => BitVec.ofNat 24 (ofBytesLE [c, b, a]) :: samplesBE n t
  | _, _ => []

/-- The fields of a frame's body: header, payload of n channels, control channel. -/
def readBody (arrival rtt n : Nat) (l : List Byte) : RxFrame :=
  let b0 := l.getD 0 0
  let b1 := l.getD 1 0
  { arrival := arrival, rtt := rtt, rxOk := b0.getLsbD 3, train := b0.getLsbD 2, mute := b0.getLsbD 1, stop := b0.getLsbD 0,
    pos := Fin.ofNat 16 (b1.toNat / 16), posValid := b1.getLsbD 3, rate := Fin.ofNat 4 (b1.toNat / 2), family := b1.getLsbD 0,
    seq := BitVec.ofNat 16 (numAt l 2 2), hold := numAt l 4 2, echo := numAt l 6 2, link := Fin.ofNat 8 (numAt l 8 1),
    audio := samplesBE n (l.drop 12),
    msgs := (List.range 16).filterMap (fun k => readSlot ((l.drop (12 + 3 * n + 16 * k)).take 16)) }

/-- The frame that symbols spell; none where it fails its check: it does not begin with SOF, end with EOF, hold data symbols alone between
them, have the length of its RATE, or match its CRC. -/
def readFrame (f : LinkFrame) : Option RxFrame :=
  let l := f.syms.filter symUsed
  if l.take 4 ≠ sofSet ∨ l.drop (l.length - 4) ≠ eofSet ∨ l.length < 20 then none
  else
    match dataBytes ((l.drop 4).take (l.length - 8)) with
    | none => none
    | some b =>
      match rateChannels ((b.getD 1 0).toNat / 2 % 4) with
      | none => none
      | some n =>
        if b.length = 272 + 3 * n ∧ numAt b (268 + 3 * n) 4 = (crc32 (b.take (268 + 3 * n))).toNat then
          some (readBody f.arrival f.rtt n b)
        else none

/-- Code violations and disparity errors among the symbols of a frame: those the code groups show, and every control symbol the device does
not use (R279). -/
def violations (l : List Sym) : Nat := l.countP (fun x => x == .bad || !symUsed x)

/-- Whether a comma stands out of alignment: K28.5 or K28.7 at a position that is no multiple of 4 from the frame start (R288). -/
def commaOut (l : List Sym) : Bool := l.zipIdx.any (fun x => (x.1 == commaK28_5 || x.1 == commaK28_7) && x.2 % 4 != 0)

end Sys2Proof.Machine
end

