-- ==== Sys2Proof/Machine/FabUnit.lean ====
section
/-! DEFINITION. The mixing fabric (07_mix_fabric.md): its sources and sinks, the two passes, the check of a route program, the
silence detectors and cluster quiescence. -/

namespace Sys2Proof.Machine

/-- Active route bank and gain table (SAFE_FABRIC_GROUP). -/
def routeAct (s : State) : Nat := b2n (s.bit .SAFE_FABRIC_GROUP 0 8)
def gainAct (s : State) : Nat := b2n (s.bit .SAFE_FABRIC_GROUP 0 9)
def routeAddr (bank i : Nat) : Nat := 0x3C000000 + bank * 0x80000 + 8 * i
def gainAddr (tab j : Nat) : Nat := 0x3C100000 + tab * 0x4000 + 4 * j
def bankLenReg (bank : Nat) : RegName := if bank = 0 then .FABRIC_BANK_A_LEN else .FABRIC_BANK_B_LEN
def bankLen (s : State) (bank : Nat) : Nat := s.f (bankLenReg bank) 0 16 0

def fabSded (s : State) : State := s.setBit .FABRIC_FAULT 0 3 true
def fabAwr (s : State) : State := flagEv .FABRIC_FAULT 0 2 Ev.FABRIC_AWR s

/-- A single-bit error is corrected, written back and counted (R219). -/
def fabCorrect (a : Nat) (s : State) : State :=
  if upsetOf s a = 1 then count24 .FABRIC_ECC_CORR 0 none (setUpset s a 0) else s

/-! Sources (R203, R205, R206). -/

/-- The sine of phase / 2^24 of a turn in units of 2^-60, by the series of the sine over one quadrant. DESIGN CHOICE: log entry 8. -/
def sineQ60 (phase : Nat) : Int :=
  let half : Nat := phase % 2 ^ 24 / 2 ^ 23
  let q : Nat := phase % 2 ^ 23
  let r : Nat := if q ≤ 2 ^ 22 then q else 2 ^ 23 - q
  let halfPi : Int := 1811004864519280710
  let x : Int := (r : Int) * halfPi / 2 ^ 22
  let x2 := x * x / 2 ^ 60
  let term (t : Int) (d : Int) : Int := t * x2 / 2 ^ 60 / d
  let (sum, _) := [6, 20, 42, 72, 110, 156, 210, 272, 342, 420].foldl
    (fun (acc, t) d => let u := -(term t d); (acc + u, u)) ((x, x) : Int × Int)
  if half = 1 then -sum else sum

/-- A tone's value: the product truncated to 24 bits, off by the free error R206 allows; a level of zero gives zero. DESIGN CHOICE: log entry 8. -/
def toneValue (level phase : Nat) : Int :=
  if level = 0 then 0
  else clampI (minS 24) (maxS 24)
    (sar (sxN 24 level * sineQ60 phase) 60 + (Int.ofNat (Config.toneErr level phase % 4) - 1))

/-- Whether a source lies in a reserved range (R203). -/
def srcReserved (a : Nat) : Bool :=
  (decide (0x2628 ≤ a) && decide (a < 0x2700)) || (decide (0x2701 ≤ a) && decide (a < 0x2800)) || decide (0x3000 ≤ a)

/-- The latency probe's source (R66, R67): the marker in turn T0, whatever SYS_PROBE_CTRL.EN holds by then. DESIGN CHOICE: log entry 97. -/
def probeValue (s : State) : Int :=
  if sysState s = St.TEST ∧ s.dev.marker = true then 0x400000 else 0

/-- A port slot that is there: its port enabled and unretired, the slot within its count (R205). -/
def portOpen (s : State) (a : Nat) : Bool :=
  s.port.on.contains (a / 16) && sapState s (a / 16) != Sap.RETIRED && decide (a % 16 < sapSlots s (a / 16))

/-- The value of a source as a pass reads it (R203, R205, R210). -/
def srcValue (s : State) (passB : Bool) (a : Nat) : Int :=
  if a < 0x400 then (if portOpen s a then ofSample (Store.get zeroOf s.fab.portIn a) else 0)
  else if a < 0x1400 then
    if (a - 0x400) % 512 < linkChannels s then ofSample (Store.get zeroOf s.fab.linkIn (a - 0x400)) else 0
  else if a < 0x2400 then
    if engRetired s (physOf s ((a - 0x1400) / 64)) then 0 else ofSample (Store.get zeroOf s.eng.outF (a - 0x1400))
  else if a < 0x2600 then ofSample (Store.get zeroOf s.sect.chainOut (a - 0x2400))
  else if a < 0x2620 then sxN 24 (Store.get zeroOf s.fab.const (a - 0x2600)).toNat
  else if a < 0x2628 then
    toneValue (fld (Store.get zeroOf s.fab.level (a - 0x2620)) 23 0) (Store.get natZero s.fab.phase (a - 0x2620))
  else if a = 0x2700 then probeValue s
  else if 0x2800 ≤ a ∧ a < 0x3000 then
    ofSample (Store.get zeroOf (if passB then s.fab.busA else s.fab.busB) (a - 0x2800))
  else 0

/-! Silence detectors (R220 to R223). -/

/-- Whether a source address has a detector. -/
def hasDetector (a : Nat) : Bool := decide (a < 0x2600) || (decide (0x2800 ≤ a) && decide (a < 0x3000))

def detCfg (s : State) (a : Nat) : Word := getSlot s (0x3C110000 + 4 * a)
def detProfile (s : State) (a : Nat) : Nat := fld (detCfg s a) 2 1
def silThresh (s : State) (n : Nat) : Nat := s.f .FABRIC_SIL_THRESH_n n 23 0
def silHold (s : State) (n : Nat) : Nat := s.f .FABRIC_SIL_HOLD_n n 20 0
def silent (s : State) (a : Nat) : Bool := s.bit .FABRIC_SIL_STAT_w (a / 32) (a % 32)
def setSilent (a : Nat) (b : Bool) (s : State) : State := s.setBit .FABRIC_SIL_STAT_w (a / 32) (a % 32) b
def setDetCnt (a n : Nat) (s : State) : State := setFab { s.fab with detCnt := Store.set natZero s.fab.detCnt a n } s

/-- The enabled detectors in a range of addresses, lowest first. -/
def detectors (s : State) (lo hi : Nat) : List Nat :=
  ((s.wmem.filter (fun e => decide (0x3C110000 + 4 * lo ≤ e.1) && decide (e.1 < 0x3C110000 + 4 * hi) && bitOf e.2 0)).map
    (fun e => (e.1 - 0x3C110000) / 4)).filter hasDetector

/-- q(v) of a detector. -/
def quiet (s : State) (a : Nat) (v : Int) : Bool := decide (v.natAbs ≤ silThresh s (detProfile s a))

/-- One more quiet turn of a detector. -/
def detQuiet (a : Nat) (s : State) : State :=
  let n := min (Store.get natZero s.fab.detCnt a + 1) (2 ^ 20)
  setSilent a (decide (silHold s (detProfile s a) ≤ n)) (setDetCnt a n s)

/-- A detector's count and state are cleared; its change from silent to non-silent is a wake source (R223, R406). -/
def detClear (a : Nat) (s : State) : State :=
  let t := setSilent a false (setDetCnt a 0 s)
  if silent s a then fireSource 25 t else t

/-- A value of a non-bus channel becomes readable. -/
def detSee (a : Nat) (s : State) : State := if quiet s a (srcValue s false a) then detQuiet a s else detClear a s

/-- A bus at the end of a pass. -/
def detBus (passB : Bool) (a : Nat) (s : State) : State :=
  let v := ofSample (Store.get zeroOf (if passB then s.fab.busB else s.fab.busA) (a - 0x2800))
  if quiet s a v then s
  else
    let s := detClear a s
    setFab { s.fab with loud := a :: s.fab.loud.filter (fun b => b != a) } s

/-- Port inputs and buses at a boundary at which a turn begins, the first one after START or a freeze among them; not at the one at which
turns stop or freeze (R221). DESIGN CHOICE: log entry 99. -/
def detBoundary (s : State) : State :=
  let s := (detectors s 0 0x400).foldl (fun t a => detSee a t) s
  let s := (detectors s 0x2800 0x3000).foldl (fun t a => if t.fab.loud.contains a then t else detQuiet a t) s
  setFab { s.fab with loud := [] } s

/-- Link inputs, engine outputs and chain outputs at clk N/2. -/
def detMiddle (s : State) : State := (detectors s 0x400 0x2600).foldl (fun t a => detSee a t) s

def detPassEnd (passB : Bool) (s : State) : State := (detectors s 0x2800 0x3000).foldl (fun t a => detBus passB a t) s

/-- Every count and state of the detectors is zero (R222). -/
def detClearAll (s : State) : State :=
  let t := (List.range 512).foldl (fun t w => t.setReg .FABRIC_SIL_STAT_w w 0) s
  let t := setFab { t.fab with detCnt := [], loud := [] } t
  if (List.range 512).any (fun w => s.reg .FABRIC_SIL_STAT_w w != 0) then fireSource 25 t else t

/-- A write of a detector's configuration word (R220, R222). -/
def detCfgWrite (a : Nat) (v : Word) (s : State) : State :=
  if hasDetector a then detClear a (setSlot s (0x3C110000 + 4 * a) (v &&& 7)) else s

def setQuietCnt (c n : Nat) (s : State) : State := setFab { s.fab with quietCnt := Store.set natZero s.fab.quietCnt c n } s

/-- A write of a threshold or a hold of profile n resets the detectors that use it, and a threshold the clusters (R222, R225). -/
def profileWritten (n : Nat) (thresh : Bool) (s : State) : State :=
  let s := ((detectors s 0 0x3000).filter (fun a => detProfile s a == n)).foldl (fun t a => detClear a t) s
  if thresh then
    ((List.range 8).filter (fun c => s.f .FABRIC_QUIET_n c 25 24 == n)).foldl (fun t c => setQuietCnt c 0 t) s
  else s

/-! A pass (R208 to R212). -/

/-- Fields of a route word of 64 bits, as its lower and upper half. -/
structure RouteWord where
  lo : Word
  hi : Word
deriving DecidableEq, Repr

def RouteWord.src (w : RouteWord) : Nat := fld w.lo 13 0
def RouteWord.sink (w : RouteWord) : Nat := fld w.lo 29 16
def RouteWord.gain (w : RouteWord) : Nat := fld w.hi 11 0
def RouteWord.op (w : RouteWord) : Nat := fld w.hi 17 16
def RouteWord.passB (w : RouteWord) : Bool := bitOf w.hi 18
def RouteWord.gate (w : RouteWord) : Bool := bitOf w.hi 19
def RouteWord.reserved (w : RouteWord) : Bool := w.lo &&& 0xC000C000 != 0 || w.hi &&& 0xFFF0F000 != 0 || w.op == 3

def routeWord (s : State) (bank i : Nat) : RouteWord := ⟨getSlot s (routeAddr bank i), getSlot s (routeAddr bank i + 4)⟩

/-- Sink accumulators, with whether one has wrapped. -/
structure Mix where
  acc : List (Nat × Int)
  aov : Bool
deriving DecidableEq, Repr

def mixGet : List (Nat × Int) → Nat → Int
  | [], _ => 0
  | (k, v) :: t, a => if k = a then v else mixGet t a

def mixSet : List (Nat × Int) → Nat → Int → List (Nat × Int)
  | [], a, v => [(a, v)]
  | (k, w) :: t, a, v => if k = a then (a, v) :: t else (k, w) :: mixSet t a v

/-- One route word (R211): prod is the product of the source and the gain. -/
def mixWord (m : Mix) (w : RouteWord) (prod : Int) : Mix :=
  let old := mixGet m.acc w.sink
  match w.op with
  | 0 => { m with acc := mixSet m.acc w.sink prod }
  | _ =>
    let exact := if w.op = 1 then old + prod else old - prod
    let v := wrapI 40 exact
    { acc := mixSet m.acc w.sink v, aov := m.aov || decide (v ≠ exact) }

/-- prod of R211. -/
def mixProd (x : Int) (g : Word) : Int := sar (x * sxN 24 g.toNat) 20

/-- The words of a pass in program order, each with the index it stands at. -/
def passWords (s : State) (passB : Bool) : List (Nat × RouteWord) :=
  ((List.range (bankLen s (routeAct s))).map (fun i => (i, routeWord s (routeAct s) i))).filter (fun x => x.2.passB == passB)

/-- The addresses a word of a pass reads: its halves and its gain entry. -/
def wordAddrs (s : State) (i : Nat) (w : RouteWord) : List Nat :=
  [routeAddr (routeAct s) i, routeAddr (routeAct s) i + 4, gainAddr (gainAct s) w.gain]

/-- The output of a sink at the end of a pass. -/
def sinkOut (v : Int) : Int := satI 24 v

/-- The sinks of a range, by their number within it. -/
def sinksIn (l : List (Nat × Int)) (lo hi : Nat) : Store Sample :=
  l.foldl (fun m e => if lo ≤ e.1 ∧ e.1 < hi then Store.set zeroOf m (e.1 - lo) (toSample (sinkOut e.2)) else m) []

/-- Whether a physical engine is enabled and unretired in this turn's run: its changes of the boundary that began the turn apply
with the exchange, and the decision counts them (R56, R224). -/
def liveThisTurn (s : State) (pe : Nat) : Bool :=
  !engRetired s pe && s.dev.exch.foldl (fun b a =>
    match a with
    | .engEn q on => if q = pe then on else b
    | .retireEngine q _ => if q = pe then false else b
    | _ => b) (s.eng.on.contains pe)

/-- Whether a chain is enabled in this turn's run: the changes of the boundary that began the turn count (R56). -/
def chainThisTurn (s : State) (c : Nat) : Bool :=
  s.dev.exch.foldl (fun b a => match a with | .chainEn q on => if q = c then on else b | _ => b) (chainEn s c)

/-! The alternate route table (R292). -/

/-- Fields of an entry of the alternate route table. -/
structure AltEntry where
  kind : Nat
  linkA : Nat
  chanA : Nat
  linkB : Nat
  chanB : Nat
  num : Nat
  hops : Nat
  any : Bool
  seg : Nat
deriving DecidableEq, Repr

def altEntry (s : State) (i : Nat) : AltEntry :=
  let a := getSlot s (0x43081000 + 8 * i)
  let b := getSlot s (0x43081004 + 8 * i)
  ⟨fld a 31 30, fld a 29 27, fld a 26 18, fld a 17 15, fld a 14 6, fld b 24 16 + 1, fld b 15 12, bitOf b 8, fld b 3 0⟩

/-- The entries in force (R292, R293). -/
def altEntries (s : State) : List AltEntry :=
  if s.bit .LINK_RING_STAT 0 31 then
    ((List.range 1024).map (altEntry s)).filter (fun e => e.kind != 0 && (e.any || e.seg == s.f .LINK_RING_STAT 0 3 0))
  else []

/-- Whether an OUT entry in force sends a link's output channel on another link, so that the sink stays open (R292). -/
def altOut (s : State) (l c : Nat) : Bool :=
  (altEntries s).any (fun e => e.kind == 1 && e.linkA == l && decide (e.chanA ≤ c) && decide (c < e.chanA + e.num))

/-- Whether a sink takes what is written to it (R205): not a slot or channel beyond the count, nor one of a disabled or retired
port, link, engine or chain, nor of an asynchronous port (R259), but for the sinks that a reroute sends another way (R292). DEDUCED: log entry 24. -/
def sinkOpen (s : State) (a : Nat) : Bool :=
  if a < 0x400 then portOpen s a && sapMode s (a / 16) != 2
  else if a < 0x1400 then
    let l := (a - 0x400) / 512
    let c := (a - 0x400) % 512
    decide (c < linkChannels s) && ((linkState s l != Lk.IDLE && linkState s l != Lk.RETIRED) || altOut s l c)
  else if a < 0x2400 then liveThisTurn s (physOf s ((a - 0x1400) / 64))
  else if a < 0x2600 then chainThisTurn s (a - 0x2400)
  else true

/-- What a pass writes (R204, R205, R207, R210, R211). DEDUCED: log entry 24. -/
def writeSinks (passB : Bool) (l : List (Nat × Int)) (s : State) : State :=
  let l := l.filter (fun e => sinkOpen s e.1)
  let s := if passB then
      setFab { s.fab with portOut := sinksIn l 0 0x400, linkOut := sinksIn l 0x400 0x1400, busB := sinksIn l 0x2800 0x3000 } s
    else
      setSect { s.sect with chainIn := sinksIn l 0x2400 0x2600 }
        (setEng { s.eng with inF := sinksIn l 0x1400 0x2400 } (setFab { s.fab with busA := sinksIn l 0x2800 0x3000 } s))
  l.foldl (fun t e => if 0x2600 ≤ e.1 ∧ e.1 < 0x2700 then
      setSlot t (0x3C120000 + 4 * (e.1 - 0x2600)) (BitVec.ofInt 32 (sinkOut e.2)) else t) s

/-- Saturated sinks: SAT and its count (R211). DEDUCED: log entry 24. -/
def countSat (l : List (Nat × Int)) (s : State) : State :=
  l.foldl (fun t e => if sinkOut e.2 = e.2 then t
    else flagEv .FABRIC_FAULT 0 0 Ev.FABRIC_SAT (count24 .FABRIC_SAT_CNT 0 none t)) s

/-- The probe's reading of the source it watches, in the pass named by PASS (R67). -/
def probeWatch (passB : Bool) (s : State) : State :=
  match s.dev.probe with
  | .running age =>
    if sysState s = St.TEST ∧ s.bit .SYS_PROBE_WATCH 0 16 = passB
        ∧ age ≤ (let t := s.f .SYS_PROBE_CTRL 0 23 16; if t = 0 then 256 else t)
        ∧ 0x100000 ≤ (srcValue s passB (s.f .SYS_PROBE_WATCH 0 13 0)).natAbs then
      { (s.setReg .SYS_PROBE_RESULT 0 (BitVec.ofNat 32 (0x80000000 + age % 65536))) with dev := { s.dev with probe := .idle } }
    else s
  | _ => s

/-- One pass of the fabric (R211): a double-bit error in a word or entry it reads enters HALT (R219). -/
def fabricPass (passB : Bool) (s : State) : State :=
  let ws := passWords s passB
  if ws.any (fun x => (wordAddrs s x.1 x.2).any (fun a => upsetOf s a == 2)) then haltEnter 3 s
  else
    let m := ws.foldl (fun (m : Mix) x =>
        let w := x.2
        let v := if w.gate && silent s w.src then 0 else srcValue s passB w.src
        mixWord m w (mixProd v (getSlot s (gainAddr (gainAct s) w.gain)))) ⟨[], false⟩
    let t := ws.foldl (fun t x => (wordAddrs s x.1 x.2).foldl (fun u a => fabCorrect a u) t) (probeWatch passB s)
    let t := if m.aov then flagEv .FABRIC_FAULT 0 1 Ev.FABRIC_AOV t else t
    detPassEnd passB (countSat m.acc (writeSinks passB m.acc t))

/-! The check of a route program (R213, R215 to R217). -/

/-- Whether a sink may be written in a pass (R204). -/
def sinkBad (passB : Bool) (a : Nat) : Bool :=
  if a < 0x1400 then !passB
  else if a < 0x2600 then passB
  else if a < 0x2700 then false
  else if a < 0x2800 then true
  else decide (0x3000 ≤ a)

/-- The reason word i of a bank is refused for, 0 for none; seenB tells whether an earlier word belongs to pass B. -/
def routeReason (s : State) (bank i : Nat) (seenB : Bool) : Nat :=
  let w := routeWord s bank i
  if upsetOf s (routeAddr bank i) = 2 ∨ upsetOf s (routeAddr bank i + 4) = 2 then 6
  else if w.reserved then 1
  else if srcReserved w.src then 2
  else if sinkBad w.passB w.sink then 3
  else if !w.passB && seenB then 4
  else 0

/-- Words i, i + 1, ... (n of them): the first refused word and its reason, and the counts of the passes. -/
def scanRoute (s : State) (bank : Nat) : Nat → Nat → Bool → Nat → Nat → Option (Nat × Nat) × Nat × Nat
  | 0, _, _, na, nb => (none, na, nb)
  | n + 1, i, seenB, na, nb =>
    let r := routeReason s bank i seenB
    if r ≠ 0 then (some (i, r), na, nb)
    else
      let w := routeWord s bank i
      if w.passB then scanRoute s bank n (i + 1) true na (nb + 1)
      else scanRoute s bank n (i + 1) seenB (na + 1) nb

/-- The result of the check of a bank: STATE, REASON and ADDR as FABRIC_CHK holds them, and the split. -/
def routeResult (s : State) (bank : Nat) : Word × Nat :=
  let (bad, na, nb) := scanRoute s bank (bankLen s bank) 0 false 0 0
  let lim := 4 * turnLen s
  match bad with
  | some (i, r) => (BitVec.ofNat 32 (3 * 2 ^ 30 + r * 2 ^ 24 + i), 0)
  | none =>
    if lim < na then (BitVec.ofNat 32 (3 * 2 ^ 30 + 5 * 2 ^ 24 + lim), 0)
    else if lim < nb then (BitVec.ofNat 32 (3 * 2 ^ 30 + 5 * 2 ^ 24 + na + lim), 0)
    else (0x80000000, na)

def setRouteChk (bank : Nat) (v : Word) (split : Nat) (s : State) : State :=
  setFab { s.fab with chk := Store.set chkReset s.fab.chk bank v, split := Store.set natZero s.fab.split bank split } s

/-- A full check of a bank starts. -/
def startRouteCheck (bank : Nat) (s : State) : State :=
  setRouteChk bank 0x40000000 0 (setFab { s.fab with chkRun := bank :: s.fab.chkRun.filter (fun b => b != bank) } s)

/-- The check reads the words: corrections, and SDED for a double-bit error in the shadow bank (R219). -/
def routeRead (bank : Nat) (s : State) : State :=
  (s.upset.filter (fun e => decide (routeAddr bank 0 ≤ e.1) && decide (e.1 < routeAddr bank (bankLen s bank)))).foldl
    (fun t e => if e.2 = 2 then fabSded t else fabCorrect e.1 t) s

/-- The result that stands for a bank follows its words, its LEN and RATE (R215). DEDUCED: log entry 57. -/
def rejudgeRoute (bank : Nat) (s : State) : State :=
  let (v, na) := routeResult s bank
  setRouteChk bank v na s

/-- The check of a shadow bank gives its result; a double-bit error sets SDED (R219). -/
def judgeRoute (bank : Nat) (s : State) : State :=
  rejudgeRoute bank (if fld (routeResult s bank).1 29 24 = 6 then fabSded s else s)

/-- A full check of a bank completes (R215). -/
def routeCheckDone (bank : Nat) (s : State) : State :=
  if s.fab.chkRun.contains bank then
    routeRead bank (judgeRoute bank (setFab { s.fab with chkRun := s.fab.chkRun.filter (fun b => b != bank) } s))
  else s

/-! Bus accesses to fabric memory (R201, R214, R218, R219). -/

/-- A route word half lands in the shadow bank; a word below LEN is checked again (R215). DEDUCED: log entry 57. -/
def routeLand (a : Nat) (v : Word) (s : State) : State :=
  let bank := (a - 0x3C000000) / 0x80000
  let i := (a - 0x3C000000) % 0x80000 / 8
  let s := shadowWritten (groupOf s .route) a (setUpset (setUpset (setSlot s a v) (routeAddr bank i) 0) (routeAddr bank i + 4) 0)
  if i < bankLen s bank && !s.fab.chkRun.contains bank then judgeRoute bank s else s

/-- A LEN register of the shadow bank is written (R8, R215). -/
def lenLand (bank : Nat) (v : Word) (s : State) : State :=
  startRouteCheck bank (unvalid (groupOf s .route) (plainWrite (bankLenReg bank) 0 v s))

def routeWrite (a : Nat) (v : Word) (s : State) : State :=
  if (a - 0x3C000000) / 0x80000 = routeAct s then fabAwr s else routeLand a v s

def lenWrite (bank : Nat) (v : Word) (s : State) : State :=
  if bank = routeAct s then fabAwr s else lenLand bank v s

/-- A gain entry is written (R209, R214). -/
def gainWrite (a : Nat) (v : Word) (s : State) : State :=
  if (a - 0x3C100000) / 0x4000 = gainAct s then fabAwr s
  else shadowWritten (groupOf s .gain) a (setSlot s a (slot24 v.toNat))

/-! The commit window (R218). -/

/-- The route bank that an address writes: one of its words, or its LEN register. -/
def bankAt (a : Nat) : Option Nat :=
  if 0x3C000000 ≤ a ∧ a < 0x3C100000 then some ((a - 0x3C000000) / 0x80000)
  else if a = Reg.addr .FABRIC_BANK_A_LEN 0 then some 0
  else if a = Reg.addr .FABRIC_BANK_B_LEN 0 then some 1
  else none

/-- The same place of another bank. -/
def inBank (bank a : Nat) : Nat :=
  if a < 0x40000000 then 0x3C000000 + bank * 0x80000 + (a - 0x3C000000) % 0x80000 else Reg.addr (bankLenReg bank) 0

/-- A write to the shadow route bank or its LEN register, in the commit window: the fabric holds it (R218). -/
def fabHolds (s : State) (a : Nat) : Bool := s.fab.hold && bankAt a == some (1 - routeAct s)

/-- A held write waits; its initiator makes it again after the window. -/
def holdWrite (e : Initiator × Nat × Word) (s : State) : State :=
  if s.fab.held.contains e then s else setFab { s.fab with held := s.fab.held ++ [e] } s

/-- A write that the window has held goes to the bank that is shadow when it is released: it names its bank by address, and after a
flip the addressed bank may be the active one. DEDUCED: log entry 57. -/
def releasedAt (s : State) (e : Initiator × Nat × Word) : Nat :=
  if s.fab.held.contains e then inBank (1 - routeAct s) e.2.1 else e.2.1

/-- A held write has been released. -/
def heldGone (e : Initiator × Nat × Word) (s : State) : State := setFab { s.fab with held := s.fab.held.erase e } s

/-- The stroke engine's writes do not wait for it to make them again. -/
def isStroke : Initiator → Bool
  | .stroke _ => true
  | _ => false

/-- The window ends at the boundary: the stroke engine's held writes land (R193, R218). -/
def releaseRoute (s : State) : State :=
  let mine := s.fab.held.filter (fun e => isStroke e.1)
  let shadow := 1 - routeAct s
  mine.foldl (fun t e => if e.2.1 < 0x40000000 then routeLand (inBank shadow e.2.1) e.2.2 t else lenLand shadow e.2.2 t)
    (setFab { s.fab with hold := false, held := s.fab.held.filter (fun e => !isStroke e.1) } s)

/-- A bus write to fabric memory; false where it is answered with a bus error (R201). -/
def fabBusWrite (a : Nat) (v : Word) (s : State) : Bool × State :=
  if a < 0x3C100000 then (true, routeWrite a v s)
  else if a < 0x3C108000 then (true, gainWrite a v s)
  else if fabGap a || fabReadOnly a then (false, s)
  else (true, detCfgWrite ((a - 0x3C110000) / 4) v s)

/-- The slots that check bits cover together with one: both halves of a route word (R219). -/
def checkedWith (a : Nat) : List Nat := if a < 0x3C100000 then [a / 8 * 8, a / 8 * 8 + 4] else [a]

/-- A bus read of fabric memory; none is a bus error (R201, R219). -/
def fabBusRead (a : Nat) (s : State) : Option Word × State :=
  if fabGap a then (none, s)
  else if (checkedWith a).any (fun b => upsetOf s b == 2) then (none, fabSded s)
  else (some (getSlot s a), (checkedWith a).foldl (fun t b => fabCorrect b t) s)

/-! Cluster quiescence (R224 to R226). -/

def quiescent (s : State) (c : Nat) : Bool := s.bit .FABRIC_QUIET_STAT 0 c

/-- Whether a mailbox of logical engine e holds a magnitude above t. -/
def boxLoud (m : Store Sample) (e t : Nat) : Bool := m.any (fun x => x.1 / 64 == e && decide (t < mag24 x.2))

/-- The enabled, unretired logical engines of a cluster. -/
def liveEngines (s : State) (c : Nat) : List Nat :=
  ((List.range 8).map (fun k => 8 * c + k)).filter (fun e => liveThisTurn s (physOf s e))

/-- loud of R224. -/
def clusterLoud (s : State) (c : Nat) : Bool :=
  let t := silThresh s (s.f .FABRIC_QUIET_n c 25 24)
  let prev := if s.dev.swapped.contains c then s.eng.outF else s.eng.outE
  (liveEngines s c).any (fun e => boxLoud s.eng.inF e t || (!quiescent s c && boxLoud prev e t))

/-- A cluster's state changes: its event, and on entry its outputs read zero (R163, R229). -/
def setQuiescent (c : Nat) (b : Bool) (s : State) : State :=
  if quiescent s c = b then s
  else
    let s := raise (if b then Ev.CLUSTER_QUIET else Ev.CLUSTER_WAKE) (s.setBit .FABRIC_QUIET_STAT 0 c b)
    if b then (List.range 8).foldl (fun t k => zeroOutputs (8 * c + k) t) s else s

/-- At START every detector is cleared and every cluster awake, with cnt_c zero (R222, R225, R229); one that automatic retention took
down wakes. -/
def quietClear (s : State) : State :=
  (List.range 8).foldl (fun t c =>
    let t := setQuietCnt c 0 t
    let u := setQuiescent c false t
    if quiescent t c && domainCode t (6 + c) == Dom.RET then wakeDomains 31 [6 + c] u else u) (detClearAll s)

/-- The decision for one cluster (R224); with EN clear it wakes the cluster (R225). DEDUCED: log entry 28. -/
def quietDecide (c : Nat) (s : State) : State :=
  if !s.bit .FABRIC_QUIET_n c 31 then setQuiescent c false s
  else if clusterLoud s c then setQuiescent c false (setQuietCnt c 0 s)
  else
    let n := min (Store.get natZero s.fab.quietCnt c + 1) (2 ^ 20)
    let s := setQuietCnt c n s
    if s.f .FABRIC_QUIET_n c 20 0 ≤ n then setQuiescent c true s else s

/-- FABRIC_QUIET_n (R225). -/
def quietWrite (c : Nat) (v : Word) (s : State) : State := setQuietCnt c 0 (plainWrite .FABRIC_QUIET_n c v s)

/-! Tone generators and constants (R206). -/

/-- PHASE_CLR and INC; PHASE_CLR acts at the next boundary, with no cut before it. DESIGN CHOICE: log entry 87. -/
def toneIncWrite (n : Nat) (v : Word) (s : State) : State :=
  let s := plainWrite .FABRIC_TONE_n_INC n v s
  if bitOf v 31 then
    if turnsOn s then setFab { s.fab with clr := n :: s.fab.clr.filter (fun k => k != n) } s
    else setFab { s.fab with phase := Store.set natZero s.fab.phase n 0 } s
  else s

/-- The phases advance at a boundary that ends a running turn, but those to be cleared become zero. -/
def tonesAdvance (s : State) : State :=
  setFab { s.fab with clr := [], phase := (List.range 8).foldl (fun m n =>
    Store.set natZero m n (if s.fab.clr.contains n then 0
      else (Store.get natZero s.fab.phase n + s.f .FABRIC_TONE_n_INC n 23 0) % 2 ^ 24)) s.fab.phase } s

/-- FABRIC_CONST_n and FABRIC_TONE_n_LEVEL as the coming turn uses them. DESIGN CHOICE: log entry 87. -/
def constsLatch (s : State) : State :=
  setFab { s.fab with
    const := (List.range 32).foldl (fun m n => Store.set zeroOf m n (s.reg .FABRIC_CONST_n n)) s.fab.const,
    level := (List.range 8).foldl (fun m n => Store.set zeroOf m n (s.reg .FABRIC_TONE_n_LEVEL n)) s.fab.level } s

/-- A constant is written: it applies from the next boundary, at once while turns are stopped (R58). -/
def constWrite (n : Nat) (v : Word) (s : State) : State :=
  let s := plainWrite .FABRIC_CONST_n n v s
  if turnsOn s then s else setFab { s.fab with const := Store.set zeroOf s.fab.const n (s.reg .FABRIC_CONST_n n) } s

/-- FABRIC_CHK and FABRIC_CHK_SPLIT: the result for the shadow bank. -/
def fabricChk (s : State) : Word := Store.get chkReset s.fab.chk (1 - routeAct s)
def fabricSplit (s : State) : Word := BitVec.ofNat 32 (Store.get natZero s.fab.split (1 - routeAct s))

end Sys2Proof.Machine
end

