-- ==== Sys2Proof/Machine/SynthUnit.lean ====
section
/-! DEFINITION. The clock synthesiser (14_clock_synthesis.md): its loop, references, outputs, ramps and guards. -/

namespace Sys2Proof.Machine

def setSynth (x : SynthState) (s : State) : State := { s with synth := x }

/-- STATE of SYNTH_STATUS. -/
def Syn.OFF : Nat := 0
def Syn.CAL : Nat := 1
def Syn.ACQUIRE : Nat := 2
def Syn.LOCKED : Nat := 3
def Syn.COAST : Nat := 4

def synState (s : State) : Nat := s.f .SYNTH_STATUS 0 31 29
def synLock (s : State) : Bool := s.bit .SYNTH_STATUS 0 28
def onBackup (s : State) : Bool := s.bit .SYNTH_STATUS 0 25

/-- Whether the clocks of ports and links run from the root: the loop is locked, or coasts. -/
def rootRuns (s : State) : Bool := (synState s == Syn.LOCKED || synState s == Syn.COAST) && !onBackup s
def synEn (s : State) : Bool := s.bit .SYNTH_CTRL 0 0

/-- Whether output n runs: ENGCLK, CORECLK and HUBCLK always do; LINKCLK and an enabled MCLK output while the root runs, LINKCLK not after
an overspeed trip (R378, R389, R393). -/
def outRuns (s : State) (n : Nat) : Bool :=
  if n ≤ 2 then true
  else if n = 3 then rootRuns s && !(sysState s == St.HALT && s.f .SYS_STATE 0 15 8 == 2)
  else rootRuns s && s.bit .SYNTH_OUT_n_CFG n 31

/-- The level of WCLK_OUT: high from clk 0 to N/2 of a turn of the grid while it is enabled and the clocks run from the VCO (R390). -/
def wclkOut (s : State) : Bool := bitOf s.synth.use.cfg 29 && !onBackup s && decide (s.time.clk < turnLen s / 2)

/-- Whether the device holds LOCKDET low without a break (R384). -/
def lockdetLow (s : State) : Bool := !(synState s == Syn.ACQUIRE || synState s == Syn.LOCKED)

/-- STATE and LOCK, with the events of R396; DLOCK falls with LOCK, and LOCK_SENSED with the LOCKDET pin (R384). -/
def setSynState (n : Nat) (s : State) : State :=
  let was := synLock s
  let now := n == Syn.LOCKED
  let s := (s.setF .SYNTH_STATUS 0 31 29 n).setBit .SYNTH_STATUS 0 28 now
  let s := if now then s else s.setBit .SYNTH_STATUS 0 27 false
  let s := if lockdetLow s then s.setBit .SYNTH_STATUS 0 26 false else s
  if was == now then s else raise (if now then Ev.SYNTH_LOCK_GAINED else Ev.SYNTH_LOCK_LOST) s

/-- The configuration the registers hold. -/
def stagedCfg (s : State) : LoopCfg :=
  ⟨s.reg .SYNTH_CFG 0, s.reg .SYNTH_REF_FREQ 0, s.reg .SYNTH_RDIV 0, s.reg .SYNTH_N_INT 0, s.reg .SYNTH_NUM 0, s.reg .SYNTH_DEN 0⟩

def LoopCfg.refSel (c : LoopCfg) : Nat := fld c.cfg 3 0
def LoopCfg.family (c : LoopCfg) : Bool := bitOf c.cfg 24

/-- f_t as a fraction of Hz (R379). -/
def LoopCfg.ft (c : LoopCfg) : Nat × Nat :=
  (c.hz.toNat * (c.nint.toNat * c.den.toNat + c.num.toNat), c.rdiv.toNat * c.den.toNat)

/-- Whether f_t, moved by a ramp offset in ppb, lies in the span of a band entry (R381, R392). -/
def inBand (c : LoopCfg) (ppb : Int) (band : Word) : Bool :=
  let (n, d) := c.ft
  let lo := fld band 11 0
  let hi := fld band 23 12
  let scale : Int := 1000000000 + ppb
  hi != 0 && decide (((lo * 1000000 * d : Nat) : Int) * 1000000000 ≤ (n : Int) * scale)
    && decide ((n : Int) * scale ≤ ((hi * 1000000 * d : Nat) : Int) * 1000000000)

/-- A start of the ramp that waits for its boundary is withdrawn. -/
def rampForget (s : State) : State :=
  { s with dev := { s.dev with pendNew := s.dev.pendNew.filter (fun a => a != .rampGo), pendCut := s.dev.pendCut.filter (fun a => a != .rampGo) } }

/-- The ramp stops and the offset becomes zero (R392). -/
def rampZero (s : State) : State := rampForget ((s.setReg .SYNTH_RAMP_STAT 0 0).setReg .SYNTH_RAMP_OFFSET 0 0)

/-- The configuration comes into use: FAMILY follows (R379), and a link reference sets the ramp offset to zero (R392). -/
def useCfg (c : LoopCfg) (s : State) : State :=
  let s := (setSynth { s.synth with use := c } s).setBit .SYS_TURN_CFG 0 4 c.family
  if 8 ≤ c.refSel then rampZero s else s

/-- A link reference needs NINT, NUM and RDIV of the frame rate (R380). -/
def linkRefBad (s : State) (c : LoopCfg) : Bool :=
  decide (8 ≤ c.refSel) && !(c.nint.toNat == 65536 / rateMul s && c.num == 0 && c.rdiv == 1)

/-- The tracking range: the selected band entry. -/
def trackingBand (s : State) : Word := s.reg .SYNTH_BAND_n (s.f .SYNTH_STATUS 0 20 16)

/-- Acquisition starts: the dither generator takes its seed, a band is selected and calibration begins, or BAND_ERR (R381 to R383). -/
def startAcquire (s : State) : State :=
  let s := setSynth { s.synth with dither := s.f .SYNTH_SEED 0 15 0 } s
  match (List.range 32).find? (fun n => inBand s.synth.use 0 (s.reg .SYNTH_BAND_n n)) with
  | some n => setSynState Syn.CAL (s.setF .SYNTH_STATUS 0 20 16 n)
  | none => setSynState Syn.OFF ((s.setBit .SYNTH_FAULT 0 18 true).setBit .SYNTH_CTRL 0 0 false)

/-- The internal clocks switch in this HUBCLK cycle (R388, R394). -/
def switchClocks (backup : Bool) (s : State) : State :=
  if onBackup s == backup then s
  else setSynth { s.synth with switched := s.time.hub + 1 } (s.setBit .SYNTH_STATUS 0 25 backup)

/-- The internal clocks switch to the backup oscillator: the turn in progress completes with its outputs muted and turns freeze
at its end (R33, R35, R387). -/
def toBackup (s : State) : State :=
  let s := switchClocks true s
  if turnsOn s then muteOutputs { s with dev := { s.dev with relockEnd := true } } else s

/-- The dividers of some outputs are reset. -/
def resetDividers (l : List Nat) (s : State) : State :=
  setSynth { s.synth with resets := l.foldl (fun m n => Store.set natZero m n (Store.get natZero m n + 1)) s.synth.resets } s

/-- A relock outside the tracking range (R387); the divider reset that a pending SNAP waits for occurs in CAL (R394). DEDUCED: log entry 61. -/
def relock (s : State) : State :=
  let snap := s.bit .SYS_STATE 0 Hold.SNAP
  let s := setHold Hold.SNAP false (setHold Hold.RELOCK true (toBackup s))
  let s := raise Ev.SYNTH_RELOCK (count .SYNTH_RELOCK_CNT 0 31 15 0 none (s.setBit .SYNTH_STATUS 0 24 false))
  let s := startAcquire s
  if snap && synState s == Syn.CAL then resetDividers (List.range 12) s else s

/-- The reference is lost (R383, R385). -/
def refLoss (s : State) : State :=
  let s := raise Ev.SYNTH_REF_LOSS (count .SYNTH_REF_LOSS_CNT 0 31 15 0 none (s.setBit .SYNTH_FAULT 0 17 true))
  setSynState Syn.COAST (s.setBit .SYNTH_STATUS 0 24 false)

def refLossStep (s : State) : State := if synState s = Syn.LOCKED then refLoss s else s

/-- A configuration comes into use on a running loop: inside the tracking range as a loss and a return, outside it as a relock,
before lock as a new acquisition (R383). DEDUCED: log entry 61. -/
def applyCfg (c : LoopCfg) (s : State) : State :=
  let s := useCfg c s
  let st := synState s
  if st = Syn.LOCKED ∨ st = Syn.COAST then
    if inBand c 0 (trackingBand s) then (if st = Syn.LOCKED then refLoss s else s) else relock s
  else if st = Syn.OFF then s
  else startAcquire s

/-- APPLY (R379, R380). -/
def applyStep (s : State) : State :=
  let c := stagedCfg s
  if (turnsOn s && c.family != s.synth.use.family) || decide (c.den.toNat ≤ c.num.toNat) || linkRefBad s c then
    cfgErr .SYNTH_CTRL 0 s
  else applyCfg c s

/-- EN written 1 (R383). -/
def synthEnable (s : State) : State :=
  let c := stagedCfg s
  if linkRefBad s c then cfgErr .SYNTH_CTRL 0 s
  else startAcquire (useCfg c (s.setBit .SYNTH_CTRL 0 0 true))

/-- Turns run, will start, or are frozen and will resume: what RELOCK keeps from happening while the loop is not locked (R383). -/
def turnsDue (s : State) : Bool :=
  turnsOn s || s.dev.starting || effState s == St.HOLD || (sysState s == St.TEST && !s.dev.testRom)

/-- EN written 0 (R383). DEDUCED: log entry 61. -/
def synthDisable (s : State) : State :=
  let s := s.setBit .SYNTH_CTRL 0 0 false
  if synState s = Syn.OFF then s
  else
    let run := turnsDue s
    let s := toBackup s
    let s := if run then setHold Hold.RELOCK true s else s
    setSynState Syn.OFF ((setHold Hold.SNAP false s).setBit .SYNTH_STATUS 0 24 false)

/-- SYNTH_CTRL: EN, and APPLY on a loop that stays enabled (R394). -/
def synthCtrlWrite (v : Word) (s : State) : State :=
  if !bitOf v 0 then (if synEn s then synthDisable s else s)
  else if synEn s then (if bitOf v 1 then applyStep s else s)
  else synthEnable s

/-- A register of the staged copy: in use at once while EN is 0 (R379). -/
def synthCfgWrite (r : RegName) (v : Word) (s : State) : State :=
  let s := plainWrite r 0 v s
  if synEn s then s else useCfg (stagedCfg s) s

/-- CALIBRATION_COMPLETE. -/
def calComplete (s : State) : State := if synState s = Syn.CAL then setSynState Syn.ACQUIRE s else s

/-- LOCK_ACQUIRED: DLOCK and LOCK_SENSED take the levels that the phase detector and the comparator give, either of which may fall as well;
in ACQUIRE the loop locks where they are high (R383, R384). -/
def lockAcquired (levels : LockLevels) (s : State) : State :=
  if lockdetLow s then s
  else
    let s := (s.setBit .SYNTH_STATUS 0 27 levels.dlock).setBit .SYNTH_STATUS 0 26 levels.sensed
    if synState s = Syn.ACQUIRE ∧ levels.dlock ∧ (levels.sensed || !bitOf s.synth.use.cfg 31) then
      setHold Hold.RELOCK false (switchClocks false (setSynState Syn.LOCKED s))
    else s

/-- REF_RETURN with the phase error e in VCO periods (R386): 8 of them are one clk. DLOCK waits for LOCK_ACQUIRED (R384). DEDUCED: log
entry 61. -/
def refReturn (e : Int) (s : State) : State :=
  if synState s ≠ Syn.COAST then s
  else if !inBand s.synth.use 0 (trackingBand s) then relock s
  else
    let s := (setSynState Syn.LOCKED s).setReg .SYNTH_PHASE 0 (BitVec.ofInt 32 e)
    if e.natAbs ≤ 8 * s.f .SYNTH_PHASE_WIN 0 15 0 ∨ !bitOf s.synth.use.cfg 30 then s.setBit .SYNTH_STATUS 0 24 (decide (2 < e.natAbs))
    else setHold Hold.SNAP true s

/-- SLEW_COMPLETE: the error left is within 2 VCO periods. -/
def slewComplete (e : Int) (s : State) : State :=
  if s.bit .SYNTH_STATUS 0 24 ∧ e.natAbs ≤ 2 then (s.setBit .SYNTH_STATUS 0 24 false).setReg .SYNTH_PHASE 0 (BitVec.ofInt 32 e) else s

/-- DIVIDER_RESET (R386): every divider starts at the reference event, SNAP clears, and a boundary of the grid stands there. -/
def dividerReset (s : State) : State :=
  let s := setHold Hold.SNAP false ((resetDividers (List.range 12) s).setReg .SYNTH_PHASE 0 0)
  { s with time := { s.time with grid := s.time.grid + 1, clk := 0 } }

/-- SYNC_IN (R391); an edge that meets a switch of the clocks is ignored (R394). -/
def syncIn (s : State) : State :=
  let mask := (List.range 12).filter (fun n => s.bit .SYNTH_SYNC_MASK 0 n)
  if onBackup s || s.synth.switched == s.time.hub + 1 then s.setBit .SYNTH_FAULT 0 16 true
  else
    let inner := mask.filter (fun n => decide (n ≤ 3))
    if turnsOn s then
      let s := resetDividers (mask.filter (fun n => decide (4 ≤ n))) s
      if inner.isEmpty then s else s.setBit .SYNTH_FAULT 0 16 true
    else
      let s := resetDividers mask s
      if inner.isEmpty then s else { s with time := { s.time with clk := 0 } }

/-! Ramps (R392). -/

def rampRun (s : State) : Bool := s.bit .SYNTH_RAMP_STAT 0 31
def rampOffset (s : State) : Int := (s.reg .SYNTH_RAMP_OFFSET 0).toInt
def segRate (s : State) (n : Nat) : Int := sxN 16 (s.f .SYNTH_RAMP_SEG_n n 31 16)
def segDur (s : State) (n : Nat) : Nat := s.f .SYNTH_RAMP_SEG_n n 15 0

/-- The offsets at the ends of the segments of the profile. -/
def rampEnds (s : State) : List Int :=
  ((List.range (s.f .SYNTH_RAMP_CTRL 0 3 0 + 1)).foldl (fun (acc, o) n =>
    let o' := o + segRate s n * segDur s n
    (acc ++ [o'], o')) (([] : List Int), rampOffset s)).1

/-- Whether GO is refused. -/
def rampRefused (s : State) : Bool :=
  rampRun s || decide (8 ≤ s.synth.use.refSel)
    || (rampEnds s).any (fun o => decide (10000000 < o.natAbs) || !inBand s.synth.use o (trackingBand s))

/-- The profile starts. -/
def rampStart (s : State) : State :=
  if rampRun s then s else s.setReg .SYNTH_RAMP_STAT 0 (BitVec.ofNat 32 (2 ^ 31 + segDur s 0))

def rampAbort (s : State) : State := rampForget (s.setBit .SYNTH_RAMP_STAT 0 31 false)

/-- SYNTH_RAMP_CTRL (R392, R394): a write of NSEG_M1 while a ramp runs is ignored with CFG_ERR (R395). -/
def rampCtrlWrite (v : Word) (s : State) : State :=
  let s := if rampRun s then cfgErr .SYNTH_RAMP_CTRL 0 s
    else s.setF .SYNTH_RAMP_CTRL 0 3 0 (fld v 3 0)
  if bitOf v 30 then rampAbort s
  else if bitOf v 31 then
    if rampRefused s then cfgErr .SYNTH_RAMP_CTRL 0 s
    else if turnsOn s then later .rampGo s else rampStart s
  else s

/-- SYNTH_RAMP_SEG_n. -/
def rampSegWrite (n : Nat) (v : Word) (s : State) : State :=
  if rampRun s then cfgErr .SYNTH_RAMP_SEG_n n s else plainWrite .SYNTH_RAMP_SEG_n n v s

/-- A boundary of a running turn adds the segment's rate. DEDUCED: log entry 61. -/
def rampBoundary (s : State) : State :=
  if rampRun s ∧ s.f .SYNTH_RAMP_STAT 0 15 0 ≠ 0 then
    let n := s.f .SYNTH_RAMP_STAT 0 19 16
    let s := s.setReg .SYNTH_RAMP_OFFSET 0 (BitVec.ofInt 32 (rampOffset s + segRate s n))
    s.setF .SYNTH_RAMP_STAT 0 15 0 (s.f .SYNTH_RAMP_STAT 0 15 0 - 1)
  else s

/-- RAMP_SEGMENT_END. -/
def rampSegmentEnd (s : State) : State :=
  if rampRun s ∧ s.f .SYNTH_RAMP_STAT 0 15 0 = 0 then
    let n := s.f .SYNTH_RAMP_STAT 0 19 16
    if n < s.f .SYNTH_RAMP_CTRL 0 3 0 then (s.setF .SYNTH_RAMP_STAT 0 19 16 (n + 1)).setF .SYNTH_RAMP_STAT 0 15 0 (segDur s (n + 1))
    else raise Ev.SYNTH_RAMP_DONE (s.setBit .SYNTH_RAMP_STAT 0 31 false)
  else s

/-! Outputs, ceilings, bands (R377, R381, R389, R393). -/

/-- DIV of a value of SYNTH_OUT_n_CFG; 0 means 4096. -/
def divOf (v : Word) : Nat := if fld v 11 0 = 0 then 4096 else fld v 11 0

/-- Whether output n may divide by d: the fixed divisions, 8 to 4096 for CORECLK, and the ceiling for an MCLK output. -/
def divOk (s : State) (n d : Nat) : Bool :=
  match n with
  | 0 => d == 8
  | 1 => decide (8 ≤ d)
  | 2 => d == 16
  | 3 => d == 2
  | _ =>
    let vco := if s.synth.use.family then 2890137600 else 3145728000
    decide (vco ≤ s.f .SYNTH_CEIL_n n 20 0 * 1000 * d)

/-- SYNTH_OUT_n_CFG (R377, R389); a write that meets the trip of its MCLK output finds it still enabled, and the trip stands (R394). The
frequency that the ceiling limits is that of the family. DEDUCED: log entry 61. -/
def outCfgWrite (n : Nat) (v : Word) (s : State) : State :=
  let old := s.reg .SYNTH_OUT_n_CFG n
  let tripped := Store.get natZero s.synth.trips n == s.time.hub + 1
  if n ≤ 3 then
    if !divOk s n (divOf v) then cfgErr .SYNTH_OUT_n_CFG n s
    else
      let dly := if s.bit .SYNTH_LOCK 0 0 then fld old 23 16 else fld v 23 16
      s.setReg .SYNTH_OUT_n_CFG n (setFld (setFld old 11 0 (fld v 11 0)) 23 16 dly)
  else if bitOf old 31 || tripped then
    let s := if fld v 23 16 = fld old 23 16 ∧ fld v 11 0 = fld old 11 0 then s else cfgErr .SYNTH_OUT_n_CFG n s
    s.setBit .SYNTH_OUT_n_CFG n 31 (bitOf v 31 && !tripped)
  else if !divOk s n (divOf v) then cfgErr .SYNTH_OUT_n_CFG n s
  else s.setReg .SYNTH_OUT_n_CFG n (v &&& 0x80FF0FFF)

/-- SYNTH_BAND_n: only while EN is 0. -/
def bandWrite (n : Nat) (v : Word) (s : State) : State :=
  if synEn s then cfgErr .SYNTH_BAND_n n s else plainWrite .SYNTH_BAND_n n v s

/-- SYNTH_CEIL_n: a write above the reset value is refused; after the lock it is ignored without a flag (R12). -/
def ceilWrite (n : Nat) (v : Word) (s : State) : State :=
  if s.bit .SYNTH_LOCK 0 0 then s
  else if fld (Reg.resetOf (Reg.key .SYNTH_CEIL_n n)) 20 0 < fld v 20 0 then cfgErr .SYNTH_CEIL_n n s
  else plainWrite .SYNTH_CEIL_n n v s

/-- OVERSPEED_TRIP (R393). -/
def overspeed (n : Nat) (s : State) : State :=
  if n ≤ 2 then haltEnter 2 (s.setBit .SYNTH_STATUS 0 25 true)
  else if n = 3 then haltEnter 2 s
  else
    let s := setSynth { s.synth with trips := Store.set natZero s.synth.trips n (s.time.hub + 1) } s
    raise Ev.SYNTH_MCLK_OVER ((s.setBit .SYNTH_OUT_n_CFG n 31 false).setBit .SYNTH_FAULT 0 (n - 4) true)

/-- LINK_POS.HEAD (R286): the reference in use is REFCLK or WCLK_IN; a loop that is OFF has none. DEDUCED: log entry 61. -/
def isHead (s : State) : Bool := decide (synState s ≠ Syn.OFF) && decide (s.synth.use.refSel < 2)

/-- The automatic reference switch to a link (R293, R383, R394). -/
def refSwitch (l : Nat) (s : State) : State :=
  let s := s.setF .SYNTH_CFG 0 3 0 (8 + l)
  applyCfg { s.synth.use with cfg := setFld s.synth.use.cfg 3 0 (8 + l) } s

end Sys2Proof.Machine
end

