-- ==== Sys2Proof/Machine/PortUnit.lean ====
section
/-! DEFINITION. Serial audio ports, the ASRC bank and the output guards (09_ports_asrc_guards.md). -/

namespace Sys2Proof.Machine

def setPort (x : PortState) (s : State) : State := { s with port := x }
def setGuard (x : GuardState) (s : State) : State := { s with guard := x }

/-! Configuration (R255 to R258). -/

/-- The frame rate in Hz (R48). -/
def frameRate (s : State) : Nat := (if s.bit .SYS_TURN_CFG 0 4 then 44100 else 48000) * rateMul s

/-- Whether SAP_CFG may be enabled at the current rate (R257). -/
def sapCfgOk (s : State) (p : Nat) : Bool :=
  let n := sapSlots s p
  let w := sapSw s p
  decide (sapWl s p ≤ w)
    && !(sapFmt s p == 2 && (decide (n < 2) || decide (16 / rateMul s < n)))
    && !(decide (sapMode s p ≤ 1) && decide (24576000 < frameRate s * n * w))
    && !(sapMode s p == 0 && (w == 24 || !(n == 2 || n == 4 || n == 8 || n == 16)))

/-! ASRC (R267, R268). -/

def trkLocked (s : State) (p : Nat) : Bool := s.bit .ASRC_TRK_p p 31
def asrcAddr (s : State) (n : Nat) : Nat := s.f .ASRC_CH_n_CFG n 9 0
def asrcEn (s : State) (n : Nat) : Bool := s.bit .ASRC_CH_n_CFG n 31

/-- The channels that are enabled with a locked tracker, among those that ASRC_LOCK_w shows, or all (R276). -/
def asrcShow (all : Bool) (s : State) : State :=
  (List.range 8).foldl (fun t w =>
    let m := (t.asrc.on.filter (fun n => n / 32 == w && trkLocked t (asrcAddr t n / 16) && (all || t.bit .ASRC_LOCK_w w (n % 32)))).foldl
      (fun x n => x ||| 2 ^ (n % 32)) 0
    t.setReg .ASRC_LOCK_w w (BitVec.ofNat 32 m)) s

/-- While no turns run, a channel that no longer delivers shows so at once. -/
def asrcStopped (s : State) : State := if turnsOn s then s else asrcShow false s

/-- ASRC_LOCK_w as a read gives it: while no turns run a channel that has ceased to deliver shows so (R276). -/
def asrcLockRead (s : State) (w : Nat) : Word :=
  if turnsOn s then s.reg .ASRC_LOCK_w w else (asrcShow false s).reg .ASRC_LOCK_w w

/-- A tracker unlocks (R267). -/
def trackerUnlock (p : Nat) (s : State) : State :=
  if trkLocked s p then
    let s := (s.setBit .ASRC_TRK_p p 31 false).setBit .ASRC_TRK_p p 30 true
    asrcStopped (raise Ev.ASRC_UNLOCK (count .ASRC_UNLOCK_CNT 0 31 15 0 none s))
  else s

/-- A tracker locks at a measured ratio, in Q5.23; outside 7.5 kHz to 200 kHz it sets RANGE instead. -/
def trackerLock (p : Nat) (ratio : Nat) (s : State) : State :=
  if sapState s p = Sap.LOCKED ∧ sapMode s p = 2 ∧ !trkLocked s p then
    let hz := ratio * frameRate s
    if hz < 7500 * 2 ^ 23 ∨ 200000 * 2 ^ 23 < hz then s.setBit .ASRC_TRK_p p 29 true
    else raise Ev.ASRC_LOCK ((s.setF .ASRC_TRK_p p 27 0 ratio).setF .ASRC_TRK_p p 31 29 (4 + 2 * b2n (s.bit .ASRC_TRK_p p 30)))
  else s

/-- A channel's enable takes effect. -/
def asrcEnable (n : Nat) (b : Bool) (s : State) : State :=
  asrcStopped { s with asrc := ⟨(s.asrc.on.filter (fun x => x != n)) ++ (if b then [n] else [])⟩ }

/-- ASRC_CH_n_CFG (R267): ADDR only while EN is 0; a refused EN stays 0. -/
def asrcWrite (n : Nat) (v : Word) (s : State) : State :=
  let was := asrcEn s n
  let a := fld v 9 0
  let en := bitOf v 31
  if was then
    let s := if a ≠ asrcAddr s n then cfgErr .ASRC_CH_n_CFG n s else s
    if en then s
    else
      let s := s.setBit .ASRC_CH_n_CFG n 31 false
      if turnsOn s then later (.asrcEn n false) s else asrcEnable n false s
  else
    let s := s.setF .ASRC_CH_n_CFG n 9 0 a
    if !en then s
    else if sapMode s (a / 16) ≠ 2 || (List.range 256).any (fun k => k != n && asrcEn s k && asrcAddr s k == a) then
      cfgErr .ASRC_CH_n_CFG n s
    else
      let s := s.setBit .ASRC_CH_n_CFG n 31 true
      if turnsOn s then later (.asrcEn n true) s else asrcEnable n true s

/-- At a boundary: channels with a locked tracker deliver, the others stop (R268). -/
def asrcBoundary (s : State) : State := asrcShow true s

/-- DEDUCED: log entry 21. -/
def asrcDelivers (s : State) (n : Nat) : Bool := s.bit .ASRC_LOCK_w (n / 32) (n % 32)

/-- The converted samples of the slots that a port has: the filter's values are given by figures only (R268), so each is a free value. The
path is 24 samples longer than a direct one and carries zero until its latency has passed in turns run since START (R61, R63).
DESIGN CHOICE: log entry 68. -/
def asrcSamples (s : State) : State :=
  if s.dev.runs ≤ 25 then s
  else (s.asrc.on.filter (fun n => asrcDelivers s n && decide (asrcAddr s n % 16 < sapSlots s (asrcAddr s n / 16)))).foldl (fun t n =>
    let (x, t) := draw t
    setFab { t.fab with portIn := Store.set zeroOf t.fab.portIn (asrcAddr t n) (BitVec.ofNat 24 x) } t) s

/-! Sync state (R262 to R266). -/

/-- The entries of a store that belong to port p are dropped. -/
def dropPort (p : Nat) (m : Store Sample) : Store Sample := m.filter (fun e => e.1 / 16 != p)

/-- The inputs of a port read zero. -/
def zeroPortIn (p : Nat) (s : State) : State :=
  setFab { s.fab with portIn := dropPort p s.fab.portIn }
    (setPort { s.port with cap := dropPort p s.port.cap, capLate := dropPort p s.port.capLate } s)

/-- The guard state of the channels of an output range is zeroed (R269). -/
def zeroGuards (lo hi : Nat) (s : State) : State :=
  let out (a : Nat) : Bool := !(decide (lo ≤ a) && decide (a < hi))
  setGuard { s.guard with mean := s.guard.mean.filter (fun e => out e.1), dcn := s.guard.dcn.filter (fun e => out e.1),
                          run := s.guard.run.filter (fun e => out e.1), yPrev := s.guard.yPrev.filter (fun e => out e.1) } s

/-- The outputs of a port send zero. -/
def zeroPortOut (p : Nat) (s : State) : State := setPort { s.port with sent := s.port.sent.filter (fun e => e.1 / 16 != p) } s

/-- A port leaves LOCKED (R263, R264). -/
def leaveLocked (p : Nat) (s : State) : State :=
  let s := count .SAP_SYNC_CNT p 31 30 16 none (s.setBit .SAP_FAULT p 1 true)
  let s := raise Ev.SAP_SYNC_LOSS (setSapState p Sap.SEARCH s)
  let s := zeroPortOut p s
  if sapMode s p = 2 then trackerUnlock p s
  else setPort { s.port with left := Store.set natZero s.port.left p (s.f .SAP_CONCEAL p 7 0 + 1) } (s.setBit .SAP_STAT p 27 true)

/-- HUBCLK cycles in one second (R265). -/
def hubSecond (s : State) : Nat := if s.bit .SYS_TURN_CFG 0 4 then 180633600 else 196608000

/-- A port is retired (R265, R269). -/
def retirePort (p : Nat) (n : Nat) (s : State) : State :=
  if sapState s p = Sap.RETIRED then s
  else
    let s := setPort { s.port with retiring := s.port.retiring.filter (fun x => x != p) } s
    let s := (setSapState p Sap.RETIRED s).setBit .SAP_STAT p 27 false
    let s := zeroGuards (16 * p) (16 * p + 16) (zeroPortOut p (zeroPortIn p (trackerUnlock p s)))
    raise Ev.SAP_RETIRED (logFault 0x06 3 p (BitVec.ofNat 32 n) s)

/-- A failed attempt is recorded; the eighth within one second retires the port. -/
def failedAttempt (p : Nat) (s : State) : State :=
  let s := count .SAP_SYNC_CNT p 15 14 0 none (s.setBit .SAP_FAULT p 2 true)
  let mine := (p, s.time.hub) :: s.port.fails.filter (fun x => x.1 == p)
  let s := setPort { s.port with fails := mine.take 8 ++ s.port.fails.filter (fun x => x.1 != p) } s
  match mine[7]? with
  | some old =>
    if s.time.hub - old.2 ≤ hubSecond s ∧ !s.port.retiring.contains p then
      if turnsOn s then setPort { s.port with retiring := p :: s.port.retiring } (later (.retirePort p 8) s)
      else retirePort p 8 s
    else s
  | none => s

/-! Frames on the pins (R255, R256). -/

/-- FS and DI as a BCK period gives them, at the edge and with the level that SAP_CFG chooses. -/
def fsOf (s : State) (p : Nat) (x : BckPeriod) : Bool := (if s.bit .SAP_CFG p 22 then x.fsFall else x.fsRise) != s.bit .SAP_CFG p 21
def diOf (s : State) (p : Nat) (x : BckPeriod) : Bool := if s.bit .SAP_CFG p 22 then x.diFall else x.diRise

/-- The BCK periods in which FS takes a new level, and that level. -/
def fsEdges : Bool → Nat → List Bool → List (Nat × Bool)
  | _, _, [] => []
  | was, k, b :: t => if b = was then fsEdges b (k + 1) t else (k, b) :: fsEdges b (k + 1) t

/-- The level that opens a frame, and the periods from that edge to the frame start. -/
def startLevel (s : State) (p : Nat) : Bool := sapFmt s p != 0
def startDelay (s : State) (p : Nat) : Nat := if sapFmt s p = 0 then 1 else if sapFmt s p = 1 then 0 else b2n (s.bit .SAP_CFG p 20)

/-- A word of bits, MSB first. -/
def msbWord (l : List Bool) : Nat := l.foldl (fun x b => 2 * x + b2n b) 0

/-- The word of each slot of a frame: the first WL bits of each SW. -/
def slotWords (s : State) (p : Nat) (di : List Bool) : List (BitVec 24) :=
  (List.range (sapSlots s p)).map (fun k => BitVec.ofNat 24 (msbWord ((di.drop (k * sapSw s p)).take (sapWl s p))))

/-- A frame as a port finds it on its pins: the BCK periods to the next frame start, whether FS changed level as I²S and left-justified
frames require, and the WL bits of each slot. -/
structure PortRx where
  phase : Nat
  bits : Nat
  fsOk : Bool
  period : Nat
  slots : List (BitVec 24)
deriving DecidableEq, Repr

/-- The first frame on a port's pins; none without two frame starts (R255). A master port goes by its own FS. DEDUCED: log entry 58. -/
def readPins (s : State) (p : Nat) (f : PortFrame) : Option PortRx :=
  let di := f.bck.map (diOf s p)
  if sapMode s p = 0 then some ⟨f.phase, f.bck.length, true, f.period, slotWords s p di⟩
  else
    let fs := f.bck.map (fsOf s p)
    let edges := fsEdges (fs.headD false) 0 fs
    match (edges.filter (fun e => e.2 == startLevel s p)).map (fun e => e.1) with
    | a :: b :: _ =>
      let inside := (edges.filter (fun e => decide (a < e.1) && decide (e.1 < b))).map (fun e => e.1)
      some ⟨f.phase, b - a, inside == [a + sapSw s p], f.period, slotWords s p (di.drop (a + startDelay s p))⟩
    | _ => none

/-- The levels at a port's pins (R255, R256, R259, R261, R265, R266); none where the port does not drive BCK or FS. -/
structure PortPins where
  bck : Option Bool
  fs : Option Bool
  dout : Bool
deriving DecidableEq, Repr

/-- FS of a master port in period k of a frame. -/
def masterFs (s : State) (p k : Nat) : Bool :=
  let n := sapSlots s p * sapSw s p
  let e := (k + startDelay s p) % n
  (if sapFmt s p = 2 then e == 0 else (decide (e < sapSw s p)) == startLevel s p) != s.bit .SAP_CFG p 21

/-- The pins in BCK period k of a port's frame, in its first half or its second. A period begins with the edge on which DO changes and FS with it
at a master, the falling edge or with BCKINV the rising one, and the other edge, which samples them, stands in its middle. A port in slave mode
takes BCK and FS, and so does one that nothing has configured or enabled since reset (R469); a master port that is disabled, retired or without
the root clock holds them low. -/
def portPins (s : State) (p k : Nat) (second : Bool) : PortPins :=
  let live := s.port.on.contains p && sapState s p != Sap.RETIRED
  let master := sapMode s p == 0 && s.port.touched.contains p
  let clocked := live && rootRuns s
  let w := (Store.get zeroOf s.port.sent (16 * p + k / sapSw s p)).toNat
  { bck := if master then some (clocked && (second != s.bit .SAP_CFG p 22)) else none
    fs := if master then some (clocked && masterFs s p k) else none
    dout := live && decide (k % sapSw s p < sapWl s p) && w.testBit (sapWl s p - 1 - k % sapSw s p) }

/-- Whether a received frame is good (R262). -/
def frameGood (s : State) (p : Nat) (f : PortRx) : Bool :=
  let N := turnLen s
  let m := sapMode s p
  m == 0 ||
    (f.bits == sapSlots s p * sapSw s p
      && (sapFmt s p == 2 || f.fsOk)
      && (if m = 1 then
            decide (f.period ≤ N + 4) && decide (N ≤ f.period + 4)
              && (sapState s p != Sap.LOCKED ||
                  (let d := (f.phase + N - s.f .SAP_STAT p 12 0) % N; decide (d ≤ 8) || decide (N ≤ d + 8)))
          else
            let old := Store.get natZero s.port.period p
            old == 0 || (decide (200 * f.period ≤ 201 * old) && decide (199 * old ≤ 200 * f.period))))

/-- Whether a port adds a sample to the paths that enter through it, and to those that leave (R260). -/
def lateIn (s : State) (p : Nat) : Bool := s.bit .SAP_STAT p 28 && decide (64 ≤ s.f .SAP_STAT p 12 0)
def lateOut (s : State) (p : Nat) : Bool := s.bit .SAP_STAT p 28 && decide (s.f .SAP_STAT p 12 0 < 64)

/-- A frame's slots are captured: WL bits in the top of each sample (R256); a concealment ends (R264). DEDUCED: log entry 58. -/
def capture (p : Nat) (f : PortRx) (s : State) : State :=
  let s := setPort { s.port with left := Store.set natZero s.port.left p 0 } (s.setBit .SAP_STAT p 27 false)
  let wl := sapWl s p
  let put (m : Store Sample) : Store Sample := (List.range (sapSlots s p)).foldl (fun m k =>
    Store.set zeroOf m (16 * p + k) (BitVec.ofNat 24 ((f.slots.getD k 0).toNat % 2 ^ wl * 2 ^ (24 - wl)))) m
  if lateIn s p then setPort { s.port with capLate := put s.port.capLate } s
  else setPort { s.port with cap := put s.port.cap } s

/-- A port locks: PHASE and the classification are fixed (R260, R263). DEDUCED: log entry 58. -/
def lockPort (p : Nat) (phase : Nat) (s : State) : State :=
  let N := turnLen s
  let ph := if sapMode s p = 2 then 0 else phase
  let edge := decide (sapMode s p ≠ 2) && (decide (ph < 64) || decide (N ≤ ph + 16))
  let s := setPort { s.port with good := Store.set natZero s.port.good p 0 } s
  ((setSapState p Sap.LOCKED s).setBit .SAP_STAT p 28 edge).setF .SAP_STAT p 12 0 ph

/-- A frame of a port is judged (R262, R263). DEDUCED: log entry 58. -/
def judgeFrame (p : Nat) (f : PortRx) (s : State) : State :=
  let st := sapState s p
  if st = Sap.IDLE ∨ st = Sap.RETIRED then s
  else
    let good := frameGood s p f
    let s := setPort { s.port with period := Store.set natZero s.port.period p f.period } s
    let s := if good then s else s.setBit .SAP_FAULT p 0 true
    if st = Sap.LOCKED then (if good then capture p f s else leaveLocked p s)
    else if good then
      let n := Store.get natZero s.port.good p + 1
      if 4 ≤ n then lockPort p f.phase s
      else setSapState p Sap.CONFIRM (setPort { s.port with good := Store.set natZero s.port.good p n } s)
    else failedAttempt p (setSapState p Sap.SEARCH (setPort { s.port with good := Store.set natZero s.port.good p 0 } s))

/-- PORT_FRAME (R255, R262, R263). -/
def portFrameStep (p : Nat) (f : PortFrame) (s : State) : State :=
  match readPins s p f with
  | some r => judgeFrame p r s
  | none => s

/-- FRAME_TIMEOUT (R263): two frame periods without a frame start. -/
def frameTimeout (p : Nat) (s : State) : State :=
  if sapMode s p = 0 then s
  else if sapState s p = Sap.CONFIRM then
    setSapState p Sap.SEARCH (setPort { s.port with good := Store.set natZero s.port.good p 0 } s)
  else if sapState s p = Sap.LOCKED then leaveLocked p s
  else s

/-- CONCEAL_EXPIRE (R264). -/
def concealExpire (p : Nat) (s : State) : State :=
  if s.bit .SAP_STAT p 27 && Store.get natZero s.port.left p == 0 then zeroPortIn p (s.setBit .SAP_STAT p 27 false) else s

/-- An enable or a disable takes effect (R263, R266, R269). -/
def sapEnable (p : Nat) (b : Bool) (s : State) : State :=
  let was := s.port.on.contains p
  let s := setPort { s.port with on := s.port.on.filter (fun x => x != p) ++ (if b then [p] else []) } s
  if sapState s p = Sap.RETIRED then s
  else if b && !was then (if sapMode s p = 0 then lockPort p 64 s else setSapState p Sap.SEARCH s)
  else if !b then
    let s := (setSapState p Sap.IDLE s).setBit .SAP_STAT p 27 false
    let s := setPort { s.port with good := Store.set natZero s.port.good p 0, period := Store.set natZero s.port.period p 0,
                                   left := Store.set natZero s.port.left p 0 } s
    zeroGuards (16 * p) (16 * p + 16) (zeroPortOut p (zeroPortIn p (trackerUnlock p s)))
  else s

/-- The clock pins of a port are its owner's to change (R469). DEDUCED: log entry 58. -/
def portTouch (p : Nat) (s : State) : State := setPort { s.port with touched := p :: s.port.touched.filter (fun x => x != p) } s

/-- SAP_CTRL (R257). -/
def sapCtrlWrite (p : Nat) (v : Word) (s : State) : State :=
  let s := portTouch p s
  if bitOf v 0 && !sapCfgOk s p then cfgErr .SAP_CTRL p (s.setBit .SAP_CTRL p 0 false)
  else
    let s := s.setBit .SAP_CTRL p 0 (bitOf v 0)
    if turnsOn s then later (.sapEn p (bitOf v 0)) s else sapEnable p (bitOf v 0) s

/-- SAP_CFG (R258): a reserved slot count of TDM takes its reset value (R8); ROUND exists on ports 0 to 15. -/
def sapCfgWrite (p : Nat) (v : Word) (s : State) : State :=
  let used := (List.range 256).any (fun n => asrcEn s n && asrcAddr s n / 16 == p)
  if s.bit .SAP_CTRL p 0 || !(sapState s p == Sap.IDLE || sapState s p == Sap.RETIRED)
      || (sapMode s p == 2 && fld v 1 0 != 2 && used) then cfgErr .SAP_CFG p s
  else
    let s := plainWrite .SAP_CFG p (if p < 16 then v else putBit v 23 false) (portTouch p s)
    if sapFmt s p = 2 ∧ s.f .SAP_CFG p 11 8 = 0 then cfgErr .SAP_CFG p (s.setF .SAP_CFG p 11 8 1) else s

/-- A write of RATE: an enabled port whose configuration it makes invalid is disabled (R257). -/
def portsRate (s : State) : State :=
  (List.range 64).foldl (fun t p =>
    if t.bit .SAP_CTRL p 0 && !sapCfgOk t p then cfgErr .SAP_CTRL p (sapEnable p false (t.setBit .SAP_CTRL p 0 false)) else t) s

/-- What the input stage delivers at a boundary (R38, R61): nothing while turns stand; zero in the first turn after START; in the
turn that resumes, the samples of its predecessor period alone; else every sample captured for it. -/
inductive Swap where
  | keep | first | resume | run
deriving DecidableEq, Repr

/-- The input stage swaps at a boundary: what each port captured becomes readable, if the turn runs (R38, R54, R260, R264). -/
def portsSwap (w : Swap) (s : State) : State :=
  let inTime (m : Store Sample) : Store Sample := m.filter (fun e => !lateIn s (e.1 / 16))
  let direct := s.port.cap.filter (fun e => decide (sapMode s (e.1 / 16) ≠ 2))
  let s := match w with
    | .keep => s
    | .first => setFab { s.fab with portIn := [] } (setPort { s.port with cap := inTime s.port.cap, capLate := [] } s)
    | .resume => asrcSamples (setFab { s.fab with portIn := inTime direct } s)
    | .run => asrcSamples (setFab { s.fab with portIn := direct } s)
  let late := s.port.capLate
  let s := setPort { s.port with cap := late.foldl (fun m e => Store.set zeroOf m e.1 e.2) s.port.cap, capLate := [] } s
  setPort { s.port with left := (s.port.left.map (fun e => (e.1, e.2 - 1))).filter (fun e => e.2 != 0) } s

/-- The output stage loads what pass B left (R269). -/
def portsLoad (s : State) : State := setPort { s.port with stage := s.fab.portOut } s

/-! Output formatting (R261). -/

/-- The word sent for a guard output v. -/
def formatWord (wl : Nat) (round : Bool) (v : Int) : Int :=
  let d := 24 - wl
  if d = 0 then v
  else if round then
    let w := sar (v + 2 ^ (d - 1)) d
    if maxS wl < w then maxS wl else w
  else sar v d

/-! Guards (R269 to R272). -/

/-- The profile of a channel. -/
def guardProf (s : State) (a : Nat) : Nat :=
  if a < 0x400 then s.f .GUARD_PSEL_w (a / 8) (4 * (a % 8) + 3) (4 * (a % 8)) else s.f .GUARD_LSEL_l ((a - 0x400) / 512) 3 0

def guardResp (s : State) (a : Nat) : Nat := s.f .GUARD_PROF_n_CEIL (guardProf s a) 25 24

/-- The output a channel belongs to: port p as p, link l as 64 + l. -/
def guardOut (a : Nat) : Nat := if a < 0x400 then a / 16 else 64 + (a - 0x400) / 512

/-- Whether a channel's fault bit is set. -/
def guardFaulty (s : State) (a : Nat) : Bool :=
  if a < 0x400 then s.bit .GUARD_PFAULT_w (a / 32) (a % 32) else s.guard.lfault.contains a

/-- Every channel with a fault bit set. -/
def faultChannels (s : State) : List Nat := (List.range 0x400).filter (guardFaulty s) ++ s.guard.lfault

/-- GUARD_STATUS.ANY and HOLD_CAUSE, and the GUARD hold cause that follows it (R270). -/
def guardRefresh (s : State) : State :=
  let l := faultChannels s
  let hold := l.any (fun a => guardResp s a == 3)
  setHold Hold.GUARD hold ((s.setBit .GUARD_STATUS 0 0 (!l.isEmpty)).setBit .GUARD_STATUS 0 2 hold)

/-- A fault of a channel: its bit, its event, the record and the response (R269, R270, R274). kind is 1 DC, 2 CLIP. DEDUCED: log entry 59. -/
def guardFault (a kind : Nat) (s : State) : State :=
  if guardFaulty s a then s
  else
    let s := raise Ev.GUARD_FAULT s
    let s := if s.bit .GUARD_FIRST_0 0 31 then s
      else (s.setReg .GUARD_FIRST_0 0 (BitVec.ofNat 32 (2 ^ 31 + kind * 2 ^ 29 + a))).setReg .GUARD_FIRST_1 0 (stamp s)
    let s :=
      if a < 0x400 then s.setBit .GUARD_PFAULT_w (a / 32) (a % 32) true
      else
        let l := (a - 0x400) / 512
        let s := setGuard { s.guard with lfault := s.guard.lfault ++ [a] } s
        if s.bit .GUARD_LFAULT_l l 31 then s
        else s.setReg .GUARD_LFAULT_l l (BitVec.ofNat 32 (2 ^ 31 + (a - 0x400) % 512))
    match guardResp s a with
    | 0 => s
    | 2 => setGuard { s.guard with outMuted := guardOut a :: s.guard.outMuted.filter (fun x => x != guardOut a) } s
    | _ => setGuard { s.guard with muted := a :: s.guard.muted } s

/-- The first part of an evaluation: the DC mean, the clip run and the faults; the answer is the clamped value c (R269). DEDUCED: log entry 59. -/
def guardJudge (a : Nat) (x : Int) (s : State) : Int × State :=
  let n := guardProf s a
  let ceil : Int := s.f .GUARD_PROF_n_CEIL n 22 0
  let K := s.f .GUARD_PROF_n_DC n 31 28
  let thr := s.f .GUARD_PROF_n_DC n 22 0
  let M := (Store.get zeroOf s.guard.mean a).toInt
  let M' := M + sar (x * 2 ^ 16 - M) K
  let dcn := Store.get natZero s.guard.dcn a
  let dcn' := if thr < (sar M' 16).natAbs then min (dcn + 1) 65535 else 0
  let s1 := if K = 0 then s
    else setGuard { s.guard with mean := Store.set zeroOf s.guard.mean a (BitVec.ofInt 40 M'), dcn := Store.set natZero s.guard.dcn a dcn' } s
  let dcFault := decide (K ≠ 0) && decide (max (s.f .GUARD_PROF_n_HOLD n 31 16) 1 ≤ dcn')
  let s2 := if dcFault then guardFault a 1 s1 else s1
  let clips := decide (ceil < x) || decide (x < -ceil - 1)
  let run := if clips then min (Store.get natZero s.guard.run a + 1) 65535 else 0
  let s3 := setGuard { s2.guard with run := Store.set natZero s2.guard.run a run } s2
  let s4 := if clips then count24 .GUARD_CLIP_CNT 0 none s3 else s3
  let lim := s.f .GUARD_PROF_n_HOLD n 15 0
  let s5 := if lim ≠ 0 ∧ lim ≤ run then guardFault a 2 s4 else s4
  (clampI (-ceil - 1) ceil x, s5)

/-- Whether the external mute applies to a channel's output (R272). -/
def extMuted (s : State) (a : Nat) : Bool :=
  s.bit .GUARD_STATUS 0 1 &&
    (let o := guardOut a
     if o < 32 then s.bit .GUARD_XMUTE_P0 0 o else if o < 64 then s.bit .GUARD_XMUTE_P1 0 (o - 32) else s.bit .GUARD_XMUTE_L 0 (o - 64))

/-- Whether a channel is guard-muted (R270). -/
def guardMuted (s : State) (a : Nat) : Bool := s.guard.muted.contains a || s.guard.outMuted.contains (guardOut a)

/-- The second part: mutes and the slew limit; the answer is y (R269). -/
def guardFinish (a : Nat) (c : Int) (s : State) : Int × State :=
  let c := if guardMuted s a || extMuted s a then 0 else c
  let slew : Int := s.f .GUARD_PROF_n_SLEW (guardProf s a) 22 0
  let y0 := ofSample (Store.get zeroOf s.guard.yPrev a)
  let y := if slew = 0 then c else clampI (y0 - slew) (y0 + slew) c
  let s := if y = c then s else count24 .GUARD_SLEW_CNT 0 none s
  (y, setGuard { s.guard with yPrev := Store.set zeroOf s.guard.yPrev a (toSample y) } s)

/-- XMUTE at an evaluation (R272). -/
def guardXmute (s : State) : State :=
  let x := s.guard.latch || s.guard.low
  let was := s.bit .GUARD_STATUS 0 1
  let s := setGuard { s.guard with latch := s.guard.low } (s.setBit .GUARD_STATUS 0 1 x)
  if x && !was then raise Ev.GUARD_XMUTE s else s

/-- The evaluation of a list of channels with their stage values; the answer is each channel's output. -/
def guardAll (l : List (Nat × Int)) (s : State) : List (Nat × Int) × State :=
  let (cs, s) := l.foldl (fun (acc, t) e => let (c, t) := guardJudge e.1 e.2 t; (acc ++ [(e.1, c)], t)) ([], s)
  let s := guardRefresh s
  cs.foldl (fun (acc, t) e => let (y, t) := guardFinish e.1 e.2 t; (acc ++ [(e.1, y)], t)) ([], s)

/-- Channels of the port outputs that are enabled and unretired; an asynchronous port has no output path (R259, R269). -/
def guardPorts (s : State) : List Nat :=
  (s.port.on.filter (fun p => sapState s p != Sap.RETIRED && sapMode s p != 2)).flatMap
    (fun p => (List.range (sapSlots s p)).map (fun k => 16 * p + k))

/-- The evaluated port slots go to the formatter: a port that is not LOCKED sends zero, and one whose frame starts before clk 64
sends the outputs of the turn before (R260, R261, R264). -/
def portsSend (ys : List (Nat × Int)) (old : Store Sample) (s : State) : State :=
  let word (a : Nat) (y : Int) : Word :=
    let p := a / 16
    if sapState s p = Sap.LOCKED then
      BitVec.ofNat 32 (toU (sapWl s p) (formatWord (sapWl s p) (s.bit .SAP_CFG p 23)
        (if lateOut s p then ofSample (Store.get zeroOf old a) else y)))
    else 0
  setPort { s.port with sent := ys.foldl (fun m e => if e.1 < 0x400 then Store.set zeroOf m e.1 (word e.1 e.2) else m) [] } s

/-- Clears a channel's fault (R271): its mean, DC count and clip count are zeroed, its guard mute ends. -/
def guardClear (a : Nat) (s : State) : State :=
  setGuard { s.guard with mean := Store.set zeroOf s.guard.mean a 0, dcn := Store.set natZero s.guard.dcn a 0,
                          run := Store.set natZero s.guard.run a 0, muted := s.guard.muted.filter (fun x => x != a),
                          lfault := s.guard.lfault.filter (fun x => x != a) } s

/-- A RESP 10 mute ends when no channel of that output holds a fault (R271). -/
def outUnmute (s : State) : State :=
  let l := faultChannels s
  guardRefresh (setGuard { s.guard with outMuted := s.guard.outMuted.filter (fun o => l.any (fun a => guardOut a == o)) } s)

/-- GUARD_PFAULT_w (R271). -/
def pfaultWrite (w : Nat) (v : Word) (s : State) : State :=
  let hit := (List.range 32).filter (fun i => bitOf v i && s.bit .GUARD_PFAULT_w w i)
  outUnmute (hit.foldl (fun t i => guardClear (32 * w + i) t) (plainWrite .GUARD_PFAULT_w w v s))

/-- GUARD_LFAULT_l (R271). -/
def lfaultWrite (l : Nat) (v : Word) (s : State) : State :=
  if bitOf v 31 then
    let hit := s.guard.lfault.filter (fun a => (a - 0x400) / 512 == l)
    outUnmute (hit.foldl (fun t a => guardClear a t) (s.setBit .GUARD_LFAULT_l l 31 false))
  else s

/-- MUTE_N falls or rises (R272). DESIGN CHOICE: log entry 5. -/
def muteN (low : Bool) (s : State) : State := setGuard { s.guard with low := low, latch := s.guard.latch || low } s

end Sys2Proof.Machine
end

