-- ==== Sys2Proof/Machine/LinkUnit.lean ====
section
/-! DEFINITION. Cascade links (10_cascade_links.md): frames, training, errors and retirement, reroutes, and the routing of
tunnel messages. -/

namespace Sys2Proof.Machine

def setLink (x : LinkState) (s : State) : State := { s with link := x }

def linkEn (s : State) (l : Nat) : Bool := s.bit .LINK_CTRL l 0
def upstream (s : State) (l : Nat) : Bool := s.f .LINK_CFG l 1 0 == 1

/-- A link changes state: LINK_UP on entry to UP, LINK_DOWN on exit from it (R302). Good frames arrive in TRAIN and UP alone (R285). -/
def setLinkState (l n : Nat) (s : State) : State :=
  let was := linkState s l
  let s := s.setF .LINK_STAT l 31 28 n
  let s := if n = Lk.TRAIN ∨ n = Lk.UP then s else setLink { s.link with rxOk := s.link.rxOk.filter (fun x => x != l) } s
  if was ≠ Lk.UP ∧ n = Lk.UP then
    raise Ev.LINK_UP (setLink { s.link with upTurns := Store.set natZero s.link.upTurns l 0, away := Store.set natZero s.link.away l 0,
                                            left := Store.set natZero s.link.left l 0, good := Store.set natZero s.link.good l 0 }
      (s.setBit .LINK_STAT l 26 false))
  else if was = Lk.UP ∧ n ≠ Lk.UP then
    -- leaving UP while it is the synthesiser's reference counts as a reference loss (R385)
    let s := raise Ev.LINK_DOWN (s.setBit .LINK_STAT l 27 false)
    if s.synth.use.refSel = 8 + l then refLossStep s else s
  else s

/-! Inputs (R283, R292). -/

def dropLink (l : Nat) (m : Store Sample) : Store Sample := m.filter (fun e => e.1 / 512 != l)

/-- Channel values moved by an entry: from and to, within the channel count of the rate. -/
def altMove (n : Nat) (e : AltEntry) (fl fc tl tc : Nat) (src : Store Sample) (m : Store Sample) : Store Sample :=
  (List.range e.num).foldl (fun m k =>
    if fc + k < n ∧ tc + k < n then Store.set zeroOf m (512 * tl + tc + k) (Store.get zeroOf src (512 * fl + fc + k)) else m) m

/-- The fabric's link inputs: the physical inputs, with the IN entries in force. -/
def publishLinks (s : State) : State :=
  let n := linkChannels s
  let m := (altEntries s).foldl (fun m e => if e.kind = 2 then altMove n e e.linkB e.chanB e.linkA e.chanA s.link.phys m else m) s.link.phys
  setFab { s.fab with linkIn := m } s

/-- The inputs of a link read zero. -/
def zeroLinkIn (l : Nat) (s : State) : State :=
  publishLinks (setLink { s.link with phys := dropLink l s.link.phys, rx := dropLink l s.link.rx, due := s.link.due.filter (fun x => x != l) } s)

/-- clk N/2 of a running turn: the audio received becomes readable (R54, R283). -/
def linksDeliver (s : State) : State :=
  let m := s.link.due.foldl (fun m l =>
    (s.link.rx.filter (fun e => e.1 / 512 == l)).foldl (fun m e => Store.set zeroOf m e.1 e.2) (dropLink l m)) s.link.phys
  publishLinks (setLink { s.link with phys := m, due := [] } s)

/-- The output stage loads (R292): each sink's own value, in place of which the OUT and FWD entries in force put theirs. -/
def linksLoad (s : State) : State :=
  let n := linkChannels s
  let m := (altEntries s).foldl (fun m e =>
    if e.kind = 1 then altMove n e e.linkA e.chanA e.linkB e.chanB s.fab.linkOut m
    else if e.kind = 3 then altMove n e e.linkA e.chanA e.linkB e.chanB s.link.fwd m
    else m) s.fab.linkOut
  setLink { s.link with stage := m } s

/-- Channels of the link outputs that are enabled and unretired (R269). -/
def guardLinks (s : State) : List Nat :=
  ((List.range 8).filter (fun l => linkState s l != Lk.IDLE && linkState s l != Lk.RETIRED)).flatMap
    (fun l => (List.range (linkChannels s)).map (fun c => 0x400 + 512 * l + c))

/-! Positions and segments (R286, R293). -/

def myPos (s : State) : Nat := if isHead s then 0 else s.f .LINK_POS 0 3 0
def posValid (s : State) : Bool := isHead s || s.bit .LINK_POS 0 4

/-- LINK_POS as a read gives it. -/
def linkPosReg (s : State) : Word := BitVec.ofNat 32 (32 * b2n (isHead s) + 16 * b2n (posValid s) + myPos s)

/-- The segment a link belongs to: its own position for a downstream link, the far position for an upstream one. -/
def segmentOf (s : State) (l : Nat) : Nat :=
  if upstream s l then (if s.bit .LINK_STAT l 19 then s.f .LINK_STAT l 23 20 else (myPos s + 15) % 16) else myPos s

def upLinks (s : State) : List Nat := (List.range 8).filter (fun l => linkState s l == Lk.UP)
def queueMsg (l : Nat) (m : Msg) (s : State) : State := setLink { s.link with outbox := s.link.outbox ++ [(l, m)] } s

def rerouteMsg (seg count : Nat) : Msg := ⟨.reroute, 0, 0, 0, 0, BitVec.ofNat 32 (count % 256 * 256 + seg), 0⟩

/-- REROUTE is sent on every UP link but one. -/
def sendReroute (seg count except : Nat) (s : State) : State :=
  ((upLinks s).filter (fun l => l != except)).foldl (fun t l => queueMsg l (rerouteMsg seg count) t) s

def ringActive (s : State) : Bool := s.bit .LINK_RING_STAT 0 31
def ringPending (s : State) : Bool := s.bit .LINK_RING_STAT 0 30
def ringSeg (s : State) : Nat := s.f .LINK_RING_STAT 0 3 0

/-- Whether a segment is rerouted, or has its reroute pending. -/
def rerouted (s : State) (seg : Nat) : Bool := (ringActive s && ringSeg s == seg) || s.link.reroute.any (fun r => r.seg == seg)

/-- A reroute of a segment becomes pending; SEG shows the first. DEDUCED: log entry 62. -/
def pendReroute (seg left via : Nat) (s : State) : State :=
  let s := if ringActive s || ringPending s then s else s.setF .LINK_RING_STAT 0 3 0 seg
  setLink { s.link with reroute := s.link.reroute ++ [⟨seg, left, via⟩] } (s.setBit .LINK_RING_STAT 0 30 true)

/-- A device whose reference is link l switches to ALT_REF (R293). -/
def altRefSwitch (l : Nat) (s : State) : State :=
  if s.synth.use.refSel = 8 + l && s.bit .LINK_RING_CFG 0 31 && s.bit .LINK_RING_CFG 0 27
    then refSwitch (s.f .LINK_RING_CFG 0 26 24) s else s

/-- A link retires (R290): its own entry, then the reroute of its segment if links form a ring (R293, R300). own tells that it
retires by its own errors and not with a rerouted segment. DEDUCED: log entry 60. -/
def retireLink (l count : Nat) (own : Bool) (s : State) : State :=
  if linkState s l = Lk.RETIRED then s
  else
    let s := setLink { s.link with retiring := s.link.retiring.filter (fun x => x.1 != l), away := Store.set natZero s.link.away l 0,
                                   left := Store.set natZero s.link.left l 0 } s
    let s := (setLinkState l Lk.RETIRED s).setBit .LINK_STAT l 26 false
    let s := zeroGuards (0x400 + 512 * l) (0x400 + 512 * l + 512) (zeroLinkIn l s)
    let s := raise Ev.LINK_RETIRED (if own then logFault 0x04 2 l (BitVec.ofNat 32 count) s else s)
    let seg := segmentOf s l
    if !s.bit .LINK_RING_CFG 0 31 then s
    else if !own || rerouted s seg then altRefSwitch l s
    else if ringActive s then s.setBit .LINK_RING_STAT 0 29 true
    else
      let n := s.f .LINK_RING_CFG 0 7 0
      sendReroute seg n l (pendReroute seg n l (altRefSwitch l s))

/-- A retirement is due at the coming boundary, or at once while turns are stopped; 17 wins over 8 (R290). -/
def retireLinkSoon (l count : Nat) (s : State) : State :=
  if turnsOn s then
    match s.link.retiring.find? (fun x => x.1 == l) with
    | some (_, c) => if c < count then
        setLink { s.link with retiring := s.link.retiring.map (fun x => if x.1 = l then (l, count) else x) } s else s
    | none => later (.retireLink l count) (setLink { s.link with retiring := s.link.retiring ++ [(l, count)] } s)
  else retireLink l count true s

/-! Errors (R288 to R291). -/

/-- A CRC failure or a missing frame in UP: not counted while the far side sends STOP (R289, R291). DEDUCED: log entry 30. -/
def crcError (l : Nat) (s : State) : State :=
  let s := setLink { s.link with rxOk := s.link.rxOk.filter (fun x => x != l) } (s.setBit .LINK_FAULT l 0 true)
  if s.link.farStop.contains l then s
  else
    let s := count24 .LINK_CRC_CNT l none s
    let near := s.link.crc.filter (fun x => x.1 == l && decide (s.time.grid - x.2 ≤ 65535))
    let s := setLink { s.link with crc := (l, s.time.grid) :: near ++ s.link.crc.filter (fun x => x.1 != l) } s
    if 16 ≤ near.length then retireLinkSoon l 17 s else s

/-- A retrain starts from ALIGN; the inputs repeat for CONCEAL turns from the next boundary (R288, R289). -/
def startRetrain (l : Nat) (s : State) : State :=
  let s := (setLinkState l Lk.ALIGN s).setBit .LINK_STAT l 26 true
  setLink { s.link with away := Store.set natZero s.link.away l 1, left := Store.set natZero s.link.left l (s.f .LINK_CFG l 15 8 + 1) } s

/-- LOSS_OF_ALIGNMENT (R285, R288). DEDUCED: log entry 60. -/
def alignLoss (l : Nat) (s : State) : State :=
  if linkState s l = Lk.UP then
    startRetrain l (count .LINK_RETRAIN_CNT l 31 30 16 none (s.setBit .LINK_FAULT l 1 true))
  else s

/-- The code violations of a frame's symbols count; the fourth of a turn, or a comma out of alignment, loses the alignment (R279, R288). -/
def symbolErrors (l : Nat) (syms : List Sym) (s : State) : State :=
  if linkState s l ≠ Lk.UP then s
  else
    let n := Store.get natZero s.link.viol l + violations syms
    let s := setLink { s.link with viol := Store.set natZero s.link.viol l n } s
    if decide (4 ≤ n) || commaOut syms then alignLoss l s else s

/-- LINK_CONCEAL_EXPIRE (R288). -/
def linkConcealExpire (l : Nat) (s : State) : State :=
  if s.bit .LINK_STAT l 26 && Store.get natZero s.link.left l == 0 then zeroLinkIn l (s.setBit .LINK_STAT l 26 false) else s

/-- RETRAIN_TIMEOUT (R289, R290). -/
def retrainTimeout (l : Nat) (s : State) : State :=
  if 256 < Store.get natZero s.link.away l then
    let n := s.f .LINK_RETRAIN_CNT l 3 0 + 1
    let s := s.setF .LINK_RETRAIN_CNT l 3 0 (min n 8)
    let s := setLink { (setLinkState l Lk.ALIGN s).link with away := Store.set natZero s.link.away l 1 } (setLinkState l Lk.ALIGN s)
    if 8 ≤ n then retireLinkSoon l 8 s else s
  else s

/-- FAIL_RESET (R291). -/
def failReset (l : Nat) (s : State) : State :=
  if linkState s l = Lk.UP ∧ 65536 ≤ Store.get natZero s.link.upTurns l then s.setF .LINK_RETRAIN_CNT l 3 0 0 else s

/-- FAULT_RECEIVED (R285). -/
def faultReceived (l : Nat) (s : State) : State :=
  let st := linkState s l
  if st = Lk.UP ∨ st = Lk.ALIGN ∨ st = Lk.TRAIN then
    let s := raise Ev.LINK_REMOTE_FAULT (setLinkState l Lk.FAULT_RX (s.setBit .LINK_FAULT l 2 true))
    zeroLinkIn l ((setLink { s.link with away := Store.set natZero s.link.away l 0, left := Store.set natZero s.link.left l 0 } s).setBit
      .LINK_STAT l 26 false)
  else s

/-! Training and frames (R283 to R287). -/

/-- The audio of a passed frame waits for clk N/2 of a running turn: its channels, or zeros where STOP or MUTE is set (R283, R300). -/
def takeAudio (l : Nat) (f : RxFrame) (s : State) : State :=
  if !turnsOn s || (f.train && !f.stop && !f.mute) then s
  else
    let m := dropLink l s.link.rx
    let m := if f.stop || f.mute then m
      else (List.range (linkChannels s)).foldl (fun m c => Store.set zeroOf m (512 * l + c) (f.audio.getD c 0)) m
    setLink { s.link with rx := m, due := l :: s.link.due.filter (fun x => x != l) } s

/-- The one-way delay of a frame (R286). -/
def frameDelay (f : RxFrame) : Nat := (f.rtt - f.hold) / 2 - 40

/-- ALIGNED: the SOF lies within 8 clk of where the delay places it (R287). -/
def alignedNow (s : State) (d : Nat) (f : RxFrame) : Bool :=
  let N := turnLen s
  let x := (f.arrival + 2 * N - (64 + d)) % N
  decide (x ≤ 8) || decide (N ≤ x + 8)

/-- The checks of R286 on a good training frame: whether it counts. -/
def trainChecks (l : Nat) (f : RxFrame) (s : State) : Bool × State :=
  if f.rate.val ≠ s.f .SYS_TURN_CFG 0 1 0 ∨ f.family ≠ s.bit .SYS_TURN_CFG 0 4 then (false, s.setBit .LINK_FAULT l 3 true)
  else
    let d := frameDelay f
    let cand := f.pos.val + 1
    let takes := !isHead s && upstream s l && f.posValid
    if takes && (decide (16 ≤ cand) || (s.bit .LINK_POS 0 4 && s.f .LINK_POS 0 3 0 != cand)) then (false, s.setBit .LINK_FAULT l 4 true)
    else
      let s := if takes then s.setReg .LINK_POS 0 (BitVec.ofNat 32 (16 + cand)) else s
      if 512 < d then (false, s.setBit .LINK_FAULT l 5 true) else (f.rxOk, s)

/-- A good frame in TRAIN. -/
def trainFrame (l : Nat) (f : RxFrame) (s : State) : State :=
  let (ok, s) := trainChecks l f s
  let n := if ok then Store.get natZero s.link.good l + 1 else 0
  if 8 ≤ n then
    takeAudio l f (setLinkState l Lk.UP (s.setReg .LINK_DELAY l (BitVec.ofNat 32 (2 ^ 28 + frameDelay f))))
  else setLink { s.link with good := Store.set natZero s.link.good l n } s

/-- What a good frame says of the far side, and when it came. -/
def noteFrame (l : Nat) (f : RxFrame) (s : State) : State :=
  let s := ((s.setF .LINK_STAT l 23 20 f.pos.val).setBit .LINK_STAT l 19 f.posValid).setF .LINK_STAT l 18 16 f.link.val
  setLink { s.link with echo := Store.set natZero s.link.echo l f.seq.toNat,
                        arrived := Store.set natZero s.link.arrived l (s.time.grid * turnLen s + f.arrival),
                        rxOk := l :: s.link.rxOk.filter (fun x => x != l),
                        farStop := s.link.farStop.filter (fun x => x != l) ++ (if f.stop then [l] else []) } s

/-- A frame that has been read, but for its messages; none for one that fails its check (R283, R285, R289). DEDUCED: log entry 30. -/
def linkFrameStep (l : Nat) (f : Option RxFrame) (s : State) : State :=
  let st := linkState s l
  if st = Lk.UP then
    match f with
    | some f => takeAudio l f ((noteFrame l f s).setBit .LINK_STAT l 27 (alignedNow s (s.f .LINK_DELAY l 9 0) f))
    | none => crcError l s
  else if st = Lk.TRAIN then
    match f with
    | some f => trainFrame l f (noteFrame l f s)
    | none => setLink { s.link with good := Store.set natZero s.link.good l 0, rxOk := s.link.rxOk.filter (fun x => x != l) } s
  else s

/-- A missing frame is treated as one that fails its CRC (R283). -/
def missingFrame (l : Nat) (s : State) : State := linkFrameStep l none s

/-- What a link's lane carries (R284, R285, R393). DEDUCED: log entry 60. -/
def lineContent (s : State) (l : Nat) : LineContent :=
  let st := linkState s l
  if st == Lk.IDLE || st == Lk.RETIRED || !domainOn s (domLink l) || !outRuns s 3 then .electricalIdle
  else if sysState s == St.HALT then .fault
  else if st == Lk.SIGNAL then .idle
  else .frames

/-- Whether a link sends frames (R284). -/
def sendsFrames (s : State) (l : Nat) : Bool := lineContent s l == .frames

/-- The running disparity of a link's lane after the last frame it sent: IDLE leaves it (R279). -/
def laneRd (s : State) (l : Nat) : Bool :=
  match s.link.sent.find? (fun x => x.1 == l) with
  | some (_, f) => (laneGroups f.rd f.symbols).2
  | none => false

/-- The code groups that a link's lane carries, in the order in which they leave (R279, R284): of its last frame and the fill after it, or of its
fill, of which two sets show both disparities. -/
def laneCode (s : State) (l : Nat) : List (BitVec 10) :=
  let c := lineContent s l
  match c, s.link.sent.find? (fun x => x.1 == l) with
  | .frames, some (_, f) => (laneGroups f.rd (f.lane ++ c.fill)).1
  | _, _ => (laneGroups (laneRd s l) (c.fill ++ c.fill)).1

/-- A frame is sent (R281, R282, R284, R294): at most 16 messages, the others wait. -/
def sendFrame (l : Nat) (stop : Bool) (s : State) : State :=
  let st := linkState s l
  let train := st == Lk.ALIGN || st == Lk.TRAIN
  let mute := !stop && s.bit .SYS_STATE 0 4
  let mine := s.link.outbox.filter (fun x => x.1 == l)
  let msgs := (mine.take 16).map (fun x => x.2)
  let rest := s.link.outbox.filter (fun x => x.1 != l) ++ mine.drop 16
  let n := Store.get natZero s.link.seq l
  let f : TxFrame := {
    rxOk := s.link.rxOk.contains l, train := train, mute := mute, stop := stop, pos := myPos s, posValid := posValid s,
    rate := s.f .SYS_TURN_CFG 0 1 0, family := s.bit .SYS_TURN_CFG 0 4, seq := n,
    hold := (s.time.grid * turnLen s + 64 - Store.get natZero s.link.arrived l) % 65536, echo := Store.get natZero s.link.echo l,
    link := l, audio := if train || mute || stop then [] else s.link.guarded.filter (fun e => e.1 / 512 == l),
    msgs := msgs, wake := s.link.wakeReq.contains l && st == Lk.UP,
    rd := laneRd s l }
  setLink { s.link with sent := (s.link.sent.filter (fun x => x.1 != l)) ++ [(l, f)], seq := Store.set natZero s.link.seq l ((n + 1) % 65536),
                        outbox := rest, wakeReq := s.link.wakeReq.filter (fun x => x != l),
                        wakes := if f.wake then Store.set natZero s.link.wakes l (Store.get natZero s.link.wakes l + 1) else s.link.wakes } s

/-- LINK_FRAME_TX and FRAME_TIMER. -/
def frameTx (l : Nat) (s : State) : State := if turnsOn s && sendsFrames s l then sendFrame l false s else s
def frameTimer (l : Nat) (s : State) : State := if !turnsOn s && sendsFrames s l then sendFrame l true s else s

/-! Enables and configuration (R285, R299, R301). -/

/-- An enable or a disable takes effect. DEDUCED: log entry 60. -/
def linkEnable (l : Nat) (b : Bool) (s : State) : State :=
  let st := linkState s l
  if st = Lk.RETIRED then s
  else if b then (if st = Lk.IDLE then setLinkState l Lk.SIGNAL s else s)
  else
    let s := (setLinkState l Lk.IDLE s).setBit .LINK_STAT l 26 false
    let s := setLink { s.link with away := Store.set natZero s.link.away l 0, left := Store.set natZero s.link.left l 0,
                                   good := Store.set natZero s.link.good l 0, outbox := s.link.outbox.filter (fun x => x.1 != l) } s
    zeroGuards (0x400 + 512 * l) (0x400 + 512 * l + 512) (zeroLinkIn l s)

/-- RETRAIN written 1. DEDUCED: log entry 60. -/
def retrainWrite (l : Nat) (s : State) : State :=
  let st := linkState s l
  if st = Lk.UP then startRetrain l s
  else if st = Lk.TRAIN then setLinkState l Lk.ALIGN s
  else s

/-- WAKE_TX written 1 (R299). -/
def wakeTx (l : Nat) (s : State) : State :=
  let st := linkState s l
  if st = Lk.UP then setLink { s.link with wakeReq := l :: s.link.wakeReq.filter (fun x => x != l) } s
  else if st = Lk.SIGNAL then setLink { s.link with wakes := Store.set natZero s.link.wakes l (Store.get natZero s.link.wakes l + 1) } s
  else s

/-- LINK_CTRL: EN, then RETRAIN, then WAKE_TX. EN acts at the coming boundary (R56, R285). -/
def linkCtrlWrite (l : Nat) (v : Word) (s : State) : State :=
  let s := s.setBit .LINK_CTRL l 0 (bitOf v 0)
  let s := if turnsOn s then later (.linkEn l (bitOf v 0)) s else linkEnable l (bitOf v 0) s
  let s := if bitOf v 5 then retrainWrite l s else s
  if bitOf v 4 then wakeTx l s else s

/-- LINK_CFG: a write while EN is 1 leaves ROLE and sets CFG_ERR (R301). -/
def linkCfgWrite (l : Nat) (v : Word) (s : State) : State :=
  if linkEn s l then cfgErr .LINK_CFG l (plainWrite .LINK_CFG l (setFld v 1 0 (s.f .LINK_CFG l 1 0)) s)
  else plainWrite .LINK_CFG l v s

def signalDetect (l : Nat) (s : State) : State := if linkState s l = Lk.SIGNAL then setLinkState l Lk.ALIGN s else s

def alignmentAchieved (l : Nat) (s : State) : State :=
  if linkState s l = Lk.ALIGN then
    setLink { s.link with good := Store.set natZero s.link.good l 0 } (setLinkState l Lk.TRAIN s)
  else s

def faultRxEnd (l : Nat) (s : State) : State := if linkState s l = Lk.FAULT_RX then setLinkState l Lk.ALIGN s else s

/-- A boundary of the grid: the counts of turns or frames of R288, R289, R291, R293 and R298. -/
def linksBoundary (s : State) : State :=
  let up := (List.range 8).filter (fun l => linkState s l == Lk.UP)
  let turns := if turnsOn s then up.foldl (fun m l => Store.set natZero m l (Store.get natZero m l + 1)) s.link.upTurns else s.link.upTurns
  setLink { s.link with
    upTurns := turns,
    viol := [],
    left := (s.link.left.map (fun e => (e.1, e.2 - 1))).filter (fun e => e.2 != 0),
    away := s.link.away.map (fun e => (e.1, e.2 + 1)),
    reroute := s.link.reroute.map (fun r => { r with left := r.left - 1 }),
    tun := s.link.tun.map (fun t => (t.1, t.2.1, t.2.2 + 1)) } s

/-! Reroutes (R293). -/

/-- REROUTE received on link l. DEDUCED: log entry 62. -/
def rerouteReceive (l seg cnt : Nat) (s : State) : State :=
  if !s.bit .LINK_RING_CFG 0 31 || rerouted s seg then s
  else if ringActive s then s.setBit .LINK_RING_STAT 0 29 true
  else
    let s := sendReroute seg (cnt - 1) l (pendReroute seg (max cnt 1) l s)
    if cnt = 0 then s.setBit .LINK_RING_STAT 0 28 true else s

/-- A reroute reaches its target boundary: it is applied, or, where another is in force, counts as a double break (R293). -/
def applyReroute (r : Reroute) (s : State) : State :=
  if ringActive s then s.setBit .LINK_RING_STAT 0 29 true
  else
    let mine := (List.range 8).filter (fun l => linkState s l != Lk.IDLE && segmentOf s l == r.seg)
    let s := (s.setBit .LINK_RING_STAT 0 31 true).setF .LINK_RING_STAT 0 3 0 r.seg
    let lat := ((altEntries s).filter (fun e => e.kind == 2)).foldl (fun m e => max m e.hops) 0
    let unit := mine.headD r.via
    let s := mine.foldl (fun t l => retireLink l 0 false t) s
    let s := logFault 0x05 2 unit (BitVec.ofNat 32 lat) (s.setF .LINK_RING_STAT 0 15 8 lat)
    publishLinks (raise Ev.LINK_LATENCY_CHANGED s)

/-- REROUTE_TARGET: the coming boundary is the target of what has one boundary left. DEDUCED: log entry 62. -/
def rerouteTarget (s : State) : State :=
  let due := s.link.reroute.filter (fun r => decide (r.left ≤ 1))
  let rest := s.link.reroute.filter (fun r => !decide (r.left ≤ 1))
  if due.isEmpty then s
  else
    let s := (setLink { s.link with reroute := rest } s).setBit .LINK_RING_STAT 0 30 (!rest.isEmpty)
    due.foldl (fun t r => applyReroute r t) s

/-! The grid of a follower (R287). -/

/-- START on a follower whose reference link is UP: the grid takes the place of the upstream device's, which was at clk 64 + d when the last
frame's SOF arrived. DESIGN CHOICE: log entry 89. -/
def alignGrid (s : State) : State :=
  let l := s.synth.use.refSel - 8
  if s.synth.use.refSel < 8 || linkState s l != Lk.UP then s
  else
    let N := turnLen s
    let now := s.time.grid * N + s.time.clk
    let k := (64 + s.f .LINK_DELAY l 9 0 + (now - Store.get natZero s.link.arrived l)) % N
    let moved (x : Nat) : Nat := x + k - s.time.clk
    setEng { s.eng with mig := s.eng.mig.map (fun m => { m with at_ := moved m.at_ }) }
      (setLink { s.link with arrived := s.link.arrived.map (fun e => (e.1, moved e.2)) } { s with time := { s.time with clk := k } })

/-- A write of the alternate route table (R292). -/
def altWrite (a : Nat) (v : Word) (s : State) : State :=
  if ringActive s then cfgErr .LINK_RING_CFG 0 s else setSlot s a v

/-! The tunnel (R294 to R298). -/

def badMsg (s : State) : State := count .LINK_TUN_STAT 0 15 14 0 none s

/-- Whether a message going downstream to dst would cross the rerouted segment. -/
def crosses (s : State) (dst : Nat) : Bool :=
  let p := myPos s
  let g := ringSeg s
  ringActive s && (if p ≤ dst then decide (p ≤ g) && decide (g < dst) else decide (p ≤ g) || decide (g < dst))

def isRequest (k : MsgKind) : Bool := k == .readReq || k == .writeReq || k == .owner

/-- The link a message leaves on (R296). -/
def routeOf (s : State) (m : Msg) : Option Nat :=
  let down := (upLinks s).find? (fun l => !upstream s l)
  let up := (upLinks s).find? (fun l => upstream s l)
  if s.bit .LINK_RING_CFG 0 31 then (if crosses s m.dst.val then up else down)
  else if isRequest m.kind then down else up

/-- A response to a request. -/
def responseTo (m : Msg) (status : Nat) (data : Word) : Msg :=
  { kind := if m.kind == .readReq then .readResp else .writeResp, dst := m.src, src := m.dst, tag := m.tag,
    status := BitVec.ofNat 8 status, addr := m.addr, data := data }

/-- A message leaves for its destination; one that has no link is lost. DEDUCED: log entry 30. -/
def sendMsg (m : Msg) (s : State) : State :=
  match routeOf s m with
  | some l => queueMsg l m s
  | none => s

/-- A message for another device is forwarded; a request that cannot be is answered with STATUS 0x03. -/
def forward (m : Msg) (s : State) : State :=
  match routeOf s m with
  | some l => queueMsg l m s
  | none => if isRequest m.kind then sendMsg (responseTo m 3 0) s else s

/-- A response completes the head's access; a late or unknown one is discarded (R298). -/
def tunnelResponse (m : Msg) (s : State) : State :=
  match s.link.tun with
  | some (tag, rd, _) =>
    if m.tag.toNat = tag then
      let s := setLink { s.link with tun := none } s
      let s := if rd && m.kind == .readResp then s.setReg .LINK_TUN_DATA 0 m.data else s
      let s := (s.setBit .LINK_TUN_STAT 0 31 false).setBit .LINK_TUN_STAT 0 30 true
      raise Ev.LINK_TUN_DONE (s.setF .LINK_TUN_STAT 0 23 16 m.status.toNat)
    else s
  | none => s

/-- The three ownership registers of R295. -/
def isOwnerReg (a : Nat) : Bool := a == 0x40000040 || a == 0x40000048 || a == 0x4000004C

/-- LINK_TUN_CMD (R295, R298). DEDUCED: log entry 62. -/
def tunCmdWrite (v : Word) (s : State) : State :=
  let t := plainWrite .LINK_TUN_CMD 0 v s
  if !bitOf v 31 then t
  else if s.link.tun.isSome || myPos s != 0 || !posValid s then cfgErr .LINK_TUN_CMD 0 s
  else if fld v 3 0 = 0 then t
  else
    let tag := (t.link.tag + 1) % 256
    let a := t.reg .LINK_TUN_ADDR 0
    let wr := bitOf v 8
    let k : MsgKind := if !wr then .readReq else if isOwnerReg a.toNat then .owner else .writeReq
    let m : Msg := ⟨k, Fin.ofNat 16 (fld v 3 0), 0, BitVec.ofNat 8 tag, 0, a, if wr then t.reg .LINK_TUN_DATA 0 else 0⟩
    let t := (setLink { t.link with tun := some (tag, !wr, 0), tag := tag } t).setBit .LINK_TUN_STAT 0 31 true
    match routeOf t m with
    | some l => queueMsg l m t
    | none => tunnelResponse (responseTo m 3 0) t

/-- TUNNEL_TIMEOUT (R298). -/
def tunnelTimeout (s : State) : State :=
  match s.link.tun with
  | some (_, _, age) =>
    if 256 ≤ age then (setLink { s.link with tun := none } ((s.setBit .LINK_TUN_STAT 0 31 false).setBit .LINK_TUN_STAT 0 29 true))
    else s
  | none => s

end Sys2Proof.Machine
end

