-- ==== Sys2Proof/Machine/PwrUnit.lean ====
section
/-! DEFINITION. Power domains and wake (15_power_domains.md R397 to R415): requests and votes, entries and wakes, the wake
record, save memory, automatic retention and the always-on regulator. -/

namespace Sys2Proof.Machine

/-- The power domain of an address (R397): registers by their block, memories by their unit; SCHED_CORE_n_CTRL and BOOT are their core
group's, whose save list has them (R407). The boot ROM, the gaps and the always-on region are AON's. DEDUCED: log entry 51. -/
def domainAt (a : Nat) : Nat :=
  let a := primary a
  match regionOf a with
  | .localMem => domCore ((a - 0x08000000) / 0x10000)
  | .shared | .sharedAlias => 6 + (a - 0x10000000) / 0x100000
  | .hub | .hubAlias | .flash => 2
  | .lane => domCluster ((a - 0x20000000) / 0x40000)
  | .prog => domCluster ((a - 0x30000000) / 0x8000)
  | .sectMem => 4
  | .fabric => 3
  | .regs =>
    if a < 0x40020000 then 0
    else if a < 0x40030000 then 1
    else if a < 0x40060000 then 0
    else if 0x40060100 ≤ a ∧ a < 0x40060200 ∧ a % 8 = 0 then domCore ((a - 0x40060100) / 16)
    else if a < 0x400A0000 then 2
    else if a < 0x400B0000 then 3
    else if a < 0x400C0000 then 4
    else if a < 0x400D0000 then 5
    else if a < 0x400E0000 then 0
    else if a < 0x400F0000 then 2
    else if a < 0x41048000 then domCluster ((a - 0x41000000) / 0x1000)
    else if a < 0x42000000 then 6 + (a - 0x41048000) / 0x1000
    else if a < 0x43000000 then domPort ((a - 0x42000000) / 0x100)
    else if a < 0x43080000 then domLink ((a - 0x43000000) / 0x10000)
    else 2
  | _ => 0

/-! Save lists (R407). -/

/-- An item of a save list: bits of a register, the VBASE of a core, or a word of the alternate route table. -/
inductive SaveItem where
  | reg (r : RegName) (i mask : Nat)
  | vbase (c : Nat)
  | alt (a : Nat)
deriving DecidableEq, Repr

def saveAll (r : RegName) (n : Nat) : List SaveItem := (List.range n).map (fun i => .reg r i 0xFFFFFFFF)
def saveOne (r : RegName) : SaveItem := .reg r 0 0xFFFFFFFF

/-- The save lists, in the order in which a region holds them; where registers of an instance stand together, by instance
and then by offset. The second list of HUB is its alternate route table. DEDUCED: log entry 51. -/
def saveList (d : Nat) : List SaveItem :=
  if d = 1 then
    [.SYNTH_CFG, .SYNTH_REF_FREQ, .SYNTH_RDIV, .SYNTH_N_INT, .SYNTH_NUM, .SYNTH_DEN, .SYNTH_SEED, .SYNTH_PHASE_WIN,
      .SYNTH_SLEW_LIMIT].map saveOne ++ saveAll .SYNTH_OUT_n_CFG 12 ++ [saveOne .SYNTH_SYNC_MASK] ++ saveAll .SYNTH_CEIL_n 12 ++
      [saveOne .SYNTH_LOCK, .reg .SYNTH_RAMP_CTRL 0 0xF] ++ saveAll .SYNTH_RAMP_SEG_n 16 ++ saveAll .SYNTH_BAND_n 32
  else if d = 2 then
    (List.range 32).flatMap (fun n => [.reg .DMA_CH_n_CTRL n 2, .reg .DMA_CH_n_CFG n 0xFFFFFFFF, .reg .DMA_CH_n_DESC n 0xFFFFFFFF]) ++
    (List.range 8).flatMap (fun n => [.reg .TIMER_n_CTRL n 0xFFFFFFFF, .reg .TIMER_n_PERIOD n 0xFFFFFFFF, .reg .TIMER_n_TOK n 0xFFFFFFFF]) ++
    [saveOne .SCHED_CTRL, saveOne .SCHED_C0_CORES, saveOne .SCHED_C0_RATE, saveOne .SCHED_AFFINITY] ++
    saveAll .SCHED_CLASS_CFG_c 4 ++ saveAll .SCHED_CLASS_BUDGET_c 4 ++
    [.SCHED_SPILL_BASE, .SCHED_SPILL_SIZE, .SCHED_TRACE_BASE, .SCHED_TRACE_SIZE, .SCHED_TRACE_CTRL, .SAFE_MIRROR_EN].map saveOne ++
    [.reg .SAFE_FABRIC_GROUP 0 0xFF] ++
    (List.range 8).flatMap (fun n => [.reg .SAFE_STROKE_n_CTRL n 0xFFFFFFFF, .reg .SAFE_STROKE_n_BASE n 0xFFFFFFFF, .reg .SAFE_STROKE_n_LEN n 0xFFFFFFFF]) ++
    [saveOne .FLASH_CFG, saveOne .LINK_RING_CFG]
  else if d = 3 then
    saveAll .FABRIC_SIL_THRESH_n 4 ++ saveAll .FABRIC_SIL_HOLD_n 4 ++ saveAll .FABRIC_QUIET_n 8 ++ saveAll .FABRIC_CONST_n 32 ++
    (List.range 8).flatMap (fun n => [.reg .FABRIC_TONE_n_INC n 0xFFFFFFFF, .reg .FABRIC_TONE_n_LEVEL n 0xFFFFFFFF])
  else if d = 5 then saveAll .ASRC_CH_n_CFG 256
  else if 6 ≤ d ∧ d < 14 then
    (List.range 9).flatMap (fun k => let pe := 9 * (d - 6) + k
      [.reg .ENG_CTRL pe 0xFFFFFFFF, .reg .ENG_LANE_MAP pe 0xFFFFFFFF, .reg .ENG_PROG_A pe 0xFFFFFFFF, .reg .ENG_PROG_B pe 0xFFFFFFFF,
        .reg .ENG_DB pe 0xFFFFFFFF, .reg .ENG_SCRUB pe 0xFFFFFFFF]) ++
    [.reg .ENGC_REMAP (d - 6) 0xFFFFFFFF, .reg .ENGC_RETIRE (d - 6) 0xFFFFFFFF]
  else if 14 ≤ d ∧ d < 18 then
    (List.range 4).flatMap (fun k => let c := 4 * (d - 14) + k
      [.reg .SCHED_CORE_n_CTRL c 4, .reg .SCHED_CORE_n_BOOT c 0xFFFFFFFF, .vbase c])
  else if 18 ≤ d ∧ d < 26 then
    (List.range 8).flatMap (fun k => let p := 8 * (d - 18) + k
      [.reg .SAP_CTRL p 0xFFFFFFFF, .reg .SAP_CFG p 0xFFFFFFFF, .reg .SAP_CONCEAL p 0xFFFFFFFF])
  else if 26 ≤ d then [.reg .LINK_CTRL (d - 26) 1, .reg .LINK_CFG (d - 26) 0xFFFFFFFF]
  else []

def saveAltList (d : Nat) : List SaveItem := if d = 2 then (List.range 2048).map (fun k => .alt (0x43081000 + 4 * k)) else []

/-- Where a domain's region begins. -/
def saveBase (d : Nat) : Nat :=
  0xF000C000 + (if d = 1 then 0 else if d = 2 then 0x200 else if d = 3 then 0x600 else if d = 5 then 0x2800
    else if d < 14 then 0x2C00 + 256 * (d - 6) else if d < 18 then 0x3400 + 64 * (d - 14)
    else if d < 26 then 0x3500 + 128 * (d - 18) else 0x3900 + 16 * (d - 26))

def saveValue (s : State) : SaveItem → Word
  | .reg r i mask => s.reg r i &&& BitVec.ofNat 32 mask
  | .vbase c => Store.get vbaseReset s.core.vbase c
  | .alt a => getSlot s a

def restoreValue (v : Word) (s : State) : SaveItem → State
  | .reg r i mask => s.setReg r i ((s.reg r i &&& ~~~(BitVec.ofNat 32 mask)) ||| (v &&& BitVec.ofNat 32 mask))
  | .vbase c => { s with core := { s.core with vbase := Store.set vbaseReset s.core.vbase c v } }
  | .alt a => setSlot s a v

/-- DEDUCED: log entry 51. -/
def saveItems (a : Nat) (l : List SaveItem) (s : State) : State :=
  l.zipIdx.foldl (fun t x => setSlot t (a + 4 * x.2) (saveValue t x.1)) s

def restoreItems (a : Nat) (l : List SaveItem) (s : State) : State :=
  l.zipIdx.foldl (fun t x => restoreValue (getSlot t (a + 4 * x.2)) t x.1) s

/-- A domain that goes off writes its save list. -/
def saveDomain (d : Nat) (s : State) : State :=
  saveItems 0xF000C800 (saveAltList d) (saveItems (saveBase d) (saveList d) s)

/-- Whether the words of a domain's save list hold a double-bit error (R407). -/
def saveBroken (s : State) (d : Nat) : Bool :=
  (List.range (saveList d).length).any (fun k => upsetOf s (saveBase d + 4 * k) == 2) ||
    (List.range (saveAltList d).length).any (fun k => upsetOf s (0xF000C800 + 4 * k) == 2)

/-! What off loses (R398, R404). -/

/-- A store without the keys that satisfy p. -/
def Store.drop {α : Type} (p : Nat → Bool) (m : Store α) : Store α := m.filter (fun e => !p e.1)

/-- The domain that holds the register with a store key. -/
def keyDomain (k : Nat) : Nat :=
  let t := Reg.rows.getD (k % 512) (.mk 0 4 0 (fun _ => 0) 0 0 0 0 [] [])
  domainAt (t.base + t.stride * (k / 512))

/-- Memories and registers of a domain are lost, but what the always-on logic holds (R398): active sides, retirements, and
SYNTH_LOCK, which the save list holds; the modes of the cores of a group that is in retention stay with the group. A cluster's groups, lane
maps and remap stand, since commits and strokes resolve by them while it is off (R187, R192). DEDUCED: log entry 51. -/
def loseStores (d : Nat) (s : State) : State :=
  let regs := Store.drop (fun k => keyDomain k == d) s.regs
  let t := { s with regs := regs, mem := Store.drop (fun a => domainAt a == d) s.mem,
                    wmem := Store.drop (fun a => domainAt a == d) s.wmem, upset := Store.drop (fun a => domainAt a == d) s.upset }
  if d = 2 then
    let t := t.setF .SAFE_FABRIC_GROUP 0 9 8 (s.f .SAFE_FABRIC_GROUP 0 9 8)
    (List.range 16).foldl (fun t c => setCoreMode c (if domainCode s (domCore c) = Dom.OFF ∧ coreMode s c ≠ 4 then 0 else coreMode s c) t) t
  else if d = 4 then (List.range 16).foldl (fun t w => t.setReg .SECTION_ACT_w w (s.reg .SECTION_ACT_w w)) t
  else if 6 ≤ d ∧ d < 14 then
    let keep (r : RegName) (i : Nat) (t : State) : State := t.setReg r i (s.reg r i)
    (List.range 9).foldl (fun t k => let pe := 9 * (d - 6) + k
      keep .ENG_CTRL pe (keep .ENG_LANE_MAP pe (t.setF .ENG_STATUS pe 3 2 (s.f .ENG_STATUS pe 3 2))))
      (keep .ENGC_REMAP (d - 6) (keep .ENGC_RETIRE (d - 6) t))
  else if 18 ≤ d ∧ d < 26 then
    (List.range 8).foldl (fun t k => let p := 8 * (d - 18) + k
      if sapState s p = Sap.RETIRED then setSapState p Sap.RETIRED t else t) t
  else if 26 ≤ d then (if linkState s (d - 26) = Lk.RETIRED then t.setF .LINK_STAT (d - 26) 31 28 Lk.RETIRED else t)
  else t

/-- The hart numbers of a domain's cores or lanes. -/
def hartIn (d h : Nat) : Bool := if h < 16 then domCore h == d else domCluster ((h - 16) / 4) == d

def loseHarts (d : Nat) (s : State) : State :=
  { s with hart := { r := Store.drop (fun k => hartIn d (k / 64)) s.hart.r, acc := Store.drop (fun k => hartIn d (k / 4)) s.hart.acc,
                     stat := Store.drop (hartIn d) s.hart.stat, dice := Store.drop (hartIn d) s.hart.dice } }

def loseCores (d : Nat) (s : State) : State :=
  let mine (c : Nat) : Bool := domCore c == d
  let s := { s with core := { s.core with
    pc := Store.drop mine s.core.pc, rrb := Store.drop mine s.core.rrb, vbase := Store.drop mine s.core.vbase,
    epc := Store.drop mine s.core.epc, ecause := Store.drop mine s.core.ecause,
    pend := s.core.pend.filter (fun x => !mine x.core), wbuf := s.core.wbuf.filter (fun x => !mine x.core),
    fence := s.core.fence.filter (fun c => !mine c), dcache := s.core.dcache.filter (fun x => !mine x.core) } }
  (List.range 4).foldl (fun t k => let c := 4 * (d - 14) + k
    let t := dropHeld (.core (Fin.ofNat 16 c)) t
    if coreMode t c = 4 then t else setCoreMode c 0 t) s

/-- The scrubbers stand at the words they have reached (R165). -/
def loseCluster (d : Nat) (s : State) : State :=
  let mine (pe : Nat) : Bool := domCluster pe == d
  let box (k : Nat) : Bool := k / 512 + 6 == d
  { s with dev := { s.dev with late := s.dev.late.filter (fun c => c + 6 != d) }, eng := { s.eng with
    on := s.eng.on.filter (fun p => !mine p), run := s.eng.run.filter (fun p => !mine p.1),
    null := Store.drop (fun h => hartIn d h) s.eng.null,
    deliver := s.eng.deliver.filter (fun x => !mine x.pe), inF := Store.drop box s.eng.inF, inE := Store.drop box s.eng.inE,
    outE := Store.drop box s.eng.outE, outF := Store.drop box s.eng.outF, muted := s.eng.muted.filter (fun p => !mine p),
    busq := s.eng.busq.filter (fun x => !mine x.pe), wback := s.eng.wback.filter (fun x => !mine x.1),
    corrected := s.eng.corrected.filter (fun x => !mine x.1), scrubPos := s.eng.scrubPos,
    faultTab := s.eng.faultTab.filter (fun x => !mine x.pe), chk := Store.drop (fun k => mine (k / 2)) s.eng.chk,
    tokq := s.eng.tokq.filter (fun x => x.cl + 6 != d) } }

/-- Guard channel state of the sinks from lo up to hi (R269). -/
def loseGuards (lo hi : Nat) (s : State) : State :=
  let p (a : Nat) : Bool := decide (lo ≤ a) && decide (a < hi)
  { s with guard := { s.guard with mean := Store.drop p s.guard.mean, dcn := Store.drop p s.guard.dcn, run := Store.drop p s.guard.run,
                                   yPrev := Store.drop p s.guard.yPrev } }

def losePorts (d : Nat) (s : State) : State :=
  let mine (p : Nat) : Bool := domPort p == d
  let sl (a : Nat) : Bool := mine (a / 16)
  loseGuards (128 * (d - 18)) (128 * (d - 18) + 128) { s with port :=
    { on := s.port.on.filter (fun p => !mine p), cap := Store.drop sl s.port.cap, capLate := Store.drop sl s.port.capLate,
      good := Store.drop mine s.port.good, period := Store.drop mine s.port.period, fails := s.port.fails.filter (fun x => !mine x.1),
      left := Store.drop mine s.port.left, retiring := s.port.retiring.filter (fun p => !mine p), stage := Store.drop sl s.port.stage,
      sent := Store.drop sl s.port.sent, touched := s.port.touched } }

def loseLink (d : Nat) (s : State) : State :=
  let l := d - 26
  let ch (a : Nat) : Bool := a / 512 == l
  let one (k : Nat) : Bool := k == l
  loseGuards (0x400 + 512 * l) (0x400 + 512 * l + 512) { s with link := { s.link with
    rx := Store.drop ch s.link.rx, due := s.link.due.filter (fun x => x != l), phys := Store.drop ch s.link.phys, fwd := Store.drop ch s.link.fwd,
    stage := Store.drop ch s.link.stage, guarded := Store.drop ch s.link.guarded, sent := s.link.sent.filter (fun x => x.1 != l),
    seq := Store.drop one s.link.seq, echo := Store.drop one s.link.echo, arrived := Store.drop one s.link.arrived,
    rxOk := s.link.rxOk.filter (fun x => x != l), farStop := s.link.farStop.filter (fun x => x != l), good := Store.drop one s.link.good,
    crc := s.link.crc.filter (fun x => x.1 != l), away := Store.drop one s.link.away, upTurns := Store.drop one s.link.upTurns,
    left := Store.drop one s.link.left, retiring := s.link.retiring.filter (fun x => x.1 != l),
    wakeReq := s.link.wakeReq.filter (fun x => x != l), wakes := Store.drop one s.link.wakes, viol := Store.drop one s.link.viol,
    outbox := s.link.outbox.filter (fun x => x.1 != l) } }

/-- Everything a domain loses when it goes off. -/
def loseDomain (d : Nat) (s0 : State) : State :=
  let s := loseStores d s0
  if d = 1 then setSynth { State.reset.synth with use := s.synth.use } s
  else if d = 2 then
    let own : Initiator → Bool := fun w => match w with | .dma _ | .stroke _ => true | _ => false
    { s with sched := State.reset.sched, dma := State.reset.dma, timer := State.reset.timer, safe := State.reset.safe,
             link := { s.link with tun := none, tag := 0, reroute := [] },
             fab := { s.fab with held := s.fab.held.filter (fun e => !own e.1) } }
  else if d = 3 then { s with fab := State.reset.fab }
  else if d = 4 then { s with sect := State.reset.sect }
  else if d = 5 then { s with asrc := State.reset.asrc }
  else if d < 14 then loseHarts d (loseCluster d s)
  else if d < 18 then loseHarts d (loseCores d s)
  else if d < 26 then losePorts d s
  else loseLink d s

/-- What follows the restore of a domain's registers: enables act as their registers say (R404). -/
def afterRestore (d : Nat) (s : State) : State :=
  if d = 1 then setSynth { s.synth with use := stagedCfg s } s
  else if d = 2 then (List.range 8).foldl (fun t n => timerStart n t) s
  else if d = 5 then
    { s with asrc := ⟨(List.range 256).filter (fun n => s.bit .ASRC_CH_n_CFG n 31)⟩ }
  else if 6 ≤ d ∧ d < 14 then
    { s with eng := { s.eng with on := s.eng.on ++
      ((List.range 9).map (fun k => 9 * (d - 6) + k)).filter (fun pe => s.bit .ENG_CTRL pe 0 && !s.eng.on.contains pe) } }
  else if 18 ≤ d ∧ d < 26 then
    (List.range 8).foldl (fun t k => let p := 8 * (d - 18) + k
      if t.bit .SAP_CTRL p 0 then sapEnable p true t else t) s
  else if 26 ≤ d then (if linkEn s (d - 26) then linkEnable (d - 26) true s else s)
  else s

/-! The regulator (R410, R411). -/

def autostep (s : State) : Bool := s.bit .AON_REG 0 31
def fullMode (s : State) : Bool := s.bit .AON_REG 0 8

/-- WAKE_MODE of a link, from its save region while its domain is off (R299). DEDUCED: log entry 32. -/
def wakeMode (s : State) (l : Nat) : Bool :=
  if domainCode s (domLink l) = Dom.OFF then bitOf (getSlot s (saveBase (domLink l) + 4)) 4 else s.bit .LINK_CFG l 4

/-- The sum of the loads of R410 in units of 10 µA, with PWR_WAKE_EN as given and one more domain going down; the GPIO figure
is for sixteen pins and is taken in proportion, rounded up. DEDUCED: log entry 52. -/
def loadSum (s : State) (en : Word) (extra : Option Nat) (moving : Bool) : Nat :=
  let down (d : Nat) : Bool := domainDown s d || extra == some d
  let links := ((List.range 8).map (fun l => if down (domLink l) then (if wakeMode s l then 45 else 20) else 0)).foldl (· + ·) 0
  let ports := if bitOf en 28 then ((List.range 8).filter (fun g => down (18 + g))).length * 6 else 0
  let pins := ((List.range 16).filter (fun i => bitOf en i)).length
  90 + links + ports + (2 * pins + 15) / 16 + (if bitOf en 26 then 8 else 0) + b2n (s.bit .PWR_AON_TIMER_CTRL 0 0) +
    (if moving then 1800 else 0)

/-- A save or a restore is in progress: with AUTOSTEP it begins once the regulator is in full mode (R410). -/
def saving (s : State) : Bool :=
  (fullMode s || !autostep s) && (s.pwr.enter.any (fun e => e.2 == Dom.OFF) || s.pwr.wake.any (fun w => w.2))

def loadNow (s : State) : Nat := loadSum s (s.reg .PWR_WAKE_EN 0) none (saving s)

/-- A load needs full mode and the regulator is not in it: with AUTOSTEP the load waits and the change begins (R410). -/
def mustStep (s : State) (load : Nat) : Bool := autostep s && !fullMode s && decide (180 < load)
def stepUp (s : State) : State := setPwr { s.pwr with stepping := true } s

/-- AON_REG: MODE is ignored while AUTOSTEP is 1. Low-power mode is in force at once; full mode after the change (R410, R414). -/
def aonRegWrite (v : Word) (s : State) : State :=
  let was := autostep s
  let s := s.setBit .AON_REG 0 31 (bitOf v 31)
  if was || bitOf v 31 then s
  else if bitOf v 0 then (if fullMode s then s.setBit .AON_REG 0 0 true else stepUp (s.setBit .AON_REG 0 0 true))
  else setPwr { s.pwr with stepping := false } ((s.setBit .AON_REG 0 0 false).setBit .AON_REG 0 8 false)

/-- The level of pin i, whatever its function. DESIGN CHOICE: log entry 5. -/
def gpioLevel (s : State) (i : Nat) : Bool :=
  let ext := s.pins.gpio.toNat.testBit i
  match s.f .SYS_GPIO_CFG_i i 5 4 with
  | 1 => s.bit .SYS_GPIO_OUT 0 i
  | 2 => s.bit .SYS_GPIO_OUT 0 i && ext
  | _ => ext

/-- GPIO i at a level that its wake mode names (R406). -/
def gpioLevelWake (s : State) (i : Nat) : Bool :=
  let m := s.f .PWR_GPIO_WAKE_CFG 0 (2 * i + 1) (2 * i)
  (m == 2 && gpioLevel s i) || (m == 3 && !gpioLevel s i)

/-- The level sources that stand wake the domains of their maps, after a change of enables, modes or maps (R406). -/
def levelWakes (s : State) : State :=
  ((List.range 16).filter (fun i => s.bit .PWR_WAKE_EN 0 i && gpioLevelWake s i)).foldl (fun t i => fireSource i t) s

/-- PWR_WAKE_EN: an enable that would exceed the low-power budget waits for full mode (R410); a newer write takes the place of one that
waits. -/
def wakeEnWrite (v : Word) (s : State) : State :=
  let en := v &&& 0x1FFFFFFF
  if mustStep s (loadSum s en none (saving s)) then setPwr { s.pwr with waitEn := some en } (stepUp s)
  else levelWakes (setPwr { s.pwr with waitEn := none } (s.setReg .PWR_WAKE_EN 0 en))

/-- PWR_GPIO_WAKE_CFG and the wake maps. -/
def wakeCfgWrite (r : RegName) (i : Nat) (v : Word) (s : State) : State := levelWakes (plainWrite r i v s)

/-- The change to full mode is complete: what waited goes on. -/
def regulatorFull (s : State) : State :=
  if s.pwr.stepping then
    let s := (s.setBit .AON_REG 0 8 true).setBit .AON_REG 0 0 true
    let en := s.pwr.waitEn
    let s := setPwr { s.pwr with stepping := false, waitEn := none } s
    match en with
    | some v => levelWakes (s.setReg .PWR_WAKE_EN 0 v)
    | none => s
  else s

/-- Return to low-power mode after 1 ms within the budget. -/
def lowPowerReturn (s : State) : State :=
  if autostep s && fullMode s && !s.pwr.stepping && decide (loadNow s ≤ 180) then
    (s.setBit .AON_REG 0 8 false).setBit .AON_REG 0 0 false
  else s

/-- The load in force exceeds what the mode in force supplies: 40 mA or 2 mA (R410, R411). -/
def overload (s : State) : Bool := decide ((if fullMode s then 4000 else 200) < loadNow s)

/-! Wakes on demand (R403, R406). -/

/-- The wake source an initiator's access counts as: 26 for SPI, I²C and JTAG, else 29 (R406). DEDUCED: log entries 32, 53. -/
def accessSource : Initiator → Nat
  | .host m => if m.val = 3 then 29 else 26
  | _ => 29

/-- A host access wakes HUB and the domain it addresses, those of them that are not on, while source 26 is enabled (R403, R406). -/
def hostWake (who : Initiator) (d : Nat) (s : State) : State :=
  let ds := (if d = 2 then [2] else [2, d]).filter (fun x => !domainOn s x)
  if accessSource who == 26 && s.bit .PWR_WAKE_EN 0 26 && !ds.isEmpty then wakeDomains 26 ds s else s

/-- An access by another initiator to a domain that is not on wakes it on demand (R403, R406). -/
def demandWake (who : Initiator) (d : Nat) (s : State) : State :=
  if accessSource who = 26 then s else wakeDomains 29 [d] s

/-- An access to a cluster restarts its count of quiet decisions (R409). -/
def touch (d : Nat) (s : State) : State :=
  if 6 ≤ d ∧ d < 14 then setPwr { s.pwr with quiet := Store.set natZero s.pwr.quiet (d - 6) 0 } s else s

/-! Requests (R399 to R402). -/

def reqResult (s : State) : Nat := s.f .PWR_REQ_STAT 0 31 30
def setResult (n : Nat) (s : State) : State := s.setF .PWR_REQ_STAT 0 31 30 n
def reqMask (s : State) : List Nat :=
  (List.range 34).filter (fun d => d ≠ 0 && (if d < 32 then s.bit .PWR_REQ_MASK_LO 0 d else s.bit .PWR_REQ_MASK_HI 0 (d - 32)))

/-- The request is done: every named domain has reached its target (R400, R415). -/
def requestDone (s : State) : State := raise Ev.PWR_SLEEP_DONE (setResult 2 s)

/-- An access to a domain is in flight (R402): of a core, a host master, a DMA channel or another initiator, or in a lane memory. -/
def inFlight (s : State) (d : Nat) : Bool :=
  s.core.pend.any (fun l => domainAt l.addr == d) || s.core.wbuf.any (fun w => domainAt w.addr == d) ||
    s.eng.busq.any (fun x => domCluster x.pe == d) ||
    s.host.tx.any (fun x => x.cred && domainAt x.addr == d) || s.pwr.stalled.any (fun x => domainAt x.addr == d) ||
    s.dma.jobs.any (fun j => j.dir != 3 && dmaState s j.ch == Dma.RUN && domainAt (j.next s) == d) ||
    s.dma.failed.any (fun w => (w.stage == .again || w.stage == .left) && domainAt w.addr == d)

/-- The reason for which a domain refuses a vote, or 0 (R402). An access that came after GO is latched instead (R413). -/
def refusal (s : State) (v : Vote) (d : Nat) : Nat :=
  let own :=
    if d = 1 then (if synEn s then 1 else 0)
    else if d = 2 then
      if turnsOn s || (List.range 32).any (fun n => dmaState s n != Dma.OFF && dmaState s n != Dma.IDLE) ||
          !s.safe.strokes.isEmpty || !s.timer.on.isEmpty then 1
      else if (List.range 4).any (fun g => domainOn s (14 + g) && !v.voters.contains (14 + g)) then 5 else 0
    else if d = 3 then (if turnsOn s then 2 else 0)
    else if d = 4 then (if turnsOn s && (List.range 16).any (fun w => s.reg .SECTION_EN_w w != 0) then 2 else 0)
    else if d = 5 then (if (List.range 256).any (fun n => s.bit .ASRC_CH_n_CFG n 31) then 1 else 0)
    else if d < 14 then
      if s.eng.mig.any (fun m => m.cl + 6 == d) then 1
      else if turnsOn s && !s.bit .FABRIC_QUIET_STAT 0 (d - 6) then 2 else 0
    else if d < 18 then
      if (List.range 4).any (fun k => coreMode s (4 * (d - 14) + k) == 1 || (heldBy s (4 * (d - 14) + k)).isSome) then 1
      else if v.self = some d then 3 else 0
    else if d < 26 then
      if (List.range 8).any (fun k => let p := 8 * (d - 18) + k
        s.port.on.contains p && (s.f .SAP_CFG p 1 0 == 0 || sapState s p == 2 || sapState s p == 3)) then 1 else 0
    else if linkEn s (d - 26) && linkState s (d - 26) != Lk.SIGNAL && linkState s (d - 26) != Lk.RETIRED then 1 else 0
  if own ≠ 0 then own else if v.busy.contains d && inFlight s d then 4 else 0

/-- PWR_REQ_CTRL (R399 to R401). A refused GO changes nothing but CFG_ERR: TARGET stays as well. A request with target on that meets the
vote or the entry of another is latched for its domains (R405, R413), and so is a wake that fired in the cycle of GO. A voter that has
no reason to refuse stops at once, another goes on until the vote ends (R400). DEDUCED: log entry 53. -/
def pwrReq (who : Initiator) (v : Word) (s0 : State) : State :=
  let s := plainWrite .PWR_REQ_CTRL 0 v s0
  let target := s.f .PWR_REQ_CTRL 0 1 0
  let ds := reqMask s
  let busy := reqResult s == 1
  if !bitOf v 31 then s
  else if (busy && !(target == 3 && s.pwr.rising.isEmpty)) || ds.isEmpty || sysState s = St.HALT then cfgErr .PWR_REQ_CTRL 0 s0
  else if target = 3 then
    let left := ds.filter (fun d => !domainOn s d)
    let s := wakeDomains 30 ds s
    if busy then s
    else if left.isEmpty then requestDone s
    else setResult 1 (setPwr { s.pwr with rising := left } s)
  else
    let code := if target = 1 then Dom.RET else Dom.OFF
    let voters := ds.filter (fun d => domainOn s d)
    let others := if target = 2 then ds.filter (fun d => domainCode s d == Dom.RET) else []
    let grp := match who with | .core c => some (domCore c) | _ => none
    let met := (firedNow s).filter (fun x => voters.contains x.2)
    let flight := voters.filter (fun d => inFlight s d)
    let vote : Vote := ⟨code, voters, others, grp, flight, []⟩
    let keeps := voters.filter (fun d => refusal s vote d != 0)
    let s := ((voters ++ others).filter (fun d => !keeps.contains d)).foldl (fun t d => setDomainCode d Dom.MOVING t) s
    setResult 1 (setPwr { s.pwr with vote := some { vote with keeps := keeps }, latch := s.pwr.latch ++ met } s)

/-- The wakes latched for the domains of a vote that was refused find them on, and are recorded (R405). -/
def unlatch (ds : List Nat) (s : State) : State :=
  let mine := s.pwr.latch.filter (fun x => ds.contains x.2)
  let s := setPwr { s.pwr with latch := s.pwr.latch.filter (fun x => !ds.contains x.2) } s
  mine.foldl (fun t x => recordWake x.1 x.2 false t) s

/-- VOTE_COMPLETE (R400). DEDUCED: log entry 53. -/
def voteComplete (s : State) : State :=
  match s.pwr.vote with
  | none => s
  | some v =>
    match (v.voters.map (fun d => (d, refusal s v d))).find? (fun x => x.2 != 0) with
    | some (d, r) =>
      let s := v.voters.foldl (fun t d => setDomainCode d Dom.ON t) s
      let s := v.others.foldl (fun t d => setDomainCode d Dom.RET t) s
      let s := setPwr { s.pwr with vote := none } s
      let s := s.setReg .PWR_REFUSE 0 (BitVec.ofNat 32 (2 ^ 31 + d * 256 + r))
      let s := unlatch v.voters (raise Ev.PWR_SLEEP_REFUSED (setResult 3 s))
      -- a latched wake of a domain still in retention acts now
      let back := s.pwr.latch.filter (fun x => v.others.contains x.2)
      let s := setPwr { s.pwr with latch := s.pwr.latch.filter (fun x => !v.others.contains x.2) } s
      back.foldl (fun t x => wakeDomains x.1 [x.2] t) s
    | none =>
      let s := v.keeps.foldl (fun t d => setDomainCode d Dom.MOVING t) s
      let s := setPwr { s.pwr with vote := none, enter := (v.voters ++ v.others).map (fun d => (d, v.target)) } s
      if s.pwr.enter.isEmpty then requestDone s else s

/-- DOMAIN_ENTRY_DONE (R400, R405): with a save, or a detector that the budget does not cover, full mode comes first. DEDUCED: log entry 53. -/
def entryDone (d : Nat) (s : State) : State :=
  match s.pwr.enter.find? (fun e => e.1 == d) with
  | none => s
  | some (_, k) =>
    if mustStep s (loadSum s (s.reg .PWR_WAKE_EN 0) (some d) (k == Dom.OFF)) then stepUp s else
    let s := if k = Dom.OFF then loseDomain d (saveDomain d s) else s
    let s := setDomainCode d k (setPwr { s.pwr with enter := s.pwr.enter.filter (fun e => e.1 != d) } s)
    let s := if s.pwr.enter.isEmpty then requestDone s else s
    let level := (List.range 16).find? (fun i => s.bit .PWR_WAKE_EN 0 i && gpioLevelWake s i && (wakeMap s i).contains d)
    let mine := s.pwr.latch.filter (fun x => x.2 == d)
    let s := setPwr { s.pwr with latch := s.pwr.latch.filter (fun x => x.2 != d) } s
    match mine.head?, level with
    | some (src, _), _ => recordWake src d true (startWake d s)
    | none, some i => recordWake i d true (startWake d s)
    | none, none => s

/-- A domain that a request with target on names is on; with the last of them the request is done (R400). -/
def risen (d : Nat) (s : State) : State :=
  if s.pwr.rising.contains d then
    let s := setPwr { s.pwr with rising := s.pwr.rising.filter (fun x => x != d) } s
    if s.pwr.rising.isEmpty then requestDone s else s
  else s

/-- A waking domain becomes ready (R403, R404, R407): a restore needs full mode, and a double-bit error in it enters HALT. -/
def domainReadyStep (d : Nat) (s : State) : State :=
  match s.pwr.wake.find? (fun w => w.1 == d) with
  | none => s
  | some (_, off) =>
    if off && mustStep s (loadSum s (s.reg .PWR_WAKE_EN 0) none true) then stepUp s else
    let s := setPwr { s.pwr with wake := s.pwr.wake.filter (fun w => w.1 != d) } s
    let s := risen d (touch d (setDomainCode d Dom.ON s))
    if off then
      if saveBroken s d then haltEnter 6 s
      else afterRestore d (restoreItems 0xF000C800 (saveAltList d) (restoreItems (saveBase d) (saveList d) s))
    else s

/-! The always-on timer. -/

/-- AON_TIMER_EXPIRE: source 24 (R406). -/
def aonTimerExpire (s : State) : State :=
  if s.bit .PWR_AON_TIMER_CTRL 0 0 then
    let s := if s.bit .PWR_AON_TIMER_CTRL 0 1 then s.setBit .PWR_AON_TIMER_CTRL 0 0 false else s
    fireSource 24 s
  else s

/-! Automatic retention (R408, R409). -/

/-- W of R408. -/
def wakeClk (s : State) : Nat := if s.bit .SYS_TURN_CFG 0 4 then 1084 else 1180

/-- The margin condition of a cluster. -/
def marginOk (s : State) (c : Nat) : Bool :=
  (List.range 9).all (fun k => let pe := 9 * c + k
    !s.bit .ENG_CTRL pe 0 || (decide (progLen s pe 0 + 128 + wakeClk s ≤ turnLen s) && decide (progLen s pe 1 + 128 + wakeClk s ≤ turnLen s)))

/-- PWR_AUTO_RET. -/
def autoRetWrite (v : Word) (s : State) : State :=
  let ok := (List.range 8).filter (fun c => bitOf v c && marginOk s c)
  let bad := (List.range 8).any (fun c => bitOf v c && !marginOk s c)
  let s := s.setReg .PWR_AUTO_RET 0 (BitVec.ofNat 32 ((ok.map (fun c => 2 ^ c)).foldl (· + ·) 0))
  if bad then s.setBit .PWR_FAULT 0 0 true else s

/-- The evaluation at the cut (R408). -/
def autoRetCut (s : State) : State :=
  (List.range 8).foldl (fun t c =>
    if t.bit .PWR_AUTO_RET 0 c && !marginOk t c then
      let t := t.setBit .PWR_AUTO_RET 0 c false
      let t := flagEv .PWR_FAULT 0 1 Ev.PWR_AUTO_RET_DROP t
      if domainCode t (6 + c) = Dom.RET then wakeDomains 31 [6 + c] t else t
    else t) s

/-- What a quiescence decision means for automatic retention (R409): was tells whether the cluster was quiescent before it,
loud whether the decision found it loud. DEDUCED: log entry 54. -/
def autoRetDecision (c : Nat) (was loud : Bool) (s : State) : State :=
  if s.bit .FABRIC_QUIET_STAT 0 c then
    if was then setPwr { s.pwr with quiet := Store.set natZero s.pwr.quiet c (Store.get natZero s.pwr.quiet c + 1) } s else s
  else
    let s := setPwr { s.pwr with quiet := Store.set natZero s.pwr.quiet c 0 } s
    if (was || loud) && (domainDown s (6 + c) || inRequest s (6 + c)) then wakeDomains 31 [6 + c] s else s

/-- AUTO_RETENTION_ENTRY: the decision after PWR_AUTO_RET_DELAY quiet decisions without an access. DEDUCED: log entry 54. -/
def autoRetEnter (c : Nat) (s : State) : State :=
  if s.bit .PWR_AUTO_RET 0 c && domainOn s (6 + c) && s.bit .FABRIC_QUIET_STAT 0 c && !inFlight s (6 + c) &&
      decide (s.f .PWR_AUTO_RET_DELAY 0 15 0 < Store.get natZero s.pwr.quiet c) then
    setDomainCode (6 + c) Dom.RET s
  else s

/-- PWR_STATE_w as a read gives it: a voter that goes on until its vote ends reads as voting (R400, R414). -/
def pwrStateRead (s : State) (w : Nat) : Word :=
  match s.pwr.vote with
  | some v => (v.keeps.filter (fun d => d / 16 == w)).foldl
      (fun x d => setFld x (2 * (d % 16) + 1) (2 * (d % 16)) Dom.MOVING) (s.reg .PWR_STATE_w w)
  | none => s.reg .PWR_STATE_w w

/-- The wakes that an access to a domain asks for: of a host master HUB's as well; one of a domain in a vote that still works is latched
(R403, R405, R406). -/
def accessWake (who : Initiator) (d : Nat) (s : State) : State :=
  let s := hostWake who d s
  if domainOn s d && inRequest s d then demandWake who d s else s

/-- AON_REG as a read gives it: LOAD is the sum in force, 0.90 mA right after reset too, where the table's Reset column says 0 (R410, R414).
LOAD has 10 bits; the spec gives no value for a sum they do not hold, so it is then free. DEDUCED: log entry 52. -/
def aonRegRead (s : State) : Word × State :=
  let n := loadNow s
  if n < 1024 then (setFld (s.reg .AON_REG 0) 25 16 n, s)
  else let (x, s) := draw s; (setFld (s.reg .AON_REG 0) 25 16 x, s)

end Sys2Proof.Machine
end

