-- ==== Sys2Proof/Machine/SectUnit.lean ====
section
/-! DEFINITION. The equaliser section bank (08_section_bank.md): section memory, the arithmetic of a section, the run, the check
of a chain and the budget of a decision. -/

namespace Sys2Proof.Machine

/-- Active side of a chain, its enable in effect, its mute (R252). -/
def chainSide (s : State) (c : Nat) : Nat := b2n (s.bit .SECTION_ACT_w (c / 32) (c % 32))
def chainMuted (s : State) (c : Nat) : Bool := s.bit .SECTION_MUTE_w (c / 32) (c % 32)

/-- Word 1 of a descriptor. -/
def activeW1 (s : State) (c : Nat) : Word := getSlot s (activeAddr c 1)
def stagedW1 (s : State) (c : Nat) : Word := getSlot s (stagedAddr c 1)
def nsecOf (w : Word) : Nat := fld w 6 0
def finishOf (w : Word) : Bool := bitOf w 16

/-- The flags that count an ignored write and a double-bit error (R253). -/
def sectAwr (s : State) : State := flagEv .SECTION_FAULT 0 2 Ev.SECTION_AWR s
def sectDed (s : State) : State := flagEv .SECTION_FAULT 0 4 Ev.SECTION_DED s
def sectSded (s : State) : State := s.setBit .SECTION_FAULT 0 3 true

/-- A single-bit error at an address is corrected, written back and counted (R251). -/
def sectCorrect (a : Nat) (s : State) : State :=
  if upsetOf s a = 1 then count24 .SECTION_ECC_CORR 0 none (setUpset s a 0) else s

/-- The state words of a chain's sections from section i up are zeroed. -/
def zeroSections (c i : Nat) (s : State) : State := zeroSlots (stateAddr c + 32 * i) (32 * (64 - i)) s

/-! Enables and clears (R237, R249, R250). -/

/-- The enable of a chain changes effect: an enable starts from zero state, a disable discards the outputs. -/
def chainEnable (c : Nat) (on : Bool) (s : State) : State :=
  let was := chainEn s c
  let s := s.setBit .SECTION_EN_w (c / 32) (c % 32) on
  let s := setSlot s (activeAddr c 0) (putBit (getSlot s (activeAddr c 0)) 0 on)
  if on && !was then zeroSections c 0 s
  else if !on && was then
    setSect { s.sect with chainRun := Store.set zeroOf s.sect.chainRun c 0, chainOut := Store.set zeroOf s.sect.chainOut c 0 } s
  else s

/-- SECTION_CLR (R250): of one chain or of all, at the coming boundary while turns run, at once while they are stopped. -/
def sectClr (v : Word) (s : State) : State :=
  if bitOf v 31 then
    if turnsOn s then later (if bitOf v 16 then .chainZeroAll else .chainZero (fld v 8 0)) s
    else if bitOf v 16 then (List.range 512).foldl (fun t c => zeroSections c 0 t) s
    else zeroSections (fld v 8 0) 0 s
  else s

/-- At the boundary of a SECTION_CLR the chains it names that are disabled have zero state at that moment; those whose last run may
still be in progress are cleared before the next one (R249, R250). -/
def clearDisabled (acts : List PendAct) (s : State) : List PendAct × State :=
  let named (a : PendAct) : List Nat := match a with
    | .chainZero c => [c]
    | .chainZeroAll => List.range 512
    | _ => []
  let cs := acts.flatMap named
  (acts.filter (fun a => (named a).isEmpty) ++ (cs.filter (fun c => chainEn s c)).map (fun c => .chainZero c),
   (cs.filter (fun c => !chainEn s c)).foldl (fun t c => zeroSections c 0 t) s)

/-- The outputs of a chain whose disable takes effect read zero from this boundary (R249). -/
def muteDisabled (acts : List PendAct) (s : State) : State :=
  acts.foldl (fun t a => match a with
    | .chainEn c false => setSect { t.sect with chainOut := Store.set zeroOf t.sect.chainOut c 0 } t
    | _ => t) s

/-! The arithmetic of one section (R239). -/

/-- What a section evaluation gives. -/
structure SecOut where
  y : Int
  e : Int
  out : Int
  ssat : Bool
  osat : Bool
deriving DecidableEq, Repr

/-- One section evaluation: b and a are its coefficients, x its inputs, y its two earlier results, e1 its earlier error. -/
def secEval (b0 b1 b2 a1 a2 : Int) (x0 x1 x2 y1 y2 e1 : Int) (nsh : Nat) (ef fin : Bool) : SecOut :=
  let num := sar ((b0 * x0 + b1 * x1 + b2 * x2) * 8) nsh
  let den := sar (a1 * y1 + a2 * y2) 2
  let acc := num - den + (if ef then e1 else 0)
  let t := sar acc 28
  let (y, e, ss) := if maxS 32 < t then (maxS 32, 0, true) else if t < minS 32 then (minS 32, 0, true)
                    else (t, acc - t * 2 ^ 28, false)
  let r := if fin then y + 16 else y
  let o := sar r 5
  { y := y, e := e, out := satI 24 o, ssat := ss, osat := decide (satI 24 o ≠ o) }

/-- A stored word of a section as a signed 32-bit number. -/
def sectInt (s : State) (a : Nat) : Int := (getSlot s a).toInt

/-- Whether any of a section's n words from address a holds an error of the kind k. -/
def anyUpset (s : State) (a n k : Nat) : Bool := (List.range n).any (fun j => upsetOf s (a + 4 * j) == k)

/-- A counted saturation (R239): SSAT bit 1, OSAT bit 0. The event of SECTION_SAT is raised when the matching bit first
changes from zero (R253). -/
def sectSat (bit : Nat) (s : State) : State := flagEv .SECTION_FAULT 0 bit Ev.SECTION_SAT (count24 .SECTION_SAT_CNT 0 none s)

/-- Section i of chain c evaluated on x0: the output, whether the chain must output zero, and the state after (R239, R251). -/
def runSection (c i : Nat) (x0 : Int) (s : State) : Int × Bool × State :=
  let k := coefAddr (chainSide s c) c + 32 * i
  let t := stateAddr c + 32 * i
  if anyUpset s t 5 2 then
    (0, true, sectDed ((List.range 5).foldl (fun u j => setSlot u (t + 4 * j) 0) s))
  else
    let s := (List.range 5).foldl (fun u j => sectCorrect (t + 4 * j) (sectCorrect (k + 4 * j) u)) s
    let d := getSlot s (activeAddr c (2 + i / 4))
    let ef := bitOf d (8 * (i % 4) + 4)
    let nsh := fld d (8 * (i % 4) + 3) (8 * (i % 4))
    let w1 := activeW1 s c
    let fin := finishOf w1 && decide (i + 1 = nsecOf w1)
    let r := secEval (sectInt s k) (sectInt s (k + 4)) (sectInt s (k + 8)) (sectInt s (k + 12)) (sectInt s (k + 16))
      x0 (sectInt s t) (sectInt s (t + 4)) (sectInt s (t + 8)) (sectInt s (t + 12)) (sectInt s (t + 16)) nsh ef fin
    let x1 := getSlot s t
    let y1 := getSlot s (t + 8)
    let s := setSlot s (t + 4) x1
    let s := setSlot s t (BitVec.ofInt 32 x0)
    let s := setSlot s (t + 12) y1
    let s := setSlot s (t + 8) (BitVec.ofInt 32 r.y)
    let s := setSlot s (t + 16) (BitVec.ofInt 32 r.e)
    let s := if r.ssat then sectSat 1 s else s
    let s := if r.osat then sectSat 0 s else s
    (r.out, false, s)

/-- Sections i, i + 1, ... (n of them) of a chain in series. -/
def runSections (c : Nat) : Nat → Nat → Int → Bool → State → Int × Bool × State
  | 0, _, x, z, s => (x, z, s)
  | n + 1, i, x, z, s =>
    let (y, bad, s) := runSection c i x s
    runSections c n (i + 1) y (z || bad) s

/-- A chain is muted until its group next flips (R251, R253). -/
def muteChain (c : Nat) (s : State) : State :=
  raise Ev.SECTION_MUTED (sectDed ((s.setBit .SECTION_MUTE_w (c / 32) (c % 32) true).setBit .SECTION_FAULT 0 5 true))

/-- The words of the active descriptor that a run of n sections reads: single-bit errors are corrected (R251). -/
def correctActive (c n : Nat) (s : State) : State :=
  (List.range (1 + (n + 3) / 4)).foldl (fun t j => sectCorrect (activeAddr c (1 + j)) t) s

/-- The run of one chain (R232, R243, R251); a double-bit error in its active descriptor leaves the word as it is stored. DESIGN CHOICE: log
entry 99. -/
def runChain (c : Nat) (s : State) : State :=
  let out (v : Int) (s : State) : State := setSect { s.sect with chainRun := Store.set zeroOf s.sect.chainRun c (toSample v) } s
  if !chainEn s c || chainMuted s c then out 0 s else
  let n := nsecOf (activeW1 s c)
  let s := correctActive c n s
  if n = 0 then out 0 s else
  let k := coefAddr (chainSide s c) c
  if (List.range n).any (fun i => anyUpset s (k + 32 * i) 5 2) then out 0 (muteChain c s) else
  let (y, zero, s) := runSections c n 0 (ofSample (Store.get zeroOf s.sect.chainIn c)) false s
  out (if zero then 0 else y) s

/-- The section run of a turn (R243). -/
def sectionRun (s : State) : State :=
  if turnsOn s then ((List.range 512).filter (fun c => chainEn s c)).foldl (fun t c => runChain c t) s else s

/-- Chain outputs of the run that has ended become readable (R54). -/
def sectSwap (s : State) : State := setSect { s.sect with chainOut := s.sect.chainRun } s

/-! The check and the budget (R231, R247). -/

/-- SECTION_CHK with a state, a reason and a chain. -/
def setSectChk (st reason c : Nat) (s : State) : State :=
  s.setReg .SECTION_CHK 0 (BitVec.ofNat 32 (st * 2 ^ 30 + reason * 2 ^ 24 + c))

/-- Whether the staged part of a chain holds a nonzero reserved bit (R237). -/
def stagedReserved (s : State) (c : Nat) : Bool :=
  stagedW1 s c &&& 0xFFFEFF80 != 0 || (List.range 16).any (fun j => getSlot s (stagedAddr c (2 + j)) &&& 0xE0E0E0E0 != 0)

/-- Whether the check of a chain finds the condition of REASON r, 1 to 3 (R247). -/
def chainFails (s : State) (c r : Nat) : Bool :=
  match r with
  | 1 => stagedReserved s c
  | 2 => decide (64 < nsecOf (stagedW1 s c))
  | _ => anyUpset s (stagedAddr c 1) 17 2

/-- The first reason for which the check of a chain refuses it; 0 is a pass (R247). -/
def chainReason (s : State) (c : Nat) : Nat := ([1, 2, 3].find? (fun r => chainFails s c r)).getD 0

/-- The first condition of R247's first three that holds of some chain of l, and the lowest of those chains. -/
def chainsBad (s : State) (l : List Nat) : Option (Nat × Nat) :=
  [1, 2, 3].findSome? (fun r => (l.find? (fun c => chainFails s c r)).map (fun c => (r, c)))

/-- The check reads a staged part: single-bit errors are corrected and counted (R251). -/
def correctStaged (c : Nat) (s : State) : State := (List.range 17).foldl (fun t j => sectCorrect (stagedAddr c (1 + j)) t) s

/-- A write to a staged part starts the check of its chain. -/
def startChainCheck (c : Nat) (s : State) : State :=
  setSectChk 1 0 c (setSect { s.sect with chkRun := c :: s.sect.chkRun.filter (fun x => x != c) } s)

/-- The check of a chain ends (R247): single-bit errors it read are corrected, a double-bit error sets SDED. -/
def chainCheckDone (c : Nat) (s : State) : State :=
  if s.sect.chkRun.contains c then
    let r := chainReason s c
    let s := correctStaged c s
    let s := if anyUpset s (stagedAddr c 1) 17 2 then sectSded s else s
    let s := setSect { s.sect with chkRun := s.sect.chkRun.filter (fun x => x != c), bad := Store.set natZero s.sect.bad c r } s
    setSectChk (if r = 0 then 2 else 3) r c s
  else s

/-- Total NSEC and the number of FINISH chains, counted from the staged part for the chains in l and from the active copy for
all others (R231, R247). -/
def sectLoad (s : State) (l : List Nat) : Nat × Nat :=
  (List.range 512).foldl (fun (n, f) c =>
    let w := if l.contains c then stagedW1 s c else activeW1 s c
    (n + nsecOf w, f + b2n (finishOf w))) (0, 0)

/-- Sections a turn may hold at the current rate (R231). -/
def sectBudget (s : State) : Nat := 4 * turnLen s

/-- The reason for which a decision refuses the chains l of a request, when the chains acc are already accepted at it; 0 is a
pass. The chain reported is the lowest of l. -/
def chainsReason (s : State) (acc l : List Nat) : Nat × Nat :=
  match chainsBad s l with
  | some r => r
  | none =>
    let (n, f) := sectLoad s (acc ++ l)
    let c := l.foldl min 511
    if sectBudget s < n then (4, c) else if 64 < f then (5, c) else (0, c)

/-- The section-side flip of a chain (R238, R249, R251). -/
def flipChain (c : Nat) (s : State) : State :=
  let old := nsecOf (activeW1 s c)
  let s := s.setBit .SECTION_ACT_w (c / 32) (c % 32) (chainSide s c == 0)
  let s := (List.range 17).foldl (fun t j => setSlot t (activeAddr c (1 + j)) (getSlot t (stagedAddr c (1 + j)))) s
  let s := s.setBit .SECTION_MUTE_w (c / 32) (c % 32) false
  zeroSlots (stateAddr c + 32 * old) (32 * (min 64 (nsecOf (activeW1 s c)) - old)) s

/-- GROUP of every chain as a decision reads it (R237): word 0 of the active copy. -/
def readGroups (s : State) : State :=
  (List.range 512).foldl (fun t c =>
    let g := setFld (getSlot t (activeAddr c 0)) 7 4 (fld (getSlot t (stagedAddr c 0)) 7 4)
    if g = getSlot t (activeAddr c 0) then t else setSlot t (activeAddr c 0) g) s

/-! Bus accesses to section memory (R233 to R237, R248, R251). -/

/-- A write of word w (1 to 17) of a staged part lands. -/
def stagedLand (c w : Nat) (v : Word) (s : State) : State := startChainCheck c (setSlot s (stagedAddr c w) v)

/-- A write of a descriptor word 1 to 17 (R247, R248). -/
def descriptorWrite (c w : Nat) (v : Word) (s : State) : State :=
  if s.sect.holdChains.contains c then setSect { s.sect with held := s.sect.held ++ [(stagedAddr c w, v)] } s
  else stagedLand c w v s

/-- Held writes are released after the section-side flip (R248). -/
def releaseStaged (s : State) : State :=
  let l := s.sect.held
  let s := setSect { s.sect with held := [], holdChains := [] } s
  l.foldl (fun t e => stagedLand ((e.1 - 0x38300000) / 128) ((e.1 - 0x38300000) % 128 / 4) e.2 t) s

/-- A write of descriptor word 0 (R237): GROUP and EN. -/
def chainCtrlWrite (c : Nat) (v : Word) (s : State) : State :=
  let old := getSlot s (stagedAddr c 0)
  let s := setSlot s (stagedAddr c 0) (v &&& 0xF1)
  let s := regrouped (fld old 7 4) (fld v 7 4) s
  if turnsOn s then later (.chainEn c (bitOf v 0)) s else chainEnable c (bitOf v 0) s

/-- A write of a coefficient word (R235). -/
def coefWrite (a : Nat) (v : Word) (s : State) : State :=
  let side := (a - 0x38000000) / 0x100000
  let c := (a - 0x38000000) % 0x100000 / 2048
  if 5 ≤ a % 32 / 4 then s
  else if side = chainSide s c then sectAwr s
  else shadowWritten (groupOf s (.chain c)) a (setSlot s a v)

/-- A write of a state word (R234, R236). -/
def sectStateWrite (a : Nat) (v : Word) (s : State) : State :=
  let c := (a - 0x38200000) / 2048
  let k := a % 32 / 4
  if 5 ≤ k then s
  else if chainEn s c then sectAwr s
  else setSlot s a (if k < 2 then slot24 v.toNat else if k = 4 then v &&& 0x0FFFFFFF else v)

/-- A bus write to section memory. -/
def sectBusWrite (a : Nat) (v : Word) (s : State) : State :=
  if a < 0x38200000 then coefWrite a v s
  else if a < 0x38300000 then sectStateWrite a v s
  else if a < 0x38310000 then
    let c := (a - 0x38300000) / 128
    let w := (a - 0x38300000) % 128 / 4
    if w = 0 then chainCtrlWrite c v s else if w < 18 then descriptorWrite c w v s else s
  else sectAwr s

/-- A bus read of section memory; none is a bus error (R251), also for an active descriptor word. DESIGN CHOICE: log entry 99. -/
def sectBusRead (a : Nat) (s : State) : Option Word × State :=
  if upsetOf s a = 2 then
    let active := decide (a < 0x38200000) && (a - 0x38000000) / 0x100000 == chainSide s ((a - 0x38000000) % 0x100000 / 2048)
    let state := decide (0x38200000 ≤ a) && decide (a < 0x38300000)
    (none, if active || state then sectDed s else sectSded s)
  else (some (getSlot s a), sectCorrect a s)

/-- SECTION_LOAD and SECTION_STAGED_LOAD; FINISH counts modulo 128. DESIGN CHOICE: log entry 99. -/
def sectionLoadReg (s : State) (staged : Bool) : Word :=
  let (n, f) := sectLoad s (if staged then List.range 512 else [])
  BitVec.ofNat 32 ((f % 128) * 65536 + n % 65536)

end Sys2Proof.Machine
end

