-- ==== Sys2Proof/Machine/SafeUnit.lean ====
section
/-! DEFINITION. Safe-load (06_safe_load.md): commit requests and their decision, flips, mirrors, and the state of the stroke
channels. -/

namespace Sys2Proof.Machine

/-- The groups named by a 16-bit mask. -/
def maskGroups (m : Nat) : List Nat := (List.range 16).filter (fun g => m.testBit g)

/-- Bits of a list of groups, shifted to a field. -/
def setBits (r : RegName) (i lo : Nat) (b : Bool) (l : List Nat) (s : State) : State := l.foldl (fun t g => t.setBit r i (lo + g) b) s

/-! Requests (R182). -/

def union (a b : List Nat) : List Nat := a ++ b.filter (fun x => !a.contains x)

/-- A request joins the pending ones: it merges with every one that names a group of it, in the place of the earliest. -/
def mergeReq (q : SafeReq) : List SafeReq → List SafeReq
  | [] => [q]
  | r :: t =>
    if r.groups.any (fun g => q.groups.contains g) then
      let merged : SafeReq := ⟨union r.groups q.groups, union r.strokes q.strokes⟩
      let (hit, rest) := t.partition (fun x => x.groups.any (fun g => merged.groups.contains g))
      hit.foldl (fun m x => ⟨union m.groups x.groups, union m.strokes x.strokes⟩) merged :: rest
    else r :: mergeReq q t

/-- A commit of groups is requested (R182). -/
def request (groups strokes : List Nat) (s : State) : State :=
  if groups.isEmpty then s
  else setBits .SAFE_PENDING 0 0 true groups (setSafe { s.safe with reqs := mergeReq ⟨groups, strokes⟩ s.safe.reqs } s)

/-! Conditions and refusals (R155, R183). -/

/-- The check result of the shadow program of a logical engine: 01 running, 11 refused. -/
def progChkState (s : State) (e : Nat) : Nat := fld (engProgChk s (physOf s e)) 31 30

/-- Whether a member's check is running. -/
def memberBusy (s : State) : Member → Bool
  | .prog e => progChkState s e == 1
  | .chain c => s.sect.chkRun.contains c
  | .route => s.fab.chkRun.contains (1 - routeAct s)
  | _ => false

/-- Whether the check of a member has refused it, the chains apart (R155, R216). -/
def memberRefused (s : State) : Member → Bool
  | .prog e => progChkState s e == 3
  | .route => fld (fabricChk s) 31 30 == 3
  | _ => false

/-- The members of a request. -/
def reqMembers (s : State) (q : SafeReq) : List Member := allMembers.filter (fun m => q.groups.contains (groupOf s m))

def memberChains (l : List Member) : List Nat := l.filterMap (fun m => match m with | .chain c => some c | _ => none)
def memberProgs (l : List Member) : List Nat := l.filterMap (fun m => match m with | .prog e => some e | _ => none)

/-- What a decision says of a request. -/
inductive Verdict where
  | flip
  | wait
  | refuse
deriving DecidableEq, Repr

/-- The chain refusal of a request: of a completed check of the first three reasons, or of the count; acc are the chains
already accepted at this decision (R183, R247). -/
def chainVerdict (s : State) (acc : List Nat) (l : List Member) : Nat × Nat :=
  let cs := memberChains l
  match chainsBad s (cs.filter (fun c => !s.sect.chkRun.contains c)) with
  | some r => r
  | none => if cs.isEmpty then (0, 0) else chainsReason s acc cs

/-- The verdict on a request. A refusal does not wait for checks that still run (R183); the budget is counted once no check of
the request's chains is running. -/
def verdict (s : State) (acc : List Nat) (q : SafeReq) : Verdict :=
  let l := reqMembers s q
  let busy := l.any (memberBusy s) || q.groups.any (fun g => s.bit .SAFE_MIRROR_BUSY 0 g)
  let bad := (memberChains l).any (fun c => !s.sect.chkRun.contains c && chainReason s c != 0)
  if l.any (memberRefused s) || bad then .refuse
  else if busy then .wait
  else if (chainVerdict s acc l).1 ≠ 0 then .refuse
  else .flip

/-- A refused request: REJECT for its groups, PROG_REJECT for its refused programs, SECTION_CHK for the first chain refusal of
the decision (R155, R183, R247). Its stroke channels halt (R195). -/
def refuseReq (acc : List Nat) (first : Bool) (q : SafeReq) (s : State) : State :=
  let l := reqMembers s q
  let (r, c) := chainVerdict s acc l
  let s := if r ≠ 0 ∧ first then setSectChk 3 r c s else s
  let s := ((memberProgs l).filter (fun e => progChkState s e == 3)).foldl (fun t e =>
    raise Ev.PROG_REJECT (t.setBit .ENG_FAULT (physOf t e) 5 true)) s
  let s := setBits .SAFE_DONE 0 16 true q.groups (setBits .SAFE_PENDING 0 0 false q.groups s)
  raise Ev.SAFE_REJECT s

/-! Strokes: the end of a step (R193 to R198). -/

def strokeOf (s : State) (n : Nat) : Option Stroke := s.safe.strokes.find? (fun k => k.ch == n)
def setStroke (k : Stroke) (s : State) : State :=
  setSafe { s.safe with strokes := s.safe.strokes.map (fun x => if x.ch = k.ch then k else x) } s

/-- A channel no longer runs: its STATE, its RUN bit. -/
def endStroke (n st : Nat) (s : State) : State :=
  let s := setSafe { s.safe with strokes := s.safe.strokes.filter (fun k => k.ch != n) } s
  (s.setF .SAFE_STROKE_n_STAT n 31 30 st).setBit .SAFE_STATUS 0 n false

/-- A channel halts (R195). -/
def haltStroke (n err : Nat) (addr : Nat) (s : State) : State :=
  let s := (s.setReg .SAFE_STROKE_n_ERRADDR n (BitVec.ofNat 32 addr)).setF .SAFE_STROKE_n_STAT n 29 26 err
  raise Ev.STROKE_ERR (endStroke n 3 s)

/-- LATE counts a step that moves; LATE_STEP is raised when it first changes from zero after START (R194, R200). -/
def countLate (n : Nat) (s : State) : State := count .SAFE_STROKE_n_STAT n 23 22 16 (some Ev.LATE_STEP) s

/-- The step in hand moves, and with it every later one (R194). -/
def lateStep (k : Stroke) (s : State) : State :=
  if k.late then s else setStroke { k with late := true, moved := true } (countLate k.ch s)

/-! Mirrors (R188, R189, R198). -/

/-- The last step of a channel has taken effect. -/
def Stroke.done (k : Stroke) : Bool := k.fin && k.step + 1 == k.steps

/-- A mirror of group g starts, unless a running channel has the group (R198); it copies the members that the group then has. DESIGN CHOICE:
log entry 99. -/
def startMirror (g : Nat) (s : State) : State :=
  if !s.safe.strokes.any (fun k => k.groups.testBit g && !k.done) then
    let m : Mirror := ⟨g, membersOf s g, false, []⟩
    (setSafe { s.safe with mirrors := s.safe.mirrors.filter (fun x => x.group != g) ++ [m] } s).setBit .SAFE_MIRROR_BUSY 0 g true
  else s

/-- A channel whose step in hand has taken effect ends; after its last step its groups are mirrored (R196, R198). -/
def finishStroke (k : Stroke) (s : State) : State :=
  let s := endStroke k.ch 0 s
  if k.step + 1 = k.steps then
    (maskGroups k.groups).foldl (fun t g =>
      if t.bit .SAFE_MIRROR_BUSY 0 g || !t.bit .SAFE_MIRROR_EN 0 g then t else startMirror g t) (raise Ev.STROKE_DONE s)
  else s

def sectionSide : Member → Bool
  | .chain _ => true
  | _ => false

/-- Whether a mirror cannot read a word: the active one, and of a section also the shadow one (R188, R251). -/
def mirrorBad (s : State) (m : Mirror) (x : Member) (src dst : Nat) : Bool :=
  (match x with | .route => checkedWith src | _ => [src]).any (fun a => upsetOf s a == 2) || (sectionSide x && !m.kept.contains dst && upsetOf s dst == 2)

/-- Lane and word of a lane-memory address. -/
def shadowLane (a : Nat) : Nat := (a - 0x20000000) % 0x40000 / 0x10000
def shadowWord (a : Nat) : Nat := (a - 0x20000000) % 0x10000 / 4

/-- One word of a mirror's copy from address src to address dst: a shadow word written since stays where the copy does not
reach it; an unreadable word is written as zero (R188). A lane word is written as every write of a lane is (R169). -/
def mirrorWord (m : Mirror) (x : Member) (src dst : Nat) (s : State) : State :=
  if m.kept.contains dst then s
  else
    let v := if mirrorBad s m x src dst then 0 else getSlot s src
    match x with
    | .palette e => writeLane (physOf s e) (shadowLane dst) (shadowWord dst) v.toNat s
    | _ => setSlot s dst v

/-- The word pairs, source and shadow, of a member's mirror (R188); a retired engine has no memory to copy (R175). -/
def mirrorPairs (s : State) : Member → List (Nat × Nat)
  | .palette e =>
    let pe := physOf s e
    let D := dWords s pe
    let P := pWords s pe
    let (a, b) := if s.bit .ENG_STATUS pe 3 then (D + P, D) else (D, D + P)
    if engRetired s pe then []
    else (List.range 4).flatMap (fun L => (List.range P).map (fun w => (laneAddr pe L (a + w), laneAddr pe L (b + w))))
  | .chain c =>
    (List.range 64).flatMap (fun i => (List.range 5).map (fun k =>
      (coefAddr (chainSide s c) c + 32 * i + 4 * k, coefAddr (1 - chainSide s c) c + 32 * i + 4 * k)))
  | .gain => (List.range 4096).map (fun j => (gainAddr (gainAct s) j, gainAddr (1 - gainAct s) j))
  | .route => (List.range 131072).map (fun j => (routeAddr (routeAct s) 0 + 4 * j, routeAddr (1 - routeAct s) 0 + 4 * j))
  | .prog _ => []

/-- What the reads of a mirror find in a member: corrections and double-bit errors (R164, R167, R188, R219, R251). -/
def mirrorReads (m : Member) (src : Nat) (s : State) : State :=
  match m with
  | .palette e =>
    let pe := physOf s e
    let L := shadowLane src
    let w := shadowWord src
    if upsetOf s src = 2 then doubleBitFault pe L w s else if upsetOf s src = 1 then correctLane pe L w s else s
  | .chain c =>
    if upsetOf s src ≠ 2 then sectCorrect src s
    else if chainMuted s c then sectDed (s.setBit .SECTION_FAULT 0 5 true)
    else muteChain c s
  | .gain | .route => if upsetOf s src = 2 then haltEnter 3 s else fabCorrect src s
  | .prog _ => s

/-- A member is mirrored: the flag says whether every word could be read; of a section the mirror reads the shadow words as well (R251).
A shadow route word that the copy no longer reaches is judged with the words copied (R215, R217). -/
def mirrorMember (m : Mirror) (x : Member) (s : State) : Bool × State :=
  let ps := mirrorPairs s x
  let ok := !ps.any (fun p => mirrorBad s m x p.1 p.2)
  let marked := ps.filter (fun p => upsetOf s p.1 != 0)
  let shadow := (ps.map (fun p => p.2)).filter (fun a => sectionSide x && !m.kept.contains a && upsetOf s a != 0)
  let s0 := shadow.foldl (fun t a => if upsetOf t a = 2 then sectSded t else sectCorrect a t) s
  let s1 := ps.foldl (fun t p => mirrorWord m x p.1 p.2 t) s0
  let s2 := marked.foldl (fun t p => mirrorReads x p.1 t) s1
  match x with
  | .route =>
    let act := routeAct s
    let s3 := setRouteChk (1 - act) (Store.get chkReset s.fab.chk act) (Store.get natZero s.fab.split act)
      (s2.setReg (bankLenReg (1 - act)) 0 (s.reg (bankLenReg act) 0))
    (ok, if m.kept.any (fun a => bankAt a == some (1 - act)) then judgeRoute (1 - act) s3 else s3)
  | _ => (ok, s2)

/-- A mirror completes (R188, R189). DEDUCED: log entry 57. -/
def mirrorComplete (g : Nat) (s : State) : State :=
  match s.safe.mirrors.find? (fun m => m.group == g) with
  | none => s
  | some m =>
    let (ok, s) := m.members.foldl (fun (ok, t) x => let (o, t) := mirrorMember m x t; (ok && o, t)) (true, s)
    let s := setSafe { s.safe with mirrors := s.safe.mirrors.filter (fun x => x.group != g) } s
    let s := s.setBit .SAFE_MIRROR_BUSY 0 g false
    if ok && !m.dirty then s.setBit .SAFE_MIRROR_VALID 0 g true else s

/-! Flips (R180, R184, R187). -/

/-- A member's two sides exchange their roles. -/
def flipMember (m : Member) (s : State) : State :=
  match m with
  | .palette e => s.setBit .ENG_STATUS (physOf s e) 3 (!s.bit .ENG_STATUS (physOf s e) 3)
  | .prog e =>
    -- a double-bit program error mutes an engine until another descriptor becomes active (R158)
    (s.setBit .ENG_STATUS (physOf s e) 2 (!s.bit .ENG_STATUS (physOf s e) 2)).setBit .ENG_STATUS (physOf s e) 4 false
  | .chain c => flipChain c s
  | .gain => s.setBit .SAFE_FABRIC_GROUP 0 9 (gainAct s == 0)
  | .route => s.setBit .SAFE_FABRIC_GROUP 0 8 (routeAct s == 0)

def fabricSide : Member → Bool
  | .gain | .route => true
  | _ => false

/-- The record of a request's flip at clk N/2 + 128 or while turns are stopped (R184, R185): turn is the number the stamp
takes. -/
def recordDone (turn : Nat) (q : SafeReq) (s : State) : State :=
  q.groups.foldl (fun t g =>
    let pend := t.safe.reqs.any (fun r => r.groups.contains g)
    let t := (t.setBit .SAFE_PENDING 0 g pend).setBit .SAFE_DONE 0 g true
    let t := raise Ev.SAFE_COMMIT_DONE
      (count .SAFE_GROUP_n_STAMP g 15 14 0 none (t.setF .SAFE_GROUP_n_STAMP g 31 16 turn))
    let en := t.safe.mirGroups.contains g
    let t := setSafe { t.safe with mirGroups := t.safe.mirGroups.filter (fun x => x != g) } t
    if en then startMirror g t else t) s

/-- A step takes effect at a boundary b_i: the next one follows k turns later; after the last, or where the channel is stopping, it
ends with the record of the flip (R193, R196, R198). A step that the steps before it have moved counts in LATE as it comes to hand
(R194). DEDUCED: log entry 41. -/
def stepEffect (k : Stroke) (s : State) : State :=
  if s.f .SAFE_STROKE_n_STAT k.ch 31 30 = 2 ∨ k.step + 1 = k.steps then setStroke { k with eff := false, fin := true, comm := true } s
  else
    let s := if k.moved then countLate k.ch s else s
    setStroke { k with step := k.step + 1, addr := k.addr + 8 + 8 * (k.mask / 65536 % 256), due := k.period, begun := false,
                       blocked := false, accepted := false, eff := false, late := k.moved,
                       comm := decide (k.mask % 65536 ≠ 0) } s

/-- The flips are recorded: the channels whose last step has taken effect go idle, and so do those that STOP found with a commit still
to be recorded and that have begun no further step (R184, R196). -/
def finishStrokes (s : State) : State :=
  let s := (s.safe.strokes.filter (fun k => k.fin)).foldl (fun t k => finishStroke k t) s
  let stopping := s.safe.strokes.filter (fun k => k.comm && !k.begun && s.f .SAFE_STROKE_n_STAT k.ch 31 30 == 2)
  stopping.foldl (fun t k => endStroke k.ch 0 t)
    (setSafe { s.safe with strokes := s.safe.strokes.map (fun k => { k with comm := false }) } s)

/-- Steps that take effect now. -/
def strokesEffect (s : State) : State := (s.safe.strokes.filter (fun k => k.eff)).foldl (fun t k => stepEffect k t) s

/-- A channel's step is decided: it takes effect at the coming boundary. -/
def markEff (n : Nat) (s : State) : State :=
  setSafe { s.safe with strokes := s.safe.strokes.map (fun k => if k.ch = n then { k with eff := true } else k) } s

/-- The requests decided in order (R183, R247): those that flip, their chains, those that wait; refused ones leave. -/
structure Decision where
  st : State
  flips : List SafeReq
  waits : List SafeReq
  chains : List Nat
  first : Bool

/-- The checks of a decision read the staged parts of a request's chains (R247, R251). -/
def readStaged (cs : List Nat) (s : State) : State :=
  let t := cs.foldl (fun t c => correctStaged c t) s
  if cs.any (fun c => anyUpset s (stagedAddr c 1) 17 2) then sectSded t else t

def decideOne (d : Decision) (q : SafeReq) : Decision :=
  let d := { d with st := readStaged (memberChains (reqMembers d.st q)) d.st }
  match verdict d.st d.chains q with
  | .flip =>
    let cs := memberChains (reqMembers d.st q)
    let st := if cs.isEmpty then d.st else if d.first then setSectChk 2 0 (cs.foldl min 511) d.st else d.st
    { d with st := st, flips := d.flips ++ [q], chains := d.chains ++ cs }
  | .wait => { d with st := setBits .SAFE_PENDING 0 16 true q.groups d.st, waits := d.waits ++ [q] }
  | .refuse =>
    let chainRef := decide ((chainVerdict d.st d.chains (reqMembers d.st q)).1 ≠ 0)
    let st := refuseReq d.chains d.first q d.st
    let st := q.strokes.foldl (fun t n => match strokeOf t n with
      | some k => haltStroke n 5 k.addr t
      | none => t) st
    { d with st := st, first := d.first && !chainRef }

/-- A decision over the pending requests: the flips, and the state with the others left pending. -/
def decideAll (s : State) : List SafeReq × State :=
  let s := readGroups (s.setF .SAFE_PENDING 0 31 16 0)
  let d := s.safe.reqs.foldl decideOne ⟨setSafe { s.safe with reqs := [] } s, [], [], [], true⟩
  (d.flips, setSafe { d.st.safe with reqs := d.waits } d.st)

/-- Members of the flips, each once: two requests that meet at a boundary give one flip (R182). -/
def flipMembers (s : State) (l : List SafeReq) : List Member := allMembers.filter (fun m => l.any (fun q => q.groups.contains (groupOf s m)))

/-- The commit cut (R58, R181, R183, R218, R248). Steps of strokes whose writes are not accepted, or whose commit waits, move
(R194); a step with no mask takes effect if its writes have been accepted. -/
def safeCut (s : State) : State :=
  let (flips, s) := decideAll s
  let ms := flipMembers s flips
  let s := setSafe { s.safe with decided := flips, flipFab := ms.filter fabricSide,
                                 flipNext := ms.filter (fun m => !fabricSide m) } s
  let s := setFab { s.fab with hold := ms.contains .route } s
  let s := setSect { s.sect with holdChains := memberChains ms } s
  let s := flips.foldl (fun t q => q.strokes.foldl (fun u n => markEff n u) t) s
  s.safe.strokes.foldl (fun t k =>
    if k.fin || k.due != 0 || k.eff then t
    else if k.accepted && k.mask % 65536 == 0 then markEff k.ch t
    else lateStep k t) s

/-- The power domain of a member (R397). -/
def memberDomain : Member → Nat
  | .palette e | .prog e => 6 + e / 8
  | .chain _ => 4
  | .gain | .route => 3

/-- A flip of groups: VALID clears (R189), and SAFE_MIRROR_EN as it stands decides on the mirrors that follow (R188, R199). -/
def flipGroups (l : List SafeReq) (s : State) : State :=
  let gs := l.flatMap (fun q => q.groups)
  let s := setBits .SAFE_MIRROR_VALID 0 0 false gs s
  setSafe { s.safe with mirGroups := s.safe.mirGroups.filter (fun g => !gs.contains g) ++ gs.filter (fun g => s.bit .SAFE_MIRROR_EN 0 g) } s

/-- Members whose domain is down flip in the record at the boundary (R187). -/
def flipDown (s : State) : State :=
  let down (m : Member) : Bool := domainDown s (memberDomain m)
  (s.safe.flipEng.filter down).foldl (fun t m => flipMember m t)
    (setSafe { s.safe with flipEng := s.safe.flipEng.filter (fun m => !down m) } s)

/-- A channel whose held writes have been released requests its commit (R193). -/
def strokeReleased (n : Nat) (s : State) : State :=
  match strokeOf s n with
  | some k =>
    if k.blocked && k.rest.isEmpty then
      request (maskGroups (k.mask % 65536)) [n] (setStroke { k with blocked := false, accepted := true } s)
    else s
  | none => s

/-- The boundary: fabric-side members flip, and those whose domain is down; the window closes, steps take effect, the channels whose
writes it held request in channel order (R247); the record is due at clk N/2 + 128, or now where turns stop or freeze (R184, R185). -/
def safeBoundary (stops : Bool) (s : State) : State :=
  let s := s.safe.flipFab.foldl (fun t m => flipMember m t) s
  let s := flipDown (setSafe { s.safe with flipEng := s.safe.flipEng ++ s.safe.flipNext, flipNext := [] } s)
  let s := flipGroups s.safe.decided s
  let dec := s.safe.decided
  let s := setSafe { s.safe with flipFab := [], decided := [], doneDue := s.safe.doneDue ++ dec } s
  let s := releaseRoute s
  let s := strokesEffect ((List.range 8).foldl (fun t n => strokeReleased n t) s)
  if stops then
    let due := s.safe.doneDue
    finishStrokes (due.foldl (fun t q => recordDone (t.time.turn.toNat % 65536) q t) (setSafe { s.safe with doneDue := [] } s))
  else s

/-- A turn begins: the channels that wait for turns count it (R193, R197). -/
def strokesTurn (s : State) : State := setSafe { s.safe with strokes := s.safe.strokes.map (fun k => { k with due := k.due - 1 }) } s

/-- The section side of the flips, and the staged writes held for them (R238, R248). -/
def safeSections (s : State) : State :=
  let l := s.safe.flipEng.filter sectionSide
  releaseStaged (l.foldl (fun t m => flipMember m t)
    (setSafe { s.safe with flipEng := s.safe.flipEng.filter (fun m => !sectionSide m) } s))

/-- Whether a member belongs to an engine of cluster c. -/
def inCluster (c : Nat) : Member → Bool
  | .palette e | .prog e => e / 8 == c
  | _ => false

/-- The engine side of the flips of a cluster, at its mailbox exchange (R56, R147, R186). DESIGN CHOICE: log entry 27. -/
def safeEngines (c : Nat) (s : State) : State :=
  let l := s.safe.flipEng.filter (inCluster c)
  l.foldl (fun t m => flipMember m t) (setSafe { s.safe with flipEng := s.safe.flipEng.filter (fun m => !inCluster c m) } s)

/-- Whether a member's flip waits for the run of its engine that is still in progress, or still to start after a late exchange (R53, R185). -/
def runUnderWay (s : State) : Member → Bool
  | .palette e | .prog e => (runAt s (physOf s e)).isSome || s.dev.late.contains (e / 8)
  | _ => false

/-- With turns stopped, members flip whose engine's last run has ended (R185, R187). -/
def flipsEnded (s : State) : State :=
  if turnsOn s then s
  else
    let now := s.safe.flipEng.filter (fun m => !runUnderWay s m)
    now.foldl (fun t m => flipMember m t) (setSafe { s.safe with flipEng := s.safe.flipEng.filter (runUnderWay s) } s)

/-- MIRROR_COMPLETE: the mirror of a group one of whose members still waits for its engine's last run goes on (R185, R188). DEDUCED: log
entry 41. -/
def mirrorStep (g : Nat) (s : State) : State :=
  let s := flipsEnded s
  if s.safe.flipEng.any (fun m => groupOf s m == g) then s else mirrorComplete g s

/-- clk N/2 + 128: the record of the flips (R184). DESIGN CHOICE: log entry 27. -/
def safeRecord (s : State) : State :=
  let due := s.safe.doneDue
  finishStrokes (due.foldl (fun t q => recordDone (t.time.turn.toNat % 65536) q t) (setSafe { s.safe with doneDue := [] } s))

/-- With turns stopped, the requests whose conditions are clear flip, every member at once, and are recorded (R185); the answer names the
members that flip. -/
def flipStopped (s : State) : List Member × State :=
  if turnsOn s then ([], s)
  else
    let (flips, s) := decideAll (flipsEnded s)
    let ms := flipMembers s flips
    let s := ms.foldl (fun t m => flipMember m t) s
    let s := flipGroups flips s
    let s := flips.foldl (fun t q => recordDone (t.time.turn.toNat % 65536) q t) s
    let s := flips.foldl (fun t q => q.strokes.foldl (fun u n => markEff n u) t) s
    (ms, finishStrokes (strokesEffect s))

/-! Register writes of the SAFE block (R182, R190, R196). -/

/-- SAFE_COMMIT. -/
def safeCommitWrite (v : Word) (s : State) : State := request (maskGroups (fld v 15 0)) [] s

/-- SAFE_FABRIC_GROUP: the groups move (R189). -/
def fabricGroupWrite (v : Word) (s : State) : State :=
  let g0 := groupOf s .gain
  let r0 := groupOf s .route
  let s := plainWrite .SAFE_FABRIC_GROUP 0 v s
  regrouped r0 (groupOf s .route) (regrouped g0 (groupOf s .gain) s)

/-- Whether a channel has begun a step whose writes and commit are not complete (R184, R196). -/
def midStep (k : Stroke) : Bool := k.begun || k.comm

/-- STOP (R196). -/
def strokeStop (n : Nat) (s : State) : State :=
  match strokeOf s n with
  | none => s
  | some k => if midStep k then s.setF .SAFE_STROKE_n_STAT n 31 30 2 else endStroke n 0 s

/-- Where a stroke may lie (R190). -/
def strokeBaseOk (a : Nat) : Bool :=
  (decide (0x10000000 ≤ a) && decide (a < 0x10800000)) || (decide (0x18000000 ≤ a) && decide (a < 0x18400000))

/-- START, with GROUPS and PERIOD as they now stand (R190). -/
def strokeStart (n : Nat) (s : State) : State :=
  let base := (s.reg .SAFE_STROKE_n_BASE n).toNat / 8 * 8
  let groups := s.f .SAFE_STROKE_n_CTRL n 31 16
  let p := s.f .SAFE_STROKE_n_CTRL n 15 8
  if (strokeOf s n).isSome || !strokeBaseOk base || s.safe.strokes.any (fun k => k.groups &&& groups != 0)
      || (maskGroups groups).any (fun g => s.bit .SAFE_MIRROR_BUSY 0 g) then cfgErr .SAFE_STROKE_n_CTRL n s
  else
    let k : Stroke := { ch := n, steps := s.f .SAFE_STROKE_n_LEN n 7 0 + 1, groups := groups, period := if p = 0 then 256 else p,
                        step := 0, addr := base, mask := 0, due := 1, begun := false, blocked := false, accepted := false,
                        eff := false, late := false, fin := false, moved := false, comm := false, rest := [] }
    let s := setSafe { s.safe with strokes := s.safe.strokes ++ [k] } s
    (s.setReg .SAFE_STROKE_n_STAT n (setFld (s.reg .SAFE_STROKE_n_STAT n &&& 0x00800000) 31 30 1)).setBit .SAFE_STATUS 0 n true

/-- A write of SAFE_STROKE_n_CTRL: the fields while the channel is not running, then STOP, then START (R196). -/
def strokeCtrlWrite (n : Nat) (v : Word) (s : State) : State :=
  let stop := bitOf v 2
  let s := if (strokeOf s n).isSome then
      (if !stop && fld v 31 8 != s.f .SAFE_STROKE_n_CTRL n 31 8 then cfgErr .SAFE_STROKE_n_CTRL n s else s)
    else plainWrite .SAFE_STROKE_n_CTRL n v s
  let s := if stop then strokeStop n s else s
  if bitOf v 1 then strokeStart n s else s

/-! The words of a step (R191, R192). -/

/-- The header's fields: entries, mask, and whether a reserved bit is set. DEDUCED: log entry 41. -/
def headerBad (h0 h1 : Word) : Bool := h0.toNat / 2 ^ 24 != 0 || h1 != 0

/-- Areas a stroke entry may name (R192). -/
def strokeArea (a : Nat) : Bool :=
  (decide (0x20000000 ≤ a) && decide (a < 0x21200000)) || (decide (0x38000000 ≤ a) && decide (a < 0x38200000))
    || (decide (0x3C000000 ≤ a) && decide (a < 0x3C108000))

/-- The address a REL entry resolves to: the shadow word of the member, or none for an address error (R192, R235). -/
def strokeRel (s : State) (a : Nat) : Option Nat :=
  if 0x20000000 ≤ a ∧ a < 0x21200000 then
    let p := (a - 0x20000000) / 0x40000
    let L := (a - 0x20000000) % 0x40000 / 0x10000
    let w := a % 0x10000 / 4
    if p % 9 = 8 then none
    else
      let pe := physOf s (8 * (p / 9) + p % 9)
      let D := dWords s pe
      let P := pWords s pe
      if D ≤ w ∧ w < D + P then some (laneAddr pe L (if s.bit .ENG_STATUS pe 3 then w else w + P)) else none
  else if 0x38000000 ≤ a ∧ a < 0x38100000 then
    some (if chainSide s ((a - 0x38000000) / 2048) = 0 then a + 0x100000 else a)
  else if 0x3C000000 ≤ a ∧ a < 0x3C080000 then some (if routeAct s = 0 then a + 0x80000 else a)
  else if 0x3C100000 ≤ a ∧ a < 0x3C104000 then some (if gainAct s = 0 then a + 0x4000 else a)
  else none

end Sys2Proof.Machine
end

