-- ==== Sys2Proof/Machine/DevUnit.lean ====
section
/-! DEFINITION. Requests that change the operating state, the rate, the turn counter and the latency probe (01_architecture.md
R28 to R38, R482, R483; 02_turn_and_latency.md R48 to R67). -/

namespace Sys2Proof.Machine

def setDev (x : DevState) (s : State) : State := { s with dev := x }

/-- What START clears (R61): mailboxes, chain inputs and outputs, buses, link inputs, output stages; and the silence detectors
and clusters begin awake (R222, R225). -/
def clearPipeline (s : State) : State :=
  let s := setDev { s.dev with late := [] } (quietClear s)
  { s with eng := { s.eng with inF := [], inE := [], outE := [], outF := [], run := [], deliver := [] },
           sect := { s.sect with chainIn := [], chainRun := [], chainOut := [] },
           fab := { s.fab with busA := [], busB := [], linkIn := [], portOut := [], linkOut := [] },
           link := { s.link with rx := [], phys := [], fwd := [], due := [], stage := [], guarded := [] },
           port := { s.port with stage := [], sent := [] } }

/-- The probe as a turn begins: the marker stands in T0 (R67). -/
def probeTurn (s : State) : State :=
  match s.dev.probe with
  | .armed => setDev { s.dev with probe := .running 0, marker := true } s
  | .running k => setDev { s.dev with probe := .running (k + 1), marker := false } s
  | .idle => setDev { s.dev with marker := false } s

/-- A turn begins: the input stage delivers, the output stages load (R38, R51, R54, R206, R222, R269). DEDUCED: log entry 21. -/
def beginTurn (w : Swap) (s : State) : State :=
  let s := strokesTurn (setDev { s.dev with runs := s.dev.runs + 1 } s)
  let s := probeTurn (asrcBoundary s)
  let s := detBoundary (constsLatch (portsSwap w s))
  linksLoad (portsLoad s)

/-- Turns start or resume: clk 0 of a new turn (R30, R59, R61). -/
def turnsGo (s : State) : State :=
  let start := s.dev.starting
  let s := setMuted false (setTurns true s)
  let s := setDev { s.dev with starting := false, first := if start then s.time.turn else s.dev.first,
                               runs := if start then 0 else s.dev.runs, freeze := false, cutPast := false, swapped := [],
                               exchanged := [], started := [], relockEnd := false, exch := [] } s
  let s := { s with link := { s.link with rx := [], due := [] }, time := { s.time with clk := 0 } }
  beginTurn (if start then .first else .resume) s

/-- The conditions of R29. -/
def startBlocked (s : State) : Bool :=
  !synLock s || holdCause s != 0 || s.safe.reqs.any (fun q => (reqMembers s q).any (memberBusy s))

/-- The route words of the active program by pass (R52). -/
def passCount (s : State) (b : Bool) : Nat := (passWords s b).length

/-- The budgets of R23 at the current rate (R50). -/
def overBudget (s : State) : Bool :=
  let n := turnLen s
  (List.range 64).any (fun e => decide (n - 128 < progLen s (physOf s e) (actProg s (physOf s e)))) ||
    decide (n * 4 < passCount s false) || decide (n * 4 < passCount s true) ||
    decide (sectBudget s < (sectLoad s []).1)

/-- START and TEST_ENTER where the state accepts them: refused under R29 and R50. Turns start at the coming boundary of the grid,
which counts whether turns run or not (R59, R390) and which a follower first aligns (R287). DEDUCED: log entry 21. -/
def startTurns (inTest : Bool) (s : State) : Option State :=
  if startBlocked s || overBudget s then none
  else
    let s := alignGrid (clearPipeline s)
    some (setDev { s.dev with starting := true } (if inTest then enter St.TEST s else enterEff St.RUN s))

/-- TEST entered from ARMED (R32). -/
def inTest (s : State) : Bool := sysState s == St.TEST && !s.dev.testRom

/-- A request of SYS_STATE_REQ that waits for the boundary. -/
def actRequest : PendAct → Bool
  | .disarm | .testExit => true
  | _ => false

/-- DISARM or TEST_EXIT has taken effect: ARMED, turns stopped, outputs muted (R30, R35, R483). -/
def toArmed (s : State) : State :=
  let s := if sysState s = St.TEST then abandonProbe s else s
  let rest (l : List PendAct) : List PendAct := l.filter (fun a => !actRequest a)
  setMuted true (setTurns false (enterEff St.ARMED
    (setDev { s.dev with starting := false, pendNew := rest s.dev.pendNew, pendCut := rest s.dev.pendCut } s)))

/-- The rank in R37 of a request of SYS_STATE_REQ: HALT, then the hold cause, then the others. -/
def requestRank (req : Nat) : Nat := if req = 7 then 3 else if req = 3 then 4 else 6

/-- Whether a request loses to an event of its HUBCLK cycle; DISARM and a hold cause do not exclude each other (R37). -/
def requestBeaten (s : State) (req : Nat) : Bool :=
  beaten s (requestRank req) && decide (1 ≤ req) && decide (req ≤ 7) &&
    !(req == 2 && (match s.dev.won with | some (_, r) => r == 4 | none => false))

/-- A request of SYS_STATE_REQ; none is a refusal (R28, R482). DEDUCED: log entry 19. -/
def stateRequest (req : Nat) (s : State) : Option State :=
  let k := effState s
  let holdStates := k == St.ARMED || k == St.RUN || k == St.HOLD || inTest s
  match req with
  | 1 => if k = St.ARMED then startTurns false s else none
  | 2 =>
    if k = St.RUN then some (if turnsOn s then later .disarm s else toArmed s)
    else if k = St.HOLD then some (toArmed s) else none
  | 3 => if holdStates then some (setHold Hold.REQ true s) else none
  | 4 => if holdStates then some (setHold Hold.REQ false s) else none
  | 5 => if sysState s = St.ARMED then startTurns true s else none
  | 6 => if inTest s then some (if turnsOn s then later .testExit s else toArmed s) else none
  | 7 => if alive s then some (haltEnter 1 s) else none
  | _ => some s

/-- SYS_STATE_REQ (R28): a wrong KEY or a refused request sets REQ_REFUSED; a reserved REQ acts as 0x0, as its table says (R8). -/
def stateReqWrite (v : Word) (s : State) : State :=
  let refused := s.setBit .SYS_STATE 0 6 true
  if fld v 31 16 ≠ 0x6400 then refused
  else
    let req := fld v 3 0
    if requestBeaten s req then refused
    else match stateRequest req s with
    | some t => t
    | none => refused

/-- SYS_TURN_CFG (R49): a write of RATE restarts the checks that depend on it (R157, R215, R257), and the active route bank is judged at the
new RATE. -/
def rateWrite (v : Word) (s : State) : State :=
  if turnsOn s then cfgErr .SYS_TURN_CFG 0 s
  else
    let s := plainWrite .SYS_TURN_CFG 0 v s
    let s := (List.range 72).foldl (fun t pe => startProgCheck pe t) s
    let s := startRouteCheck (1 - routeAct s) s
    portsRate (if s.fab.chkRun.contains (routeAct s) then s else rejudgeRoute (routeAct s) s)

/-- A write of TURN_COUNT, low or high (R59). -/
def turnCountWrite (high : Bool) (v : Word) (s : State) : State :=
  if turnsOn s then cfgErr .SYS_TURN_COUNT_LO 0 s
  else
    let n := s.time.turn.toNat
    let m := if high then v.toNat % 2 ^ 16 * 2 ^ 32 + n % 2 ^ 32 else n / 2 ^ 32 * 2 ^ 32 + v.toNat
    { s with time := { s.time with turn := BitVec.ofNat 48 m } }

/-- SYS_PROBE_CTRL (R66, R67): EN is stored before START is looked at. DESIGN CHOICE: log entry 91. -/
def probeWrite (v : Word) (s : State) : State :=
  let s := plainWrite .SYS_PROBE_CTRL 0 v s
  if bitOf v 1 && s.bit .SYS_PROBE_CTRL 0 0 && !s.bit .SYS_PROBE_RESULT 0 29 && sysState s == St.TEST && turnsOn s then
    setDev { s.dev with probe := .armed } (s.setReg .SYS_PROBE_RESULT 0 0x20000000)
  else s

/-- PROBE_TIMEOUT (R67). -/
def probeTimeout (s : State) : State :=
  match s.dev.probe with
  | .running age =>
    let t := s.f .SYS_PROBE_CTRL 0 23 16
    if (if t = 0 then 256 else t) < age then
      setDev { s.dev with probe := .idle } (s.setReg .SYS_PROBE_RESULT 0 0x40000000)
    else s
  | _ => s

/-- AON_FAULT_CLR (R44, R46). -/
def faultClrWrite (v : Word) (s : State) : State :=
  if bitOf v 0 then
    let s := zeroSlots 0xF0008000 0x400 s
    (s.setF .AON_FAULT_STAT 0 31 16 0).setF .AON_FAULT_STAT 0 5 0 0
  else s

end Sys2Proof.Machine
end

