-- ==== Sys2Proof/Machine/HostUnit.lean ====
section
/-! DEFINITION. Ownership, events and GPIO (17_host_control.md R451 to R463). -/

namespace Sys2Proof.Machine

def setHost (x : HostState) (s : State) : State := { s with host := x }

/-! Ownership (R451 to R454). -/

def ownerValid (s : State) : Bool := s.bit .SYS_OWNER 0 31
def ownerIdx (s : State) : Nat := s.f .SYS_OWNER 0 30 28
def isOwner (s : State) (m : Nat) : Bool := ownerValid s && ownerIdx s == m
def handoverPend (s : State) : Bool := s.bit .SYS_OWNER 0 27

/-- The owner named, with no handover pending and no seizure; none is NONE. -/
def setOwner (m : Option Nat) (s : State) : State :=
  let v := match m with | some k => 0x80000000 + k * 2 ^ 28 | none => 0
  setHost { s.host with seized := false } (s.setReg .SYS_OWNER 0 (BitVec.ofNat 32 v))

/-- An ignored write of a host master (R451). -/
def wign (m : Nat) (s : State) : State :=
  let s := count24 .HOSTIF_WIGN_CNT_m m none s
  flagEv .HOSTIF_MSTAT_m m 31 Ev.HOST_WIGN s

def claimRef (m : Nat) (s : State) : State := s.setBit .HOSTIF_MSTAT_m m 27 true

/-- SYS_OWNER_CLAIM by master m (R452, R454). DEDUCED: log entry 55. -/
def claimWrite (m : Nat) (v : Word) (s : State) : State :=
  if fld v 31 16 ≠ 0x6400 then s
  else if bitOf v 1 then
    if m = 4 ∧ sysState s = St.SERVICE then
      let prev := if ownerValid s then 2 ^ 23 + ownerIdx s * 2 ^ 20 else 0
      let s := s.setReg .SYS_OWNER 0 (BitVec.ofNat 32 (2 ^ 31 + 4 * 2 ^ 28 + prev))
      raise Ev.OWNER_CHANGED (setHost { s.host with seized := true } s)
    else claimRef m s
  else if bitOf v 0 then
    if !ownerValid s then raise Ev.OWNER_CHANGED (setOwner (some m) s)
    else if ownerIdx s = m then s else claimRef m s
  else s

/-- SYS_HANDOVER by the owner m (R452). DEDUCED: log entry 55. -/
def handoverWrite (m : Nat) (v : Word) (s : State) : State :=
  if fld v 31 16 ≠ 0x6400 || !isOwner s m then s
  else
    let t := fld v 2 0
    if t = 7 then raise Ev.OWNER_CHANGED (setOwner none s)
    else if t = 5 ∨ t = 6 ∨ t = m then cfgErr .SYS_HANDOVER 0 s
    else (s.setBit .SYS_OWNER 0 27 true).setF .SYS_OWNER 0 26 24 t

/-- SYS_ACCEPT by master m (R452). -/
def acceptWrite (m : Nat) (v : Word) (s : State) : State :=
  if fld v 31 16 ≠ 0x6400 || !bitOf v 0 then s
  else if handoverPend s && s.f .SYS_OWNER 0 26 24 == m then raise Ev.OWNER_CHANGED (setOwner (some m) s)
  else wign m s

/-- HANDOVER_TIMEOUT (R452). -/
def handoverExpire (s : State) : State :=
  if handoverPend s then raise Ev.HANDOVER_TIMEOUT ((s.setBit .SYS_OWNER 0 27 false).setF .SYS_OWNER 0 26 24 0) else s

/-- A transaction of the owner restarts its lease (R453). -/
def leaseRenew (m : Nat) (s : State) : State :=
  if isOwner s m && s.f .SYS_LEASE 0 15 0 != 0 then setHost { s.host with lease := s.time.hub + 1 } s else s

/-- SYS_LEASE: a write sets or stops the lease, and one that finds none running starts it (R453). DESIGN CHOICE: log entry 94. -/
def leaseWrite (v : Word) (s : State) : State :=
  let s := plainWrite .SYS_LEASE 0 v s
  if s.f .SYS_LEASE 0 15 0 = 0 then setHost { s.host with lease := 0 } s
  else if s.host.lease = 0 then setHost { s.host with lease := s.time.hub + 1 } s
  else s

/-- OWNER_LAPSED (R453): once 32 ticks for each unit of MS, of a HUBCLK cycle at the least, have passed. DESIGN CHOICE: log entry 94. -/
def leaseExpire (s : State) : State :=
  let ms := s.f .SYS_LEASE 0 15 0
  if ms ≠ 0 ∧ ownerValid s = true ∧ s.host.lease ≠ 0 ∧ s.host.lease + 32 * ms ≤ s.time.hub + 1 then
    raise Ev.OWNER_LAPSED (setOwner none (setHost { s.host with lease := 0 } s))
  else s

/-- Service closes (R440, R454): the device returns to the state in PREV, and a seizure ends. DEDUCED: log entry 48. -/
def serviceClose (s : State) : State :=
  if sysState s = St.SERVICE then
    let s := markWon 5 ((enter (s.f .SYS_STATE 0 19 16) s).setBit .SEC_SVC_STAT 0 31 false)
    if s.host.seized then
      setOwner (if s.bit .SYS_OWNER 0 23 then some (s.f .SYS_OWNER 0 22 20) else none) s
    else s
  else s

/-! Events (R456 to R459). -/

/-- EVT_SET_3 (R459): bits 31 to 16 set SOFT events. -/
def evtSetWrite (w : Nat) (v : Word) (s : State) : State :=
  if w = 3 then s.setReg .EVT_RAW_w 3 (s.reg .EVT_RAW_w 3 ||| (v &&& 0xFFFF0000)) else s

/-- EVT_CFG_SRC: bit 31 and the FLASH flag in bit 14 are W1C (R457). -/
def evtCfgSrcWrite (v : Word) (s : State) : State := plainWrite .EVT_CFG_SRC 0 v s

/-- EVT_CFG_SRC as a read gives it (R457). -/
def evtCfgSrc (s : State) : Word :=
  BitVec.ofNat 32 (b2n (s.bit .EVT_CFG_SRC 0 31) * 2 ^ 31 +
    ((List.range 18).map (fun k => b2n (cfgSrcBit s k) * 2 ^ k)).foldl (· + ·) 0)

/-- EVT_PEND as a read gives it (R458). -/
def evtPend (s : State) : Word :=
  BitVec.ofNat 32 (((List.range 16).map (fun c => b2n (coreCond s c) * 2 ^ (16 + c))).foldl (· + ·) 0 +
    ((List.range 4).map (fun x => b2n (irqCond s x) * 2 ^ x)).foldl (· + ·) 0)

/-- The level of an IRQ pin; none while it is released (R458, EVT_IRQ_CFG). -/
def irqPin (s : State) (x : Nat) : Option Bool :=
  let c := irqCond s x
  match s.f .EVT_IRQ_CFG 0 (4 * x + 1) (4 * x) with
  | 0 => if c then some false else none
  | 1 => some (!c)
  | _ => some c

/-! Pins (R469). -/

/-- The pins whose levels are not those of a port or of a link's lane: IO_1 to IO_3 of an SPI interface, an I²C pin, the flash interface,
WCLK_OUT, LOCKDET, IRQ_A to IRQ_D, the GPIO pins and JTAG_TDO. -/
inductive Pin where
  | spiIo
  | i2c
  | flashSck
  | flashCsN
  | flashIo
  | wclk
  | lockdet
  | irq (x : Fin 4)
  | gpio (i : Fin 16)
  | jtagTdo
deriving DecidableEq, Repr

/-- The level at which the device drives a pin, none while it does not (R384, R390, R458, R463, R469). A transfer of SPI, I²C, JTAG or the flash is
one step, so their pins stand as they do between transfers. DESIGN CHOICE: log entry 75. -/
def pinDrive (s : State) : Pin → Option Bool
  | .spiIo => none
  | .i2c => none
  | .flashSck => some false
  | .flashCsN => some true
  | .flashIo => none
  | .wclk => some (wclkOut s)
  | .lockdet => if lockdetLow s then some false else none
  | .irq x => irqPin s x
  | .gpio i =>
    let out := s.bit .SYS_GPIO_OUT 0 i
    match s.f .SYS_GPIO_CFG_i i 5 4 with
    | 1 => some out
    | 2 => if out then none else some false
    | _ => none
  | .jtagTdo => none

/-! GPIO (R463). -/

def gpioLevels (s : State) : List Bool := (List.range 16).map (gpioLevel s)

/-- SYS_GPIO_IN as a read gives it. -/
def gpioIn (s : State) : Word := BitVec.ofNat 32 (((List.range 16).map (fun i => b2n (gpioLevel s i) * 2 ^ i)).foldl (· + ·) 0)

/-- Pin i has moved from a level: a selected edge sets its flag and raises GPIO_EDGE, and its wake source may fire (R406). -/
def gpioMoved (i : Nat) (was : Bool) (s : State) : State :=
  let now := gpioLevel s i
  if was == now then s
  else
    let e := s.f .SYS_GPIO_CFG_i i 3 2
    let hit := if now then e == 1 || e == 3 else e == 2 || e == 3
    let s := if hit then raise Ev.GPIO_EDGE (s.setBit .SYS_GPIO_EDGE 0 i true) else s
    let m := s.f .PWR_GPIO_WAKE_CFG 0 (2 * i + 1) (2 * i)
    if (if now then m == 0 || m == 2 else m == 1 || m == 3) then fireSource i s else s

/-- After a change of pins or their configuration. -/
def gpioSettle (before : List Bool) (s : State) : State :=
  before.zipIdx.foldl (fun t x => gpioMoved x.2 x.1 t) s

/-- GPIO_EDGE: the level outside the device on pin i becomes b. -/
def gpioInput (i : Nat) (b : Bool) (s : State) : State :=
  let was := gpioLevels s
  let n := s.pins.gpio.toNat
  let n' := if n.testBit i = b then n else if b then n + 2 ^ i else n - 2 ^ i
  gpioSettle was { s with pins := { s.pins with gpio := BitVec.ofNat 16 n' } }

/-- SYS_GPIO_OUT and SYS_GPIO_CFG_i. -/
def gpioWrite (r : RegName) (i : Nat) (v : Word) (s : State) : State :=
  gpioSettle (gpioLevels s) (plainWrite r i v s)

end Sys2Proof.Machine
end

