-- ==== Sys2Proof/Machine/SecUnit.lean ====
section
/-! DEFINITION. The SEC block (16_boot_and_security.md R429 to R442): OTP, keys, seal requests, the floor, service access. What
moves data through the bus stands in Boot.lean. -/

namespace Sys2Proof.Machine

def setBoot (x : BootState) (s : State) : State := { s with boot := x }

/-! OTP (R429 to R431). -/

def otpFactoryWord (w : Nat) : Bool := w == 4 || w == 5 || (decide (24 ≤ w) && decide (w < 128))
/-- What an unprogrammed OTP word holds: zero, or what the factory programmed (log entry 10). -/
def otpReset (w : Nat) : Word := if otpFactoryWord w then Config.otpFactory w else 0
def otpWord (s : State) (w : Nat) : Word := Store.get otpReset s.boot.otp w
def setOtp (w : Nat) (v : Word) (s : State) : State := setBoot { s.boot with otp := Store.set otpReset s.boot.otp w v } s

/-- A word of the OTP window (R429): keys, the password hash and the reserved words read zero. -/
def otpRead (s : State) (w : Nat) : Word := if 6 ≤ w ∧ w < 24 then 0 else otpWord s w

/-- SEC_STATUS.LIFECYCLE, as the ROM read it at reset (R430). -/
def lifecycle (s : State) : Nat := s.f .SEC_STATUS 0 17 16
def Life.BLANK : Nat := 0
def Life.PROVISIONED : Nat := 1
def Life.FIELD : Nat := 2

/-- The lifecycle OTP holds. -/
def otpLife (s : State) : Nat :=
  let w := otpWord s 0
  if !bitOf w 0 then Life.BLANK else if bitOf w 1 then Life.FIELD else Life.PROVISIONED

/-- Debug is open (R430, R440). -/
def debugOpen (s : State) : Bool := lifecycle s != Life.FIELD || sysState s == St.SERVICE

/-- SEC_STATUS as a read gives it. -/
def secStatus (s : State) : Word := putBit (s.reg .SEC_STATUS 0) 3 (debugOpen s)

def rootKey (s : State) : List Byte := (List.range 8).flatMap (fun k => bytesOfWord (otpWord s (8 + k)))
def svcMode (s : State) : Nat := fld (otpWord s 1) 6 5

/-- The fuses of VFLOOR (R436). -/
def fuses (s : State) : Nat :=
  ((List.range 64).filter (fun i => bitOf (otpWord s (2 + i / 32)) (i % 32))).length

/-- SEC_FLOOR and SEC_KEY_CHECK as a read gives them. -/
def secFloor (s : State) : Word := BitVec.ofNat 32 (fuses s)
def keyCheck (s : State) : Word :=
  if (rootKey s).all (fun b => b == 0) then 0 else wordOfBytes ((sha256 (rootKey s)).take 4)

/-- Whether a word may be programmed with some data (R429, R431). -/
def otpAllowed (s : State) (w : Nat) (d : Word) : Bool :=
  let k := lifecycle s
  if w = 0 then
    k != Life.FIELD && !(bitOf d 0 && keyCheck s == 0) && !(bitOf d 1 && !bitOf (otpWord s 0) 0)
  else if w = 1 then k != Life.FIELD
  else if w < 8 then false
  else if w < 16 then k == Life.BLANK
  else if w < 24 then k != Life.FIELD
  else if w < 128 then false
  else k != Life.FIELD

/-- SEC_OTP_CTRL (R431): the owner and the control cores program. DEDUCED: log entry 48. -/
def otpProgram (who : Initiator) (v : Word) (s : State) : State :=
  let refused := s.setBit .SEC_OTP_STAT 0 29 true
  let may := match who with | .host _ | .core _ => true | _ => false
  let w := fld v 8 0
  let d := s.reg .SEC_OTP_DATA 0
  if sysState s = St.HALT then s
  else if fld v 31 16 ≠ 0x6400 || !may || s.boot.otpBusy.isSome || !otpAllowed s w d then refused
  else setBoot { s.boot with otpBusy := some (w, d) } (s.setBit .SEC_OTP_STAT 0 31 true)

/-- OTP_PROGRAM_DONE: failed names the bits that read back 0. -/
def otpDone (failed : Word) (s : State) : State :=
  match s.boot.otpBusy with
  | none => s
  | some (w, d) =>
    let s := setOtp w (otpWord s w ||| (d &&& ~~~failed)) (setBoot { s.boot with otpBusy := none } s)
    let s := (s.setBit .SEC_OTP_STAT 0 31 false).setBit .SEC_OTP_STAT 0 30 true
    if d &&& ~~~(otpWord s w) = 0 then s else s.setBit .SEC_OTP_STAT 0 28 true

/-! Keys (R432, R433). -/

def asciiTAG : List Byte := [0x54, 0x41, 0x47]
def asciiSVC : List Byte := [0x53, 0x56, 0x43]
def asciiSEAL : List Byte := [0x53, 0x45, 0x41, 0x4C]
def tagKey (s : State) : List Byte := hmacSha256 (rootKey s) asciiTAG
def serviceKey (s : State) : List Byte := hmacSha256 (rootKey s) asciiSVC

/-- n hashes. -/
def hashN : Nat → List Byte → List Byte
  | 0, k => k
  | n + 1, k => hashN n (sha256 k)

/-- key_v (R432). -/
def ladderKey (s : State) (v : Nat) : List Byte := hashN (4095 - v) (hmacSha256 (rootKey s) asciiSEAL)

def imageVersion (s : State) : Nat := s.f .SEC_BOOT_INFO 0 27 16
def isSealer (s : State) : Bool := s.bit .SEC_STATUS 0 4

/-- key_w from the version key (R433). -/
def versionKey (s : State) (w : Nat) : List Byte := hashN (imageVersion s - w) s.boot.verKey

/-! Seal operations (R434, R435). -/

def sealLocked (s : State) : Bool := s.bit .SEC_SEAL_CTRL 0 30
/-- DEDUCED: log entry 47. -/
def sealEnd (reason : Nat) (s : State) : State :=
  let s := s.setBit .SEC_SEAL_STAT 0 31 false
  let s := if reason = 0 then s.setBit .SEC_SEAL_STAT 0 30 true else s.setBit .SEC_SEAL_STAT 0 29 true
  raise Ev.SEC_SEAL_DONE (s.setF .SEC_SEAL_STAT 0 27 24 reason)

/-- SEC_SEAL_CTRL (R434, R435, R441): the lock first; a length outside 1 to 16,384 is refused at GO. DEDUCED: log entry 47. -/
def sealCtrlWrite (v : Word) (s : State) : State :=
  let s := plainWrite .SEC_SEAL_CTRL 0 v s
  if !bitOf v 31 || sysState s == St.HALT then s
  else if s.bit .SEC_SEAL_STAT 0 31 then cfgErr .SEC_SEAL_CTRL 0 s
  else
    let isOpen := s.f .SEC_SEAL_CTRL 0 1 0 == 1
    let len := s.f .SEC_SEAL_LEN 0 14 0
    let ver := s.f .SEC_SEAL_VER 0 11 0
    if !isOpen && (len == 0 || decide (16384 < len)) then cfgErr .SEC_SEAL_CTRL 0 s
    else
      let reason :=
        if sealLocked s || sysState s == St.SERVICE then 1
        else if !isOpen && !isSealer s then 2
        else if !isOpen && decide (imageVersion s < ver) then 3
        else if lifecycle s = Life.BLANK then 7
        else 0
      if reason ≠ 0 then sealEnd reason s
      else
        setBoot { s.boot with sealJob := some ⟨isOpen, (s.reg .SEC_SEAL_SRC 0).toNat, (s.reg .SEC_SEAL_DST 0).toNat, len, ver, 0⟩ }
          (s.setBit .SEC_SEAL_STAT 0 31 true)

/-- SEC_FLOOR (R436). -/
def floorWrite (v : Word) (s : State) : State :=
  if !bitOf v 31 || sysState s == St.HALT then s
  else
    let t := fld v 22 16
    if !isSealer s || sealLocked s || decide (t ≤ fuses s) || decide (64 < t) || decide (imageVersion s < 64 * t) then
      cfgErr .SEC_FLOOR 0 s
    else
      (List.range 64).foldl (fun u i =>
        if fuses s ≤ i ∧ i < t then setOtp (2 + i / 32) (putBit (otpWord u (2 + i / 32)) (i % 32) true) u else u) s

/-- SEC_SEALED_LOAD_CTRL (R437): the range that is protected is the stream and its CRC table. -/
def sealedLoadWrite (v : Word) (s : State) : State :=
  if !bitOf v 0 || sysState s == St.HALT then s
  else if s.boot.load.isSome then cfgErr .SEC_SEALED_LOAD_CTRL 0 s
  else
    let a := (s.reg .SEC_SEALED_LOAD 0).toNat
    let n := (getWord s (primary (a + 0x10))).toNat
    setBoot { s.boot with load := some (primary a, n + n / 1024) } (s.setBit .SEC_SEALED_LOAD_STAT 0 31 true)

/-! Service access (R438 to R440). -/

/-- A match opens service (R439). -/
def serviceOpen (s : State) : State :=
  let s := markWon 5 (enter St.SERVICE s)
  let s := if s.boot.sealJob.isSome then setBoot { s.boot with lockAfter := true } s else s.setBit .SEC_SEAL_CTRL 0 30 true
  raise Ev.SEC_SVC_OPEN ((s.setBit .SEC_SVC_STAT 0 31 true).setF .SEC_SVC_STAT 0 1 0 0)

/-- A mismatch. -/
def serviceFail (s : State) : State :=
  let n := s.f .SEC_SVC_STAT 0 1 0 + 1
  let s := raise Ev.SEC_SVC_FAIL ((s.setF .SEC_SVC_STAT 0 1 0 n).setBit .SEC_SVC_STAT 0 28 true)
  if 3 ≤ n then raise Ev.SEC_SVC_LOCKOUT (s.setBit .SEC_SVC_STAT 0 30 true) else s

/-- Whether CHAL and CHECK are accepted. -/
def serviceAllowed (s : State) : Bool :=
  let k := sysState s
  !s.bit .SEC_SVC_STAT 0 30 && lifecycle s == Life.FIELD && (k == St.ARMED || k == St.RUN || k == St.HOLD || k == St.RECOVERY)

def respBytes (s : State) : List Byte := (List.range 8).flatMap (fun i => bytesOfWord (s.reg .SEC_SVC_RESP_i i))
def nonceBytes (s : State) : List Byte := (List.range 4).flatMap (fun i => bytesOfWord (s.reg .SEC_SVC_NONCE_i i))
def deviceId (s : State) : List Byte := bytesOfWord (otpWord s 4) ++ bytesOfWord (otpWord s 5)

def serviceCheck (s : State) : State :=
  let pw := s.bit .SEC_SVC_CTRL 0 28
  let len := s.f .SEC_SVC_CTRL 0 5 0
  let offered := if pw then 2 ≤ svcMode s else svcMode s % 2 = 1
  if !serviceAllowed s || !decide offered then cfgErr .SEC_SVC_CTRL 0 s
  else if pw then
    if len = 0 ∨ 32 < len then cfgErr .SEC_SVC_CTRL 0 s
    else if sha256 ((respBytes s).take len) = (List.range 8).flatMap (fun k => bytesOfWord (otpWord s (16 + k))) then serviceOpen s
    else serviceFail s
  else if !s.bit .SEC_SVC_STAT 0 29 then cfgErr .SEC_SVC_CTRL 0 s
  else
    let ok := hmacSha256 (serviceKey s) (nonceBytes s ++ deviceId s) = respBytes s
    let s := s.setBit .SEC_SVC_STAT 0 29 false
    if ok then serviceOpen s else serviceFail s

/-- CHAL: the nonce comes from SEC's random source, so each word is a free value. DEDUCED: log entry 48. -/
def serviceChal (s : State) : State :=
  if !serviceAllowed s then cfgErr .SEC_SVC_CTRL 0 s
  else
    let s := (List.range 4).foldl (fun t i => let (x, t) := draw t; t.setReg .SEC_SVC_NONCE_i i (BitVec.ofNat 32 x)) s
    s.setBit .SEC_SVC_STAT 0 29 true

/-- The registers through which service opens (R438, R442). -/
def svcReg (r : RegName) : Bool := r == .SEC_SVC_CTRL || r == .SEC_SVC_STAT || r == .SEC_SVC_NONCE_i || r == .SEC_SVC_RESP_i

/-- Whether a write of such a register comes in a HUBCLK cycle in which one of a lower port index has (R438). -/
def svcLoses (who : Initiator) (s : State) : Bool :=
  match who with
  | .host m => s.boot.svcAt == s.time.hub + 1 && decide (s.boot.svcPort < m.val)
  | _ => false

def svcNote (who : Initiator) (s : State) : State :=
  match who with
  | .host m => setBoot { s.boot with svcAt := s.time.hub + 1, svcPort := m.val } s
  | _ => s

/-- SEC_SVC_CTRL: CLOSE wins over CHECK (R441), and CHECK over CHAL; a CHAL beside the third mismatch is refused (R439, R441). DEDUCED: log
entry 48. -/
def svcCtrlWrite (v : Word) (s : State) : State :=
  let s := plainWrite .SEC_SVC_CTRL 0 v s
  if bitOf v 31 then serviceClose s
  else if bitOf v 30 then
    let t := serviceCheck s
    if bitOf v 29 && t.bit .SEC_SVC_STAT 0 30 then cfgErr .SEC_SVC_CTRL 0 t else t
  else if bitOf v 29 then serviceChal s
  else s

/-- NONCE_EXPIRE. -/
def nonceExpire (s : State) : State := s.setBit .SEC_SVC_STAT 0 29 false

/-- SEC_BOOT_CTRL.LOADED (R427): only by the owner, in host mode in FETCH and in RECOVERY, while the window is open; the ROM
places the image as the device verifies it. DEDUCED: log entry 33. -/
def loadedWrite (who : Initiator) (v : Word) (s : State) : State :=
  if !bitOf v 0 then s
  else
    let own := match who with | .host m => isOwner s m.val | _ => false
    if own && s.boot.window && (sysState s == St.FETCH || sysState s == St.RECOVERY) then
      setBoot { s.boot with window := false, place := true } (enter St.VERIFY s)
    else cfgErr .SEC_BOOT_CTRL 0 s

end Sys2Proof.Machine
end

