-- ==== Sys2Proof/Machine/Bus.lean ====
section
/-! DEFINITION. Accesses to the shared address space by any initiator: what a read answers, what a write does, the boot fence,
sleeping domains, ownership and host transactions (13_memory_and_coherence.md R365 to R369; 16_boot_and_security.md R423, R437;
17_host_control.md R445 to R455, R462). -/

namespace Sys2Proof.Machine

/-- The answer to an access: done, with the bytes a read returns; a bus error; or not yet. -/
inductive Ans where
  | ok (l : List Byte)
  | err
  | wait
deriving DecidableEq, Repr

/-! Register reads. -/

/-- The latch of an initiator for the high word of a wide value (R462), by its key in HostState. -/
def latchKey : Initiator → Option Nat
  | .host m => some m.val
  | .core c => some (8 + c.val)
  | .dma n => some (32 + n.val)
  | _ => none

/-- SYS_OWNER.SELF (R465). -/
def selfIdx : Initiator → Nat
  | .host m => m.val
  | _ => 7

/-- What a read of a register returns, and its side effect. DESIGN CHOICE: log entry 7. -/
def regRead (who : Initiator) (r : RegName) (i : Nat) (s : State) : Word × State :=
  match r with
  | .SYS_TURN_COUNT_LO =>
    let v : Word := BitVec.ofNat 32 s.time.turn.toNat
    match latchKey who with
    | some k =>
      (v, setHost { s.host with latch := Store.set zeroOf s.host.latch k (BitVec.ofNat 32 (s.time.turn.toNat / 2 ^ 32)) } s)
    | none => (v, s)
  | .SYS_TURN_COUNT_HI => ((match latchKey who with | some k => Store.get zeroOf s.host.latch k | none => 0), s)
  | .AON_REG => aonRegRead s
  | .PWR_STATE_w => (pwrStateRead s i, s)
  | .ASRC_LOCK_w => (asrcLockRead s i, s)
  | .SYS_STAMP => (stamp s, s)
  | .SYS_OWNER => (setFld (s.reg .SYS_OWNER 0) 2 0 (selfIdx who), s)
  | .SYS_GPIO_IN => (gpioIn s, s)
  | .TIMER_n_COUNT => (timerCount s i, s)
  | .ENG_STATUS => (engStatus s i, s)
  | .ENG_PROG_CHK => (engProgChk s i, s)
  | .ENGC_TOKQ => (engcTokq s i, s)
  | .SCHED_STATUS => (schedStatus s, s)
  | .SCHED_LEVELS => (schedLevels s, s)
  | .SCHED_STORE_LEVEL => (schedStoreLevel s, s)
  | .SCHED_ROB_LEVEL => (schedRobLevel s, s)
  | .SCHED_FLOW_STAT_w => (schedFlowStat s i, s)
  | .SCHED_CANCEL_STAT => (schedCancelStat s, s)
  | .SCHED_SPILL_LEVEL_c => (schedSpillLevel s i, s)
  | .FABRIC_CHK => (fabricChk s, s)
  | .FABRIC_CHK_SPLIT => (fabricSplit s, s)
  | .SECTION_LOAD => (sectionLoadReg s false, s)
  | .SECTION_STAGED_LOAD => (sectionLoadReg s true, s)
  | .LINK_POS => (linkPosReg s, s)
  | .EVT_CFG_SRC => (evtCfgSrc s, s)
  | .EVT_PEND => (evtPend s, s)
  | .SEC_STATUS => (secStatus s, s)
  | .SEC_FLOOR => (secFloor s, s)
  | .SEC_KEY_CHECK => (keyCheck s, s)
  | .SEC_SVC_RESP_i => (0, s)
  | _ => (s.reg r i, s)

/-! Register writes. -/

/-- The sealed fields of R423 that are whole registers. -/
def sealedReg (r : RegName) (i : Nat) : Bool :=
  match r with
  | .SYNTH_CEIL_n | .SYNTH_LOCK | .SEC_PIN_LOCK => true
  | _ => let a := Reg.addr r i; a == 0x400D0000 || (decide (0x400D0100 ≤ a) && decide (a ≤ 0x400D0428))

/-- SYNTH_SEED: a write of 0 stores 1 (R382). -/
def seedWrite (v : Word) (s : State) : State :=
  plainWrite .SYNTH_SEED 0 (if fld v 15 0 = 0 then 1 else v) s

/-- The value the ROM gives FLASH_CFG: FCFG of the directory, with CLKDIV 3 (R424, R443). -/
def flashCfgReset (s : State) : Word :=
  setFld (fixEnc (Reg.resetOf (Reg.key .FLASH_CFG 0)) 0xFFFFFFFF (Reg.row .FLASH_CFG).enc s.boot.fcfg).1 27 24 3

/-- FLASH_CFG: a reserved encoding takes that value (R8). -/
def flashCfgWrite (v : Word) (s : State) : State :=
  let (v', bad) := fixEnc (flashCfgReset s) 0xFFFFFFFF (Reg.row .FLASH_CFG).enc v
  let t := plainWrite .FLASH_CFG 0 v' s
  if bad then cfgErr .FLASH_CFG 0 t else t

/-- A register whose write only host masters can make: ownership, and the host's token port, which has no other producer (R22, R311).
DEDUCED: log entry 55. -/
def hostOnly (who : Initiator) (f : Nat → State → State) (s : State) : State :=
  match who with
  | .host m => f m.val s
  | _ => s

/-- What a write of a register does, whoever may make it: the meaning its own chapter gives it, else its table's. -/
def regAct (who : Initiator) (r : RegName) (i : Nat) (v : Word) (s : State) : State :=
  match r with
  | .SYS_STATE_REQ => stateReqWrite v s
  | .SYS_TURN_CFG => rateWrite v s
  | .SYS_TURN_COUNT_LO => turnCountWrite false v s
  | .SYS_TURN_COUNT_HI => turnCountWrite true v s
  | .SYS_PROBE_CTRL => probeWrite v s
  | .SYS_OWNER_CLAIM => hostOnly who (fun m => claimWrite m v) s
  | .SYS_HANDOVER => hostOnly who (fun m => handoverWrite m v) s
  | .SYS_ACCEPT => hostOnly who (fun m => acceptWrite m v) s
  | .SYS_LEASE => leaseWrite v s
  | .SYS_GPIO_OUT => gpioWrite r i v s
  | .SYS_GPIO_CFG_i => gpioWrite r i v s
  | .PWR_REQ_CTRL => pwrReq who v s
  | .PWR_AUTO_RET => autoRetWrite v s
  | .PWR_WAKE_EN => wakeEnWrite v s
  | .PWR_GPIO_WAKE_CFG => wakeCfgWrite r i v s
  | .PWR_WAKE_MAP_s_LO => wakeCfgWrite r i v s
  | .PWR_WAKE_MAP_s_HI => wakeCfgWrite r i v s
  | .SYNTH_CTRL => synthCtrlWrite v s
  | .SYNTH_CFG => synthCfgWrite r v s
  | .SYNTH_REF_FREQ => synthCfgWrite r v s
  | .SYNTH_RDIV => synthCfgWrite r v s
  | .SYNTH_N_INT => synthCfgWrite r v s
  | .SYNTH_NUM => synthCfgWrite r v s
  | .SYNTH_DEN => synthCfgWrite r v s
  | .SYNTH_SEED => seedWrite v s
  | .SYNTH_OUT_n_CFG => outCfgWrite i v s
  | .SYNTH_BAND_n => bandWrite i v s
  | .SYNTH_CEIL_n => ceilWrite i v s
  | .SYNTH_RAMP_CTRL => rampCtrlWrite v s
  | .SYNTH_RAMP_SEG_n => rampSegWrite i v s
  | .SEC_BOOT_CTRL => loadedWrite who v s
  | .SEC_SEAL_CTRL => sealCtrlWrite v s
  | .SEC_SEALED_LOAD_CTRL => sealedLoadWrite v s
  | .SEC_FLOOR => floorWrite v s
  | .SEC_SVC_CTRL => svcCtrlWrite v s
  | .SEC_OTP_CTRL => otpProgram who v s
  | .EVT_SET_w => evtSetWrite i v s
  | .EVT_CFG_SRC => evtCfgSrcWrite v s
  | .SCHED_C0_RATE => c0RateWrite v s
  | .SCHED_C0_CORES => c0CoresWrite v s
  | .SCHED_SPILL_BASE => spillAreaWrite false v s
  | .SCHED_SPILL_SIZE => spillAreaWrite true v s
  | .SCHED_HOST_TOK_PUSH => hostOnly who (fun _ => hostTokPush v) s
  | .SCHED_CANCEL => cancelTag (fld v 11 0) s
  | .SCHED_TRACE_BASE => traceAreaWrite false v s
  | .SCHED_TRACE_SIZE => traceAreaWrite true v s
  | .SCHED_TRACE_CTRL => traceCtrlWrite v s
  | .SCHED_TRACE_PTR => tracePtrWrite v s
  | .SCHED_CLASS_CFG_c => classCfgWrite i v s
  | .SCHED_CORE_n_CTRL => coreCtrlWrite i v s
  | .SCHED_FLOW_f => flowWrite i v s
  | .DMA_CH_n_CTRL => dmaCtrlWrite i v s
  | .DMA_CH_n_CFG => dmaCfgWrite r i v s
  | .DMA_CH_n_DESC => dmaCfgWrite r i v s
  | .TIMER_n_CTRL => timerCtrlWrite i v s
  | .SAFE_COMMIT => safeCommitWrite v s
  | .SAFE_FABRIC_GROUP => fabricGroupWrite v s
  | .SAFE_STROKE_n_CTRL => strokeCtrlWrite i v s
  | .FABRIC_BANK_A_LEN => lenWrite 0 v s
  | .FABRIC_BANK_B_LEN => lenWrite 1 v s
  | .FABRIC_QUIET_n => quietWrite i v s
  | .FABRIC_TONE_n_INC => toneIncWrite i v s
  | .FABRIC_CONST_n => constWrite i v s
  | .FABRIC_SIL_THRESH_n => profileWritten i true (plainWrite r i v s)
  | .FABRIC_SIL_HOLD_n => profileWritten i false (plainWrite r i v s)
  | .SECTION_CLR => sectClr v s
  | .ASRC_CH_n_CFG => asrcWrite i v s
  | .GUARD_PFAULT_w => pfaultWrite i v s
  | .GUARD_LFAULT_l => lfaultWrite i v s
  | .ENG_CTRL => engCtrl i v s
  | .ENG_LANE_MAP => laneMapWrite (Fin.ofNat 72 i) v s
  | .ENG_PROG_A => progDescWrite i 0 v s
  | .ENG_PROG_B => progDescWrite i 1 v s
  | .ENG_DB => engDbWrite i v s
  | .ENG_FAULT => engPlainWrite r i v s
  | .ENG_TOKDROP => engPlainWrite r i v s
  | .ENG_ECC_CORR => engPlainWrite r i v s
  | .ENG_ECC_LAST => engPlainWrite r i v s
  | .ENG_SCRUB => engPlainWrite r i v s
  | .ENGC_REMAP => remapOrRetire i false v s
  | .ENGC_RETIRE => remapOrRetire i true v s
  | .ENGC_MIG_CTRL => migCtrlWrite i v s
  | .SAP_CTRL => sapCtrlWrite i v s
  | .SAP_CFG => sapCfgWrite i v s
  | .LINK_CTRL => linkCtrlWrite i v s
  | .LINK_CFG => linkCfgWrite i v s
  | .LINK_TUN_CMD => tunCmdWrite v s
  | .AON_FAULT_CLR => faultClrWrite v s
  | .FLASH_CFG => flashCfgWrite v s
  | .AON_REG => aonRegWrite v s
  | _ => plainWrite r i v s

/-- A register write: of two writes of the SEC_SVC registers in one HUBCLK cycle that of the lower port index takes effect (R438). -/
def regTake (who : Initiator) (r : RegName) (i : Nat) (v : Word) (s : State) : State :=
  if !svcReg r then regAct who r i v s
  else if svcLoses who s then cfgErr r i s
  else regAct who r i v (svcNote who s)

/-- A register write that has been accepted: while the boot fence is closed only the ROM writes the sealed fields (R423). -/
def regWrite (who : Initiator) (r : RegName) (i : Nat) (v : Word) (s : State) : State :=
  if fenceClosed s && who != .rom then
    if sealedReg r i then s
    else if r = .SYNTH_OUT_n_CFG ∧ i < 4 then regAct who r i (setFld v 23 16 (s.f r i 23 16)) s
    else regTake who r i v s
  else regTake who r i v s

/-! Accesses. -/

/-- Whether a write to memory is answered with a bus error although its region takes writes: the boot fence, but for the load
window (R423, R427), and the stream of a sealed load (R437). -/
def barred (who : Initiator) (a n : Nat) (s : State) : Bool :=
  (who != .rom && fenceBars a s) || loadBars a n s

/-- Whether the scheduler's host port has no credit for a token write of a host master (R21, R333). -/
def tokFull (who : Initiator) (a : Nat) (s : State) : Bool :=
  (match who with | .host _ => true | _ => false) && a == Reg.addr .SCHED_HOST_TOK_PUSH 0 && decide (16 ≤ s.sched.hostQ.length)

/-- A word of register space (R366): a register, the OTP window or the alternate route table. -/
def regsWrite (who : Initiator) (a : Nat) (v : Word) (s : State) : State :=
  if inAltTable a then altWrite a v s
  else match Reg.lookup a with
    | some (r, i) => regWrite who r i v s
    | none => s

def regsRead (who : Initiator) (a : Nat) (s : State) : Word × State :=
  if inOtp a then (otpRead s ((a - 0x40030400) / 4), s)
  else if inAltTable a then (getSlot s a, s)
  else match Reg.lookup a with
    | some (r, i) => regRead who r i s
    | none => (0, s)

/-- Engine, lane and word of a lane-memory address; engine and word of a program-memory address. -/
def lanePe (a : Nat) : Nat := (a - 0x20000000) / 0x40000
def laneL (a : Nat) : Nat := (a - 0x20000000) / 0x10000 % 4
def laneW (a : Nat) : Nat := (a - 0x20000000) / 4 % 16384
def progPe (a : Nat) : Nat := (a - 0x30000000) / 0x8000
def progW (a : Nat) : Nat := (a - 0x30000000) / 4 % 8192

/-- A write of a word to a region that takes whole words; false is a bus error. DEDUCED: log entry 76. -/
def wordWrite (who : Initiator) (a : Nat) (v : Word) (s : State) : Bool × State :=
  match regionOf a with
  | .lane => (true, laneShadowWritten (lanePe a) (laneL a) (laneW a) (busWriteLane (lanePe a) (laneL a) (laneW a) v s))
  | .prog => (true, progMemWrite (progPe a) (progW a) v s)
  | .sectMem => (true, sectBusWrite a v s)
  | .fabric => fabBusWrite a v s
  | .regs | .aonRegs => (true, regsWrite who a v s)
  | _ => (true, s)

/-- A read of a word of such a region; none is a bus error. -/
def wordRead (who : Initiator) (a : Nat) (s : State) : Option Word × State :=
  match regionOf a with
  | .lane => busReadLane (lanePe a) (laneL a) (laneW a) s
  | .prog => progMemRead (progPe a) (progW a) s
  | .sectMem => sectBusRead a s
  | .fabric => fabBusRead a s
  | .regs | .aonRegs => let (w, t) := regsRead who a s; (some w, t)
  | _ => (some (getSlot s a), s)

/-- The word that four bytes at an aligned address make. -/
def wholeWord : List (Nat × Byte) → Option (Nat × Word)
  | [(a, b0), (a1, b1), (a2, b2), (a3, b3)] =>
    if a % 4 = 0 ∧ a1 = a + 1 ∧ a2 = a + 2 ∧ a3 = a + 3 then some (a, wordOfBytes [b0, b1, b2, b3]) else none
  | _ => none

/-- Whether a region takes writes at an address at all (R365, R366); the fault log, save memory and OTP window read only, a write
of them being ignored. DEDUCED: log entry 76. -/
def takesWrites (a : Nat) : Bool :=
  match regionOf a with
  | .gap | .rom | .flash => false
  | .fabric => !fabGap a && !fabReadOnly a
  | .regs | .aonRegs => regAt a || inOtp a || inAltTable a
  | _ => true

/-- Bytes stored one by one. -/
def putBytes (l : List (Nat × Byte)) (s : State) : State := l.foldl (fun t e => setByte t (primary e.1) e.2) s

/-- A write of some bytes of one 64-byte line, or of one word, at its target; in the commit window the fabric holds one to its shadow bank,
and the initiator makes it again (R218). DEDUCED: log entry 17. -/
def busPut (who : Initiator) (l : List (Nat × Byte)) (s : State) : Ans × State :=
  match l with
  | [] => (.ok [], s)
  | (a, _) :: _ =>
    let word := wholeWord l
    let r := regionOf a
    let d := domainAt a
    if !takesWrites a || (isWordOnly r && word.isNone) then (.err, s)
    else if !(r == .regs || r == .aonRegs) && barred who a l.length s then (.err, s)
    else
    let s := accessWake who d s
    if !domainOn s d then (.wait, demandWake who d s)
    else if tokFull who a s then (.wait, s)
    else
      let s := touch d s
      if isWordOnly r then
        match word with
        | some (a, v) =>
          if fabHolds s a then (.wait, holdWrite (who, a, v) s)
          else
            let (good, t) := wordWrite who (releasedAt s (who, a, v)) v (heldGone (who, a, v) s)
            (if good then .ok [] else .err, t)
        | none => (.err, s)
      else (.ok [], putBytes l s)

/-- A write that RESUME has issued again, or that its channel left behind in OFF, reaches its target; the flag says whether it waits. One that
fails again halts the channel, but for one left behind (R353, R356, R357). -/
def dmaReissue (w : DmaWrite) (s : State) : Bool × State :=
  let gone (t : State) : State := setDma { t.dma with failed := t.dma.failed.erase w } t
  match busPut (.dma (Fin.ofNat 32 w.ch)) w.bytes s with
  | (.ok _, t) => (false, gone t)
  | (.wait, t) => (true, t)
  | (.err, t) =>
    (false, if w.stage = .left then gone t else if dmaState t w.ch = Dma.HALTED then dmaTold w t else dmaWriteError w false t)

/-- One more write issued again; a channel's writes keep their order, so those behind one that waits wait too (R21, R349). -/
def dmaReissueNext (r : List Nat × State) (w : DmaWrite) : List Nat × State :=
  if r.1.contains w.ch || !r.2.dma.failed.contains w then r
  else
    let q := dmaReissue w r.2
    (if q.1 then w.ch :: r.1 else r.1, q.2)

def dmaReissues (s : State) : State :=
  ((s.dma.failed.filter (fun w => w.stage == .again || w.stage == .left)).foldl dmaReissueNext ([], s)).2

/-- Whether an address lies in the DMA block (R362). -/
def inDma (l : List (Nat × Byte)) : Bool := l.any (fun p => decide (0x40070000 ≤ p.1) && decide (p.1 < 0x40080000))

/-- A write by an initiator; a RESUME among the writes of the DMA block issues the failed writes again at once (R356). -/
def busWrite (who : Initiator) (l : List (Nat × Byte)) (s : State) : Ans × State :=
  let r := busPut who l s
  if inDma l then (r.1, dmaReissues r.2) else r

/-- The bytes of a word at an address. -/
def wordBytes (a : Nat) (v : Word) : List (Nat × Byte) := (bytesOfWord v).zipIdx.map (fun p => (a + p.2, p.1))

def busWriteWord (who : Initiator) (a : Nat) (v : Word) (s : State) : Ans × State := busWrite who (wordBytes a v) s

def isCore : Initiator → Bool
  | .core _ => true
  | _ => false

/-- A byte of the boot ROM range (R367) and of the flash window (log entry 11). -/
def flashReset (_ : Nat) : Byte := 0xFF
/-- DESIGN CHOICE: log entry 11. -/
def flashByte (s : State) (o : Nat) : Byte := Store.get flashReset s.boot.flash o
/-- DESIGN CHOICE: log entry 9. -/
def romRead (s : State) (a : Nat) : Byte := if bootState s then Config.romByte a else 0

/-- A read of n bytes of one 64-byte line, or of one word. DEDUCED: log entry 17. -/
def busRead (who : Initiator) (a n : Nat) (s : State) : Ans × State :=
  let r := regionOf a
  let d := domainAt a
  if !readable s (isCore who) a n || (isWordOnly r && a % 4 != 0) then (.err, s)
  else
  let s := accessWake who d s
  if !domainOn s d then (.wait, demandWake who d s)
  else
    let s := touch d s
    match r with
    | .rom => (.ok ((List.range n).map (fun k => romRead s (a + k))), s)
    | .flash => (.ok ((List.range n).map (fun k => flashByte s (a - 0x80000000 + k))), s)
    | _ =>
      if isByteMem r then (.ok (getBytes s (primary a) n), s)
      else match wordRead who a s with
        | (some w, t) => (.ok (bytesOfWord w), t)
        | (none, t) => (.err, t)

/-- The word of an answer; zero where there is none. -/
def Ans.word : Ans → Word
  | .ok l => wordOfBytes l
  | _ => 0

/-! Host masters (R445, R446, R451). -/

/-- Whether the device answers at all: powered and out of power-on reset. -/
def up (s : State) : Bool := decide (2 ≤ sysState s)

/-- Whether master m may write an address although it is not the owner (R438, R451). -/
def anyMaster (m a : Nat) : Bool :=
  a == Reg.addr .SYS_OWNER_CLAIM 0 || a == Reg.addr .SYS_ACCEPT 0 || a == Reg.addr .HOSTIF_MSTAT_m m ||
    (m == 4 && decide (0x40030080 ≤ a) && decide (a < 0x400300C0))

/-- Addresses that JTAG reaches while debug is closed (R438). DEDUCED: log entry 39. -/
def jtagOpen (m a : Nat) (s : State) : Bool :=
  m != 4 || debugOpen s || (decide (0x40030080 ≤ a) && decide (a < 0x400300C0))

/-- Whether a write of an ownership register takes effect (R295, R452). DEDUCED: log entry 38. -/
def ownerTook (m a : Nat) (v : Word) (s : State) : Bool :=
  let t := fld v 2 0
  fld v 31 16 == 0x6400 &&
    (if a = Reg.addr .SYS_OWNER_CLAIM 0 then !bitOf v 1 && (!bitOf v 0 || !ownerValid s || ownerIdx s == m)
     else if a = Reg.addr .SYS_HANDOVER 0 then isOwner s m && t != 5 && t != 6 && t != m
     else !bitOf v 0 || (handoverPend s && s.f .SYS_OWNER 0 26 24 == m))

/-- The response byte of a write that was done: an accept by a master that is not the target counts as ignored (R452), and LINKCTL
is told of every ownership write without effect (R295). DEDUCED: log entry 38. -/
def doneCode (m a : Nat) (v : Word) (s : State) : Nat :=
  if a = Reg.addr .SYS_ACCEPT 0 ∧ fld v 31 16 = 0x6400 ∧ ownerTook m a v s = false then 0x82
  else if m = 3 ∧ isOwnerReg a = true ∧ ownerTook m a v s = false then 0x82
  else 0x80

/-- A LOADED write by a master that is not the owner sets SEC_STATUS.CFG_ERR as well (R427). DEDUCED: log entry 33. -/
def strayLoaded (a : Nat) (v : Word) (s : State) : State :=
  if a = Reg.addr .SEC_BOOT_CTRL 0 ∧ bitOf v 0 = true ∧ up s = true then cfgErr .SEC_BOOT_CTRL 0 s else s

/-- One write of a host master: none while it waits, else the response byte of R448; own tells that it has been accepted before, with the
rights its master then had (R452). DEDUCED: log entries 33, 35. -/
def hostWrite (own : Bool) (m : Fin 5) (a : Nat) (v : Word) (s : State) : Option Nat × State :=
  if !jtagOpen m.val a s || a % 4 != 0 then (some 0x81, s)
  else if sysState s = St.HALT ∧ a ≠ Reg.addr .AON_FAULT_CLR 0 ∧ !(a == Reg.addr .SYS_STATE_REQ 0 && beaten s 6) then (some 0x81, s)
  else if !own && !isOwner s m.val && !anyMaster m.val a then (some 0x82, strayLoaded a v (wign m.val s))
  else
    let code := doneCode m.val a v s
    match busWriteWord (.host m) a v s with
    | (.ok _, t) => (some code, t)
    | (.err, t) => (some 0x81, t)
    | (.wait, t) => (none, t)

/-- One read of a host master. -/
def hostRead (m : Fin 5) (a : Nat) (s : State) : Option (Nat × Word) × State :=
  if !jtagOpen m.val a s || a % 4 != 0 then (some (0x81, 0), s)
  else match busRead (.host m) a 4 s with
    | (.ok l, t) => (some (0x80, wordOfBytes l), t)
    | (.err, t) => (some (0x81, 0), t)
    | (.wait, t) => (none, t)

/-- LAST of a master, with the flag its code sets (R466). DEDUCED: log entry 36. -/
def setLast (m code : Nat) (s : State) : State :=
  let s := s.setF .HOSTIF_MSTAT_m m 7 0 code
  match code with
  | 0x81 => s.setBit .HOSTIF_MSTAT_m m 30 true
  | 0x83 => s.setBit .HOSTIF_MSTAT_m m 28 true
  | 0x84 => s.setBit .HOSTIF_MSTAT_m m 29 true
  | _ => s

/-- The answers of a master's last transaction. -/
def setAnswer (m : Nat) (l : List (Nat × Word)) (s : State) : State :=
  setHost { s.host with answer := (s.host.answer.filter (fun x => x.1 != m)) ++ [(m, l)] } s

/-- The one response of a write burst (R448): 0x80 only when every word was done, else the first other code. DEDUCED: log entry 36. -/
def burstCode (l : List (Nat × Word)) : Nat := ((l.find? (fun x => x.1 != 0x80)).map (fun x => x.1)).getD 0x80

/-- A transaction ends: LAST, its answers, and the response message of a tunnelled one (R297); one of the owner restarts its lease (R453). -/
def txDone (x : HostTx) (s : State) : State :=
  let s := leaseRenew x.m s
  let s := if x.m < 2 && x.write then setLast x.m (burstCode x.out) s else s
  let s := setAnswer x.m x.out s
  match x.msg with
  | some q =>
    let code := burstCode x.out
    let status := if code = 0x80 then 0 else if code = 0x82 then 2 else 1
    sendMsg (responseTo q status (if x.write then 0 else ((x.out.head?).map (fun e => e.2)).getD 0)) s
  | none => s

/-- An access of a transaction has ended with a code. DEDUCED: log entry 38. -/
def txNote (x : HostTx) (code : Nat) (s : State) : State :=
  if x.m < 2 && x.write then (if code = 0x81 ∨ code = 0x84 then s.setBit .HOSTIF_MSTAT_m x.m (if code = 0x81 then 30 else 29) true else s)
  else setLast x.m code s

/-- The access in hand waits: its time-out counts from now, or from where it counted before, and not while a domain wakes (R446). -/
def txWaits (x : HostTx) (s : State) : State :=
  let since := if !domainOn s (domainAt x.addr) then 0 else if x.since = 0 then s.time.hub + 1 else x.since
  setHost { s.host with tx := s.host.tx ++ [{ x with cred := true, own := x.write, since := since }] } s

/-- The fabric holds the later words of a request with the one it holds (R218). -/
def holdRest (who : Initiator) (l : List (Nat × Word)) (s : State) : State :=
  (l.filter (fun e => fabHolds s e.1)).foldl (fun t e => holdWrite (who, e.1, e.2) t) s

/-- The words of a write transaction, in order. -/
def txWrites (x : HostTx) : List Word → Nat → List (Nat × Word) → State → State
  | [], _, out, s => txDone { x with data := [], out := out } s
  | v :: t, a, out, s =>
    let r := hostWrite x.own (Fin.ofNat 5 x.m) a v s
    match r.1 with
    | some code => txWrites { x with own := false, since := 0 } t (a + 4) (out ++ [(code, 0)]) (txNote x code r.2)
    | none =>
      let rest := t.zipIdx.map (fun e => (a + 4 + 4 * e.2, e.1))
      txWaits { x with addr := a, data := v :: t, out := out }
        (if fabHolds r.2 a then holdRest (.host (Fin.ofNat 5 x.m)) rest r.2 else r.2)

/-- The words of a read transaction. -/
def txReads (x : HostTx) : Nat → Nat → List (Nat × Word) → State → State
  | 0, _, out, s => txDone { x with left := 0, out := out } s
  | n + 1, a, out, s =>
    let r := hostRead (Fin.ofNat 5 x.m) a s
    match r.1 with
    | some e => txReads { x with since := 0 } n (a + 4) (out ++ [e]) (txNote x e.1 r.2)
    | none => txWaits { x with addr := a, left := n + 1, out := out } r.2

/-- A transaction goes on with its accesses. -/
def txRun (x : HostTx) (s : State) : State :=
  if x.write then txWrites x x.data x.addr x.out s else txReads x x.left x.addr x.out s

/-- Whether the host channel's pool has no credit for a transaction; a write that ownership ignores draws none (R21). -/
def hostFull (x : HostTx) (s : State) : Bool :=
  decide (4 ≤ s.host.tx.countP (fun y => y.cred)) && !(x.write && !isOwner s x.m && !anyMaster x.m x.addr)

/-- A write burst of SPI longer than 16 words, of which nothing is written (R448). -/
def txTooLong (x : HostTx) : Bool := x.write && decide (x.m < 2) && decide (16 < x.data.length)

/-- A transaction starts, or waits behind the one its master has in progress or for a credit (R21, R446, R448). -/
def txSubmit (x : HostTx) (s : State) : State :=
  if s.host.tx.any (fun y => y.m == x.m) || (!txTooLong x && hostFull x s) then setHost { s.host with tx := s.host.tx ++ [x] } s
  else if txTooLong x then txDone { x with data := [], out := [(0x83, 0)] } s
  else txRun x (leaseRenew x.m (setHost { s.host with rr := (x.m + 1) % 5 } s))

/-- The transactions that hold no credit are submitted again, in the round robin of their masters (R21). -/
def hostServe (s : State) : State :=
  let idle := s.host.tx.filter (fun x => !x.cred)
  let turn := (List.range 5).flatMap (fun k => idle.filter (fun x => x.m == (s.host.rr + k) % 5))
  turn.foldl (fun t x => txSubmit x t) (setHost { s.host with tx := s.host.tx.filter (fun x => x.cred) } s)

/-- A transaction of master m that starts now. -/
def hostTx (m : Fin 5) (a : Nat) (write : Bool) (data : List Word) (n : Nat) (s : State) : State :=
  if up s && jtagOpen m.val a s then txSubmit ⟨m.val, a, write, data, n, [], none, false, false, 0⟩ s else s

/-- A control-channel message from link l (R293 to R298). DEDUCED: log entry 30. -/
def messageStep (l : Nat) (m : Msg) (s : State) : State :=
  match m.kind with
  | .other => badMsg s
  | .reroute => rerouteReceive l (fld m.addr 7 0) (fld m.addr 15 8) s
  | .readReq =>
    if m.dst.val ≠ myPos s then forward m s
    else if m.src.val ≠ 0 then badMsg s
    else txSubmit ⟨3, m.addr.toNat, false, [], 1, [], some m, false, false, 0⟩ s
  | .writeReq =>
    if m.dst.val ≠ myPos s then forward m s
    else if m.src.val ≠ 0 then badMsg s
    else txSubmit ⟨3, m.addr.toNat, true, [m.data], 0, [], some m, false, false, 0⟩ s
  | .owner =>
    if m.dst.val ≠ myPos s then forward m s
    else if m.src.val ≠ 0 then badMsg s
    else if !isOwnerReg m.addr.toNat then sendMsg (responseTo m 1 0) s
    else txSubmit ⟨3, m.addr.toNat, true, [m.data], 0, [], some m, false, false, 0⟩ s
  | .readResp => if m.dst.val ≠ myPos s then forward m s else tunnelResponse m s
  | .writeResp => if m.dst.val ≠ myPos s then forward m s else tunnelResponse m s

/-- HOST_TIMEOUT (R446): the access in hand ends as a bus error, once it has had no response for 4096 HUBCLK cycles but those that it waited
for a domain to wake. DEDUCED: log entry 37. -/
def hostTimeout (m : Fin 5) (s : State) : State :=
  match s.host.tx.find? (fun y => y.m == m.val && y.cred) with
  | none => s
  | some x =>
    if !domainOn s (domainAt x.addr) || x.since == 0 || decide (s.time.hub + 1 < x.since + 4096) then s
    else
      let rest := s.host.tx.erase x
      let mine := rest.filter (fun y => y.m == m.val)
      let s := dropHeld (.host m) (txNote x 0x84 (setHost { s.host with tx := rest.filter (fun y => y.m != m.val) } s))
      let s :=
        if x.write then txWrites { x with own := false, since := 0 } x.data.tail (x.addr + 4) (x.out ++ [(0x84, 0)]) s
        else txReads { x with since := 0 } (x.left - 1) (x.addr + 4) (x.out ++ [(0x84, 0)]) s
      hostServe (setHost { s.host with tx := s.host.tx ++ mine } s)

/-! Writes by other initiators, and what has waited. -/

/-- The accesses of an initiator that may be outstanding at once (R21). -/
def poolSize : Initiator → Nat
  | .dma _ => 2
  | _ => 8

/-- Whether an initiator's pool has no credit for one more access: those of the stroke engine share one pool (R21, R22). -/
def poolFull (who : Initiator) (s : State) : Bool :=
  let mine (x : Initiator) : Bool := x == who || (isStroke who && isStroke x)
  decide (poolSize who ≤ (s.pwr.stalled.filter (fun x => mine x.who)).length +
    (s.fab.held.filter (fun e => isStroke who && isStroke e.1)).length)

/-- A write of one word by an initiator that is no host master: a core's bus error is recorded (R307); without a credit it is not made yet.
One of the stroke engine that the commit window holds lands at its end (R218). -/
def plainAccess (x : Access) (s : State) : State :=
  match x.write with
  | none => s
  | some v =>
    if poolFull x.who s then setPwr { s.pwr with stalled := s.pwr.stalled ++ [x] } s
    else
    match busWriteWord x.who x.addr v s with
    | (.ok _, t) => t
    | (.err, t) => (match x.who with | .core c => storeError c.val x.addr t | _ => t)
    | (.wait, t) =>
      if isStroke x.who && t.fab.held.any (fun e => e.1 == x.who) then t
      else setPwr { t.pwr with stalled := t.pwr.stalled ++ [x] } t

/-- In HALT no initiator but a host master starts an access (R367). -/
def mayStart (who : Initiator) (s : State) : Bool :=
  match who with
  | .host _ => true
  | _ => sysState s != St.HALT

/-- A write of one word by any initiator. DEDUCED: log entry 17. -/
def access (who : Initiator) (a : Nat) (v : Word) (s : State) : State :=
  if !up s || !mayStart who s then s
  else match who with
    | .host m => hostTx m a true [v] 0 s
    | _ => plainAccess ⟨who, a, some v⟩ s

/-- A write of a register by any initiator. DEDUCED: log entry 72. -/
def rowWrite (who : Initiator) (r : RegName) (i : Nat) (v : Word) (s : State) : State := access who (Reg.addr r i) v s

/-! The writes of a stroke step (R192, R193). -/

/-- The address an entry writes, or none for an address error (R192). -/
def entryAddr (s : State) (t : Word) : Option Nat :=
  let a := t.toNat / 4 * 4
  if !strokeArea a then none else if bitOf t 0 then strokeRel s a else some a

/-- The writes of a step, in order, those the commit window holds among them: the halt they end in, if any, and the entries that have no
credit or wait for their target (R21, R218). -/
def strokeWrites (who : Initiator) : List (Word × Word) → State → Option (Nat × Nat) × List (Word × Word) × State
  | [], s => (none, [], s)
  | (t, d) :: l, s =>
    match entryAddr s t with
    | none => (some (2, t.toNat / 4 * 4), [], s)
    | some a =>
      if fabHolds s a && poolFull who s then (none, (t, d) :: l, s)
      else match busWriteWord who a d s with
        | (.err, u) => (some (3, a), [], u)
        | (.ok _, u) => strokeWrites who l u
        | (.wait, u) => if fabHolds u a then strokeWrites who l u else (none, (t, d) :: l, u)

/-- The writes l of a channel's step are made: the channel requests its commit, waits for the writes that are held or left, or halts (R193,
R195). -/
def strokePut (n : Nat) (k : Stroke) (l : List (Word × Word)) (s : State) : State :=
  let who : Initiator := .stroke (Fin.ofNat 8 n)
  match strokeWrites who l s with
  | (some (err, a), _, u) => haltStroke n err a u
  | (none, rest, u) =>
    let waits := u.fab.held.any (fun e => e.1 == who) || !rest.isEmpty
    let u := setStroke { k with begun := true, blocked := waits, accepted := !waits, rest := rest } u
    if waits || k.mask % 65536 = 0 then u else request (maskGroups (k.mask % 65536)) [n] u

/-- The entries that waited for a credit go on, outside HALT (R21, R367). -/
def strokeGoOn (n : Nat) (s : State) : State :=
  match strokeOf s n with
  | some k => if k.rest.isEmpty || sysState s == St.HALT then s else strokePut n k k.rest s
  | none => s

/-- Accesses that wait are tried again: a domain has become ready, a token entry has freed, or the commit window has ended. -/
def retryAll (s : State) : State :=
  let waiting := s.pwr.stalled
  let txs := s.host.tx
  let s := waiting.foldl (fun t x => plainAccess x t) (setPwr { s.pwr with stalled := [] } (dmaReissues s))
  let s := (List.range 8).foldl (fun t n => strokeGoOn n t) s
  let s := (txs.filter (fun x => x.cred)).foldl (fun t x => txRun x t) (setHost { s.host with tx := [] } s)
  hostServe (setHost { s.host with tx := s.host.tx ++ txs.filter (fun x => !x.cred) } s)

end Sys2Proof.Machine
end

