-- ==== Sys2Proof/Machine/Movers.lean ====
section
/-! DEFINITION. Accesses that the device makes for itself: DMA descriptors (12_dma.md R343 to R357), stroke steps
(06_safe_load.md R191 to R195) and the uncached accesses of the cores (04 R101, R102; 11 R307). -/

namespace Sys2Proof.Machine

/-! DMA. -/

def dmaCompat (s : State) (n : Nat) : Bool := s.bit .DMA_CH_n_CFG n 0

/-- Bytes of a descriptor that have been written. -/
def DmaJob.written (j : DmaJob) : Nat := if j.dstFix then 4 * j.wr else min j.len (j.dst / 4 * 4 + 4 * j.wr - j.dst)

/-- The last two writes of a channel may still be without an answer (R21). -/
def dmaSent (w : DmaWrite) (s : State) : State :=
  setDma { s.dma with sent := w :: (s.dma.sent.filter (fun x => x.ch == w.ch)).take 1 ++ s.dma.sent.filter (fun x => x.ch != w.ch) } s

/-- One access of a descriptor's data (R349). The flag says whether the channel goes on; the job that is answered is the job after
the access. With defer a write error of a descriptor without FENCE comes late (R357): the channel goes on, and the write is noted. -/
def dmaAccess (defer : Bool) (j : DmaJob) (s : State) : Bool × DmaJob × State :=
  let who : Initiator := .dma (Fin.ofNat 32 j.ch)
  if j.dir = 1 then
    let (l, t) := dmaBytes j j.writeBytes j.buf s
    let j' := { j with wr := j.wr + 1, buf := j.buf.drop l.length }
    let w : DmaWrite := ⟨j.ch, j.writeAddr, l, .sent, false⟩
    let more (t : State) : State := t.setReg .DMA_CH_n_REMAIN j.ch (BitVec.ofNat 32 (j.len - j'.written))
    match busWrite who l t with
    | (.ok _, t) => (true, j', more (dmaSent w t))
    | (.err, t) =>
      if defer && !j.fence then (true, j', more (setDma { t.dma with failed := t.dma.failed ++ [{ w with stage := .failed }] } t))
      else (false, j, dmaHalt j.ch 2 0 j.writeAddr 1 false false (putJob j s))
    | (.wait, t) => (false, j, putJob j t)
  else if j.dir = 0 then
    match busRead who j.readAddr 4 s with
    | (.ok l, t) =>
      let keep := (l.zipIdx.filter (fun p => j.srcFix || (decide (j.src ≤ j.readAddr + p.2) && decide (j.readAddr + p.2 < j.src + j.len)))).map
        (fun p => p.1)
      (true, { j with rd := j.rd + 1, buf := j.buf ++ keep }, t)
    | (.err, t) => (false, j, dmaHalt j.ch 2 0 j.readAddr 0 false false (putJob j t))
    | (.wait, t) => (false, j, putJob j t)
  else (false, j, s)

/-- A channel moves on for at most n accesses, as long as it is in RUN; when none is left its descriptor completes. DEDUCED: log entry 40. -/
def dmaRun (defer : Bool) : Nat → DmaJob → State → State
  | 0, j, s => if dmaState s j.ch = Dma.RUN then (if j.dir = 3 then dmaComplete j s else putJob j s) else s
  | n + 1, j, s =>
    if dmaState s j.ch ≠ Dma.RUN then s
    else if j.dir = 3 then dmaComplete j s
    else
      let (more, j', t) := dmaAccess defer j s
      if more then dmaRun defer n j' t else t

/-- A channel that may act: RUN, with the hub domain on, outside HALT (R358). -/
def dmaActive (s : State) (n : Nat) : Bool := dmaState s n == Dma.RUN && domainOn s 2 && sysState s != St.HALT

/-- DESCRIPTOR_COMPLETE: the writes that RESUME has issued again come first; then the data of the descriptor moves and it completes.
DEDUCED: log entry 40. -/
def dmaMove (defer : Bool) (n : Nat) (s : State) : State :=
  let s := dmaReissues s
  match jobOf s n with
  | some j => if j.stage = .move ∧ dmaActive s n then dmaRun defer (j.reads + j.writes) j s else s
  | none => s

/-- One more word read from the run at address a, after those read already. -/
def moreWords (who : Initiator) (a : Nat) (r : Option (Except Nat (List Word)) × State) : Option (Except Nat (List Word)) × State :=
  match r.1 with
  | some (.ok l) =>
    match busRead who (a + 4 * l.length) 4 r.2 with
    | (.ok b, t) => (some (.ok (l ++ [wordOfBytes b])), t)
    | (.err, t) => (some (.error (a + 4 * l.length)), t)
    | (.wait, t) => (none, t)
  | some (.error _) => r
  | none => r

/-- n words from address a, or the address of the read that failed, or none where one waits. DEDUCED: log entry 41. -/
def busWords (who : Initiator) (a n : Nat) (s : State) : Option (Except Nat (List Word)) × State :=
  (List.range n).foldl (fun r _ => moreWords who a r) (some (.ok []), s)

/-- DESCRIPTOR_FETCH (R343, R346): a fetch that an error ends is counted again when RESUME makes it again. -/
def dmaFetchStep (n : Nat) (s : State) : State :=
  match jobOf s n with
  | none => s
  | some j =>
    match j.stage with
    | .fetch counted =>
      if !dmaActive s n then s
      else
        let cur := (s.reg .DMA_CH_n_CUR n).toNat
        match dmaBegin n counted s with
        | (false, t) => t
        | (true, s) =>
          match busWords (.dma (Fin.ofNat 32 n)) cur 8 (putJob { j with stage := .fetch false } s) with
          | (none, t) => t
          | (some (.error a), t) => dmaHalt n 2 0 a 2 false false (putJob { j with stage := .fetch true } t)
          | (some (.ok l), t) =>
            let j : DmaJob := ⟨n, .move, l, 0, 0, []⟩
            let r := progReason (dmaCompat t n) j
            if r ≠ 0 then dmaHalt n 1 r cur 2 false false t
            else
              let t := putJob j (t.setReg .DMA_CH_n_REMAIN n (BitVec.ofNat 32 j.len))
              if j.len = 0 then dmaComplete j t else t
    | _ => s

/-- Whether a channel can take an error (R341, R357): one in HALTED does not latch it (R356). -/
def dmaTakes (s : State) (n : Nat) : Bool :=
  dmaState s n == Dma.RUN || dmaState s n == Dma.IDLE || dmaState s n == Dma.PAUSED

/-- The response to a write, in error, arrives at its channel (R356, R357). -/
def dmaResponse (w : DmaWrite) (timeout : Bool) (s : State) : State :=
  if dmaTakes s w.ch then dmaWriteError w timeout s else dmaTold w s

/-- DMA_BUS_ERROR: an access of the channel is answered with a bus error, or the answer to a write that it has made before, named by its
address, arrives (R356, R357). -/
def dmaBusError (n : Nat) (late : Option Word) (s : State) : State :=
  match late with
  | some a =>
    match s.dma.failed.find? (fun w => w.ch == n && w.addr == a.toNat && w.stage == .failed) with
    | some w => dmaResponse w false s
    | none => s
  | none =>
    let t := dmaMove false n (dmaFetchStep n s)
    if dmaState t n = Dma.HALTED ∧ dmaErr t n = 2 then t else s

/-- A write that the channel has made gets no response (R355, R357). -/
def dmaLateTimeout (n a : Nat) (s : State) : State :=
  match s.dma.sent.find? (fun w => w.ch == n && w.addr == a) with
  | some w =>
    let f : DmaWrite := { w with stage := .failed }
    dmaResponse f true (setDma { s.dma with sent := s.dma.sent.erase w, failed := s.dma.failed ++ [f] } s)
  | none => s

/-- DMA_TIMEOUT: after some accesses of the descriptor, the next one has no response (R355); or a write that the channel has made before,
named by its address. An access to a domain that is not on wakes it and is no timeout (R368). DEDUCED: log entry 40. -/
def dmaTimeout (n : Nat) (what : Unanswered) (s : State) : State :=
  match what, jobOf s n with
  | .earlier a, _ => dmaLateTimeout n a.toNat s
  | .next _, none => s
  | .next after, some j =>
    if !dmaActive s n then s
    else
      let t := if j.stage = .move then dmaRun true (min after (j.reads + j.writes - j.rd - j.wr - 1)) j s else s
      match jobOf t n with
      | none => s
      | some j =>
        let a := j.next t
        if dmaState t n ≠ Dma.RUN ∨ j.dir = 3 then s
        else if !domainOn t (domainAt a) then demandWake (.dma (Fin.ofNat 32 n)) (domainAt a) t
        else match j.stage with
          | .fetch counted =>
            (match dmaBegin n counted t with
            | (false, t) => t
            | (true, t) => dmaHalt n 2 0 a 2 true false (putJob { j with stage := .fetch true } t))
          | _ => dmaHalt n 2 0 a j.dir true false t

/-! Stroke steps. -/



/-- The entries of a step, in pairs. -/
def entryPairs : List Word → List (Word × Word)
  | a :: b :: t => (a, b) :: entryPairs t
  | _ => []

/-- Domains that the entries of a step write to and that are not on. -/
def strokeAsleep (s : State) (l : List (Word × Word)) : List Nat :=
  (l.filterMap (fun e => (entryAddr s e.1).map domainAt)).filter (fun d => !domainOn s d)

/-- STROKE_STEP (R193, R195): STAT.STEP names the step once it begins, or halts the channel (R199). DEDUCED: log entry 41. -/
def strokeStep (n : Nat) (s : State) : State :=
  match strokeOf s n with
  | none => s
  | some k =>
    let who : Initiator := .stroke (Fin.ofNat 8 n)
    let named (t : State) : State := t.setF .SAFE_STROKE_n_STAT n 7 0 k.step
    if !turnsOn s || !domainOn s 2 || k.fin || k.begun || k.due != 0 then s
    else match busWords who k.addr 2 s with
      | (none, t) => t
      | (some (.error a), t) => haltStroke n 1 a (named t)
      | (some (.ok h), t) =>
        let h0 := h.getD 0 0
        let count := fld h0 23 16
        let mask := fld h0 15 0
        if headerBad h0 (h.getD 1 0) then haltStroke n 6 k.addr (named t)
        else match busWords who (k.addr + 8) (2 * count) t with
          | (none, t) => t
          | (some (.error a), t) => haltStroke n 1 a (named t)
          | (some (.ok l), t) =>
            let es := entryPairs l
            match es.zipIdx.find? (fun e => bitOf e.1.1 1) with
            | some e => haltStroke n 6 (k.addr + 8 + 8 * e.2) (named t)
            | none =>
              if mask &&& k.groups ≠ mask then haltStroke n 4 k.addr (named t)
              else
                let asleep := strokeAsleep t es
                if !asleep.isEmpty then asleep.foldl (fun u d => demandWake who d u) t
                else strokePut n { k with mask := h0.toNat } es (named t)

/-! The cores' accesses to memory. -/

/-- The accesses that an entry makes: one of all its bytes in byte memory, one a word elsewhere; a denied store is one. -/
def wordRuns4 : List (Nat × Byte) → List (List (Nat × Byte))
  | a :: b :: c :: d :: t => [a, b, c, d] :: wordRuns4 t
  | [] => []
  | l => [l]

def WEntry.accesses (e : WEntry) : List (List (Nat × Byte)) :=
  if e.kind == .bus && isWordOnly (regionOf e.addr) then wordRuns4 e.data else [e.data]

/-- The accesses of an entry are made in turn: those that are left where one has to wait, the first address answered with a bus error,
and the state after. The fabric holds the words of one request together (R218). -/
def drainBus (c : Fin 16) : List (List (Nat × Byte)) → State → List (List (Nat × Byte)) × Option Nat × State
  | [], s => ([], none, s)
  | l :: t, s =>
    match busWrite (.core c) l s with
    | (.wait, u) =>
      (l :: t, none, if l.any (fun p => fabHolds u p.1) then holdRest (.core c) (t.filterMap wholeWord) u else u)
    | (.ok _, u) => drainBus c t u
    | (.err, u) => let (r, _, v) := drainBus c t u; (r, (l.head?).map (fun p => p.1), v)

/-- A store to a cached region leaves the buffer for its line (R303): it is brought in first if the core does not hold it, and the
loads that wait for it take their values before it is written. none where it has to wait. DESIGN CHOICE: log entry 65. -/
def drainCache (c : Fin 16) (e : WEntry) (s : State) : Option State :=
  (fillLine c.val e.addr s).map (fun t => e.data.foldl (fun u p => writeLine c.val p.1 [p.2] u) (lineArrives c.val e.addr t))

/-- Whether a store has to wait for an older load of the core that still waits for a sleeping domain: one of its bytes, or a register load
for a register store (R99, R370). -/
def behindLoad (s : State) (c : Fin 16) (e : WEntry) : Bool :=
  s.core.pend.any (fun l => l.core == c.val && l.unread &&
    (e.data.any (fun p => decide (l.addr ≤ p.1) && decide (p.1 < l.addr + loadSize l.kind)) || (isRegs l.addr && isRegs e.addr)))

/-- The oldest entry of core c's write buffer leaves for its target: the address of a bus error if there is one, and the state after;
what has to wait stays at the head. -/
def drainOne (c : Fin 16) (s : State) : Option Nat × State :=
  match takeFirst (fun e : WEntry => e.core == c.val) s.core.wbuf with
  | none => (none, s)
  | some (e, rest) =>
    let gone (t : State) : State := { t with core := { t.core with wbuf := rest } }
    let d := domainAt e.addr
    match e.kind with
    | .deny => ((e.data.head?).map (fun p => p.1), gone s)
    | .cache =>
      if (lineAt s c.val e.addr).isNone && !domainOn s d then (none, demandWake (.core c) d s)
      else (none, ((drainCache c e (gone (if (lineAt s c.val e.addr).isNone then touch d s else s))).getD s))
    | .bus =>
      if behindLoad s c e then (none, s) else
      match drainBus c e.accesses s with
      | ([], r, t) => (r, gone t)
      | (l, r, t) => (r, { t with core := { t.core with wbuf := s.core.wbuf.map (fun x => if x = e then { e with data := l.flatten } else x) } })

/-- WRITE_BUFFER_DRAIN (R102). -/
def drainStep (c : Fin 16) (s : State) : State :=
  match drainOne c s with
  | (some a, t) => storeError c.val a t
  | (none, t) => t

/-- STORE_BUS_ERROR (R307): the entry's target answers with a bus error. DEDUCED: log entry 43. -/
def storeErrorStep (c : Fin 16) (s : State) : State :=
  match drainOne c s with
  | (some a, t) => storeError c.val a t
  | (none, _) => s

/-- Whether a buffered store of core c covers a byte of [a, a + n). -/
def storedIn (s : State) (c a n : Nat) : Bool :=
  (wbufOf s c).any (fun e => e.data.any (fun p => decide (a ≤ p.1) && decide (p.1 < a + n)))

/-- UNCACHED_LOAD_RESPONSE (R101): the oldest load of the core that went to memory itself is answered; one that found its domain asleep
reads now, once the domain is on (R368). An error that has come up since then leaves the value open. DEDUCED: log entry 42. -/
def uncachedResponse (c : Fin 16) (s : State) : State :=
  match takeFirst (fun l : PendLoad => l.core == c.val && !isCached (regionOf l.addr)) s.core.pend with
  | none => s
  | some (l, rest) =>
    let gone (t : State) : State := { t with core := { t.core with pend := rest } }
    if l.unread then
      match busRead (.core c) l.addr (loadSize l.kind) s with
      | (.ok b, t) => deliverLoad l b (gone t)
      | (.wait, t) => t
      | (.err, t) => let (x, t) := draw t; deliverLoad l (bytesOfWord (BitVec.ofNat 32 x)) (gone t)
    else deliverLoad l (List.replicate (loadSize l.kind) 0) (gone s)

/-- LINE_FILL (R101, R368): the line arrives, once its domain is on and its set has room, and every load of the core that waits for it
takes its value. -/
def lineFillStep (c : Fin 16) (a : Nat) (s : State) : State :=
  if !s.core.pend.any (waitsFor c.val a) then s
  else if (lineAt s c.val a).isSome then lineArrives c.val a s
  else if !domainOn s (domainAt a) then demandWake (.core c) (domainAt a) s
  else ((fillLine c.val a (touch (domainAt a) s)).map (lineArrives c.val a)).getD s

/-! The words of a core. -/

/-- Whether a load goes to memory itself: it is neither cached nor refused. -/
def CoreAcc.direct (a : CoreAcc) : Bool := a.isLoad && !isCached (regionOf a.ea)

/-- The trap a core's access takes at issue (R122): alignment first; then, for a load, a target that is not readable, or register
space for an LDX (R121). -/
def accTrap (s : State) (a : CoreAcc) : Option Cause :=
  if a.ea % a.size ≠ 0 then some .align
  else match a with
    | .load ea k _ => if readable s true ea (loadSize k) && !(k == .sample && regionOf ea == .regs) then none else some .load
    | .store .. => none

/-- The write buffer after the stores of a word. -/
def wbufAfter (c : Nat) (accs : List CoreAcc) (s : State) : State :=
  accs.foldl (fun t a => match a with
    | .store ea n v x => wbufPut c ea (storeKind ea n x) (bytesLE n v) t
    | .load .. => t) s

/-- Requests of a core that have no answer yet (R21): its uncached loads, and the lines that its other loads wait for. -/
def coreRequests (l : List PendLoad) : Nat :=
  (l.filter (fun x => !isCached (regionOf x.addr))).length +
    ((l.filter (fun x => isCached (regionOf x.addr))).map (fun x => lineOf x.addr)).eraseDups.length

/-- A load that waits among those that have not arrived, with the bytes it has. -/
def waitLoad (s : State) (c ea : Nat) (k : LoadKind) (dst : Nat) (data : List (Nat × Byte)) : PendLoad :=
  let p := if dst = 0 then 0 else physIdx (getRrb s c) dst
  ⟨c, p, ea, k, decide (p ≠ 0), data⟩

/-- The loads of a word that will have to wait. -/
def newLoads (s : State) (c : Nat) (accs : List CoreAcc) : List PendLoad :=
  accs.filterMap (fun a => match a with
    | .load ea k dst =>
      if (regionOf ea == .localMem && domainOn s (domainAt ea)) || (isCached (regionOf ea) && (lineAt s c ea).isSome) then none
      else some (waitLoad s c ea k dst [])
    | .store .. => none)

/-- Whether a word's accesses have to wait: a register load for earlier register stores (R370), an uncached load for the core's earlier
stores to its bytes, the stores for room in the write buffer (R102), the loads for a request credit (R21). A store that merges finds room in
a full buffer. DESIGN CHOICE: log entry 97; DEDUCED: log entry 42. -/
def accsWait (s : State) (c : Nat) (accs : List CoreAcc) : Bool :=
  accs.any (fun a => (a.direct && regionOf a.ea != .localMem && storedIn s c a.ea a.size) ||
    (a.isLoad && isRegs a.ea && (wbufOf s c).any (fun e => isRegs e.addr))) ||
  (accs.any (fun a => !a.isLoad) && decide (8 < (wbufOf (wbufAfter c accs s) c).length)) ||
  (!(newLoads s c accs).isEmpty && decide (8 < coreRequests (s.core.pend.filter (fun l => l.core == c) ++ newLoads s c accs)))

/-- Whether a read of a sleeping domain will be answered with a bus error: a word of its memory holds a double-bit error. -/
def sleepError (c : Fin 16) (a : Nat) (s : State) : Bool := isWordOnly (regionOf a) && (wordRead (.core c) a s).1.isNone

/-- One more load of a word is answered by its target; one of a domain that is not on has no bytes yet (R101, R368). -/
def findLoad (c : Fin 16) (r : Option (List (List Byte)) × State) (a : CoreAcc) : Option (List (List Byte)) × State :=
  match r.1 with
  | none => r
  | some l =>
    match busRead (.core c) a.ea a.size r.2 with
    | (.ok b, u) => (some (l ++ [b]), u)
    | (.err, u) => (none, u)
    | (.wait, u) => (if sleepError c a.ea u then none else some (l ++ [[]]), u)

/-- The bytes that the loads of a word find in memory itself, in order; none where one is answered with a bus error. -/
def findLoads (c : Fin 16) (l : List CoreAcc) (s : State) : Option (List (List Byte)) × State := l.foldl (findLoad c) (some [], s)

/-- A load takes its value, from memory bytes b where it goes to memory itself: at once from core local memory or a line its cache
holds, behind its own buffered stores; another waits for LINE_FILL or UNCACHED_LOAD_RESPONSE, without bytes where its domain
sleeps. s0 is the state before the word (R91). -/
def loadDo (s0 : State) (c ea : Nat) (k : LoadKind) (dst : Nat) (b : List Byte) (s : State) : State :=
  let n := loadSize k
  let own (w : WKind) : List (Nat × Byte) := (List.range n).filterMap (fun j => (ownByte s0 c w (ea + j)).map (fun x => (ea + j, x)))
  let now (l : List Byte) : State := writeReg c dst (loadValue k l) s
  let wait (data : List (Nat × Byte)) : State :=
    let x := waitLoad s0 c ea k dst data
    let older := s.core.pend.map (fun y : PendLoad => if y.core = c ∧ y.dst = x.dst then { y with live := false } else y)
    { s with core := { s.core with pend := older ++ [x] } }
  if regionOf ea == .localMem && !b.isEmpty then now (overBytes ea (own .bus) b)
  else if isCached (regionOf ea) then
    match lineAt s0 c ea with
    | some l => now (overBytes ea (own .cache) (lineBytes l ea n))
    | none => wait (own .cache)
  else wait (addrBytes ea b)

/-- The operations of a word are carried out: loads and results in slot order, b the bytes of the loads that go to memory. -/
def coreOps (s0 : State) (c : Nat) : List Op → List (List Byte) → State → State
  | [], _, s => s
  | o :: t, b, s =>
    match o.cacc s0 c with
    | some (.load ea k dst) =>
      if isCached (regionOf ea) then coreOps s0 c t b (o.fx s0 c (loadDo s0 c ea k dst [] s))
      else coreOps s0 c t b.tail (o.fx s0 c (loadDo s0 c ea k dst (b.headD []) s))
    | _ => coreOps s0 c t b (o.fx s0 c s)

/-- A core executes the word at its pc, made of one operation or of the two of a pair (R70, R91, R94, R99, R122). A word the
core cannot issue yet changes nothing: the core is not running, is in FENCE, waits for a loaded register, for its write buffer or for
memory. A trap takes the place of the word; where both slots would trap, slot A's cause
stands (log entry 78). The word's stores enter the write buffer after its loads have read (R91). DESIGN CHOICE: log entries 1, 18; DEDUCED: log
entry 42. -/
def coreWord (c : Fin 16) (ops : List Op) (s : State) : State :=
  let pc := getPc s c
  if !coreRuns s c || s.core.fence.contains c.val then s
  else if !canFetch s pc.toNat then trapEnter c .fetch 0 pc s
  else if !ops.all (fun o => o.legal c) then trapEnter c .undef 0 pc s
  else if ops.any (fun o => o.srcs.any (fun r => regPending s c r)) then s
  else
    let accs := ops.filterMap (fun o => o.cacc s c)
    match accs.findSome? (fun a => accTrap s a) with
    | some k => trapEnter c k 0 pc s
    | none =>
      if accsWait s c accs then s
      else match findLoads c (accs.filter CoreAcc.direct) s with
        | (none, t) => trapEnter c .load 0 pc t
        | (some b, t) => wbufAfter c accs (coreOps s c ops b (setPc c (pc + 4) t))

/-! Parity (R308, R309). -/

/-- A clean line with an error is fetched again (R308); while its domain sleeps it leaves, and the domain wakes. -/
def refetchLine (c : Fin 16) (a : Nat) (s : State) : State :=
  let s := { s with core := { s.core with dcache := s.core.dcache.filter (fun x => !(x.core == c.val && x.addr == lineOf a)) } }
  if domainOn s (domainAt a) then (fillLine c.val a (touch (domainAt a) s)).getD s else demandWake (.core c) (domainAt a) s

/-- PARITY_FAULT (R308, R309); line is the data-cache line in error, if it is one. A recovered error is counted, and a clean line is
fetched again; a dirty line that faults is discarded. -/
def parityFaultStep (c : Fin 16) (recovered : Bool) (line : Option Word) (s : State) : State :=
  let held := line.bind (fun a => lineAt s c.val a.toNat)
  let dirty := (held.map (fun l => l.dirty)).getD false
  if !alive s || coreGone s c then s
  else if recovered then
    if dirty then s
    else count24 .SCHED_PAR_CORR 0 none (match held with | some l => refetchLine c l.addr s | none => s)
  else if !(coreMode s c == 1 || coreMode s c == 2) then s
  else
    let s : State := match held with
      | some l => if dirty then
          ({ s with core := { s.core with dcache := s.core.dcache.filter (fun x => !(x.core == c.val && x.addr == l.addr)) } }
            : State).setBit .SCHED_CORE_n_STAT c 23 true
        else s
      | none => s
    let n := s.f .SCHED_CORE_n_STAT c 26 24 + 1
    let s := s.setF .SCHED_CORE_n_STAT c 26 24 n
    if 4 ≤ n then coreFourth c s else trapEnter c .parity 0 (getPc s c) s

end Sys2Proof.Machine
end

