-- ==== Sys2Proof/Machine/Alu.lean ====
section
/-! DEFINITION. Register arithmetic, logic, shifts, bit fields, counts, multiply and divide, DICE, and the short operations
on registers (R103 to R114, R126). Every word, long or pair, is one or two operations given to unitWord. -/

namespace Sys2Proof.Machine

open Host (Outcome)

/-- A step's answer. -/
abbrev Answer := Outcome State Fault Refusal

/-- A word of either profile. -/
def unitWord (u : Agent) (ops : List Op) (s : State) : State :=
  match u with
  | .core c => coreWord c ops s
  | .eng pe => engWord pe.val ops s

/-- Fields defined for registers read and a register written (R92). -/
def legalRW (reads writes : List Nat) (h : Nat) : Bool :=
  reads.all (fun r => legalRead h r) && writes.all (fun r => legalWrite h r)

/-- An operation that writes a result and flags to rd; f takes the width and the operand values. -/
def resOp (rd : Nat) (reads : List Nat) (f : Nat → List Nat → Res) : Op :=
  Op.plain (legalRW reads [rd]) reads (fun s0 h s =>
    let r := f (widthOf h) (reads.map (fun x => readReg s0 h x))
    putFlags h r.flg (writeReg h rd r.val s))

/-- An operation that writes flags alone (R103). -/
def flagOp (reads : List Nat) (f : Nat → List Nat → Res) : Op :=
  Op.plain (legalRW reads []) reads (fun s0 h s => putFlags h (f (widthOf h) (reads.map (fun x => readReg s0 h x))).flg s)

/-- An operation that writes a value and no flag. -/
def valOp (rd : Nat) (reads : List Nat) (f : Nat → List Nat → Nat) : Op :=
  Op.plain (legalRW reads [rd]) reads (fun s0 h s => writeReg h rd (f (widthOf h) (reads.map (fun x => readReg s0 h x))) s)

/-- Operand k of a list of values. -/
def opnd (l : List Nat) (k : Nat) : Nat := l.getD k 0

/-- An immediate sign-extended to W bits (R78). -/
def immS {n : Nat} (W : Nat) (i : BitVec n) : Nat := toU W (sxN n i.toNat)

/-- Two operands to a result. -/
def res2 (f : Nat → Nat → Nat → Res) (W : Nat) (l : List Nat) : Res := f W (opnd l 0) (opnd l 1)

/-- ADD (R103). -/
def execAdd (u : Agent) (rd rs rt : Fin 32) (s : State) : Answer :=
  .next (unitWord u [resOp rd [rs.val, rt.val] (res2 aluAdd)] s)

/-- SUB (R103). -/
def execSub (u : Agent) (rd rs rt : Fin 32) (s : State) : Answer :=
  .next (unitWord u [resOp rd [rs.val, rt.val] (res2 aluSub)] s)

/-- ADDS (R104). -/
def execAdds (u : Agent) (rd rs rt : Fin 32) (s : State) : Answer :=
  .next (unitWord u [resOp rd [rs.val, rt.val] (res2 aluAdds)] s)

/-- SUBS (R104). -/
def execSubs (u : Agent) (rd rs rt : Fin 32) (s : State) : Answer :=
  .next (unitWord u [resOp rd [rs.val, rt.val] (res2 aluSubs)] s)

/-- AND (R106). -/
def execAndR (u : Agent) (rd rs rt : Fin 32) (s : State) : Answer :=
  .next (unitWord u [resOp rd [rs.val, rt.val] (res2 (fun W x y => aluLogic W (x &&& y)))] s)

/-- OR (R106). -/
def execOrR (u : Agent) (rd rs rt : Fin 32) (s : State) : Answer :=
  .next (unitWord u [resOp rd [rs.val, rt.val] (res2 (fun W x y => aluLogic W (x ||| y)))] s)

/-- XOR (R106). -/
def execXorR (u : Agent) (rd rs rt : Fin 32) (s : State) : Answer :=
  .next (unitWord u [resOp rd [rs.val, rt.val] (res2 (fun W x y => aluLogic W (x ^^^ y)))] s)

/-- ANDN (R106). -/
def execAndn (u : Agent) (rd rs rt : Fin 32) (s : State) : Answer :=
  .next (unitWord u [resOp rd [rs.val, rt.val] (res2 (fun W x y => aluLogic W (andNot W x y)))] s)

/-- SHL (R108, amount rt[7:0]). -/
def execShl (u : Agent) (rd rs rt : Fin 32) (s : State) : Answer :=
  .next (unitWord u [resOp rd [rs.val, rt.val] (res2 (fun W x y => aluShift W .shl x (y % 256)))] s)

/-- SHR (R108, amount rt[7:0]). -/
def execShr (u : Agent) (rd rs rt : Fin 32) (s : State) : Answer :=
  .next (unitWord u [resOp rd [rs.val, rt.val] (res2 (fun W x y => aluShift W .shr x (y % 256)))] s)

/-- SAR (R108, amount rt[7:0]). -/
def execSar (u : Agent) (rd rs rt : Fin 32) (s : State) : Answer :=
  .next (unitWord u [resOp rd [rs.val, rt.val] (res2 (fun W x y => aluShift W .sar x (y % 256)))] s)

/-- ROR (R108, amount rt[7:0]). -/
def execRor (u : Agent) (rd rs rt : Fin 32) (s : State) : Answer :=
  .next (unitWord u [resOp rd [rs.val, rt.val] (res2 (fun W x y => aluShift W .ror x (y % 256)))] s)

/-- MUL (R112). -/
def execMul (u : Agent) (rd rs rt : Fin 32) (s : State) : Answer :=
  .next (unitWord u [resOp rd [rs.val, rt.val] (res2 aluMul)] s)

/-- NEG (R103). -/
def execNeg (u : Agent) (rd rs : Fin 32) (s : State) : Answer :=
  .next (unitWord u [resOp rd [rs.val] (fun W l => aluSub W 0 (opnd l 0))] s)

/-- ABS (R105). -/
def execAbs (u : Agent) (rd rs : Fin 32) (s : State) : Answer :=
  .next (unitWord u [resOp rd [rs.val] (fun W l => aluAbs W (opnd l 0))] s)

/-- CMP (R103): flags alone. -/
def execCmp (u : Agent) (rs rt : Fin 32) (s : State) : Answer :=
  .next (unitWord u [flagOp [rs.val, rt.val] (res2 aluSub)] s)

/-- ADDI (R103). -/
def execAddi (u : Agent) (rd rs : Fin 32) (imm : BitVec 15) (s : State) : Answer :=
  .next (unitWord u [resOp rd [rs.val] (fun W l => aluAdd W (opnd l 0) (immS W imm))] s)

/-- CMPI (R103). -/
def execCmpi (u : Agent) (rs : Fin 32) (imm : BitVec 15) (s : State) : Answer :=
  .next (unitWord u [flagOp [rs.val] (fun W l => aluSub W (opnd l 0) (immS W imm))] s)

/-- ANDI (R106): the immediate is zero-extended. -/
def execAndi (u : Agent) (rd rs : Fin 32) (imm : BitVec 15) (s : State) : Answer :=
  .next (unitWord u [resOp rd [rs.val] (fun W l => aluLogic W (opnd l 0 &&& imm.toNat))] s)

/-- ORI (R106): the immediate is zero-extended. -/
def execOri (u : Agent) (rd rs : Fin 32) (imm : BitVec 15) (s : State) : Answer :=
  .next (unitWord u [resOp rd [rs.val] (fun W l => aluLogic W (opnd l 0 ||| imm.toNat))] s)

/-- XORI (R106): the immediate is zero-extended. -/
def execXori (u : Agent) (rd rs : Fin 32) (imm : BitVec 15) (s : State) : Answer :=
  .next (unitWord u [resOp rd [rs.val] (fun W l => aluLogic W (opnd l 0 ^^^ imm.toNat))] s)

/-- MOVI (R107). -/
def execMovi (u : Agent) (rd : Fin 32) (imm : BitVec 20) (s : State) : Answer :=
  .next (unitWord u [valOp rd [] (fun W _ => immS W imm)] s)

/-- MOVHI (R78, R107): the bits above 15 are written, the others kept; in engine profile IMM16[15:8] is reserved. -/
def movhiOp (rd : Fin 32) (imm : BitVec 16) : Op :=
  { Op.plain (fun h => legalWrite h rd && (decide (h < 16) || decide (imm.toNat < 256))) [rd.val] (fun s0 h s =>
      writeReg h rd (readReg s0 h rd % 65536 + imm.toNat * 65536) s) with count := 0 }

def execMovhi (u : Agent) (rd : Fin 32) (imm : BitVec 16) (s : State) : Answer := .next (unitWord u [movhiOp rd imm] s)

/-- SHI (R108): the amount is AMT. -/
def execShi (u : Agent) (kind : ShiftKind) (rd rs : Fin 32) (amt : Fin 32) (s : State) : Answer :=
  .next (unitWord u [resOp rd [rs.val] (fun W l => aluShift W kind (opnd l 0) amt.val)] s)

/-- BFX (R109). -/
def execBfx (u : Agent) (rd rs : Fin 32) (pos wm1 : Fin 32) (s : State) : Answer :=
  .next (unitWord u [resOp rd [rs.val] (fun W l => aluBfx W false (opnd l 0) pos.val wm1.val)] s)

/-- BFXS (R109). -/
def execBfxs (u : Agent) (rd rs : Fin 32) (pos wm1 : Fin 32) (s : State) : Answer :=
  .next (unitWord u [resOp rd [rs.val] (fun W l => aluBfx W true (opnd l 0) pos.val wm1.val)] s)

/-- BFI (R109): rd is read as well as rs; as a written register it is one that may be written. -/
def bfiOp (rd rs pos wm1 : Fin 32) : Op :=
  Op.plain (fun h => legalRead h rs && legalWrite h rd) [rd.val, rs.val] (fun s0 h s =>
    let r := aluBfi (widthOf h) (readReg s0 h rd) (readReg s0 h rs) pos.val wm1.val
    putFlags h r.flg (writeReg h rd r.val s))

def execBfi (u : Agent) (rd rs : Fin 32) (pos wm1 : Fin 32) (s : State) : Answer := .next (unitWord u [bfiOp rd rs pos wm1] s)

/-- CLZ (R110). -/
def execClz (u : Agent) (rd rs : Fin 32) (s : State) : Answer :=
  .next (unitWord u [valOp rd [rs.val] (fun W l => aluClz W (opnd l 0))] s)

/-- CLS (R110). -/
def execCls (u : Agent) (rd rs : Fin 32) (s : State) : Answer :=
  .next (unitWord u [valOp rd [rs.val] (fun W l => aluCls W (opnd l 0))] s)

/-- PERM (R111). -/
def execPerm (u : Agent) (rd rs : Fin 32) (sel : BitVec 8) (s : State) : Answer :=
  .next (unitWord u [valOp rd [rs.val] (fun W l => aluPerm W (opnd l 0) sel.toNat)] s)

/-- A division (R113, R114): core profile only; the quotient is written first, so that the remainder stands where RD and RR
name one register. -/
def divOp (rd rs rt rr : Fin 32) (f : Nat → Nat → Res × Nat) : Op :=
  Op.plain (fun h => decide (h < 16)) [rs.val, rt.val] (fun s0 h s =>
    let (q, r) := f (readReg s0 h rs) (readReg s0 h rt)
    putFlags h q.flg (writeReg h rr r (writeReg h rd q.val s)))

/-- DIV (R113). -/
def execDiv (u : Agent) (rd rs rt rr : Fin 32) (s : State) : Answer := .next (unitWord u [divOp rd rs rt rr aluDiv] s)

/-- DIVU (R113). -/
def execDivu (u : Agent) (rd rs rt rr : Fin 32) (s : State) : Answer := .next (unitWord u [divOp rd rs rt rr aluDivu] s)

/-- DICE (R126). -/
def diceOp (rd : Fin 32) (triangular : Bool) : Op :=
  Op.plain (legalRW [] [rd.val]) [] (fun s0 h s =>
    let (v, st) := diceOf (widthOf h) triangular (getDice s0 h)
    setDice h st (writeReg h rd v s))

def execDice (u : Agent) (rd : Fin 32) (triangular : Bool) (s : State) : Answer := .next (unitWord u [diceOp rd triangular] s)

/-- NOP and the short NOPS (R70, R86). -/
def nopOp : Op := Op.plain (fun _ => true) [] (fun _ _ s => s)

/-- NOP (R70). -/
def execNop (u : Agent) (s : State) : Answer := .next (unitWord u [nopOp] s)

end Sys2Proof.Machine
end

