-- ==== Sys2Proof/Machine/Acc.lean ====
section
/-! DEFINITION. The accumulators (R115 to R120): MAC, MSU, MPY in their operand modes, ACCLD, SHA, STA. -/

namespace Sys2Proof.Machine

/-- The operands of MAC, MSU and MPY as values for a hart (R115). -/
def macVals (s : State) (h : Nat) (x : MacArgs) : Nat × Nat :=
  let pe := peOf h
  let L := laneOf h
  match x with
  | .regs rs rt => (readReg s h rs, readReg s h rt)
  | .tapPtr tap cptr _ =>
    (readReach s pe L (reach s pe .delay tap.val), readReach s pe L (reach s pe .palette (getPtr s h cptr.val)))
  | .regMem tr op => (readReg s h tr.val, readReach s pe L (opReach s h op))
  | .ptrCoef tptr _ coef =>
    (readReach s pe L (reach s pe .delay (getPtr s h tptr.val)), readReach s pe L (reach s pe .palette coef.val))

/-- What those operands reach in a lane (R83). -/
def macReach (x : MacArgs) (s : State) (h : Nat) : List (Bool × Reach) :=
  let pe := peOf h
  match x with
  | .regs _ _ => []
  | .tapPtr tap cptr _ => [(true, reach s pe .delay tap.val), (true, reach s pe .palette (getPtr s h cptr.val))]
  | .regMem _ op => [(true, opReach s h op)]
  | .ptrCoef tptr _ coef => [(true, reach s pe .delay (getPtr s h tptr.val)), (true, reach s pe .palette coef.val)]

/-- The pointer modification that follows (R81, R115). -/
def macModify (s0 : State) (h : Nat) (x : MacArgs) (s : State) : State :=
  let step (p : Fin 4) (pm : PtrMod) : State := if pm = .keep then s else setPtr h p.val (ptrAfter pm (getPtr s0 h p.val)) s
  match x with
  | .regs _ _ => s
  | .tapPtr _ cptr cpm => step cptr cpm
  | .regMem _ op => opModify s0 h op s
  | .ptrCoef tptr tpm _ => step tptr tpm

def macCount : MacArgs → Nat
  | .regs _ _ => 0
  | .regMem _ _ => 1
  | .tapPtr _ _ _ | .ptrCoef _ _ _ => 2

/-- MODE 00 is defined in both profiles, the others in engine profile only (R79, R92). -/
def macLegal (x : MacArgs) (h : Nat) : Bool :=
  match x with
  | .regs rs rt => legalRead h rs && legalRead h rt
  | .regMem _ op => decide (16 ≤ h) && opLegal op
  | _ => decide (16 ≤ h)

def macSrcs : MacArgs → List Nat
  | .regs rs rt => [rs.val, rt.val]
  | _ => []

/-- acc_write of R116. -/
def accWrite (h ad : Nat) (v : Int) (s : State) : State :=
  let (w, aov) := accWrap v
  let s := setAcc h ad w s
  if aov then putFlags h { aov := true } s else s

/-- How a product enters its accumulator (R116). -/
inductive MacKind where
  | add | sub | load
deriving DecidableEq, Repr

def macOp (kind : MacKind) (ad : Fin 4) (x : MacArgs) : Op :=
  { legal := macLegal x, srcs := macSrcs x, count := macCount x, cacc := fun _ _ => none, lacc := macReach x,
    fx := fun s0 h s =>
      let (a, b) := macVals s0 h x
      let p := prod24 a b
      let old := getAcc s0 h ad.val
      let s := match kind with
        | .add => accWrite h ad.val (old + p) s
        | .sub => accWrite h ad.val (old - p) s
        | .load => setAcc h ad.val p s
      macModify s0 h x s }

/-- MAC (R116). -/
def execMac (u : Agent) (ad : Fin 4) (x : MacArgs) (s : State) : Answer := .next (unitWord u [macOp .add ad x] s)

/-- MSU (R116). -/
def execMsu (u : Agent) (ad : Fin 4) (x : MacArgs) (s : State) : Answer := .next (unitWord u [macOp .sub ad x] s)

/-- MPY (R116). -/
def execMpy (u : Agent) (ad : Fin 4) (x : MacArgs) (s : State) : Answer := .next (unitWord u [macOp .load ad x] s)

/-- ACCLD (R117): the register at profile width, shifted left. -/
def accldOp (ad : Fin 4) (rs : Fin 32) (sh : Fin 64) : Op :=
  Op.plain (legalRW [rs.val] []) [rs.val] (fun s0 h s =>
    accWrite h ad.val (sxN (widthOf h) (readReg s0 h rs) * ((2 ^ sh.val : Nat) : Int)) s)

def execAccld (u : Agent) (ad : Fin 4) (rs : Fin 32) (sh : Fin 64) (s : State) : Answer := .next (unitWord u [accldOp ad rs sh] s)

/-- STA (R119). -/
def staOp (rd : Fin 32) (as : Fin 4) (sh : Fin 64) : Op :=
  Op.plain (legalRW [] [rd.val]) [] (fun s0 h s =>
    let r := staOf (widthOf h) (getAcc s0 h as.val) sh.val
    putFlags h r.flg (writeReg h rd r.val s))

def execSta (u : Agent) (rd : Fin 32) (as : Fin 4) (sh : Fin 64) (s : State) : Answer := .next (unitWord u [staOp rd as sh] s)

/-- SHA (R118). -/
def shaOp (ad as : Fin 4) (right : Bool) (amt : Fin 64) : Op :=
  Op.plain (fun _ => true) [] (fun s0 h s =>
    let v := getAcc s0 h as.val
    if right then setAcc h ad.val (sar v amt.val) s else accWrite h ad.val (v * ((2 ^ amt.val : Nat) : Int)) s)

def execSha (u : Agent) (ad as : Fin 4) (right : Bool) (amt : Fin 64) (s : State) : Answer :=
  .next (unitWord u [shaOp ad as right amt] s)

end Sys2Proof.Machine
end

