-- ==== Sys2Proof/Machine/LoadStore.lean ====
section
/-! DEFINITION. Loads and stores of both profiles (R87, R88, R121, R124, R125, R161), and the operations of pair words. -/

namespace Sys2Proof.Machine

/-- ea of a core's format I access (R121), and of an engine's (R124). -/
def eaCore (s : State) (c rs : Nat) (imm : BitVec 15) : Nat := (readReg s c rs + immS 32 imm) % 2 ^ 32
def eaEng (s : State) (h rs : Nat) (imm : BitVec 15) : Nat := (readReg s h rs + immS 24 imm) % 2 ^ 24 % 2 ^ 20

/-- Byte address of an offset in the cluster shared memory of a lane's cluster (R124). -/
def sharedAddr (h o : Nat) : Nat := 0x10000000 + clusterOf (peOf h) * 0x100000 + o

/-- The byte offset an engine access reaches, with the address bits it ignores cleared (R124). -/
def engOffset (k : LoadKind) (o : Nat) : Nat :=
  match k with | .word | .sample => o / 4 * 4 | .half => o / 2 * 2 | .byte => o

/-- What an engine load writes to rd (R124). -/
def engLoadValue (k : LoadKind) (l : List Byte) : Nat :=
  let v := ofBytesLE l
  match k with
  | .word | .sample => v % 2 ^ 24
  | .half => toU 24 (sxN 16 v)
  | .byte => toU 24 (sxN 8 v)

/-- What a store writes: the core's register, or the engine's with STW sign-extended (R121, R124). -/
def storeValue (h : Nat) (k : LoadKind) (v : Nat) : Nat :=
  match k with
  | .word => if h < 16 then v else toU 32 (sxN 24 v)
  | .half => v % 2 ^ 16
  | .byte => v % 2 ^ 8
  | .sample => toU 32 (sxN 24 v)

/-- A format I load (R121, R124): a core's access, or a lane's load from cluster shared memory, delivered at the end of word
w + 16 (R161). DEDUCED: log entry 64. -/
def loadOp (k : LoadKind) (rd rs : Fin 32) (imm : BitVec 15) : Op :=
  { legal := legalRW [rs.val] [rd.val], srcs := [rs.val], count := 0,
    cacc := fun s c => some (.load (eaCore s c rs imm) k rd.val),
    lacc := fun _ _ => [],
    fx := fun s0 h s =>
      if h < 16 then s else
        let a := sharedAddr h (engOffset k (eaEng s0 h rs imm))
        let v := engLoadValue k (getBytes s0 a (loadSize k))
        let w := (runAt s0 (peOf h)).getD 0
        setEng { s.eng with deliver := s.eng.deliver ++ [⟨peOf h, laneOf h, rd.val, BitVec.ofNat 32 v, w + 16⟩] } s }

/-- A format I store (R121, R124); lanes store in lane order. DEDUCED: log entry 64. -/
def storeOp (k : LoadKind) (rd rs : Fin 32) (imm : BitVec 15) : Op :=
  { legal := legalRW [rs.val, rd.val] [], srcs := [rs.val, rd.val], count := 0,
    cacc := fun s c => some (.store (eaCore s c rs imm) (loadSize k) (storeValue c k (readReg s c rd)) false),
    lacc := fun _ _ => [],
    fx := fun s0 h s =>
      if h < 16 then s else
        setBytes s (sharedAddr h (engOffset k (eaEng s0 h rs imm))) (bytesLE (loadSize k) (storeValue h k (readReg s0 h rd))) }

/-- LDX: format I in core profile (R121), format X in engine profile (R125). Where RD is the pointer that the operand moves, the moved
pointer stands. DESIGN CHOICE: log entry 79. -/
def ldxOp (rd : Fin 32) (x : XAddr) : Op :=
  match x with
  | .base rs imm =>
    { legal := fun h => decide (h < 16), srcs := [rs.val], count := 1,
      cacc := fun s c => some (.load (eaCore s c rs imm) .sample rd.val), lacc := fun _ _ => [], fx := fun _ _ s => s }
  | .mem op =>
    { legal := fun h => decide (16 ≤ h) && legalWrite h rd && opLegal op, srcs := [], count := 1, cacc := fun _ _ => none,
      lacc := fun s h => [(true, opReach s h op)],
      fx := fun s0 h s => opModify s0 h op (writeReg h rd (readReach s0 (peOf h) (laneOf h) (opReach s0 h op)) s) }

/-- STX (R121, R125); SPACE 01 and 11 are undefined (R82). -/
def stxOp (rd : Fin 32) (x : XAddr) : Op :=
  match x with
  | .base rs imm =>
    { legal := fun h => decide (h < 16), srcs := [rs.val, rd.val], count := 1,
      cacc := fun s c => some (.store (eaCore s c rs imm) 4 (storeValue c .sample (readReg s c rd)) true),
      lacc := fun _ _ => [], fx := fun _ _ s => s }
  | .mem op =>
    { legal := fun h => decide (16 ≤ h) && legalRead h rd && opLegal op && op.space != .palette && op.space != .cross,
      srcs := [], count := 1, cacc := fun _ _ => none, lacc := fun s h => [(false, opReach s h op)],
      fx := fun s0 h s => opModify s0 h op (writeReach (peOf h) (laneOf h) (opReach s0 h op) (readReg s0 h rd) s) }

/-- LDW (R121, R124). -/
def execLdw (u : Agent) (rd rs : Fin 32) (imm : BitVec 15) (s : State) : Answer := .next (unitWord u [loadOp .word rd rs imm] s)

/-- STW (R121, R124). -/
def execStw (u : Agent) (rd rs : Fin 32) (imm : BitVec 15) (s : State) : Answer := .next (unitWord u [storeOp .word rd rs imm] s)

/-- LDH (R121, R124). -/
def execLdh (u : Agent) (rd rs : Fin 32) (imm : BitVec 15) (s : State) : Answer := .next (unitWord u [loadOp .half rd rs imm] s)

/-- STH (R121, R124). -/
def execSth (u : Agent) (rd rs : Fin 32) (imm : BitVec 15) (s : State) : Answer := .next (unitWord u [storeOp .half rd rs imm] s)

/-- LDB (R121, R124). -/
def execLdb (u : Agent) (rd rs : Fin 32) (imm : BitVec 15) (s : State) : Answer := .next (unitWord u [loadOp .byte rd rs imm] s)

/-- STB (R121, R124). -/
def execStb (u : Agent) (rd rs : Fin 32) (imm : BitVec 15) (s : State) : Answer := .next (unitWord u [storeOp .byte rd rs imm] s)

/-- LDX (R121, R125). -/
def execLdx (u : Agent) (rd : Fin 32) (x : XAddr) (s : State) : Answer := .next (unitWord u [ldxOp rd x] s)

/-- STX (R121, R125). -/
def execStx (u : Agent) (rd : Fin 32) (x : XAddr) (s : State) : Answer := .next (unitWord u [stxOp rd x] s)

/-! Short operations (R86 to R89). -/

/-- Short register fields name g0 to g7 or t0 to t7 (R69). -/
def wide (r : Fin 8) : Fin 32 := ⟨r.val, by omega⟩

/-- The space of a short engine access (R88). -/
def xsSpace (scratch : Bool) : Space := if scratch then .scratch else .delay

/-- A pointer moved by a signed 5-bit amount, modulo 2^14 (R88). -/
def ptrMove (v : Nat) (imm : BitVec 5) : Nat := toU 14 ((v : Int) + sxN 5 imm.toNat)

/-- Short LDXS (R87, R88). -/
def ldxsOp (rd : Fin 8) (x : XsAddr) : Op :=
  match x with
  | .base rs imm =>
    { legal := fun h => decide (h < 16), srcs := [rs.val], count := 1,
      cacc := fun s c => some (.load ((readReg s c rs.val + 4 * imm.val) % 2 ^ 32) .sample rd.val),
      lacc := fun _ _ => [], fx := fun _ _ s => s }
  | .ptr sc p imm =>
    { legal := fun h => decide (16 ≤ h), srcs := [], count := 1, cacc := fun _ _ => none,
      lacc := fun s h => [(true, reach s (peOf h) (xsSpace sc) (getPtr s h p.val))],
      fx := fun s0 h s =>
        let v := readReach s0 (peOf h) (laneOf h) (reach s0 (peOf h) (xsSpace sc) (getPtr s0 h p.val))
        setPtr h p.val (ptrMove (getPtr s0 h p.val) imm) (writeReg h rd.val v s) }

/-- Short STXS (R87, R88). -/
def stxsOp (rd : Fin 8) (x : XsAddr) : Op :=
  match x with
  | .base rs imm =>
    { legal := fun h => decide (h < 16), srcs := [rs.val, rd.val], count := 1,
      cacc := fun s c => some (.store ((readReg s c rs.val + 4 * imm.val) % 2 ^ 32) 4 (storeValue c .sample (readReg s c rd.val)) true),
      lacc := fun _ _ => [], fx := fun _ _ s => s }
  | .ptr sc p imm =>
    { legal := fun h => decide (16 ≤ h), srcs := [], count := 1, cacc := fun _ _ => none,
      lacc := fun s h => [(false, reach s (peOf h) (xsSpace sc) (getPtr s h p.val))],
      fx := fun s0 h s =>
        let s := writeReach (peOf h) (laneOf h) (reach s0 (peOf h) (xsSpace sc) (getPtr s0 h p.val)) (readReg s0 h rd.val) s
        setPtr h p.val (ptrMove (getPtr s0 h p.val) imm) s }

/-- Short MACS (R89, R115). -/
def macsOp (ad : Fin 4) (x : MacsArgs) : Op :=
  match x with
  | .regs rs rt => { macOp .add ad (.regs (wide rs) (wide rt)) with legal := fun h => decide (h < 16) }
  | .ptrs tp ti cp ci =>
    let vals (s : State) (h : Nat) : Reach × Reach :=
      (reach s (peOf h) .delay (getPtr s h tp.val), reach s (peOf h) .palette (getPtr s h cp.val))
    { legal := fun h => decide (16 ≤ h), srcs := [], count := 2, cacc := fun _ _ => none,
      lacc := fun s h => [(true, (vals s h).1), (true, (vals s h).2)],
      fx := fun s0 h s =>
        let (a, b) := vals s0 h
        let p := prod24 (readReach s0 (peOf h) (laneOf h) a) (readReach s0 (peOf h) (laneOf h) b)
        let s := accWrite h ad.val (getAcc s0 h ad.val + p) s
        let bump (q : Fin 4) (on : Bool) (s : State) : State :=
          if on then setPtr h q.val (ptrAfter .inc (getPtr s0 h q.val)) s else s
        bump cp ci (bump tp ti s) }

/-- A short operation (R86). -/
def shortOp (x : ShortOp) : Op :=
  match x with
  | .nops => nopOp
  | .mov rd rs => valOp rd.val [rs.val] (fun _ l => opnd l 0)
  | .add rd rs rt => resOp rd.val [rs.val, rt.val] (res2 aluAdd)
  | .sub rd rs rt => resOp rd.val [rs.val, rt.val] (res2 aluSub)
  | .and rd rs rt => resOp rd.val [rs.val, rt.val] (res2 (fun W x y => aluLogic W (x &&& y)))
  | .or rd rs rt => resOp rd.val [rs.val, rt.val] (res2 (fun W x y => aluLogic W (x ||| y)))
  | .xor rd rs rt => resOp rd.val [rs.val, rt.val] (res2 (fun W x y => aluLogic W (x ^^^ y)))
  | .shli rd rs imm => resOp rd.val [rs.val] (fun W l => aluShift W .shl (opnd l 0) imm.val)
  | .sari rd rs imm => resOp rd.val [rs.val] (fun W l => aluShift W .sar (opnd l 0) imm.val)
  | .addi5 rd rs imm => resOp rd.val [rs.val] (fun W l => aluAdd W (opnd l 0) (immS W imm))
  | .cmp rs rt => flagOp [rs.val, rt.val] (res2 aluSub)
  | .macs ad x => macsOp ad x
  | .ldxs rd x => ldxsOp rd x
  | .stxs rd x => stxsOp rd x
  | .mpys ad rs rt => macOp .load ad (.regs (wide rs) (wide rt))

/-- The two operations of a pair in slot order: slot B's writes stand over slot A's (R91). DEDUCED: log entries 20, 63. -/
def pairOps (slot : Slot) (x y : ShortOp) : List Op :=
  match slot with | .a => [shortOp x, shortOp y] | .b => [shortOp y, shortOp x]

/-- NOPS (R86). -/
def execNops (u : Agent) (slot : Slot) (other : ShortOp) (s : State) : Answer := .next (unitWord u (pairOps slot .nops other) s)

/-- Short MOV (R106). -/
def execMov (u : Agent) (slot : Slot) (rd rs : Fin 8) (other : ShortOp) (s : State) : Answer :=
  .next (unitWord u (pairOps slot (.mov rd rs) other) s)

/-- Short ADD (R103). -/
def execShortAdd (u : Agent) (slot : Slot) (rd rs rt : Fin 8) (other : ShortOp) (s : State) : Answer :=
  .next (unitWord u (pairOps slot (.add rd rs rt) other) s)

/-- Short SUB (R103). -/
def execShortSub (u : Agent) (slot : Slot) (rd rs rt : Fin 8) (other : ShortOp) (s : State) : Answer :=
  .next (unitWord u (pairOps slot (.sub rd rs rt) other) s)

/-- Short AND (R106). -/
def execShortAnd (u : Agent) (slot : Slot) (rd rs rt : Fin 8) (other : ShortOp) (s : State) : Answer :=
  .next (unitWord u (pairOps slot (.and rd rs rt) other) s)

/-- Short OR (R106). -/
def execShortOr (u : Agent) (slot : Slot) (rd rs rt : Fin 8) (other : ShortOp) (s : State) : Answer :=
  .next (unitWord u (pairOps slot (.or rd rs rt) other) s)

/-- Short XOR (R106). -/
def execShortXor (u : Agent) (slot : Slot) (rd rs rt : Fin 8) (other : ShortOp) (s : State) : Answer :=
  .next (unitWord u (pairOps slot (.xor rd rs rt) other) s)

/-- SHLI (R108). -/
def execShli (u : Agent) (slot : Slot) (rd rs : Fin 8) (imm : Fin 32) (other : ShortOp) (s : State) : Answer :=
  .next (unitWord u (pairOps slot (.shli rd rs imm) other) s)

/-- SARI (R108). -/
def execSari (u : Agent) (slot : Slot) (rd rs : Fin 8) (imm : Fin 32) (other : ShortOp) (s : State) : Answer :=
  .next (unitWord u (pairOps slot (.sari rd rs imm) other) s)

/-- ADDI5 (R103). -/
def execAddi5 (u : Agent) (slot : Slot) (rd rs : Fin 8) (imm : BitVec 5) (other : ShortOp) (s : State) : Answer :=
  .next (unitWord u (pairOps slot (.addi5 rd rs imm) other) s)

/-- Short CMP (R103). -/
def execShortCmp (u : Agent) (slot : Slot) (rs rt : Fin 8) (other : ShortOp) (s : State) : Answer :=
  .next (unitWord u (pairOps slot (.cmp rs rt) other) s)

/-- MACS (R89, R115). -/
def execMacs (u : Agent) (slot : Slot) (ad : Fin 4) (x : MacsArgs) (other : ShortOp) (s : State) : Answer :=
  .next (unitWord u (pairOps slot (.macs ad x) other) s)

/-- LDXS (R87, R88). -/
def execLdxs (u : Agent) (slot : Slot) (rd : Fin 8) (x : XsAddr) (other : ShortOp) (s : State) : Answer :=
  .next (unitWord u (pairOps slot (.ldxs rd x) other) s)

/-- STXS (R87, R88). -/
def execStxs (u : Agent) (slot : Slot) (rd : Fin 8) (x : XsAddr) (other : ShortOp) (s : State) : Answer :=
  .next (unitWord u (pairOps slot (.stxs rd x) other) s)

/-- MPYS (R115). -/
def execMpys (u : Agent) (slot : Slot) (ad : Fin 4) (rs rt : Fin 8) (other : ShortOp) (s : State) : Answer :=
  .next (unitWord u (pairOps slot (.mpys ad rs rt) other) s)

end Sys2Proof.Machine
end

