-- ==== Sys2Proof/Machine/Control.lean ====
section
/-! DEFINITION. Branches, the rotating file, scheduler words, ordering, cache words, SYS, TRAP and undefined words
(R72, R84, R85, R93, R94, R128 to R136). -/

namespace Sys2Proof.Machine

/-- A condition on a hart's STAT (R84). -/
def condOn (s : State) (h : Nat) (k : Cond) : Bool :=
  let st := getStat s h
  condHolds k (bitOf st 31) (bitOf st 30) (bitOf st 29) (bitOf st 28)

/-- A word that core profile alone defines (R92). -/
def coreOp (srcs : List Nat) (fx : State → Nat → State → State) : Op := Op.plain (fun h => decide (h < 16)) srcs fx

/-- BCOND: a branch in core profile (R128), a nullify window in engine profile (R85, R129). -/
def bcondOp (k : Cond) (x : BranchArg) : Op :=
  match x with
  | .off o => coreOp [] (fun s0 c s =>
      if condOn s0 c k then setPc c (getPc s0 c + BitVec.ofInt 32 (4 * sxN 21 o.toNat)) s else s)
  | .ncnt n => Op.plain (fun h => decide (16 ≤ h) && decide (n.val ≠ 0)) [] (fun s0 h s =>
      if condOn s0 h k then setNull h n.val s else s)

def execBcond (u : Agent) (k : Cond) (x : BranchArg) (s : State) : Answer := .next (unitWord u [bcondOp k x] s)

/-- BL (R128). -/
def blOp (off : BitVec 25) : Op := coreOp [] (fun s0 c s =>
  setPc c (getPc s0 c + BitVec.ofInt 32 (4 * sxN 25 off.toNat)) (writeReg c 15 (getPc s0 c + 4).toNat s))

def execBl (u : Agent) (off : BitVec 25) (s : State) : Answer := .next (unitWord u [blOp off] s)

/-- JR (R128): the target's bits [1:0] are cleared. -/
def jrOp (rd rs : Fin 32) : Op := coreOp [rs.val] (fun s0 c s =>
  setPc c (BitVec.ofNat 32 (readReg s0 c rs / 4 * 4)) (writeReg c rd (getPc s0 c + 4).toNat s))

def execJr (u : Agent) (rd rs : Fin 32) (s : State) : Answer := .next (unitWord u [jrOp rd rs] s)

/-- ROT (R72). -/
def rotOp (k : Fin 16) : Op := coreOp [] (fun s0 c s => sysWrite c 1 (getRrb s0 c + 16 - k.val) s)

def execRot (u : Agent) (k : Fin 16) (s : State) : Answer := .next (unitWord u [rotOp k] s)

/-- GET (R130): the held item is released as DONE; the core waits at this word until the scheduler dispatches an item to it. -/
def getOp : Op := coreOp [] (fun s0 c s => setCoreMode c 2 (setPc c (getPc s0 c) (releaseHeld c .finished (some Tr.DONE) s)))

def execGet (u : Agent) (s : State) : Answer := .next (unitWord u [getOp] s)

/-- DONE (R131). -/
def doneOp : Op := coreOp [] (fun _ c s => releaseHeld c .finished (some Tr.DONE) s)

def execDoneItem (u : Agent) (s : State) : Answer := .next (unitWord u [doneOp] s)

/-- The token of PUSHT: its value at 32 bits, its tag and slot (R132). -/
def pushTok (s : State) (h rs rt : Nat) : Tok :=
  let d := readReg s h rt
  ⟨d / 4 % 4096, d % 4, BitVec.ofNat 32 (toU 32 (sxN (widthOf h) (readReg s h rs)))⟩

/-- PUSHT (R132). A lane's token enters its cluster's queue or is dropped. -/
def pushtOp (rs rt : Fin 32) : Op :=
  Op.plain (legalRW [rs.val, rt.val] []) [rs.val, rt.val] (fun s0 h s =>
    let t := pushTok s0 h rs rt
    if h < 16 then setSched { s.sched with coreQ := s.sched.coreQ ++ [(h, t)] } s else engPush (peOf h) t s)

/-- A core that finds no token ingress credit stalls at its PUSHT (R132, R21). -/
def execPusht (u : Agent) (rs rt : Fin 32) (s : State) : Answer :=
  match u with
  | .core c => if (s.sched.coreQ.filter (fun t => t.1 == c.val)).length < 8 then .next (unitWord u [pushtOp rs rt] s) else .next s
  | .eng _ => .next (unitWord u [pushtOp rs rt] s)

/-- FENCE (R133): a core waits until FENCE_COMPLETE; an engine does nothing. -/
def fenceOp : Op := Op.plain (fun _ => true) [] (fun _ h s =>
  if h < 16 then { s with core := { s.core with fence := s.core.fence ++ [h] } } else s)

def execFence (u : Agent) (s : State) : Answer := .next (unitWord u [fenceOp] s)

/-- FENCE_COMPLETE (R133): the write buffer of the core is empty, every store acknowledged. -/
def execFenceComplete (c : Fin 16) (s : State) : Answer :=
  if (wbufOf s c).isEmpty then .next { s with core := { s.core with fence := s.core.fence.filter (fun x => x != c.val) } }
  else .next s

/-- The end of a cache range: it stops at 0xFFFF_FFFF (R134). -/
def rangeEnd (a n : Nat) : Nat := min (a + n) (2 ^ 32)

/-- Whether CLEAN and INVAL have to wait (R134): while the write buffer is full, and until the core's earlier stores have reached the
lines of the range. DESIGN CHOICE: log entry 96. -/
def cacheWaits (s : State) (c a e : Nat) : Bool :=
  decide (8 ≤ (wbufOf s c).length) ||
    (wbufOf s c).any (fun x => x.kind == .cache && decide (x.addr < e) && decide (a < x.addr + 64) && decide (a < e))

/-- Whether a line overlaps [a, e). -/
def lineIn (l : Line) (c a e : Nat) : Bool := l.core == c && decide (l.addr < e) && decide (a < l.addr + 64) && decide (a < e)

/-- CLEAN (R134): dirty lines of the range go to the write buffer, as many as it has room for. -/
def cleanLines (c a e : Nat) (s : State) : State :=
  s.core.dcache.foldl (fun t l =>
    if lineIn l c a e && l.dirty && wbufRoom t c l.addr .bus then
      let t := wbufPut c l.addr .bus l.data t
      { t with core := { t.core with dcache := t.core.dcache.map (fun x =>
          if x.core = c ∧ x.addr = l.addr then { x with dirty := false } else x) } }
    else t) s

/-- CLEAN: while the buffer is full or a dirty line of the range is left over, the core waits at the word. -/
def cleanOp (rs rt : Fin 32) : Op := coreOp [rs.val, rt.val] (fun s0 c s =>
  let a := readReg s0 c rs
  let e := rangeEnd a (readReg s0 c rt)
  let t := cleanLines c a e s
  if cacheWaits s0 c a e then setPc c (getPc s0 c) s
  else if t.core.dcache.any (fun l => lineIn l c a e && l.dirty) then setPc c (getPc s0 c) t else t)

def execClean (u : Agent) (rs rt : Fin 32) (s : State) : Answer := .next (unitWord u [cleanOp rs rt] s)

/-- INVAL (R134): lines of the range are discarded without write-back, once the buffer is not full. DESIGN CHOICE: log entry 69. -/
def invalOp (rs rt : Fin 32) : Op := coreOp [rs.val, rt.val] (fun s0 c s =>
  let a := readReg s0 c rs
  let e := rangeEnd a (readReg s0 c rt)
  if cacheWaits s0 c a e then setPc c (getPc s0 c) s
  else { s with core := { s.core with dcache := s.core.dcache.filter (fun l => !lineIn l c a e) } })

def execInval (u : Agent) (rs rt : Fin 32) (s : State) : Answer := .next (unitWord u [invalOp rs rt] s)

/-- SYS (R135): a read to rd, or a write of the fields R90 defines. -/
def sysOp (rd : Fin 32) (toSys : Bool) (num : BitVec 12) : Op :=
  Op.plain (fun h => sysDefined h num.toNat toSys && (if toSys then legalRead h rd else legalWrite h rd))
    (if toSys then [rd.val] else []) (fun s0 h s =>
      if toSys then sysWrite h num.toNat (readReg s0 h rd) s else writeReg h rd (sysRead s0 h num.toNat) s)

def execSys (u : Agent) (rd : Fin 32) (toSys : Bool) (num : BitVec 12) (s : State) : Answer :=
  .next (unitWord u [sysOp rd toSys num] s)

/-- TRAP (R94, R136). -/
def trapOp (code : BitVec 8) : Op := coreOp [] (fun s0 c s => trapEnter c .trap code.toNat (getPc s0 c) s)

def execTrap (u : Agent) (code : BitVec 8) (s : State) : Answer := .next (unitWord u [trapOp code] s)

/-- A word the profile does not define. -/
def undefOp : Op := Op.plain (fun _ => false) [] (fun _ _ s => s)

/-- UNDEFINED_WORD (R93, R94); a word the profile defines is none, and is not taken as one. DESIGN CHOICE: log entry 1. -/
def execUndefinedWord (u : Agent) (w : Word) (s : State) : Answer :=
  if (decodeRamtal u w).isNone then .next (unitWord u [undefOp] s) else .next s

/-! The core's own events. -/

/-- LINE_FILL (R101). -/
def execLineFill (c : Fin 16) (line : Word) (s : State) : Answer := .next (Sys2Proof.Machine.lineFillStep c line.toNat s)

/-- LINE_EVICTION (R372): a dirty line, while the write buffer has room. -/
def execLineEviction (c : Fin 16) (line : Word) (s : State) : Answer :=
  match lineAt s c line.toNat with
  | some l => if l.dirty && wbufRoom s c l.addr .bus then .next (evictLine c l.addr s) else .next s
  | none => .next s

/-- INTERRUPT (R305). -/
def execInterrupt (c : Fin 16) (s : State) : Answer := .next (interruptStep c s)

/-- PARITY_FAULT (R308). -/
def execParityFault (c : Fin 16) (recovered : Bool) (line : Option Word) (s : State) : Answer :=
  .next (parityFaultStep c recovered line s)

/-- BUDGET_KILL (R322). -/
def execBudgetKill (c : Fin 16) (s : State) : Answer := .next (budgetKillStep c s)

/-- ENGINE_LOAD_DELIVERY (R161). -/
def execEngineLoadDelivery (pe : Fin 72) (s : State) : Answer := .next (deliveryStep pe s)

end Sys2Proof.Machine
end

