-- ==== Sys2Proof/Machine/BootUnit.lean ====
section
/-! DEFINITION. Power, reset, boot, and the operations of SEC that read and write memory (01_architecture.md R30;
16_boot_and_security.md R416 to R437). -/

namespace Sys2Proof.Machine

/-! Supplies and reset (R30). -/

/-- OTP with a program in progress left with each of its bits programmed or not (R431): which ones is open. DESIGN CHOICE: log entry 45. -/
def otpCut (s : State) : State :=
  match s.boot.otpBusy with
  | none => s
  | some (w, d) => let (x, s) := draw s; setOtp w (otpWord s w ||| (d &&& BitVec.ofNat 32 x)) s

/-- The state after reset with what lies outside the reset kept: OTP, the flash device, the pins, and the model's own fields. DEDUCED: log entry 44. -/
def resetAll (s0 : State) : State :=
  let s := otpCut s0
  { State.reset with
    boot := { State.reset.boot with otp := s.boot.otp, flash := s.boot.flash, sfdp := s.boot.sfdp },
    pins := s.pins, guard := { State.reset.guard with low := s.guard.low, latch := s.guard.low },
    free := s.free, pending := s.pending }

/-- SUPPLY_RISE: OFF to POR. -/
def supplyRise (s : State) : State := if sysState s = St.OFF then s.setF .SYS_STATE 0 3 0 St.POR else s

/-- SUPPLY_LOSS: nothing volatile is kept, always-on memory included; off tells whether power is removed or the power-on reset
cell asserts first. DEDUCED: log entry 44. -/
def supplyLoss (off : Bool) (s : State) : State :=
  if sysState s = St.OFF then s else (resetAll s).setF .SYS_STATE 0 3 0 (if off then St.OFF else St.POR)

/-- Addresses of always-on memory: the fault log and save memory. DEDUCED: log entry 44. -/
def aonMem (a : Nat) : Bool := decide (0xF0008000 ≤ a)

/-- RESET_N_LOW: everything is reset but always-on memory; AON_FAULT_STAT, AON_REG, and FAILS and LOCKOUT of SEC_SVC_STAT are kept
(R44, R414, R439). DEDUCED: log entry 44. -/
def resetLow (s : State) : State :=
  if sysState s = St.OFF ∨ sysState s = St.POR then s
  else
    let t := { resetAll s with wmem := s.wmem.filter (fun e => aonMem e.1), upset := s.upset.filter (fun e => aonMem e.1) }
    let t := (t.setReg .AON_FAULT_STAT 0 (s.reg .AON_FAULT_STAT 0)).setReg .AON_REG 0 (s.reg .AON_REG 0)
    let t := t.setReg .SEC_SVC_STAT 0 (s.reg .SEC_SVC_STAT 0 &&& 0x40000003)
    t.setF .SYS_STATE 0 3 0 St.POR

/-- RESET_RELEASE: the straps are sampled and the boot ROM starts (R416, R430, R449). sfdp tells whether the flash device answers with its
signature. DESIGN CHOICE: log entry 5. -/
def resetRelease (bootsel : Fin 4) (goldenN sfdp : Bool) (s : State) : State :=
  if sysState s = St.POR then
    let s := s.setReg .SEC_STRAP 0 (BitVec.ofNat 32 (4 * b2n goldenN + bootsel.val))
    let s := s.setReg .HOSTIF_STRAP 0 (BitVec.ofNat 32 (0x38 + s.pins.gpio.toNat % 4))
    let s := s.setF .SEC_STATUS 0 17 16 (otpLife s)
    setBoot { s.boot with sfdp := sfdp, floor := 64 * fuses s } (s.setF .SYS_STATE 0 3 0 St.ROM)
  else s

/-! Images (R418 to R420). rd gives the bytes of the stream. -/

def imgWord (rd : Nat → Byte) (o : Nat) : Word := wordOfBytes [rd o, rd (o + 1), rd (o + 2), rd (o + 3)]
def imgNat (rd : Nat → Byte) (o : Nat) : Nat := (imgWord rd o).toNat
def imgLen (rd : Nat → Byte) : Nat := imgNat rd 0x10
def imgBlocks (rd : Nat → Byte) : Nat := imgLen rd / 4096
def imgVersion (rd : Nat → Byte) : Nat := fld (imgWord rd 0x0C) 11 0
def imgSeq (rd : Nat → Byte) : Nat := imgNat rd 8
def imgSealOff (rd : Nat → Byte) : Nat := imgNat rd 0x20
def imgSegOff (rd : Nat → Byte) : Nat := imgNat rd 0x18
def imgSegCount (rd : Nat → Byte) : Nat := imgNat rd 0x1C

/-- A segment (R419). -/
structure Seg where
  dest : Nat
  off : Nat
  len : Nat
deriving DecidableEq, Repr

def imgSegs (rd : Nat → Byte) : List Seg :=
  (List.range (min (imgSegCount rd) 64)).map (fun i => let a := imgSegOff rd + 16 * i; ⟨imgNat rd a, imgNat rd (a + 4), imgNat rd (a + 8)⟩)

/-- The header reasons of R422: 0x2, 0x3 and 0x4; 0 where none holds. -/
def headReason (blob : Bool) (floor : Nat) (rd : Nat → Byte) : Nat :=
  if imgNat rd 0 ≠ (if blob then 0x64005A5A else 0x6400A55A) ∨ fld (imgWord rd 4) 15 0 ≠ 1 ∨ fld (imgWord rd 4) 31 17 ≠ 0 then 2
  else if imgSeq rd = 0xFFFFFFFF then 3
  else if imgVersion rd < floor then 4
  else 0

def within (a n lo hi : Nat) : Bool := decide (lo ≤ a) && decide (a + n ≤ hi)

/-- Whether a destination lies wholly inside one of the memories of R419, by primary addresses. -/
def destOk (g : Seg) : Bool :=
  let r := regionOf g.dest
  (r == .localMem || r == .shared || r == .hub || r == .lane || r == .prog || r == .sectMem || r == .fabric) &&
    (g.len == 0 || regionOf (g.dest + g.len - 1) == r)

/-- Whether any two of a list of ranges overlap. -/
def anyOverlap : List (Nat × Nat) → Bool
  | [] => false
  | (a, n) :: t => t.any (fun x => overlap a n x.1 x.2) || anyOverlap t

/-- Whether the regions of R365 allow execution at ENTRY. -/
def entryOk (segs : List Seg) (e : Nat) : Bool :=
  segs.any (fun g => decide (g.dest ≤ e) && decide (e < g.dest + g.len)) &&
    (regionOf e == .localMem || regionOf e == .shared || regionOf e == .hub)

/-- Ranges of the stream that are no padding: header, segment table, seal block, segments. -/
def imgParts (blob : Bool) (rd : Nat → Byte) : List (Nat × Nat) :=
  [(0, 256), (imgSegOff rd, 16 * imgSegCount rd)] ++ (if blob then [] else [(imgSealOff rd, 868)]) ++
    (imgSegs rd).map (fun g => (g.off, g.len))

def inParts (l : List (Nat × Nat)) (o : Nat) : Bool := l.any (fun p => decide (p.1 ≤ o) && decide (o < p.1 + p.2))

/-- Whether the image is refused with reason 0x5 (R418, R419); avoid is a range no destination may overlap (R427, R437). DEDUCED: log entry 46. -/
def formatBad (blob : Bool) (avoid : Option (Nat × Nat)) (rd : Nat → Byte) : Bool :=
  let n := imgLen rd
  let segs := imgSegs rd
  let tab := (imgSegOff rd, 16 * imgSegCount rd)
  let sb := (imgSealOff rd, 868)
  n % 4096 != 0 || n < 4096 || decide (16777216 < n) ||
  fld (imgWord rd 0x0C) 31 12 != 0 || imgSegOff rd % 16 != 0 || imgSegCount rd == 0 || decide (64 < imgSegCount rd) ||
  (if blob then imgSealOff rd != 0 else imgSealOff rd % 4 != 0 || !within sb.1 sb.2 256 n || overlap tab.1 tab.2 sb.1 sb.2) ||
  (List.range 188).any (fun k => rd (0x24 + k) != 0) || !within tab.1 tab.2 256 n ||
  (List.range (imgSegCount rd)).any (fun i => imgNat rd (imgSegOff rd + 16 * i + 12) != 0) ||
  segs.any (fun g => g.dest % 4 != 0 || g.off % 4 != 0 || g.len % 4 != 0 || !within g.off g.len 256 n || !destOk g ||
    overlap g.off g.len tab.1 tab.2 || (!blob && overlap g.off g.len sb.1 sb.2) ||
    (match avoid with | some (a, m) => overlap g.dest g.len a m | none => false)) ||
  anyOverlap (segs.map (fun g => (g.off, g.len))) || anyOverlap (segs.map (fun g => (g.dest, g.len))) ||
  (!blob && !entryOk segs (imgNat rd 0x14)) ||
  (List.range n).any (fun o => !inParts (imgParts blob rd) o && rd o != 0)

/-- Domains that a range of memory lies in and that are not on. -/
def asleepIn (s : State) (a n : Nat) : List Nat :=
  ((List.range (n / 0x10000 + 2)).map (fun k => domainAt (min (a + 0x10000 * k) (a + n - 1)))).filter (fun d => !domainOn s d)

/-- The domains that the segments of a stream go to and that are not on. -/
def segsAsleep (segs : List Seg) (s : State) : List Nat := segs.flatMap (fun g => if g.len = 0 then [] else asleepIn s g.dest g.len)

/-- Something that needs domains to be on goes on once they are, and wakes them until then (R368, R403). -/
def whenAwake (who : Initiator) (l : List Nat) (f : State → State) (s : State) : State :=
  if l.isEmpty then f s else l.foldl (fun t d => demandWake who d t) s

/-- A segment's words are written to their destination, each as a write by the copier. -/
def placeSeg (who : Initiator) (rd : Nat → Byte) (g : Seg) (s : State) : State :=
  (List.range (g.len / 4)).foldl (fun t k => (busWriteWord who (g.dest + 4 * k) (imgWord rd (g.off + 4 * k)) t).2) s

/-- DEDUCED: log entry 46. -/
def placeSegs (who : Initiator) (rd : Nat → Byte) (s : State) : State :=
  (imgSegs rd).foldl (fun t g => placeSeg who rd g t) s

/-- Bytes a to a + n - 1 of the stream kept in staging memory. -/
def stage (rd : Nat → Byte) (a n : Nat) (s : State) : State :=
  (List.range n).foldl (fun t k =>
    setBoot { t.boot with staging := Store.set zeroOf t.boot.staging (a + k) (rd (a + k)) } t) s

/-- The copy of an image (R424): its segments, and the header, segment table, seal block and CRC table in staging memory. -/
def copyImage (rd : Nat → Byte) (s : State) : State :=
  let s := setBoot { s.boot with staging := [] } s
  let s := stage rd 0 256 s
  let s := stage rd (imgSegOff rd) (16 * imgSegCount rd) s
  let s := stage rd (imgSealOff rd) 868 s
  let s := stage rd (imgLen rd) (4 * imgBlocks rd) s
  placeSegs .rom rd s

/-! Slots (R417, R422). -/

def dirDefault (s : State) : Bool := s.bit .SEC_STATUS 0 8
def slotRd (s : State) (k o : Nat) : Byte := flashByte s (Store.get natZero s.boot.slotOff k + o)

/-- The directory: its offsets and FCFG, or the defaults. DEDUCED: log entry 46. -/
def readDirectory (s : State) : State :=
  let rd := flashByte s
  let good := imgNat rd 0 = 0x6400D1C0 ∧ imgWord rd 0x3C = crc32 ((List.range 0x3C).map rd) ∧
    ((List.range 44).all (fun k => rd (0x10 + k) == 0))
  let put (a b : Nat) (f : Word) (s : State) : State :=
    setBoot { s.boot with slotOff := Store.set natZero (Store.set natZero [] 0 a) 1 b, fcfg := f } s
  if good then put (imgNat rd 4) (imgNat rd 8) (imgWord rd 0x0C) s
  else put 0x1000 0x801000 (Reg.resetOf (Reg.key .FLASH_CFG 0)) (s.setBit .SEC_STATUS 0 8 true)

def slotFail (k reason : Nat) (s : State) : State := s.setF .SEC_SLOT_FAIL_n k 31 28 reason

/-- Recovery: the load window opens (R427). -/
def toRecovery (s : State) : State := setBoot { s.boot with window := true, order := [], staging := [] } (enter St.RECOVERY s)

/-- The next slot of the order passes to FETCH; with none left the device enters RECOVERY. -/
def nextSlot (s : State) : State :=
  match s.boot.order with
  | k :: t =>
    let s := if sysState s = St.FETCH then s else enter St.FETCH s
    setBoot { s.boot with slot := k, order := t } s
  | [] => toRecovery (if sysState s = St.ROM then enter St.FETCH s else s)

/-- The order in which slots are tried (R422). -/
def slotOrder (s : State) : List Nat × State :=
  let judge (k : Nat) (s : State) : State :=
    let r := headReason false s.boot.floor (slotRd s k)
    if r = 0 then s else slotFail k r s
  let s := judge 1 (judge 0 s)
  let cand (k : Nat) : Bool := s.f .SEC_SLOT_FAIL_n k 31 28 == 0
  let cfg := otpWord s 1
  let gold := b2n (bitOf cfg 2)
  let fixed := b2n (bitOf cfg 1)
  if !s.bit .SEC_STRAP 0 2 then ((if cand gold then [gold] else []), s.setBit .SEC_STATUS 0 5 true)
  else if bitOf cfg 0 then ([fixed, 1 - fixed].filter cand, s)
  else
    let q0 := imgSeq (slotRd s 0)
    let q1 := imgSeq (slotRd s 1)
    let s := if cand 0 && cand 1 && q0 == q1 then s.setBit .SEC_STATUS 0 6 true else s
    ((if q0 < q1 then [1, 0] else [0, 1]).filter cand, s)

/-- The boot mode of the straps (R416): 0 flash, 1 host, 2 recovery, 3 test. -/
def bootMode (s : State) : Nat :=
  let m := s.f .SEC_STRAP 0 1 0
  let cfg := otpWord s 1
  if (m = 1 ∧ bitOf cfg 3) ∨ (m = 3 ∧ bitOf cfg 4) then 0 else m

/-- The band table comes from the OTP defaults (R9, R381). -/
def loadBands (s : State) : State :=
  (List.range 32).foldl (fun t n => t.setReg .SYNTH_BAND_n n (otpWord t (24 + n) &&& 0x3FFFFFFF)) s

/-- The boot ROM loads the band table, and reads the directory and leaves ROM for the state that the boot mode selects; without an answer of
the flash it enters RECOVERY (R417). DESIGN CHOICE: log entries 12, 14; DEDUCED: log entry 46. -/
def romSelect (s : State) : State :=
  if sysState s ≠ St.ROM then s
  else
    let s := loadBands s
    if !s.boot.sfdp then
      toRecovery (slotFail 1 1 (slotFail 0 1 (setBoot { s.boot with fcfg := Reg.resetOf (Reg.key .FLASH_CFG 0) } s)))
    else
      let s := readDirectory s
      match bootMode s with
      | 1 => setBoot { s.boot with window := true } (enter St.FETCH s)
      | 2 => toRecovery s
      | 3 => setDev { s.dev with testRom := true } (enter St.TEST s)
      | _ =>
        let (order, s) := slotOrder s
        nextSlot (setBoot { s.boot with order := order } s)

/-- FETCH_COMPLETE (R424): the slot in hand has been read, or its read has failed. -/
def fetchComplete (ok : Bool) (s0 : State) : State :=
  let s := romSelect s0
  if sysState s ≠ St.FETCH || s.boot.window then s
  else
    let k := s.boot.slot
    let rd := slotRd s k
    let s := s.setBit .SEC_SLOT_FAIL_n k 27 true
    if !ok then nextSlot (slotFail k 1 s)
    else if formatBad false none rd then nextSlot (slotFail k 5 s)
    else whenAwake .rom (segsAsleep (imgSegs rd) s) (fun t => enter St.VERIFY (copyImage rd t)) s

/-! VERIFY (R425). -/

def stagedRd (s : State) (o : Nat) : Byte := Store.get zeroOf s.boot.staging o

/-- Byte o of the stream rebuilt from the on-chip copy: segments from their destinations, the rest from staging, padding zero. -/
def copyByte (s : State) (segs : List Seg) (o : Nat) : Byte :=
  match segs.find? (fun g => decide (g.off ≤ o) && decide (o < g.off + g.len)) with
  | some g => (bytesOfWord (busRead .rom (g.dest + (o - g.off) / 4 * 4) 4 s).1.word).getD ((o - g.off) % 4) 0
  | none => stagedRd s o

/-- A stream with the TAG bytes taken as zero. -/
def noTag (rd : Nat → Byte) (o : Nat) : Byte := if 0xE0 ≤ o ∧ o < 0x100 then 0 else rd o

/-- The blocks of a stream whose CRC differs from the table's entry (R420). -/
def badBlocks (rd : Nat → Byte) : List Nat :=
  (List.range (imgBlocks rd)).filter (fun k =>
    crc32 ((List.range 4096).map (fun i => noTag rd (4096 * k + i))) != imgWord rd (imgLen rd + 4 * k))

/-- Whether a stream's tag matches (R420). -/
def tagOk (s : State) (rd : Nat → Byte) : Bool :=
  let n := imgLen rd
  hmacSha256 (tagKey s) ((List.range n).map (noTag rd) ++ (List.range (4 * imgBlocks rd)).map (fun k => rd (n + k)))
    == (List.range 32).map (fun k => rd (0xE0 + k))

/-- A block is read again from flash into the copy (R425). DEDUCED: log entry 46. -/
def reread (rd : Nat → Byte) (k : Nat) (s : State) : State :=
  let lo := 4096 * k
  let s := stage (fun o => if inParts [(0, 256), (imgSegOff rd, 16 * imgSegCount rd), (imgSealOff rd, 868)] o then rd o
    else stagedRd s o) lo 4096 s
  let s := (imgSegs rd).foldl (fun t g =>
    (List.range (g.len / 4)).foldl (fun u j =>
      if lo ≤ g.off + 4 * j ∧ g.off + 4 * j < lo + 4096 then (busWriteWord .rom (g.dest + 4 * j) (imgWord rd (g.off + 4 * j)) u).2 else u) t) s
  count .SEC_BOOT_INFO 0 8 7 0 none s

/-- The seal block and the locks (R421, R425). -/
def writeSeal (rd : Nat → Byte) (s : State) : State :=
  let w (k : Nat) : Word := imgWord rd (imgSealOff rd + 4 * k)
  let s := (List.range 203).foldl (fun t k => regsWrite .rom (0x400D0100 + 4 * k) (w k) t) s
  let s := (List.range 12).foldl (fun t k => regWrite .rom .SYNTH_CEIL_n k (w (203 + k)) t) s
  let s := (List.range 4).foldl (fun t k => t.setF .SYNTH_OUT_n_CFG k 23 16 (fld (w 215) (8 * k + 7) (8 * k))) s
  let s := s.setF .SEC_PIN_LOCK 0 16 0 (fld (w 216) 16 0)
  ((s.setBit .SYNTH_LOCK 0 0 true).setBit .SEC_PIN_LOCK 0 31 true).setBit .GUARD_LOCK 0 0 true

/-- A pass: the version key, the seal block, the locks, FLASH_CFG, and core 0 at ENTRY in ARMED. src is SOURCE of SEC_STATUS. DEDUCED: log entries 46, 49. -/
def bootPass (rd : Nat → Byte) (src : Nat) (s : State) : State :=
  let blank := lifecycle s == Life.BLANK
  let s := s.setF .SEC_STATUS 0 1 0 src
  let s := s.setBit .SEC_STATUS 0 4 (bitOf (imgWord rd 4) 16)
  let s := s.setBit .SEC_STATUS 0 9 blank
  let s := s.setF .SEC_BOOT_INFO 0 27 16 (imgVersion rd)
  let s := s.setReg .SEC_BOOT_SEQ 0 (if src < 2 then imgWord rd 8 else 0)
  let s := setBoot { s.boot with verKey := if blank then [] else ladderKey s (imgVersion rd), staging := [], order := [],
                                 place := false } s
  let s := writeSeal rd s
  let s := s.setReg .FLASH_CFG 0 0x03000014
  let s := (plainWrite .FLASH_CFG 0 s.boot.fcfg s).setF .FLASH_CFG 0 27 24 3
  let s := if src < 2 then s
    else (List.range (imgLen rd + 4 * imgBlocks rd)).foldl (fun t k => setByte t (0x18000000 + k) 0) s
  coreLaunch 0 (imgWord rd 0x14) (enter St.ARMED s)

/-- A failure in VERIFY: the next slot, or RECOVERY. DEDUCED: log entry 46. -/
def bootFail (src reason : Nat) (block : Option Nat) (s : State) : State :=
  if src < 2 then
    let s := slotFail src reason s
    nextSlot (match block with | some k => s.setF .SEC_SLOT_FAIL_n src 11 0 k | none => s)
  else toRecovery (setBoot { s.boot with place := false } s)

/-- The copy is checked, once the domains it lies in are on (R425, R427). -/
def verifyCopy (host : Bool) (src : Nat) (rd0 : Nat → Byte) (s : State) : State :=
  let s := if host then copyImage rd0 s else s
  let segs := imgSegs (stagedRd s)
  let bad := badBlocks (copyByte s segs)
  let s := if host then s else bad.foldl (fun t k => reread (slotRd t src) k t) s
  let rd := copyByte s segs
  let bad := badBlocks rd
  let s := match bad.head? with
    | some k => if host then s else s.setF .SEC_SLOT_FAIL_n src 11 0 k
    | none => s
  if lifecycle s = Life.BLANK then
    if bad.isEmpty then bootPass rd src s else bootFail src 7 bad.head? s
  else if !tagOk s rd then bootFail src 6 bad.head? s
  else bootPass rd src (if bad.isEmpty then s else s.setBit .SEC_STATUS 0 7 true)

/-- VERIFY_COMPLETE (R425, R427). -/
def verifyComplete (s : State) : State :=
  if sysState s ≠ St.VERIFY then s
  else
    let host := s.boot.place
    let src := if host then (if s.f .SYS_STATE 0 19 16 = St.RECOVERY then 3 else 2) else s.boot.slot
    let win : Nat → Byte := fun o => getByte s (0x18000000 + o)
    let head := if host then headReason false s.boot.floor win else 0
    if head ≠ 0 then bootFail src head none s
    else if host && formatBad false (some (0x18000000, imgLen win + 4 * imgBlocks win)) win then bootFail src 5 none s
    else whenAwake .rom (segsAsleep (imgSegs (if host then win else stagedRd s)) s) (verifyCopy host src win) s

/-! SEC operations (R434, R437). -/

/-- n bytes that lie in one memory of R434, or none for a bus error. -/
def secRead (s : State) (a n : Nat) : Option (List Byte) :=
  let r := regionOf a
  if (r == .localMem || r == .shared || r == .hub) && regionOf (a + n - 1) == r then some (getBytes s a n) else none

/-- Whether SEC can write n bytes at an address. -/
def secTakes (s : State) (a n : Nat) : Bool := (secRead s a n).isSome && !barred .sec a n s

/-- A seal operation ends (R434, R435, R441). -/
def sealFinish (reason : Nat) (s : State) : State :=
  let s := sealEnd reason (setBoot { s.boot with sealJob := none } s)
  if s.boot.lockAfter then setBoot { s.boot with lockAfter := false } (s.setBit .SEC_SEAL_CTRL 0 30 true) else s

/-- The header of a blob. -/
def blobHeader (ver len : Nat) (iv : List Byte) : List Byte :=
  bytesLE 4 0x64005EA1 ++ bytesLE 4 ver ++ bytesLE 4 len ++ bytesLE 4 0 ++ iv ++ bytesLE 4 0

/-- Ciphertext padded with zeros to a multiple of 4. -/
def pad4 (l : List Byte) : List Byte := l ++ List.replicate ((4 - l.length % 4) % 4) 0

/-- SEAL: the IV comes from the SEC random source, so its words are free values. DEDUCED: log entry 47. -/
def sealRun (j : SealJob) (s : State) : State :=
  match secRead s j.src j.len with
  | none => sealFinish 6 s
  | some pt =>
    let n := 48 + (j.len + 3) / 4 * 4
    if !secTakes s j.dst n then sealFinish 6 s
    else
      let (a, s) := draw s
      let (b, s) := draw s
      let (c, s) := draw s
      let iv := bytesLE 4 a ++ bytesLE 4 b ++ bytesLE 4 c
      let h := blobHeader j.ver j.len iv
      let (ct, tag) := gcmSeal (versionKey s j.ver) iv h pt
      sealFinish 0 (putBytes (addrBytes j.dst (h ++ pad4 ct ++ tag)) s)

/-- OPEN. DEDUCED: log entry 47. -/
def openRun (j : SealJob) (s : State) : State :=
  match secRead s j.src 32 with
  | none => sealFinish 6 s
  | some h =>
    let w (k : Nat) : Word := wordOfBytes ((h.drop (4 * k)).take 4)
    let len := (w 2).toNat
    if w 0 ≠ 0x64005EA1 ∨ fld (w 1) 31 12 ≠ 0 ∨ len = 0 ∨ 16384 < len ∨ w 3 ≠ 0 ∨ w 7 ≠ 0 then sealFinish 5 s
    else if imageVersion s < (w 1).toNat then sealFinish 3 s
    else
      let padded := (len + 3) / 4 * 4
      match secRead s (j.src + 32) (padded + 16) with
      | none => sealFinish 6 s
      | some body =>
        match gcmOpen (versionKey s (w 1).toNat) ((h.drop 16).take 12) h (body.take len) (body.drop padded) with
        | none => sealFinish 4 s
        | some pt =>
          if !secTakes s j.dst len then sealFinish 6 s
          else sealFinish 0 (putBytes (addrBytes j.dst pt) (s.setF .SEC_SEAL_VER 0 11 0 (w 1).toNat))

/-- The domains that a seal operation reads or writes and that are not on. -/
def sealAsleep (j : SealJob) (s : State) : List Nat :=
  let l := (getWord s (j.src + 8)).toNat
  let n := if j.isOpen then (if 16384 < l then 0 else l) else j.len
  let blob := 48 + (n + 3) / 4 * 4
  if j.isOpen then asleepIn s j.src blob ++ asleepIn s j.dst (max n 1) else asleepIn s j.src n ++ asleepIn s j.dst blob

/-- SEAL_OPERATION_DONE: the operation in progress completes, unless memory it needs has to wake first. -/
def sealDone (s : State) : State :=
  match s.boot.sealJob with
  | none => s
  | some j =>
    if !(sealAsleep j s).isEmpty then (sealAsleep j s).foldl (fun t d => demandWake .sec d t) s
    else if j.isOpen then openRun j s else sealRun j s

/-- A sealed load ends. -/
def loadFinish (reason : Nat) (block : Option Nat) (s : State) : State :=
  let s := (setBoot { s.boot with load := none } s).setBit .SEC_SEALED_LOAD_STAT 0 31 false
  let s := s.setF .SEC_SEALED_LOAD_STAT 0 11 0 (block.getD 0)
  let s := s.setF .SEC_SEALED_LOAD_STAT 0 27 24 reason
  if reason = 0 then raise Ev.SEC_LOAD_DONE (s.setBit .SEC_SEALED_LOAD_STAT 0 30 true)
  else raise Ev.SEC_LOAD_ERR (s.setBit .SEC_SEALED_LOAD_STAT 0 29 true)

/-- Whether a property holds of every destination word of some segments. -/
def allWords (segs : List Seg) (p : Nat → Bool) : Bool :=
  segs.all (fun g => (List.range (g.len / 4)).all (fun k => p (g.dest + 4 * k)))

/-- SEC copies the segments of a blob that has passed its checks: nothing where one of their words would be answered with a bus error, and
not while the commit window holds one (R218, R437). -/
def loadCopy (rd : Nat → Byte) (segs : List Seg) (s : State) : State :=
  if !allWords segs (fun a => takesWrites a && !barred .sec a 4 s) then loadFinish 8 none s
  else if !allWords segs (fun a => !fabHolds s a) then s
  else loadFinish 0 none (segs.foldl (fun t g => placeSeg .sec rd g t) s)

/-- SEALED_LOAD_DONE (R437). DEDUCED: log entry 47. -/
def sealedLoadDone (s : State) : State :=
  match s.boot.load with
  | none => s
  | some (a, n) =>
    let rd : Nat → Byte := fun o => getByte s (a + o)
    let r := regionOf a
    if (r != .hub && r != .shared) || regionOf (a + n - 1) != r then loadFinish 8 none s
    else whenAwake .sec (asleepIn s a n) (fun s =>
      let head := headReason true s.boot.floor rd
      let segs := imgSegs rd
      if head ≠ 0 then loadFinish head none s
      else if formatBad true (some (a, n)) rd then loadFinish 5 none s
      else whenAwake .sec (segsAsleep segs s) (fun s =>
        let bad := badBlocks rd
        if lifecycle s = Life.BLANK then (if bad.isEmpty then loadCopy rd segs s else loadFinish 7 bad.head? s)
        else if !tagOk s rd then loadFinish 6 bad.head? s
        else loadCopy rd segs s) s) s

end Sys2Proof.Machine
end

