-- ==== Sys2Proof/Machine/TurnUnit.lean ====
section
/-! DEFINITION. The grid of a turn (02_turn_and_latency.md R48 to R61): the commit cut, the boundary, the fabric-side swap, the
mailbox exchange, the start of the engine runs, and the guard evaluation. -/

namespace Sys2Proof.Machine

/-- An event of a unit in power domain d: it happens while the device is out of reset and the domain is on. DESIGN CHOICE: log entry 18. -/
def whenOn (d : Nat) (f : State → State) (s : State) : State := if up s && domainOn s d then f s else s

/-- An event of the always-on domain: it happens while the device is out of reset. DESIGN CHOICE: log entry 18. -/
def whenUp (f : State → State) (s : State) : State := if up s then f s else s

/-! The commit cut (R35, R58, R408). -/

/-- COMMIT_CUT: clk N - 256. DESIGN CHOICE: log entry 15. -/
def commitCut (s : State) : State :=
  if turnsOn s && !s.dev.cutPast then
    let s := autoRetCut (safeCut (setClk (turnLen s - 256) s))
    setDev { s.dev with freeze := decide (holdCause s ≠ 0), cutPast := true, pendCut := s.dev.pendCut ++ s.dev.pendNew,
                        pendNew := [] } s
  else s

/-! Changes that take effect at a boundary (R56). -/

/-- The cluster of a change whose first work is an engine run, and whether a change's first work is a section run. -/
def actCluster : PendAct → Option Nat
  | .engEn pe _ => some (pe / 9)
  | .retireEngine pe _ => some (pe / 9)
  | _ => none

def actSection : PendAct → Bool
  | .chainEn _ _ | .chainZero _ | .chainZeroAll => true
  | _ => false

def actRun (a : PendAct) : Bool := (actCluster a).isSome || actSection a

/-- Whether a change stops turns. -/
def actStops (s : State) : PendAct → Bool
  | .disarm => effState s == St.RUN
  | .testExit => inTest s
  | _ => false

/-- The count under which a link retires: 17 wins over 8 (R290). -/
def retireCount (s : State) (l n : Nat) : Nat := ((s.link.retiring.find? (fun x => x.1 == l)).map (fun x => x.2)).getD n

/-- A change takes effect. -/
def actNow (a : PendAct) (s : State) : State :=
  match a with
  | .engEn pe b => engEnable pe b s
  | .retireEngine pe d => retireEngine pe d s
  | .retireCore c => retireCore c s
  | .retirePort p n => retirePort p n s
  | .retireLink l n => retireLink l (retireCount s l n) true s
  | .disarm => if effState s = St.RUN ∨ effState s = St.HOLD then toArmed s else s
  | .testExit => if inTest s then toArmed s else s
  | .sapEn p b => sapEnable p b s
  | .asrcEn n b => asrcEnable n b s
  | .linkEn l b => linkEnable l b s
  | .chainEn c b => chainEnable c b s
  | .chainZero c => zeroSections c 0 s
  | .chainZeroAll => (List.range 512).foldl (fun t c => zeroSections c 0 t) s
  | .timerStart n => timerStart n s
  | .rampGo => rampStart s

/-- DEDUCED: log entry 29. -/
def actsNow (l : List PendAct) (s : State) : State := l.foldl (fun t a => actNow a t) s

/-- Flips of members whose domain is in retention or off wake it (R187, R403). DEDUCED: log entry 28. -/
def flipWakes (l : List Member) (s : State) : State :=
  let ds := (l.map memberDomain).filter (fun d => domainDown s d || inRequest s d)
  if ds.isEmpty then s else wakeDomains 29 ds s

/-! Clk N/2 (R51, R147). -/

/-- The store without the keys of cluster c's mailboxes, and with those alone. -/
def boxOf (c : Nat) (e : Nat × Sample) : Bool := e.1 / 512 == c
def takeBoxes (c : Nat) (src dst : Store Sample) : Store Sample :=
  (src.filter (boxOf c)).foldl (fun m e => Store.set zeroOf m e.1 e.2) (dst.filter (fun e => !boxOf c e))

/-- The outputs of an engine whose disable or retirement takes effect read zero (R140, R175): those the fabric reads from the boundary,
those of its last run at the swap. -/
def silenceF (pe : Nat) (s : State) : State :=
  match slotOf s pe with
  | some k => setEng { s.eng with outF := s.eng.outF.filter (fun x => x.1 / 64 != 8 * (pe / 9) + k) } s
  | none => s

def silenceE (pe : Nat) (s : State) : State :=
  match slotOf s pe with
  | some k => zeroOutE (8 * (pe / 9) + k) s
  | none => s

/-- The engines that changes stop. -/
def actOff : PendAct → Option Nat
  | .engEn pe false => some pe
  | .retireEngine pe _ => some pe
  | _ => none

/-- The output mailboxes of cluster c swap, once in a turn; the new engine-side buffers are zero. A run that has not ended ends. DEDUCED: log entry 28. -/
def swapOutputs (c : Nat) (s : State) : State :=
  if s.dev.swapped.contains c then s
  else
    let s := ((s.eng.run.map (fun r => r.1)).filter (fun pe => pe / 9 == c)).foldl (fun t pe => endRun pe t) s
    let s := setDev { s.dev with late := s.dev.late.filter (fun x => x != c) } s
    let s := ((s.dev.exch.filterMap actOff).filter (fun pe => pe / 9 == c)).foldl (fun t pe => silenceE pe t) s
    let s := setEng { s.eng with outF := takeBoxes c s.eng.outE s.eng.outF, outE := s.eng.outE.filter (fun e => !boxOf c e) } s
    setDev { s.dev with swapped := c :: s.dev.swapped } s

/-- FABRIC_SWAP (R51, R54, R56): engine and section outputs and link audio become readable, and the changes and flips of chains
apply before the section run. DESIGN CHOICE: log entry 15. -/
def fabricSwap (s : State) : State :=
  if turnsOn s then
    let s := linksDeliver (setClk (turnLen s / 2) s)
    let s := sectSwap ((List.range 8).foldl (fun t c => swapOutputs c t) s)
    let acts := s.dev.exch.filter actSection
    let s := setDev { s.dev with exch := s.dev.exch.filter (fun a => !actSection a) } s
    detMiddle (safeSections (actsNow acts s))
  else s

/-- QUIESCENCE_DECISION (R224, R225, R409): of every cluster. -/
def quiescenceDecision (s : State) : State :=
  if turnsOn s then
    (List.range 8).foldl (fun t c =>
      autoRetDecision c (quiescent t c) (t.bit .FABRIC_QUIET_n c 31 && clusterLoud t c) (quietDecide c t)) s
  else s

/-- The physical engines of a cluster. -/
def enginesOf (c : Nat) : List Nat := (List.range 9).map (fun k => 9 * c + k)

/-- The exchange of cluster c, in its order (R147): the changes and flips of its engines, DB, and a migration that switches; where
the source performs no run, DB of the spare steps before its first one (R146, R158). -/
def exchangeBody (c : Nat) (s : State) : State :=
  let s := swapOutputs c s
  let s := setDev { s.dev with exchanged := c :: s.dev.exchanged } s
  let s := if quiescent s c then s else setEng { s.eng with inE := takeBoxes c s.eng.inF s.eng.inE } s
  let acts := s.dev.exch.filter (fun a => actCluster a == some c)
  let s := setDev { s.dev with exch := s.dev.exch.filter (fun a => !(actCluster a == some c)) } s
  let s := safeEngines c (actsNow acts s)
  let s := ((enginesOf c).filter (dbSteps s)).foldl (fun t pe => stepDB pe t) s
  match migOf s c with
  | some m =>
    if !migReady s m then s
    else
      let t := migSwitch m s
      if dbSteps s m.src = false ∧ dbSteps t (9 * m.cl + 8) = true then stepDB (9 * m.cl + 8) t else t
  | none => s

/-- MAILBOX_EXCHANGE of cluster c, once in a turn. A cluster whose domain is not on has it once it is on, but its commits apply (R163, R409).
DESIGN CHOICE: log entries 15, 27. -/
def mailboxExchange (c : Nat) (s : State) : State :=
  if !turnsOn s || s.dev.exchanged.contains c then s
  else if !domainOn s (6 + c) && !quiescent s c then s
  else exchangeBody c (setClk (turnLen s / 2) s)

/-- The clusters that wake over the boundary have their exchange at the end of the turn, with its inputs; their runs of the turn start once
they are on (R53, R409). DEDUCED: log entry 92. -/
def exchangeLate (s : State) : State :=
  let cs := (List.range 8).filter (fun c => !s.dev.exchanged.contains c && !quiescent s c && s.pwr.wake.any (fun w => w.1 == 6 + c))
  let s := cs.foldl (fun t c => exchangeBody c t) s
  setDev { s.dev with late := cs } s

/-! The boundary (R30, R35, R36, R56, R59). -/

/-- Turns stop or freeze: what was to take effect at the boundary does, and what came after the cut with it (R58), but for DISARM and
TEST_EXIT, which wait for the next boundary (R35); members of engines with no run in progress flip (R185). DEDUCED: log entry 29. -/
def turnsStop (acts : List PendAct) (s : State) : State :=
  let after := s.dev.pendNew.filter (fun a => !actRequest a)
  let s := setDev { s.dev with pendNew := [], pendCut := s.dev.pendNew.filter actRequest, freeze := false, relockEnd := false } s
  let s := asrcStopped (muteOutputs (setTurns false { s with link := { s.link with rx := [], due := [] } }))
  let s := if effState s = St.RUN && !acts.contains .disarm then enterEff St.HOLD s else s
  let s := flipsEnded (safeSections s)
  portsSwap .keep (actsNow (s.dev.exch ++ acts ++ after) (setDev { s.dev with exch := [] } s))

/-- The boundary that ends a running turn. -/
def runningBoundary (s : State) : State :=
  let acts := s.dev.pendCut
  let stops := s.dev.freeze || s.dev.relockEnd || acts.any (actStops s)
  let flips := s.safe.flipFab ++ s.safe.flipEng ++ s.safe.flipNext
  let s := exchangeLate s
  let s := nextGrid { s with time := { s.time with turn := s.time.turn + 1 } }
  let s := setDev { s.dev with cutPast := false, pendCut := [], swapped := [], exchanged := [], started := [] } s
  let s := timersBoundary (rampBoundary (tonesAdvance (linksBoundary s)))
  let s := flipWakes flips (safeBoundary stops s)
  let s := setEng { s.eng with corrected := [] } s
  if stops then turnsStop acts s
  else
    let s := actsNow (acts.filter (fun a => !actRun a)) s
    let (runs, s) := clearDisabled (acts.filter actRun) (muteDisabled acts s)
    let s := (acts.filterMap actOff).foldl (fun t pe => silenceF pe t) s
    beginTurn .run (setDev { s.dev with exch := s.dev.exch ++ runs } s)

/-- Whether RELOCK keeps turns that START has asked for from starting (R383). -/
def startWaits (s : State) : Bool := s.dev.starting && s.bit .SYS_STATE 0 Hold.RELOCK

/-- Whether turns start or resume at a boundary: at the first one after START (R30, R59), or at the first that finds no hold cause (R36, R483);
under RELOCK they do not (R383). DESIGN CHOICE: log entry 90. -/
def turnsNext (s : State) : Bool :=
  (s.dev.starting && effState s != St.HOLD && !startWaits s) || ((effState s == St.HOLD || inTest s) && holdCause s == 0)

/-- What a boundary of the grid does while turns are stopped or frozen: a DISARM or TEST_EXIT that waited acts (R35), and turns start or
resume. DEDUCED: log entry 29. -/
def idleTurn (s : State) : State :=
  let s := linksBoundary s
  let s := setEng { s.eng with corrected := [] } s
  let acts := s.dev.pendCut
  let s := actsNow acts (setDev { s.dev with pendCut := [] } s)
  if turnsNext s then turnsGo (if effState s = St.HOLD then enterEff St.RUN s else s)
  else portsSwap .keep (if startWaits s && effState s == St.RUN then enterEff St.HOLD s else s)

/-- A boundary of the grid while turns are stopped or frozen. -/
def idleBoundary (s : State) : State := idleTurn (nextGrid s)

/-- DIVIDER_RESET (R386): with turns frozen under SNAP; the first turn after HOLD starts at that instant. -/
def dividerResetStep (s : State) : State :=
  if s.bit .SYS_STATE 0 Hold.SNAP && !turnsOn s && alive s then idleTurn (dividerReset s) else s

/-- BOUNDARY; the writes that the commit window held are made again (R218). DESIGN CHOICE: log entry 15. -/
def boundary (s : State) : State :=
  if !alive s then s
  else if !turnsOn s then idleBoundary s
  else if s.fab.held.isEmpty then runningBoundary s
  else retryAll (runningBoundary s)

/-- The engines of cluster c begin their runs (R137). -/
def runsBegin (c : Nat) (s : State) : State :=
  setEng { s.eng with run := s.eng.run ++ ((enginesOf c).filter (willRun s)).map (fun pe => (pe, 0)) } s

/-- ENGINE_RUN_START of cluster c (R53, R137): clk N/2 + 128, or later after a wake, in the next turn too. The record of the flips is made at
that clk (R184). DESIGN CHOICE: log entries 15, 27. -/
def engineRunStart (c : Nat) (s : State) : State :=
  if s.dev.late.contains c then
    if domainOn s (6 + c) then runsBegin c (setDev { s.dev with late := s.dev.late.filter (fun x => x != c) } s) else s
  else if turnsOn s then
    let s := safeRecord (setClk (turnLen s / 2 + 128) s)
    if domainOn s (6 + c) && s.dev.exchanged.contains c && !s.dev.started.contains c then
      runsBegin c (setDev { s.dev with started := c :: s.dev.started } s)
    else s
  else s

/-- SECTION_RUN (R232, R243). -/
def sectionRunStep (s : State) : State := if domainOn s 4 then sectionRun s else s

/-! Guards (R269). -/

/-- GUARD_EVALUATION: of every enabled, unretired output; muted outputs are zero and not evaluated. -/
def guardEvaluation (s : State) : State :=
  if !turnsOn s then s
  else
    let s := guardXmute s
    if s.bit .SYS_STATE 0 4 then muteOutputs s
    else
      let old := s.guard.yPrev
      let value (a : Nat) : Int :=
        if a < 0x400 then ofSample (Store.get zeroOf s.port.stage a) else ofSample (Store.get zeroOf s.link.stage (a - 0x400))
      let (ys, s) := guardAll ((guardPorts s ++ guardLinks s).map (fun a => (a, value a))) s
      let s := portsSend ys old s
      setLink { s.link with guarded := ys.foldl (fun m e =>
        if 0x400 ≤ e.1 then Store.set zeroOf m (e.1 - 0x400) (toSample e.2) else m) [] } s

end Sys2Proof.Machine
end

