-- ==== Sys2Proof/Machine/Device.lean ====
section
/-! DEFINITION. Commands: supplies, reset, boot and the requests of SYS_STATE_REQ (01_architecture.md R28 to R37, R482, R483;
16_boot_and_security.md R416 to R427). -/

namespace Sys2Proof.Machine

/-- A write value of SYS_STATE_REQ. -/
def stateReq (key : BitVec 16) (req : Nat) : Word := BitVec.ofNat 32 (key.toNat * 65536 + req)

/-- SUPPLY_RISE (R30). -/
def execSupplyRise (s : State) : Answer := .next (Sys2Proof.Machine.supplyRise s)

/-- SUPPLY_LOSS (R412). -/
def execSupplyLoss (off : Bool) (s : State) : Answer := .next (Sys2Proof.Machine.supplyLoss off s)

/-- RESET_N_LOW (R30). -/
def execResetNLow (s : State) : Answer := .next (resetLow s)

/-- RESET_RELEASE (R416). -/
def execResetRelease (bootsel : Fin 4) (goldenN : Bool) (sfdp : Bool) (s : State) : Answer :=
  .next (Sys2Proof.Machine.resetRelease bootsel goldenN sfdp s)

/-- FETCH_COMPLETE (R424). DESIGN CHOICE: log entry 14. -/
def execFetchComplete (ok : Bool) (s : State) : Answer := .next (Sys2Proof.Machine.fetchComplete ok s)

/-- VERIFY_COMPLETE (R425). DESIGN CHOICE: log entry 14. -/
def execVerifyComplete (s : State) : Answer := .next (Sys2Proof.Machine.verifyComplete s)

/-- LOADED (R427). -/
def execLoaded (m : Initiator) (v : Word) (s : State) : Answer := .next (rowWrite m .SEC_BOOT_CTRL 0 (putBit v 0 true) s)

/-- START (R29). -/
def execStart (m : Initiator) (key : BitVec 16) (s : State) : Answer := .next (rowWrite m .SYS_STATE_REQ 0 (stateReq key 1) s)

/-- DISARM (R35). -/
def execDisarm (m : Initiator) (key : BitVec 16) (s : State) : Answer := .next (rowWrite m .SYS_STATE_REQ 0 (stateReq key 2) s)

/-- HOLD_SET (R482). -/
def execHoldSet (m : Initiator) (key : BitVec 16) (s : State) : Answer := .next (rowWrite m .SYS_STATE_REQ 0 (stateReq key 3) s)

/-- HOLD_CLEAR (R36). -/
def execHoldClear (m : Initiator) (key : BitVec 16) (s : State) : Answer := .next (rowWrite m .SYS_STATE_REQ 0 (stateReq key 4) s)

/-- TEST_ENTER (R32). -/
def execTestEnter (m : Initiator) (key : BitVec 16) (s : State) : Answer := .next (rowWrite m .SYS_STATE_REQ 0 (stateReq key 5) s)

/-- TEST_EXIT (R483). -/
def execTestExit (m : Initiator) (key : BitVec 16) (s : State) : Answer := .next (rowWrite m .SYS_STATE_REQ 0 (stateReq key 6) s)

/-- HALT (R30). -/
def execHalt (m : Initiator) (key : BitVec 16) (s : State) : Answer := .next (rowWrite m .SYS_STATE_REQ 0 (stateReq key 7) s)

end Sys2Proof.Machine
end

