-- ==== Sys2Proof/Machine/Dma.lean ====
section
/-! DEFINITION. Commands: DMA channels and hub timers (12_dma.md R341 to R364). -/

namespace Sys2Proof.Machine



/-- CHANNEL_ENABLE (R341). -/
def execChannelEnable (m : Initiator) (n : Fin 32) (v : Word) (s : State) : Answer :=
  .next (rowWrite m .DMA_CH_n_CTRL n (putBit v 0 true) s)

/-- CHANNEL_DISABLE (R353). -/
def execChannelDisable (m : Initiator) (n : Fin 32) (v : Word) (s : State) : Answer :=
  .next (rowWrite m .DMA_CH_n_CTRL n (putBit v 0 false) s)

/-- DMA_START (R342). -/
def execDmaStart (m : Initiator) (n : Fin 32) (v : Word) (s : State) : Answer :=
  .next (rowWrite m .DMA_CH_n_CTRL n (putBit v 2 true) s)

/-- PAUSE (R352). -/
def execPause (m : Initiator) (n : Fin 32) (v : Word) (s : State) : Answer := .next (rowWrite m .DMA_CH_n_CTRL n v s)

/-- RESUME (R356). -/
def execResume (m : Initiator) (n : Fin 32) (v : Word) (s : State) : Answer :=
  .next (rowWrite m .DMA_CH_n_CTRL n (putBit v 3 true) s)

/-- DMA_ABORT (R354). -/
def execDmaAbort (m : Initiator) (n : Fin 32) (v : Word) (s : State) : Answer :=
  .next (rowWrite m .DMA_CH_n_CTRL n (putBit v 4 true) s)

/-- DESCRIPTOR_FETCH (R346). -/
def execDescriptorFetch (n : Fin 32) (s : State) : Answer := .next (whenOn 2 (dmaFetchStep n) s)

/-- DESCRIPTOR_COMPLETE (R351). -/
def execDescriptorComplete (n : Fin 32) (s : State) : Answer := .next (whenOn 2 (dmaMove true n) s)

/-- DMA_BUS_ERROR (R356). -/
def execDmaBusError (n : Fin 32) (late : Option Word) (s : State) : Answer :=
  .next (whenOn 2 (Sys2Proof.Machine.dmaBusError n late) s)

/-- DMA_TIMEOUT (R355). -/
def execDmaTimeout (n : Fin 32) (what : Unanswered) (s : State) : Answer :=
  .next (whenOn 2 (Sys2Proof.Machine.dmaTimeout n what) s)

/-- TIMER_ENABLE (R360). -/
def execTimerEnable (m : Initiator) (n : Fin 8) (v : Word) (s : State) : Answer :=
  .next (rowWrite m .TIMER_n_CTRL n (putBit v 0 true) s)

/-- TIMER_EXPIRE (R361). -/
def execTimerExpire (n : Fin 8) (s : State) : Answer := .next (whenOn 2 (Sys2Proof.Machine.timerExpire n) s)

end Sys2Proof.Machine
end

