-- ==== Sys2Proof/Machine/Engines.lean ====
section
/-! DEFINITION. Commands: the sample-locked engines (05_engines.md R137 to R177). -/

namespace Sys2Proof.Machine

/-- An access to a lane word joins the queue of its lane (R144, R150): a host write without ownership is ignored, JTAG reaches no
memory while debug is closed, HALT and the boot fence answer a write with a bus error; a sleeping cluster wakes. -/
def laneRequest (m : Initiator) (pe L w : Nat) (data : Option Word) (s : State) : State :=
  let a := laneAddr pe L w
  let x : LaneAcc := ⟨pe, L, w, data, m⟩
  let queued : State := (if domainOn s (domCluster pe) then touch (domCluster pe) else demandWake m (domCluster pe)) (laneQueue x s)
  if !up s || !mayStart m s then s
  else match m with
    | .host k =>
      if !jtagOpen k.val a s then s
      else if data.isSome && (sysState s == St.HALT || (isOwner s k.val && barred m a 4 s)) then setLast k.val 0x81 s
      else if data.isSome && !isOwner s k.val then setLast k.val 0x82 (wign k.val s)
      else queued
    | .core c => if data.isSome && barred m a 4 s then storeError c.val a s else queued
    | _ => if data.isSome && barred m a 4 s then s else queued

/-- The oldest access of the lane lands; a write of a shadow palette clears VALID (R189). -/
def laneDone (pe L : Nat) (s : State) : State :=
  match s.eng.busq.find? (fun x => x.pe == pe && x.lane == L) with
  | some x => (if x.write.isSome then laneShadowWritten pe L x.word else id) (laneComplete pe L s)
  | none => s

def scrubEngine (pe : Nat) (s : State) : State :=
  if onBackup s then s else (List.range 4).foldl (fun t L => scrubLane pe L t) s

/-- A migration copy needs the cluster's domain on (R403). -/
def migCopyStep (cl : Nat) (s : State) : State :=
  if !up s then s
  else if domainOn s (6 + cl) then migCopy cl s
  else if s.eng.mig.any (fun m => m.cl == cl) then wakeDomains 29 [6 + cl] s else s

/-- ENG_EN_WRITE (R140). -/
def execEngEnWrite (m : Initiator) (pe : Fin 72) (v : Word) (s : State) : Answer := .next (rowWrite m .ENG_CTRL pe v s)

/-- ENG_LANE_MAP_WRITE (R143). -/
def execEngLaneMapWrite (m : Initiator) (pe : Fin 72) (v : Word) (s : State) : Answer := .next (rowWrite m .ENG_LANE_MAP pe v s)

/-- ENG_DB_WRITE (R146). -/
def execEngDbWrite (m : Initiator) (pe : Fin 72) (v : Word) (s : State) : Answer := .next (rowWrite m .ENG_DB pe v s)

/-- ENG_PROG_WRITE (R153). -/
def execEngProgWrite (m : Initiator) (pe : Fin 72) (b : Bool) (v : Word) (s : State) : Answer :=
  .next (rowWrite m (if b then .ENG_PROG_B else .ENG_PROG_A) pe v s)

/-- PROGRAM_MEMORY_WRITE (R152). -/
def execProgramMemoryWrite (m : Initiator) (pe : Fin 72) (w : Fin 8192) (v : Word) (s : State) : Answer :=
  .next (access m (progAddr pe w) v s)

/-- PROGRAM_CHECK_DONE (R154). -/
def execProgramCheckDone (pe : Fin 72) (s : State) : Answer := .next (whenOn (domCluster pe) (progCheckDone pe) s)

/-- LANE_MEMORY_ACCESS (R144). -/
def execLaneMemoryAccess (m : Initiator) (pe : Fin 72) (l : Fin 4) (w : Fin 16384) (data : Option Word) (s : State) : Answer :=
  .next (laneRequest m pe l w data s)

/-- LANE_ACCESS_COMPLETE (R150). -/
def execLaneAccessComplete (pe : Fin 72) (l : Fin 4) (s : State) : Answer := .next (whenOn (domCluster pe) (laneDone pe l) s)

/-- WRITE_BACK (R164). -/
def execWriteBack (pe : Fin 72) (l : Fin 4) (s : State) : Answer := .next (whenOn (domCluster pe) (writeBackStep pe l) s)

/-- SCRUB (R165). -/
def execScrub (pe : Fin 72) (s : State) : Answer := .next (whenOn (domCluster pe) (scrubEngine pe) s)

/-- MIG_START (R176). -/
def execMigStart (m : Initiator) (cl : Fin 8) (v : Word) (s : State) : Answer :=
  .next (rowWrite m .ENGC_MIG_CTRL cl (putBit v 0 true) s)

/-- MIGRATION_COPY_COMPLETE (R169). -/
def execMigrationCopyComplete (cl : Fin 8) (s : State) : Answer := .next (migCopyStep cl s)

/-- ENGC_REMAP_WRITE (R174). -/
def execEngcRemapWrite (m : Initiator) (cl : Fin 8) (retire : Bool) (v : Word) (s : State) : Answer :=
  .next (rowWrite m (if retire then .ENGC_RETIRE else .ENGC_REMAP) cl v s)

end Sys2Proof.Machine
end

