-- ==== Sys2Proof/Machine/Fabric.lean ====
section
/-! DEFINITION. Commands: the mixing fabric (07_mix_fabric.md R201 to R226). -/

namespace Sys2Proof.Machine

/-- Where a detector configuration stands. -/
def detAddr : DetReg → Nat
  | .word a => 0x3C110000 + 4 * a.val
  | .thresh n => Reg.addr .FABRIC_SIL_THRESH_n n.val
  | .hold n => Reg.addr .FABRIC_SIL_HOLD_n n.val

/-- ROUTE_WORD_WRITE (R214). -/
def execRouteWordWrite (m : Initiator) (bank : Fin 2) (i : Fin 65536) (upper : Bool) (v : Word) (s : State) : Answer :=
  .next (access m (routeAddr bank i + 4 * b2n upper) v s)

/-- FABRIC_BANK_LEN_WRITE (R215). -/
def execFabricBankLenWrite (m : Initiator) (bank : Fin 2) (v : Word) (s : State) : Answer :=
  .next (rowWrite m (bankLenReg bank) 0 v s)

/-- ROUTE_CHECK_DONE (R216). -/
def execRouteCheckDone (bank : Fin 2) (s : State) : Answer := .next (whenOn 3 (Sys2Proof.Machine.routeCheckDone bank) s)

/-- GAIN_WRITE (R214). -/
def execGainWrite (m : Initiator) (tab : Fin 2) (j : Fin 4096) (v : Word) (s : State) : Answer :=
  .next (access m (gainAddr tab j) v s)

/-- DETECTOR_CONFIG_WRITE (R222). -/
def execDetectorConfigWrite (m : Initiator) (x : DetReg) (v : Word) (s : State) : Answer := .next (access m (detAddr x) v s)

/-- FABRIC_QUIET_WRITE (R225). -/
def execFabricQuietWrite (m : Initiator) (c : Fin 8) (v : Word) (s : State) : Answer := .next (rowWrite m .FABRIC_QUIET_n c v s)

/-- PHASE_CLR (R206). -/
def execPhaseClr (m : Initiator) (n : Fin 8) (v : Word) (s : State) : Answer :=
  .next (rowWrite m .FABRIC_TONE_n_INC n (putBit v 31 true) s)

end Sys2Proof.Machine
end

