-- ==== Sys2Proof/Machine/Host.lean ====
section
/-! DEFINITION. Commands: host interfaces, ownership, events and GPIO (17_host_control.md R445 to R463). -/

namespace Sys2Proof.Machine

/-- A write burst of SPI_A or SPI_B: address bits [1:0] are ignored; more than 16 words write nothing (R447, R448). DEDUCED: log entries 17, 34. -/
def spiBurst (port : Fin 2) (a : Word) (data : List Word) (s : State) : State :=
  hostTx (Fin.ofNat 5 port.val) (a.toNat / 4 * 4) true data 0 s

/-- A read of SPI_A or SPI_B, on any number of lines. -/
def spiFetch (port : Fin 2) (a : Word) (n : Nat) (s : State) : State :=
  hostTx (Fin.ofNat 5 port.val) (a.toNat / 4 * 4) false [] n s

/-- A write of the I²C master: each word is issued as it arrives; words after the sixteenth are discarded (R449). DEDUCED: log entry 34. -/
def i2cBurst (a : Word) (data : List Word) (s : State) : State :=
  let t := hostTx 2 a.toNat true (data.take 16) 0 s
  if up s && decide (16 < data.length) then t.setBit .HOSTIF_MSTAT_m 2 28 true else t

/-- A read of the I²C master, at its own address phase or at the address an address-only write left. -/
def i2cFetch (a : Option Word) (n : Nat) (s : State) : State :=
  hostTx 2 (match a with | some v => v.toNat | none => s.host.i2cAddr) false [] n s

/-- A single access through the JTAG debug access port. DEDUCED: log entry 39. -/
def jtagStep (a : Word) (data : Option Word) (s : State) : State :=
  match data with
  | some v => hostTx 4 a.toNat true [v] 0 s
  | none => hostTx 4 a.toNat false [] 1 s

/-- Words of a write burst, the bytes of each in address order (R447). -/
def spiWords : List Byte → List Word
  | a :: b :: c :: d :: t => wordOfBytes [a, b, c, d] :: spiWords t
  | _ => []

/-- The transaction that the bytes after the falling edge of CS_N spell: command byte, address, most significant byte first, and the data of
a write; n is how many words the master clocks out of a read (R447). -/
def spiCommand (port : Fin 2) (n : Nat) : List Byte → Option Instr
  | cmd :: a3 :: a2 :: a1 :: a0 :: data =>
    let a := wordOfBytes [a0, a1, a2, a3]
    match cmd.toNat with
    | 0x02 => some (.spiWrite port a (spiWords data))
    | 0x0B => some (.spiRead port a n)
    | 0x3B => some (.spiDualRead port a n)
    | 0x6B => some (.spiQuadRead port a n)
    | _ => some (.spiUnknownCommand port cmd)
  | cmd :: _ => some (.spiUnknownCommand port cmd)
  | [] => none

/-- SPI_WRITE (R448). -/
def execSpiWrite (port : Fin 2) (a : Word) (data : List Word) (s : State) : Answer := .next (spiBurst port a data s)

/-- SPI_READ (R448). -/
def execSpiRead (port : Fin 2) (a : Word) (n : Nat) (s : State) : Answer := .next (spiFetch port a n s)

/-- SPI_DUAL_READ (R447). -/
def execSpiDualRead (port : Fin 2) (a : Word) (n : Nat) (s : State) : Answer := .next (spiFetch port a n s)

/-- SPI_QUAD_READ (R447). -/
def execSpiQuadRead (port : Fin 2) (a : Word) (n : Nat) (s : State) : Answer := .next (spiFetch port a n s)

/-- SPI_UNKNOWN_COMMAND (R447). -/
def execSpiUnknownCommand (_ : Fin 2) (_ : BitVec 8) (s : State) : Answer := .next s

/-- I2C_WRITE (R449). -/
def execI2cWrite (a : Word) (data : List Word) (s : State) : Answer := .next (i2cBurst a data s)

/-- I2C_READ (R449). -/
def execI2cRead (a : Option Word) (n : Nat) (s : State) : Answer := .next (i2cFetch a n s)

/-- I2C_ADDRESS_WRITE (R449). -/
def execI2cAddressWrite (a : Word) (s : State) : Answer :=
  .next (if up s then setHost { s.host with i2cAddr := a.toNat } s else s)

/-- HOST_TIMEOUT (R446). -/
def execHostTimeout (m : Fin 5) (s : State) : Answer := .next (if up s then Sys2Proof.Machine.hostTimeout m s else s)

/-- CLAIM (R452). -/
def execClaim (m : Initiator) (v : Word) (s : State) : Answer :=
  .next (rowWrite m .SYS_OWNER_CLAIM 0 (putBit (putBit v 1 false) 0 true) s)

/-- SEIZE (R454). -/
def execSeize (m : Initiator) (v : Word) (s : State) : Answer := .next (rowWrite m .SYS_OWNER_CLAIM 0 (putBit v 1 true) s)

/-- HANDOVER (R452). -/
def execHandover (m : Initiator) (v : Word) (s : State) : Answer := .next (rowWrite m .SYS_HANDOVER 0 v s)

/-- OWNER_RELEASE (R452). -/
def execOwnerRelease (m : Initiator) (v : Word) (s : State) : Answer := .next (rowWrite m .SYS_HANDOVER 0 (setFld v 2 0 7) s)

/-- ACCEPT (R452). -/
def execAccept (m : Initiator) (v : Word) (s : State) : Answer := .next (rowWrite m .SYS_ACCEPT 0 (putBit v 0 true) s)

/-- HANDOVER_TIMEOUT (R452). -/
def execHandoverTimeout (s : State) : Answer := .next (if up s then handoverExpire s else s)

/-- OWNER_LAPSED (R453). -/
def execOwnerLapsed (s : State) : Answer := .next (if up s then leaseExpire s else s)

/-- SYS_LEASE_WRITE (R453). -/
def execSysLeaseWrite (m : Initiator) (v : Word) (s : State) : Answer := .next (rowWrite m .SYS_LEASE 0 v s)

/-- SOFT_EVENT_SET (R459). -/
def execSoftEventSet (m : Initiator) (v : Word) (s : State) : Answer := .next (rowWrite m .EVT_SET_w 3 v s)

/-- GPIO_EDGE (R463). -/
def execGpioEdge (i : Fin 16) (level : Bool) (s : State) : Answer := .next (gpioInput i level s)

/-- REGISTER_WRITE (R10). -/
def execRegisterWrite (m : Initiator) (a : Word) (v : Word) (s : State) : Answer := .next (access m a.toNat v s)

/-- JTAG_ACCESS (R446). -/
def execJtagAccess (a : Word) (data : Option Word) (s : State) : Answer := .next (jtagStep a data s)

end Sys2Proof.Machine
end

