-- ==== Sys2Proof/Machine/Links.lean ====
section
/-! DEFINITION. Commands: cascade links and the tunnel (10_cascade_links.md R275 to R302). -/

namespace Sys2Proof.Machine

/-- The messages of a frame that passes while the link is UP (R294). -/
def frameMessages (l : Nat) (f : Option RxFrame) (s : State) : State :=
  match f with
  | some r => r.msgs.foldl (fun u q => messageStep l q u) s
  | none => s

/-- A frame of a link: its check, its messages, and the errors of its symbols; an alignment that it loses follows its CRC failure (R279, R283,
R288, R294, R300). -/
def frameReceived (l : Nat) (f : LinkFrame) (s : State) : State :=
  let r := readFrame f
  let t := linkFrameStep l r s
  symbolErrors l f.syms (if linkState s l = Lk.UP then frameMessages l r t else t)

/-- A message of one kind that arrives on link l, while the link is UP. -/
def received (l : Nat) (k : MsgKind) (q : Msg) (s : State) : State :=
  whenOn (domLink l) (fun t => if linkState t l = Lk.UP then messageStep l { q with kind := k } t else t) s

/-- LINK_WAKE (R299, R406): source 27, while the link's domain is in retention or off. DEDUCED: log entry 32. -/
def linkWakeStep (l : Nat) (pattern : Bool) (s : State) : State :=
  if up s && (pattern || !wakeMode s l) then fireUnit 27 (domLink l) s else s

/-- LINK_EN_WRITE (R285). -/
def execLinkEnWrite (m : Initiator) (l : Fin 8) (v : Word) (s : State) : Answer := .next (rowWrite m .LINK_CTRL l v s)

/-- RETRAIN (R301). -/
def execRetrain (m : Initiator) (l : Fin 8) (v : Word) (s : State) : Answer := .next (rowWrite m .LINK_CTRL l (putBit v 5 true) s)

/-- WAKE_TX (R299). -/
def execWakeTx (m : Initiator) (l : Fin 8) (v : Word) (s : State) : Answer := .next (rowWrite m .LINK_CTRL l (putBit v 4 true) s)

/-- LINK_FRAME_TX (R282). -/
def execLinkFrameTx (l : Fin 8) (s : State) : Answer := .next (whenOn (domLink l) (frameTx l) s)

/-- FRAME_TIMER (R282). -/
def execFrameTimer (l : Fin 8) (s : State) : Answer := .next (whenOn (domLink l) (Sys2Proof.Machine.frameTimer l) s)

/-- SIGNAL_DETECT (R285). -/
def execSignalDetect (l : Fin 8) (s : State) : Answer := .next (whenOn (domLink l) (Sys2Proof.Machine.signalDetect l) s)

/-- ALIGNMENT_ACHIEVED (R285). -/
def execAlignmentAchieved (l : Fin 8) (s : State) : Answer := .next (whenOn (domLink l) (Sys2Proof.Machine.alignmentAchieved l) s)

/-- LINK_FRAME (R283). -/
def execLinkFrame (l : Fin 8) (f : LinkFrame) (s : State) : Answer := .next (whenOn (domLink l) (frameReceived l f) s)

/-- MISSING_FRAME (R283). -/
def execMissingFrame (l : Fin 8) (s : State) : Answer := .next (whenOn (domLink l) (Sys2Proof.Machine.missingFrame l) s)

/-- LOSS_OF_ALIGNMENT (R288). -/
def execLossOfAlignment (l : Fin 8) (s : State) : Answer := .next (whenOn (domLink l) (alignLoss l) s)

/-- LINK_CONCEAL_EXPIRE (R288). -/
def execLinkConcealExpire (l : Fin 8) (s : State) : Answer := .next (whenOn (domLink l) (Sys2Proof.Machine.linkConcealExpire l) s)

/-- RETRAIN_TIMEOUT (R289). -/
def execRetrainTimeout (l : Fin 8) (s : State) : Answer := .next (whenOn (domLink l) (Sys2Proof.Machine.retrainTimeout l) s)

/-- FAIL_RESET (R291). -/
def execFailReset (l : Fin 8) (s : State) : Answer := .next (whenOn (domLink l) (Sys2Proof.Machine.failReset l) s)

/-- FAULT_RECEIVED (R285). -/
def execFaultReceived (l : Fin 8) (s : State) : Answer := .next (whenOn (domLink l) (Sys2Proof.Machine.faultReceived l) s)

/-- FAULT_RX_END (R285). -/
def execFaultRxEnd (l : Fin 8) (s : State) : Answer := .next (whenOn (domLink l) (Sys2Proof.Machine.faultRxEnd l) s)

/-- LINK_WAKE (R299). -/
def execLinkWake (l : Fin 8) (pattern : Bool) (s : State) : Answer := .next (linkWakeStep l pattern s)

/-- READ_REQUEST (R297). -/
def execReadRequest (l : Fin 8) (q : Msg) (s : State) : Answer := .next (received l .readReq q s)

/-- WRITE_REQUEST (R297). -/
def execWriteRequest (l : Fin 8) (q : Msg) (s : State) : Answer := .next (received l .writeReq q s)

/-- READ_RESPONSE (R298). -/
def execReadResponse (l : Fin 8) (q : Msg) (s : State) : Answer := .next (received l .readResp q s)

/-- WRITE_RESPONSE (R298). -/
def execWriteResponse (l : Fin 8) (q : Msg) (s : State) : Answer := .next (received l .writeResp q s)

/-- OWNERSHIP_MESSAGE (R295). -/
def execOwnershipMessage (l : Fin 8) (q : Msg) (s : State) : Answer := .next (received l .owner q s)

/-- REROUTE (R293). -/
def execReroute (l : Fin 8) (seg : BitVec 8) (cnt : BitVec 8) (s : State) : Answer :=
  .next (received l .reroute (rerouteMsg seg.toNat cnt.toNat) s)

/-- REROUTE_TARGET (R293). -/
def execRerouteTarget (s : State) : Answer := .next (whenOn 2 Sys2Proof.Machine.rerouteTarget s)

/-- ALTERNATE_ROUTE_WRITE (R292). -/
def execAlternateRouteWrite (m : Initiator) (i : Fin 2048) (v : Word) (s : State) : Answer :=
  .next (access m (0x43081000 + 4 * i) v s)

/-- TUNNEL_GO (R298). -/
def execTunnelGo (m : Initiator) (v : Word) (s : State) : Answer := .next (rowWrite m .LINK_TUN_CMD 0 (putBit v 31 true) s)

/-- TUNNEL_TIMEOUT (R298). -/
def execTunnelTimeout (s : State) : Answer := .next (whenOn 2 Sys2Proof.Machine.tunnelTimeout s)

end Sys2Proof.Machine
end

