-- ==== Sys2Proof/Machine/Ports.lean ====
section
/-! DEFINITION. Commands: serial audio ports, rate conversion and output guards (09_ports_asrc_guards.md R255 to R274). -/

namespace Sys2Proof.Machine

/-- SAP_EN_WRITE (R257). -/
def execSapEnWrite (m : Initiator) (p : Fin 64) (v : Word) (s : State) : Answer := .next (rowWrite m .SAP_CTRL p v s)

/-- SAP_CFG_WRITE (R258). -/
def execSapCfgWrite (m : Initiator) (p : Fin 64) (v : Word) (s : State) : Answer := .next (rowWrite m .SAP_CFG p v s)

/-- PORT_FRAME (R262). -/
def execPortFrame (p : Fin 64) (f : PortFrame) (s : State) : Answer := .next (whenOn (domPort p) (portFrameStep p f) s)

/-- FRAME_TIMEOUT (R263). -/
def execFrameTimeout (p : Fin 64) (s : State) : Answer := .next (whenOn (domPort p) (Sys2Proof.Machine.frameTimeout p) s)

/-- CONCEAL_EXPIRE (R264). -/
def execConcealExpire (p : Fin 64) (s : State) : Answer := .next (whenOn (domPort p) (Sys2Proof.Machine.concealExpire p) s)

/-- ASRC_CH_CFG_WRITE (R267). -/
def execAsrcChCfgWrite (m : Initiator) (n : Fin 256) (v : Word) (s : State) : Answer := .next (rowWrite m .ASRC_CH_n_CFG n v s)

/-- TRACKER_LOCK (R268). -/
def execTrackerLock (p : Fin 64) (ratio : Nat) (s : State) : Answer :=
  .next (whenOn 5 (whenOn (domPort p) (Sys2Proof.Machine.trackerLock p ratio)) s)

/-- TRACKER_UNLOCK (R267). -/
def execTrackerUnlock (p : Fin 64) (s : State) : Answer := .next (whenOn 5 (Sys2Proof.Machine.trackerUnlock p) s)

/-- GUARD_PFAULT_CLEAR (R271). -/
def execGuardPfaultClear (m : Initiator) (w : Fin 32) (v : Word) (s : State) : Answer := .next (rowWrite m .GUARD_PFAULT_w w v s)

/-- GUARD_LFAULT_CLEAR (R271). -/
def execGuardLfaultClear (m : Initiator) (l : Fin 8) (v : Word) (s : State) : Answer :=
  .next (rowWrite m .GUARD_LFAULT_l l (putBit v 31 true) s)

/-- MUTE_N (R272). -/
def execMuteN (low : Bool) (s : State) : Answer := .next (Sys2Proof.Machine.muteN low s)

end Sys2Proof.Machine
end

