-- ==== Sys2Proof/Machine/Power.lean ====
section
/-! DEFINITION. Commands: power domains and wake (15_power_domains.md R397 to R415). -/

namespace Sys2Proof.Machine

/-- Whether a port is an enabled slave, by its registers or, while its group is off, by the save region (R404, R406). -/
def slavePort (s : State) (p : Nat) : Bool :=
  let saved := saveBase (domPort p) + 12 * (p % 8)
  let (ctrl, cfg) := if domainCode s (domPort p) = Dom.OFF then (getSlot s saved, getSlot s (saved + 4))
    else (s.reg .SAP_CTRL p, s.reg .SAP_CFG p)
  bitOf ctrl 0 && fld cfg 1 0 != 0 && sapState s p != Sap.RETIRED

/-- A wake source of PWR_WAKE_EN fires (R406). A host access, source 26, fires by its own command. DEDUCED: log entry 32. -/
def sourceFires (k n : Nat) (s : State) : State :=
  if k = 26 then s
  else if k = 27 then fireUnit 27 (26 + n) s
  else if k = 28 then (if (List.range 8).any (fun j => slavePort s (8 * n + j)) then fireUnit 28 (18 + n) s else s)
  else fireSource k s

/-- A waking domain is ready, and what waited for it goes on (R368, R403). -/
def readyStep (d : Nat) (s : State) : State := retryAll (domainReadyStep d s)

/-- The vote ends; after a refusal the accesses that waited for a voter go on (R400). -/
def voteStep (s : State) : State :=
  let t := Sys2Proof.Machine.voteComplete s
  if s.pwr.vote.isSome && t.pwr.vote.isNone && reqResult t == 3 then retryAll t else t

/-- REQ_RETENTION (R400). -/
def execReqRetention (m : Initiator) (v : Word) (s : State) : Answer :=
  .next (rowWrite m .PWR_REQ_CTRL 0 (putBit (setFld v 1 0 1) 31 true) s)

/-- REQ_OFF (R400). -/
def execReqOff (m : Initiator) (v : Word) (s : State) : Answer :=
  .next (rowWrite m .PWR_REQ_CTRL 0 (putBit (setFld v 1 0 2) 31 true) s)

/-- REQ_ON (R401). -/
def execReqOn (m : Initiator) (v : Word) (s : State) : Answer :=
  .next (rowWrite m .PWR_REQ_CTRL 0 (putBit (setFld v 1 0 3) 31 true) s)

/-- VOTE_COMPLETE (R400). -/
def execVoteComplete (s : State) : Answer := .next (whenUp voteStep s)

/-- DOMAIN_ENTRY_DONE (R400). -/
def execDomainEntryDone (d : Fin 34) (s : State) : Answer := .next (whenUp (entryDone d) s)

/-- WAKE_SOURCE (R406). -/
def execWakeSource (k : Fin 29) (n : Fin 8) (s : State) : Answer := .next (whenUp (sourceFires k n) s)

/-- DEMAND_WAKE (R403). -/
def execDemandWake (d : Fin 34) (s : State) : Answer := .next (whenUp (wakeDomains 29 [d.val]) s)

/-- DOMAIN_READY (R403). -/
def execDomainReady (d : Fin 34) (s : State) : Answer := .next (whenUp (readyStep d) s)

/-- AON_TIMER_EXPIRE (R406). -/
def execAonTimerExpire (s : State) : Answer := .next (whenUp Sys2Proof.Machine.aonTimerExpire s)

/-- AUTO_RETENTION_ENTRY (R409). -/
def execAutoRetentionEntry (c : Fin 8) (s : State) : Answer := .next (whenUp (autoRetEnter c) s)

/-- PWR_AUTO_RET_WRITE (R408). -/
def execPwrAutoRetWrite (m : Initiator) (v : Word) (s : State) : Answer := .next (rowWrite m .PWR_AUTO_RET 0 v s)

/-- REGULATOR_MODE_CHANGE (R410). -/
def execRegulatorModeChange (s : State) : Answer := .next (whenUp regulatorFull s)

/-- LOW_POWER_RETURN (R410). -/
def execLowPowerReturn (s : State) : Answer := .next (whenUp Sys2Proof.Machine.lowPowerReturn s)

/-- BROWN_OUT (R411). DESIGN CHOICE: log entry 71. -/
def execBrownOut (s : State) : Answer := if up s && overload s then .fault .alwaysOnBrownOut else .next s

end Sys2Proof.Machine
end

