-- ==== Sys2Proof/Machine/SafeLoad.lean ====
section
/-! DEFINITION. Commands: safe-load: commits, mirrors and strokes (06_safe_load.md R179 to R200). -/

namespace Sys2Proof.Machine

/-- Requests whose conditions are clear flip while turns are stopped; members in a domain that is down wake it (R187, R403). -/
def flipNow (s : State) : State :=
  let (ms, t) := flipStopped s
  flipWakes ms t

/-- SAFE_COMMIT (R182). -/
def execSafeCommit (m : Initiator) (v : Word) (s : State) : Answer := .next (rowWrite m .SAFE_COMMIT 0 v s)

/-- FLIP_WHILE_STOPPED (R185). -/
def execFlipWhileStopped (s : State) : Answer := .next (whenOn 2 flipNow s)

/-- MIRROR_COMPLETE (R188). -/
def execMirrorComplete (g : Fin 16) (s : State) : Answer := .next (whenOn 2 (mirrorStep g) s)

/-- STROKE_START (R190). -/
def execStrokeStart (m : Initiator) (n : Fin 8) (v : Word) (s : State) : Answer :=
  .next (rowWrite m .SAFE_STROKE_n_CTRL n (putBit v 1 true) s)

/-- STROKE_STOP (R196). -/
def execStrokeStop (m : Initiator) (n : Fin 8) (v : Word) (s : State) : Answer :=
  .next (rowWrite m .SAFE_STROKE_n_CTRL n (putBit v 2 true) s)

/-- STROKE_STEP (R193). -/
def execStrokeStep (n : Fin 8) (s : State) : Answer := .next (whenOn 2 (Sys2Proof.Machine.strokeStep n) s)

end Sys2Proof.Machine
end

