-- ==== Sys2Proof/Machine/Scheduler.lean ====
section
/-! DEFINITION. Commands: the scheduler and the cores it serves (11_cores_and_scheduler.md R303 to R338). -/

namespace Sys2Proof.Machine

/-- A cycle of acceptance; completions and writes that waited for a token entry go on (R351, R446). -/
def acceptStep (s : State) : State := retryAll (dmaTokFreed (tokenAcceptCycle s))

/-- A cycle of dispatch; a core group in retention that is dispatched to wakes (R317, R403). -/
def dispatchStep (s : State) : State :=
  let t := dispatchCycle s
  let fresh := t.sched.held.filter (fun h => !s.sched.held.contains h)
  let ds := (fresh.map (fun h => domCore h.core)).filter (fun d => domainDown t d)
  if ds.isEmpty then t else wakeDomains 29 ds t

/-- TOKEN_ACCEPT (R312). -/
def execTokenAccept (s : State) : Answer := .next (whenOn 2 acceptStep s)

/-- SCHED_HOST_TOK_PUSH (R311). -/
def execSchedHostTokPush (m : Initiator) (v : Word) (s : State) : Answer := .next (rowWrite m .SCHED_HOST_TOK_PUSH 0 v s)

/-- DISPATCH (R317). -/
def execDispatch (s : State) : Answer := .next (whenOn 2 dispatchStep s)

/-- RELEASE (R323). -/
def execRelease (flow : Fin 1024) (s : State) : Answer := .next (whenOn 2 (releaseNext flow) s)

/-- SCHED_CANCEL (R325). -/
def execSchedCancel (m : Initiator) (v : Word) (s : State) : Answer := .next (rowWrite m .SCHED_CANCEL 0 v s)

/-- AGING (R321). -/
def execAging (s : State) : Answer := .next (whenOn 2 agingStep s)

/-- SPILL (R331). -/
def execSpill (c : Fin 3) (s : State) : Answer := .next (whenOn 2 (spillStep (c + 1)) s)

/-- UNSPILL (R329). -/
def execUnspill (c : Fin 3) (s : State) : Answer := .next (whenOn 2 (unspillStep (c + 1)) s)

/-- C0_REFILL (R335). -/
def execC0Refill (s : State) : Answer := .next (whenOn 2 Sys2Proof.Machine.c0Refill s)

/-- C0_RATE_WRITE (R335). -/
def execC0RateWrite (m : Initiator) (v : Word) (s : State) : Answer := .next (rowWrite m .SCHED_C0_RATE 0 v s)

/-- SCHED_FLOW_WRITE (R314). -/
def execSchedFlowWrite (m : Initiator) (f : Fin 1024) (v : Word) (s : State) : Answer := .next (rowWrite m .SCHED_FLOW_f f v s)

/-- SPILL_AREA_WRITE (R332). -/
def execSpillAreaWrite (m : Initiator) (size : Bool) (v : Word) (s : State) : Answer :=
  .next (rowWrite m (if size then .SCHED_SPILL_SIZE else .SCHED_SPILL_BASE) 0 v s)

/-- CORE_START (R304). -/
def execCoreStart (m : Initiator) (c : Fin 16) (v : Word) (s : State) : Answer :=
  .next (rowWrite m .SCHED_CORE_n_CTRL c (putBit v 0 true) s)

/-- CORE_STOP (R304). -/
def execCoreStop (m : Initiator) (c : Fin 16) (v : Word) (s : State) : Answer :=
  .next (rowWrite m .SCHED_CORE_n_CTRL c (putBit v 1 true) s)

/-- STORE_BUS_ERROR (R307). -/
def execStoreBusError (c : Fin 16) (s : State) : Answer := .next (whenOn (domCore c) (storeErrorStep c) s)

/-- UNCACHED_LOAD_RESPONSE (R101). -/
def execUncachedLoadResponse (c : Fin 16) (s : State) : Answer := .next (whenOn (domCore c) (uncachedResponse c) s)

/-- WRITE_BUFFER_DRAIN (R102). -/
def execWriteBufferDrain (c : Fin 16) (s : State) : Answer := .next (whenOn (domCore c) (drainStep c) s)

end Sys2Proof.Machine
end

