-- ==== Sys2Proof/Machine/Sections.lean ====
section
/-! DEFINITION. Commands: the section bank (08_section_bank.md R231 to R253). -/

namespace Sys2Proof.Machine

/-- CHAIN_DESCRIPTOR_WRITE (R247). -/
def execChainDescriptorWrite (m : Initiator) (c : Fin 512) (w : Fin 17) (v : Word) (s : State) : Answer :=
  .next (access m (stagedAddr c (w + 1)) v s)

/-- CHAIN_ENABLE_WRITE (R237). -/
def execChainEnableWrite (m : Initiator) (c : Fin 512) (v : Word) (s : State) : Answer := .next (access m (stagedAddr c 0) v s)

/-- CHAIN_CHECK_DONE (R247). -/
def execChainCheckDone (c : Fin 512) (s : State) : Answer := .next (whenOn 4 (Sys2Proof.Machine.chainCheckDone c) s)

/-- SECTION_COEFFICIENT_WRITE (R235). -/
def execSectionCoefficientWrite (m : Initiator) (side : Fin 2) (c : Fin 512) (i : Fin 64) (k : Fin 8) (v : Word) (s : State) : Answer :=
  .next (access m (coefAddr side c + 32 * i + 4 * k) v s)

/-- SECTION_STATE_WRITE (R236). -/
def execSectionStateWrite (m : Initiator) (c : Fin 512) (i : Fin 64) (k : Fin 8) (v : Word) (s : State) : Answer :=
  .next (access m (stateAddr c + 32 * i + 4 * k) v s)

/-- SECTION_CLR (R250). -/
def execSectionClr (m : Initiator) (v : Word) (s : State) : Answer := .next (rowWrite m .SECTION_CLR 0 (putBit v 31 true) s)

end Sys2Proof.Machine
end

