-- ==== Sys2Proof/Machine/Security.lean ====
section
/-! DEFINITION. Commands: the SEC block (16_boot_and_security.md R429 to R441). -/

namespace Sys2Proof.Machine

/-- SEAL (R434). -/
def execSealData (m : Initiator) (v : Word) (s : State) : Answer :=
  .next (rowWrite m .SEC_SEAL_CTRL 0 (putBit (setFld v 1 0 0) 31 true) s)

/-- OPEN (R434). -/
def execOpenBlob (m : Initiator) (v : Word) (s : State) : Answer :=
  .next (rowWrite m .SEC_SEAL_CTRL 0 (putBit (setFld v 1 0 1) 31 true) s)

/-- SEAL_OPERATION_DONE (R434). -/
def execSealOperationDone (s : State) : Answer := .next (whenUp sealDone s)

/-- SEAL_LOCK (R435). -/
def execSealLock (m : Initiator) (v : Word) (s : State) : Answer := .next (rowWrite m .SEC_SEAL_CTRL 0 (putBit v 30 true) s)

/-- SEALED_LOAD (R437). -/
def execSealedLoad (m : Initiator) (v : Word) (s : State) : Answer :=
  .next (rowWrite m .SEC_SEALED_LOAD_CTRL 0 (putBit v 0 true) s)

/-- SEALED_LOAD_DONE (R437). -/
def execSealedLoadDone (s : State) : Answer := .next (whenUp Sys2Proof.Machine.sealedLoadDone s)

/-- FLOOR_ADVANCE (R436). -/
def execFloorAdvance (m : Initiator) (v : Word) (s : State) : Answer := .next (rowWrite m .SEC_FLOOR 0 (putBit v 31 true) s)

/-- OTP_PROGRAM (R431). -/
def execOtpProgram (m : Initiator) (v : Word) (s : State) : Answer := .next (rowWrite m .SEC_OTP_CTRL 0 v s)

/-- OTP_PROGRAM_DONE (R431). -/
def execOtpProgramDone (failed : Word) (s : State) : Answer := .next (whenUp (otpDone failed) s)

/-- CHAL (R439). -/
def execChal (m : Initiator) (v : Word) (s : State) : Answer := .next (rowWrite m .SEC_SVC_CTRL 0 (putBit v 29 true) s)

/-- CHECK (R439). -/
def execCheck (m : Initiator) (v : Word) (s : State) : Answer := .next (rowWrite m .SEC_SVC_CTRL 0 (putBit v 30 true) s)

/-- NONCE_EXPIRE (R439). -/
def execNonceExpire (s : State) : Answer := .next (whenUp Sys2Proof.Machine.nonceExpire s)

/-- CLOSE (R440). -/
def execClose (m : Initiator) (v : Word) (s : State) : Answer := .next (rowWrite m .SEC_SVC_CTRL 0 (putBit v 31 true) s)

end Sys2Proof.Machine
end

