-- ==== Sys2Proof/Machine/Synth.lean ====
section
/-! DEFINITION. Commands: the clock synthesiser (14_clock_synthesis.md R376 to R396). -/

namespace Sys2Proof.Machine

/-- SYNTH_ENABLE (R383). -/
def execSynthEnable (m : Initiator) (v : Word) (s : State) : Answer := .next (rowWrite m .SYNTH_CTRL 0 (putBit v 0 true) s)

/-- SYNTH_DISABLE (R383). -/
def execSynthDisable (m : Initiator) (v : Word) (s : State) : Answer := .next (rowWrite m .SYNTH_CTRL 0 (putBit v 0 false) s)

/-- APPLY (R379). -/
def execApply (m : Initiator) (v : Word) (s : State) : Answer :=
  .next (rowWrite m .SYNTH_CTRL 0 (putBit (putBit v 0 true) 1 true) s)

/-- CALIBRATION_COMPLETE (R383). -/
def execCalibrationComplete (s : State) : Answer := .next (whenOn 1 calComplete s)

/-- LOCK_ACQUIRED (R383, R384). -/
def execLockAcquired (levels : LockLevels) (s : State) : Answer := .next (whenOn 1 (Sys2Proof.Machine.lockAcquired levels) s)

/-- REF_LOSS (R385). -/
def execRefLoss (s : State) : Answer := .next (whenOn 1 refLossStep s)

/-- REF_RETURN (R386). -/
def execRefReturn (e : Int) (s : State) : Answer := .next (whenOn 1 (Sys2Proof.Machine.refReturn e) s)

/-- SLEW_COMPLETE (R386). -/
def execSlewComplete (e : Int) (s : State) : Answer := .next (whenOn 1 (Sys2Proof.Machine.slewComplete e) s)

/-- DIVIDER_RESET (R386). -/
def execDividerReset (s : State) : Answer := .next (whenOn 1 dividerResetStep s)

/-- SYNC_IN (R391). -/
def execSyncIn (s : State) : Answer := .next (whenOn 1 Sys2Proof.Machine.syncIn s)

/-- RAMP_GO (R392). -/
def execRampGo (m : Initiator) (v : Word) (s : State) : Answer := .next (rowWrite m .SYNTH_RAMP_CTRL 0 (putBit v 31 true) s)

/-- RAMP_ABORT (R392). -/
def execRampAbort (m : Initiator) (v : Word) (s : State) : Answer := .next (rowWrite m .SYNTH_RAMP_CTRL 0 (putBit v 30 true) s)

/-- RAMP_SEGMENT_END (R392). -/
def execRampSegmentEnd (s : State) : Answer := .next (whenOn 1 Sys2Proof.Machine.rampSegmentEnd s)

/-- OVERSPEED_TRIP (R393). -/
def execOverspeedTrip (n : Fin 12) (s : State) : Answer := .next (whenOn 1 (overspeed n) s)

/-- SYNTH_OUT_CFG_WRITE (R389). -/
def execSynthOutCfgWrite (m : Initiator) (n : Fin 12) (v : Word) (s : State) : Answer := .next (rowWrite m .SYNTH_OUT_n_CFG n v s)

/-- SYNTH_BAND_WRITE (R381). -/
def execSynthBandWrite (m : Initiator) (n : Fin 32) (v : Word) (s : State) : Answer := .next (rowWrite m .SYNTH_BAND_n n v s)

/-- SYNTH_CEIL_WRITE (R393). -/
def execSynthCeilWrite (m : Initiator) (n : Fin 12) (v : Word) (s : State) : Answer := .next (rowWrite m .SYNTH_CEIL_n n v s)

end Sys2Proof.Machine
end

