-- ==== Sys2Proof/Machine/Turns.lean ====
section
/-! DEFINITION. Commands: the grid of a turn, the latency probe, the rate and the fault log (02_turn_and_latency.md R48 to R67;
01_architecture.md R46). -/

namespace Sys2Proof.Machine

/-- A pass of the fabric, while turns run and the fabric domain is on; pass B reads the link inputs that a reroute forwards (R292). -/
def fabricPassStep (passB : Bool) (s : State) : State :=
  if turnsOn s && domainOn s 3 then
    fabricPass passB (if passB then setLink { s.link with fwd := s.link.phys } s else s)
  else s

/-- BOUNDARY (R56). -/
def execBoundary (s : State) : Answer := .next (Sys2Proof.Machine.boundary s)

/-- COMMIT_CUT (R58). -/
def execCommitCut (s : State) : Answer := .next (Sys2Proof.Machine.commitCut s)

/-- FABRIC_PASS_A (R211). -/
def execFabricPassA (s : State) : Answer := .next (fabricPassStep false s)

/-- FABRIC_SWAP (R51). -/
def execFabricSwap (s : State) : Answer := .next (Sys2Proof.Machine.fabricSwap s)

/-- FABRIC_PASS_B (R211). -/
def execFabricPassB (s : State) : Answer := .next (fabricPassStep true s)

/-- QUIESCENCE_DECISION (R224). -/
def execQuiescenceDecision (s : State) : Answer := .next (Sys2Proof.Machine.quiescenceDecision s)

/-- MAILBOX_EXCHANGE (R147). -/
def execMailboxExchange (c : Fin 8) (s : State) : Answer := .next (Sys2Proof.Machine.mailboxExchange c s)

/-- ENGINE_RUN_START (R137). -/
def execEngineRunStart (c : Fin 8) (s : State) : Answer := .next (Sys2Proof.Machine.engineRunStart c s)

/-- SECTION_RUN (R243). -/
def execSectionRun (s : State) : Answer := .next (sectionRunStep s)

/-- GUARD_EVALUATION (R269). -/
def execGuardEvaluation (s : State) : Answer := .next (Sys2Proof.Machine.guardEvaluation s)

/-- PROBE_START (R67). -/
def execProbeStart (m : Initiator) (v : Word) (s : State) : Answer := .next (rowWrite m .SYS_PROBE_CTRL 0 (putBit v 1 true) s)

/-- PROBE_TIMEOUT (R67). -/
def execProbeTimeout (s : State) : Answer := .next (Sys2Proof.Machine.probeTimeout s)

/-- RATE_WRITE (R49). -/
def execRateWrite (m : Initiator) (v : Word) (s : State) : Answer := .next (rowWrite m .SYS_TURN_CFG 0 v s)

/-- FAULT_LOG_CLEAR (R46). -/
def execFaultLogClear (m : Initiator) (v : Word) (s : State) : Answer := .next (rowWrite m .AON_FAULT_CLR 0 (putBit v 0 true) s)

end Sys2Proof.Machine
end

