-- ==== Sys2Proof/Machine/Dispatch.lean ====
section
/-! DEFINITION. Which meaning each command has: one arm per constructor. -/

namespace Sys2Proof.Machine

def exec (i : Instr) (s : State) : Host.Outcome State Fault Refusal :=
  match i with
  | .supplyLoss off => Sys2Proof.Machine.execSupplyLoss off s
  | .resetRelease bootsel goldenN sfdp => Sys2Proof.Machine.execResetRelease bootsel goldenN sfdp s
  | .fetchComplete ok => Sys2Proof.Machine.execFetchComplete ok s
  | .loaded m v => Sys2Proof.Machine.execLoaded m v s
  | .start m key => Sys2Proof.Machine.execStart m key s
  | .disarm m key => Sys2Proof.Machine.execDisarm m key s
  | .holdSet m key => Sys2Proof.Machine.execHoldSet m key s
  | .holdClear m key => Sys2Proof.Machine.execHoldClear m key s
  | .testEnter m key => Sys2Proof.Machine.execTestEnter m key s
  | .testExit m key => Sys2Proof.Machine.execTestExit m key s
  | .halt m key => Sys2Proof.Machine.execHalt m key s
  | .mailboxExchange c => Sys2Proof.Machine.execMailboxExchange c s
  | .engineRunStart c => Sys2Proof.Machine.execEngineRunStart c s
  | .probeStart m v => Sys2Proof.Machine.execProbeStart m v s
  | .rateWrite m v => Sys2Proof.Machine.execRateWrite m v s
  | .faultLogClear m v => Sys2Proof.Machine.execFaultLogClear m v s
  | .nop u => Sys2Proof.Machine.execNop u s
  | .add u rd rs rt => Sys2Proof.Machine.execAdd u rd rs rt s
  | .sub u rd rs rt => Sys2Proof.Machine.execSub u rd rs rt s
  | .adds u rd rs rt => Sys2Proof.Machine.execAdds u rd rs rt s
  | .subs u rd rs rt => Sys2Proof.Machine.execSubs u rd rs rt s
  | .andR u rd rs rt => Sys2Proof.Machine.execAndR u rd rs rt s
  | .orR u rd rs rt => Sys2Proof.Machine.execOrR u rd rs rt s
  | .xorR u rd rs rt => Sys2Proof.Machine.execXorR u rd rs rt s
  | .andn u rd rs rt => Sys2Proof.Machine.execAndn u rd rs rt s
  | .shl u rd rs rt => Sys2Proof.Machine.execShl u rd rs rt s
  | .shr u rd rs rt => Sys2Proof.Machine.execShr u rd rs rt s
  | .sar u rd rs rt => Sys2Proof.Machine.execSar u rd rs rt s
  | .ror u rd rs rt => Sys2Proof.Machine.execRor u rd rs rt s
  | .neg u rd rs => Sys2Proof.Machine.execNeg u rd rs s
  | .abs u rd rs => Sys2Proof.Machine.execAbs u rd rs s
  | .cmp u rs rt => Sys2Proof.Machine.execCmp u rs rt s
  | .addi u rd rs imm => Sys2Proof.Machine.execAddi u rd rs imm s
  | .cmpi u rs imm => Sys2Proof.Machine.execCmpi u rs imm s
  | .andi u rd rs imm => Sys2Proof.Machine.execAndi u rd rs imm s
  | .ori u rd rs imm => Sys2Proof.Machine.execOri u rd rs imm s
  | .xori u rd rs imm => Sys2Proof.Machine.execXori u rd rs imm s
  | .movi u rd imm => Sys2Proof.Machine.execMovi u rd imm s
  | .movhi u rd imm => Sys2Proof.Machine.execMovhi u rd imm s
  | .shi u kind rd rs amt => Sys2Proof.Machine.execShi u kind rd rs amt s
  | .bfx u rd rs pos wm1 => Sys2Proof.Machine.execBfx u rd rs pos wm1 s
  | .bfxs u rd rs pos wm1 => Sys2Proof.Machine.execBfxs u rd rs pos wm1 s
  | .bfi u rd rs pos wm1 => Sys2Proof.Machine.execBfi u rd rs pos wm1 s
  | .clz u rd rs => Sys2Proof.Machine.execClz u rd rs s
  | .cls u rd rs => Sys2Proof.Machine.execCls u rd rs s
  | .perm u rd rs sel => Sys2Proof.Machine.execPerm u rd rs sel s
  | .mul u rd rs rt => Sys2Proof.Machine.execMul u rd rs rt s
  | .div u rd rs rt rr => Sys2Proof.Machine.execDiv u rd rs rt rr s
  | .divu u rd rs rt rr => Sys2Proof.Machine.execDivu u rd rs rt rr s
  | .mac u ad x => Sys2Proof.Machine.execMac u ad x s
  | .msu u ad x => Sys2Proof.Machine.execMsu u ad x s
  | .mpy u ad x => Sys2Proof.Machine.execMpy u ad x s
  | .accld u ad rs sh => Sys2Proof.Machine.execAccld u ad rs sh s
  | .sta u rd as sh => Sys2Proof.Machine.execSta u rd as sh s
  | .sha u ad as right amt => Sys2Proof.Machine.execSha u ad as right amt s
  | .ldw u rd rs imm => Sys2Proof.Machine.execLdw u rd rs imm s
  | .stw u rd rs imm => Sys2Proof.Machine.execStw u rd rs imm s
  | .ldh u rd rs imm => Sys2Proof.Machine.execLdh u rd rs imm s
  | .sth u rd rs imm => Sys2Proof.Machine.execSth u rd rs imm s
  | .ldb u rd rs imm => Sys2Proof.Machine.execLdb u rd rs imm s
  | .stb u rd rs imm => Sys2Proof.Machine.execStb u rd rs imm s
  | .ldx u rd x => Sys2Proof.Machine.execLdx u rd x s
  | .stx u rd x => Sys2Proof.Machine.execStx u rd x s
  | .bcond u cond x => Sys2Proof.Machine.execBcond u cond x s
  | .bl u off => Sys2Proof.Machine.execBl u off s
  | .jr u rd rs => Sys2Proof.Machine.execJr u rd rs s
  | .rot u k => Sys2Proof.Machine.execRot u k s
  | .get u => Sys2Proof.Machine.execGet u s
  | .doneItem u => Sys2Proof.Machine.execDoneItem u s
  | .pusht u rs rt => Sys2Proof.Machine.execPusht u rs rt s
  | .fence u => Sys2Proof.Machine.execFence u s
  | .fenceComplete c => Sys2Proof.Machine.execFenceComplete c s
  | .clean u rs rt => Sys2Proof.Machine.execClean u rs rt s
  | .inval u rs rt => Sys2Proof.Machine.execInval u rs rt s
  | .sys u rd toSys num => Sys2Proof.Machine.execSys u rd toSys num s
  | .trap u code => Sys2Proof.Machine.execTrap u code s
  | .dice u rd triangular => Sys2Proof.Machine.execDice u rd triangular s
  | .nops u slot other => Sys2Proof.Machine.execNops u slot other s
  | .mov u slot rd rs other => Sys2Proof.Machine.execMov u slot rd rs other s
  | .shortAdd u slot rd rs rt other => Sys2Proof.Machine.execShortAdd u slot rd rs rt other s
  | .shortSub u slot rd rs rt other => Sys2Proof.Machine.execShortSub u slot rd rs rt other s
  | .shortAnd u slot rd rs rt other => Sys2Proof.Machine.execShortAnd u slot rd rs rt other s
  | .shortOr u slot rd rs rt other => Sys2Proof.Machine.execShortOr u slot rd rs rt other s
  | .shortXor u slot rd rs rt other => Sys2Proof.Machine.execShortXor u slot rd rs rt other s
  | .shli u slot rd rs imm other => Sys2Proof.Machine.execShli u slot rd rs imm other s
  | .sari u slot rd rs imm other => Sys2Proof.Machine.execSari u slot rd rs imm other s
  | .addi5 u slot rd rs imm other => Sys2Proof.Machine.execAddi5 u slot rd rs imm other s
  | .shortCmp u slot rs rt other => Sys2Proof.Machine.execShortCmp u slot rs rt other s
  | .macs u slot ad x other => Sys2Proof.Machine.execMacs u slot ad x other s
  | .ldxs u slot rd x other => Sys2Proof.Machine.execLdxs u slot rd x other s
  | .stxs u slot rd x other => Sys2Proof.Machine.execStxs u slot rd x other s
  | .mpys u slot ad rs rt other => Sys2Proof.Machine.execMpys u slot ad rs rt other s
  | .undefinedWord u w => Sys2Proof.Machine.execUndefinedWord u w s
  | .lineFill c line => Sys2Proof.Machine.execLineFill c line s
  | .lineEviction c line => Sys2Proof.Machine.execLineEviction c line s
  | .storeBusError c => Sys2Proof.Machine.execStoreBusError c s
  | .interrupt c => Sys2Proof.Machine.execInterrupt c s
  | .parityFault c recovered line => Sys2Proof.Machine.execParityFault c recovered line s
  | .uncachedLoadResponse c => Sys2Proof.Machine.execUncachedLoadResponse c s
  | .writeBufferDrain c => Sys2Proof.Machine.execWriteBufferDrain c s
  | .coreStart m c v => Sys2Proof.Machine.execCoreStart m c v s
  | .coreStop m c v => Sys2Proof.Machine.execCoreStop m c v s
  | .schedHostTokPush m v => Sys2Proof.Machine.execSchedHostTokPush m v s
  | .budgetKill c => Sys2Proof.Machine.execBudgetKill c s
  | .release flow => Sys2Proof.Machine.execRelease flow s
  | .schedCancel m v => Sys2Proof.Machine.execSchedCancel m v s
  | .spill c => Sys2Proof.Machine.execSpill c s
  | .unspill c => Sys2Proof.Machine.execUnspill c s
  | .c0RateWrite m v => Sys2Proof.Machine.execC0RateWrite m v s
  | .schedFlowWrite m f v => Sys2Proof.Machine.execSchedFlowWrite m f v s
  | .spillAreaWrite m size v => Sys2Proof.Machine.execSpillAreaWrite m size v s
  | .engEnWrite m pe v => Sys2Proof.Machine.execEngEnWrite m pe v s
  | .engLaneMapWrite m pe v => Sys2Proof.Machine.execEngLaneMapWrite m pe v s
  | .engDbWrite m pe v => Sys2Proof.Machine.execEngDbWrite m pe v s
  | .engProgWrite m pe b v => Sys2Proof.Machine.execEngProgWrite m pe b v s
  | .programMemoryWrite m pe w v => Sys2Proof.Machine.execProgramMemoryWrite m pe w v s
  | .programCheckDone pe => Sys2Proof.Machine.execProgramCheckDone pe s
  | .laneMemoryAccess m pe l w data => Sys2Proof.Machine.execLaneMemoryAccess m pe l w data s
  | .laneAccessComplete pe l => Sys2Proof.Machine.execLaneAccessComplete pe l s
  | .writeBack pe l => Sys2Proof.Machine.execWriteBack pe l s
  | .scrub pe => Sys2Proof.Machine.execScrub pe s
  | .migStart m cl v => Sys2Proof.Machine.execMigStart m cl v s
  | .migrationCopyComplete cl => Sys2Proof.Machine.execMigrationCopyComplete cl s
  | .engcRemapWrite m cl retire v => Sys2Proof.Machine.execEngcRemapWrite m cl retire v s
  | .safeCommit m v => Sys2Proof.Machine.execSafeCommit m v s
  | .mirrorComplete g => Sys2Proof.Machine.execMirrorComplete g s
  | .strokeStart m n v => Sys2Proof.Machine.execStrokeStart m n v s
  | .strokeStop m n v => Sys2Proof.Machine.execStrokeStop m n v s
  | .strokeStep n => Sys2Proof.Machine.execStrokeStep n s
  | .routeWordWrite m bank n upper v => Sys2Proof.Machine.execRouteWordWrite m bank n upper v s
  | .fabricBankLenWrite m bank v => Sys2Proof.Machine.execFabricBankLenWrite m bank v s
  | .routeCheckDone bank => Sys2Proof.Machine.execRouteCheckDone bank s
  | .gainWrite m tab j v => Sys2Proof.Machine.execGainWrite m tab j v s
  | .detectorConfigWrite m x v => Sys2Proof.Machine.execDetectorConfigWrite m x v s
  | .fabricQuietWrite m c v => Sys2Proof.Machine.execFabricQuietWrite m c v s
  | .phaseClr m n v => Sys2Proof.Machine.execPhaseClr m n v s
  | .chainDescriptorWrite m c w v => Sys2Proof.Machine.execChainDescriptorWrite m c w v s
  | .chainEnableWrite m c v => Sys2Proof.Machine.execChainEnableWrite m c v s
  | .chainCheckDone c => Sys2Proof.Machine.execChainCheckDone c s
  | .sectionCoefficientWrite m side c idx k v => Sys2Proof.Machine.execSectionCoefficientWrite m side c idx k v s
  | .sectionStateWrite m c idx k v => Sys2Proof.Machine.execSectionStateWrite m c idx k v s
  | .sectionClr m v => Sys2Proof.Machine.execSectionClr m v s
  | .sapEnWrite m p v => Sys2Proof.Machine.execSapEnWrite m p v s
  | .sapCfgWrite m p v => Sys2Proof.Machine.execSapCfgWrite m p v s
  | .portFrame p f => Sys2Proof.Machine.execPortFrame p f s
  | .frameTimeout p => Sys2Proof.Machine.execFrameTimeout p s
  | .concealExpire p => Sys2Proof.Machine.execConcealExpire p s
  | .asrcChCfgWrite m n v => Sys2Proof.Machine.execAsrcChCfgWrite m n v s
  | .trackerLock p ratio => Sys2Proof.Machine.execTrackerLock p ratio s
  | .trackerUnlock p => Sys2Proof.Machine.execTrackerUnlock p s
  | .guardPfaultClear m w v => Sys2Proof.Machine.execGuardPfaultClear m w v s
  | .guardLfaultClear m l v => Sys2Proof.Machine.execGuardLfaultClear m l v s
  | .muteN low => Sys2Proof.Machine.execMuteN low s
  | .linkEnWrite m l v => Sys2Proof.Machine.execLinkEnWrite m l v s
  | .retrain m l v => Sys2Proof.Machine.execRetrain m l v s
  | .wakeTx m l v => Sys2Proof.Machine.execWakeTx m l v s
  | .linkFrameTx l => Sys2Proof.Machine.execLinkFrameTx l s
  | .frameTimer l => Sys2Proof.Machine.execFrameTimer l s
  | .signalDetect l => Sys2Proof.Machine.execSignalDetect l s
  | .alignmentAchieved l => Sys2Proof.Machine.execAlignmentAchieved l s
  | .linkFrame l f => Sys2Proof.Machine.execLinkFrame l f s
  | .missingFrame l => Sys2Proof.Machine.execMissingFrame l s
  | .lossOfAlignment l => Sys2Proof.Machine.execLossOfAlignment l s
  | .linkConcealExpire l => Sys2Proof.Machine.execLinkConcealExpire l s
  | .retrainTimeout l => Sys2Proof.Machine.execRetrainTimeout l s
  | .failReset l => Sys2Proof.Machine.execFailReset l s
  | .faultReceived l => Sys2Proof.Machine.execFaultReceived l s
  | .faultRxEnd l => Sys2Proof.Machine.execFaultRxEnd l s
  | .linkWake l pattern => Sys2Proof.Machine.execLinkWake l pattern s
  | .readRequest l q => Sys2Proof.Machine.execReadRequest l q s
  | .writeRequest l q => Sys2Proof.Machine.execWriteRequest l q s
  | .readResponse l q => Sys2Proof.Machine.execReadResponse l q s
  | .writeResponse l q => Sys2Proof.Machine.execWriteResponse l q s
  | .ownershipMessage l q => Sys2Proof.Machine.execOwnershipMessage l q s
  | .reroute l seg cnt => Sys2Proof.Machine.execReroute l seg cnt s
  | .alternateRouteWrite m idx v => Sys2Proof.Machine.execAlternateRouteWrite m idx v s
  | .tunnelGo m v => Sys2Proof.Machine.execTunnelGo m v s
  | .channelEnable m n v => Sys2Proof.Machine.execChannelEnable m n v s
  | .channelDisable m n v => Sys2Proof.Machine.execChannelDisable m n v s
  | .dmaStart m n v => Sys2Proof.Machine.execDmaStart m n v s
  | .pause m n v => Sys2Proof.Machine.execPause m n v s
  | .resume m n v => Sys2Proof.Machine.execResume m n v s
  | .dmaAbort m n v => Sys2Proof.Machine.execDmaAbort m n v s
  | .descriptorFetch n => Sys2Proof.Machine.execDescriptorFetch n s
  | .descriptorComplete n => Sys2Proof.Machine.execDescriptorComplete n s
  | .dmaBusError n late => Sys2Proof.Machine.execDmaBusError n late s
  | .dmaTimeout n what => Sys2Proof.Machine.execDmaTimeout n what s
  | .timerEnable m n v => Sys2Proof.Machine.execTimerEnable m n v s
  | .timerExpire n => Sys2Proof.Machine.execTimerExpire n s
  | .synthEnable m v => Sys2Proof.Machine.execSynthEnable m v s
  | .synthDisable m v => Sys2Proof.Machine.execSynthDisable m v s
  | .apply m v => Sys2Proof.Machine.execApply m v s
  | .lockAcquired levels => Sys2Proof.Machine.execLockAcquired levels s
  | .refReturn e => Sys2Proof.Machine.execRefReturn e s
  | .slewComplete e => Sys2Proof.Machine.execSlewComplete e s
  | .rampGo m v => Sys2Proof.Machine.execRampGo m v s
  | .rampAbort m v => Sys2Proof.Machine.execRampAbort m v s
  | .overspeedTrip n => Sys2Proof.Machine.execOverspeedTrip n s
  | .synthOutCfgWrite m n v => Sys2Proof.Machine.execSynthOutCfgWrite m n v s
  | .synthBandWrite m n v => Sys2Proof.Machine.execSynthBandWrite m n v s
  | .synthCeilWrite m n v => Sys2Proof.Machine.execSynthCeilWrite m n v s
  | .reqRetention m v => Sys2Proof.Machine.execReqRetention m v s
  | .reqOff m v => Sys2Proof.Machine.execReqOff m v s
  | .reqOn m v => Sys2Proof.Machine.execReqOn m v s
  | .domainEntryDone d => Sys2Proof.Machine.execDomainEntryDone d s
  | .wakeSource k n => Sys2Proof.Machine.execWakeSource k n s
  | .demandWake d => Sys2Proof.Machine.execDemandWake d s
  | .domainReady d => Sys2Proof.Machine.execDomainReady d s
  | .autoRetentionEntry c => Sys2Proof.Machine.execAutoRetentionEntry c s
  | .pwrAutoRetWrite m v => Sys2Proof.Machine.execPwrAutoRetWrite m v s
  | .sealData m v => Sys2Proof.Machine.execSealData m v s
  | .openBlob m v => Sys2Proof.Machine.execOpenBlob m v s
  | .sealLock m v => Sys2Proof.Machine.execSealLock m v s
  | .sealedLoad m v => Sys2Proof.Machine.execSealedLoad m v s
  | .floorAdvance m v => Sys2Proof.Machine.execFloorAdvance m v s
  | .otpProgram m v => Sys2Proof.Machine.execOtpProgram m v s
  | .otpProgramDone failed => Sys2Proof.Machine.execOtpProgramDone failed s
  | .chal m v => Sys2Proof.Machine.execChal m v s
  | .check m v => Sys2Proof.Machine.execCheck m v s
  | .close m v => Sys2Proof.Machine.execClose m v s
  | .spiWrite port a data => Sys2Proof.Machine.execSpiWrite port a data s
  | .spiRead port a n => Sys2Proof.Machine.execSpiRead port a n s
  | .spiDualRead port a n => Sys2Proof.Machine.execSpiDualRead port a n s
  | .spiQuadRead port a n => Sys2Proof.Machine.execSpiQuadRead port a n s
  | .spiUnknownCommand port cmd => Sys2Proof.Machine.execSpiUnknownCommand port cmd s
  | .i2cWrite a data => Sys2Proof.Machine.execI2cWrite a data s
  | .i2cRead a n => Sys2Proof.Machine.execI2cRead a n s
  | .i2cAddressWrite a => Sys2Proof.Machine.execI2cAddressWrite a s
  | .hostTimeout m => Sys2Proof.Machine.execHostTimeout m s
  | .claim m v => Sys2Proof.Machine.execClaim m v s
  | .seize m v => Sys2Proof.Machine.execSeize m v s
  | .handover m v => Sys2Proof.Machine.execHandover m v s
  | .ownerRelease m v => Sys2Proof.Machine.execOwnerRelease m v s
  | .accept m v => Sys2Proof.Machine.execAccept m v s
  | .sysLeaseWrite m v => Sys2Proof.Machine.execSysLeaseWrite m v s
  | .softEventSet m v => Sys2Proof.Machine.execSoftEventSet m v s
  | .gpioEdge idx level => Sys2Proof.Machine.execGpioEdge idx level s
  | .registerWrite m a v => Sys2Proof.Machine.execRegisterWrite m a v s
  | .jtagAccess a data => Sys2Proof.Machine.execJtagAccess a data s
  | .engineLoadDelivery pe => Sys2Proof.Machine.execEngineLoadDelivery pe s
  | .supplyRise => Sys2Proof.Machine.execSupplyRise s
  | .resetNLow => Sys2Proof.Machine.execResetNLow s
  | .verifyComplete => Sys2Proof.Machine.execVerifyComplete s
  | .boundary => Sys2Proof.Machine.execBoundary s
  | .commitCut => Sys2Proof.Machine.execCommitCut s
  | .fabricPassA => Sys2Proof.Machine.execFabricPassA s
  | .fabricSwap => Sys2Proof.Machine.execFabricSwap s
  | .fabricPassB => Sys2Proof.Machine.execFabricPassB s
  | .quiescenceDecision => Sys2Proof.Machine.execQuiescenceDecision s
  | .sectionRun => Sys2Proof.Machine.execSectionRun s
  | .guardEvaluation => Sys2Proof.Machine.execGuardEvaluation s
  | .probeTimeout => Sys2Proof.Machine.execProbeTimeout s
  | .tokenAccept => Sys2Proof.Machine.execTokenAccept s
  | .dispatch => Sys2Proof.Machine.execDispatch s
  | .aging => Sys2Proof.Machine.execAging s
  | .c0Refill => Sys2Proof.Machine.execC0Refill s
  | .flipWhileStopped => Sys2Proof.Machine.execFlipWhileStopped s
  | .rerouteTarget => Sys2Proof.Machine.execRerouteTarget s
  | .tunnelTimeout => Sys2Proof.Machine.execTunnelTimeout s
  | .calibrationComplete => Sys2Proof.Machine.execCalibrationComplete s
  | .refLoss => Sys2Proof.Machine.execRefLoss s
  | .dividerReset => Sys2Proof.Machine.execDividerReset s
  | .syncIn => Sys2Proof.Machine.execSyncIn s
  | .rampSegmentEnd => Sys2Proof.Machine.execRampSegmentEnd s
  | .voteComplete => Sys2Proof.Machine.execVoteComplete s
  | .aonTimerExpire => Sys2Proof.Machine.execAonTimerExpire s
  | .regulatorModeChange => Sys2Proof.Machine.execRegulatorModeChange s
  | .lowPowerReturn => Sys2Proof.Machine.execLowPowerReturn s
  | .brownOut => Sys2Proof.Machine.execBrownOut s
  | .sealOperationDone => Sys2Proof.Machine.execSealOperationDone s
  | .sealedLoadDone => Sys2Proof.Machine.execSealedLoadDone s
  | .nonceExpire => Sys2Proof.Machine.execNonceExpire s
  | .handoverTimeout => Sys2Proof.Machine.execHandoverTimeout s
  | .ownerLapsed => Sys2Proof.Machine.execOwnerLapsed s

end Sys2Proof.Machine
end

