-- ==== Sys2Proof/Machine/Step.lean ====
section
/-! DEFINITION. A step: the command at the front of the queue, or, on an empty queue, one HUBCLK cycle. -/

namespace Sys2Proof.Machine

/-- One HUBCLK cycle (R48, R51): two ENGCLK cycles of the turn grid, which stands before its next boundary until the command
BOUNDARY comes; in ROM the boot ROM selects how the device boots (R30, R416). DESIGN CHOICE: log entries 2, 12, 26. -/
def tick (s : State) : State :=
  if up s then
    romSelect { s with time := { s.time with hub := s.time.hub + 1,
                                             clk := if s.time.clk + 2 < turnLen s then s.time.clk + 2 else s.time.clk } }
  else s

/-- The step of the block. DESIGN CHOICE: log entries 1, 12. -/
def step (s : State) : Host.Outcome State Fault Refusal :=
  match s.pending with
  | [] => .next (tick s)
  | c :: rest => exec c { s with pending := rest }

/-- The state with the command that a word spells put at the front of its queue. DESIGN CHOICE: log entry 14. -/
def State.withFetchWord (s : State) (nbits w : Nat) : State :=
  match decodeTableWord nbits w with
  | some c => { s with pending := c :: s.pending }
  | none => s

end Sys2Proof.Machine
end

