-- ==== Sys2Proof/WellFormed.lean ====
section
/-! DEFINITION. Well-formed commands: what the operand types leave open of what a sender may put in a command. -/

namespace Sys2Proof

open Machine

/-- The initiators that send accesses: SEC and the boot ROM make theirs inside other commands. -/
def Initiator.sends : Initiator → Bool
  | .sec | .rom => false
  | _ => true

/-- The profile of what executes a word (R75, R85, R87, R88). -/
def Agent.isCore : Agent → Bool
  | .core _ => true
  | .eng _ => false

/-- Register fields that the profile defines: read, and written (R73, R92). -/
def Agent.reads (u : Agent) (l : List (Fin 32)) : Bool := l.all (fun r => Ramtal.rd_ok u.isCore r)
def Agent.writes (u : Agent) (r : Fin 32) : Bool := Ramtal.wr_ok u.isCore r

/-- OFF[13:9] is reserved in SPACE 11 (R82). -/
def MemOp.fits (op : MemOp) : Bool :=
  match op.space, op.off with
  | .cross, .imm o => decide (o.val < 512)
  | _, _ => true

/-- The forms of the operands that belong to one profile, with no reserved bit set. -/
def XAddr.fitsLoad (u : Agent) : XAddr → Bool
  | .base _ _ => u.isCore
  | .mem op => !u.isCore && op.fits

def XAddr.fitsStore (u : Agent) : XAddr → Bool
  | .base _ _ => u.isCore
  | .mem op => !u.isCore && op.space != .palette && op.space != .cross

def BranchArg.fits (u : Agent) : BranchArg → Bool
  | .off _ => u.isCore
  | .ncnt n => !u.isCore && n.val != 0

def MacArgs.fits (u : Agent) : MacArgs → Bool
  | .regs rs rt => u.reads [rs, rt]
  | .regMem _ op => !u.isCore && op.fits
  | _ => !u.isCore

def MacsArgs.fits (u : Agent) : MacsArgs → Bool
  | .regs _ _ => u.isCore
  | .ptrs _ _ _ _ => !u.isCore

def XsAddr.fits (u : Agent) : XsAddr → Bool
  | .base _ _ => u.isCore
  | .ptr _ _ _ => !u.isCore

def ShortOp.fits (u : Agent) : ShortOp → Bool
  | .macs _ x => x.fits u
  | .ldxs _ x | .stxs _ x => x.fits u
  | _ => true

/-- A received port frame (R256, R262): its phase lies in a turn, and it has at most twice the BCK periods of 16 slots of 32 bits. -/
def PortFrame.ok (f : PortFrame) : Bool := decide (f.phase < 8192) && decide (f.bck.length ≤ 1024)

/-- A received link frame (R280): SOF in a turn, and no more symbols than the frame of the lowest rate has. -/
def LinkFrame.ok (f : LinkFrame) : Bool := decide (f.arrival < 8192) && decide (f.syms.length ≤ 1816)

/-- Whether a command is well formed. -/
def Instr.wellFormed : Instr → Bool
  | .add u rd rs rt => u.writes rd && u.reads [rs, rt]
  | .sub u rd rs rt => u.writes rd && u.reads [rs, rt]
  | .adds u rd rs rt => u.writes rd && u.reads [rs, rt]
  | .subs u rd rs rt => u.writes rd && u.reads [rs, rt]
  | .andR u rd rs rt => u.writes rd && u.reads [rs, rt]
  | .orR u rd rs rt => u.writes rd && u.reads [rs, rt]
  | .xorR u rd rs rt => u.writes rd && u.reads [rs, rt]
  | .andn u rd rs rt => u.writes rd && u.reads [rs, rt]
  | .shl u rd rs rt => u.writes rd && u.reads [rs, rt]
  | .shr u rd rs rt => u.writes rd && u.reads [rs, rt]
  | .sar u rd rs rt => u.writes rd && u.reads [rs, rt]
  | .ror u rd rs rt => u.writes rd && u.reads [rs, rt]
  | .mul u rd rs rt => u.writes rd && u.reads [rs, rt]
  | .neg u rd rs => u.writes rd && u.reads [rs]
  | .abs u rd rs => u.writes rd && u.reads [rs]
  | .clz u rd rs => u.writes rd && u.reads [rs]
  | .cls u rd rs => u.writes rd && u.reads [rs]
  | .addi u rd rs _ => u.writes rd && u.reads [rs]
  | .andi u rd rs _ => u.writes rd && u.reads [rs]
  | .ori u rd rs _ => u.writes rd && u.reads [rs]
  | .xori u rd rs _ => u.writes rd && u.reads [rs]
  | .cmp u rs rt => u.reads [rs, rt]
  | .cmpi u rs _ => u.reads [rs]
  | .movi u rd _ => u.writes rd
  | .movhi u rd imm => u.writes rd && (u.isCore || decide (imm.toNat < 256))
  | .shi u _ rd rs _ => u.writes rd && u.reads [rs]
  | .bfx u rd rs _ _ => u.writes rd && u.reads [rs]
  | .bfxs u rd rs _ _ => u.writes rd && u.reads [rs]
  | .bfi u rd rs _ _ => u.writes rd && u.reads [rs]
  | .perm u rd rs _ => u.writes rd && u.reads [rs]
  | .div u _ _ _ _ => u.isCore
  | .divu u _ _ _ _ => u.isCore
  | .mac u _ x => x.fits u
  | .msu u _ x => x.fits u
  | .mpy u _ x => x.fits u
  | .accld u _ rs _ => u.reads [rs]
  | .sta u rd _ _ => u.writes rd
  | .ldw u rd rs _ => u.writes rd && u.reads [rs]
  | .ldh u rd rs _ => u.writes rd && u.reads [rs]
  | .ldb u rd rs _ => u.writes rd && u.reads [rs]
  | .stw u rd rs _ => u.reads [rd, rs]
  | .sth u rd rs _ => u.reads [rd, rs]
  | .stb u rd rs _ => u.reads [rd, rs]
  | .ldx u rd x => u.writes rd && x.fitsLoad u
  | .stx u rd x => u.reads [rd] && x.fitsStore u
  | .bcond u _ x => x.fits u
  | .bl u _ => u.isCore
  | .jr u _ _ => u.isCore
  | .rot u _ => u.isCore
  | .get u => u.isCore
  | .doneItem u => u.isCore
  | .pusht u rs rt => u.reads [rs, rt]
  | .clean u _ _ => u.isCore
  | .inval u _ _ => u.isCore
  | .sys u rd toSys num => Ramtal.sysOk u.isCore toSys num.toNat && (if toSys then u.reads [rd] else u.writes rd)
  | .trap u _ => u.isCore
  | .dice u rd _ => u.writes rd
  | .nops u _ o => o.fits u
  | .mov u _ _ _ o => o.fits u
  | .shortAdd u _ _ _ _ o => o.fits u
  | .shortSub u _ _ _ _ o => o.fits u
  | .shortAnd u _ _ _ _ o => o.fits u
  | .shortOr u _ _ _ _ o => o.fits u
  | .shortXor u _ _ _ _ o => o.fits u
  | .shli u _ _ _ _ o => o.fits u
  | .sari u _ _ _ _ o => o.fits u
  | .addi5 u _ _ _ _ o => o.fits u
  | .shortCmp u _ _ _ o => o.fits u
  | .mpys u _ _ _ _ o => o.fits u
  | .macs u _ _ x o => x.fits u && o.fits u
  | .ldxs u _ _ x o => x.fits u && o.fits u
  | .stxs u _ _ x o => x.fits u && o.fits u
  | .undefinedWord u w => (decodeRamtal u w).isNone
  | .portFrame _ f => f.ok
  | .linkFrame _ f => f.ok
  | .trackerLock _ ratio => decide (ratio < 2 ^ 28)
  | .spiWrite _ _ data => !data.isEmpty
  | .spiRead _ _ n => decide (0 < n)
  | .spiDualRead _ _ n => decide (0 < n)
  | .spiQuadRead _ _ n => decide (0 < n)
  | .spiUnknownCommand _ cmd => !(cmd == 0x02 || cmd == 0x0B || cmd == 0x3B || cmd == 0x6B)
  | .i2cWrite _ data => !data.isEmpty
  | .i2cRead _ n => decide (0 < n)
  | .registerWrite m a _ => m.sends && a.toNat % 4 == 0
  | _ => true

end Sys2Proof
end

