-- ==== Sys2Proof/Safety.lean ====
section
/-! DEFINITION. What claims are said in: the canonical form of the memories, when a word issues and when an access lands, and what
a word or a command changes. -/

namespace Sys2Proof.Machine

/-- The canonical form of the byte memories, the word memories, their check-bit conditions and the registers: keys strictly
rising, and no entry equal to what an unlisted key reads as. -/
def State.memWf (s : State) : Bool := Store.wf zeroOf s.mem
def State.wmemWf (s : State) : Bool := Store.wf zeroOf s.wmem
def State.upsetWf (s : State) : Bool := Store.wf natZero s.upset
def State.regsWf (s : State) : Bool := Store.wf Reg.resetOf s.regs

/-- The mailboxes stand in the same form. -/
def State.boxesWf (s : State) : Bool :=
  Store.wf zeroOf s.eng.inF && Store.wf zeroOf s.eng.inE && Store.wf zeroOf s.eng.outE && Store.wf zeroOf s.eng.outF

/-- All memories are in canonical form. -/
def State.canonical (s : State) : Bool := s.memWf && s.wmemWf && s.upsetWf && s.regsWf && s.boxesWf

/-- A state in which the next step stops the model: BROWN_OUT of an overloaded regulator (R411). -/
def stops (s : State) : Prop := ∃ f, step s = .fault f

/-! Words. -/

/-- Core c issues its word: it runs, it is not in FENCE, its pc can be fetched, and every register in srcs has arrived (R94, R99,
R101, R133, R304). -/
def coreReady (c : Nat) (srcs : List Nat) (s : State) : Bool :=
  coreRuns s c && !s.core.fence.contains c && canFetch s (getPc s c).toNat && srcs.all (fun r => !regPending s c r)

/-- Engine pe stands at a word of its run: no load delivery is overdue, and the word holds no double-bit error (R137, R158, R161). -/
def engReady (pe : Nat) (s : State) : Bool :=
  match runAt s pe with
  | none => false
  | some w => !s.eng.deliver.any (fun d => d.pe == pe && decide (d.due < w)) &&
      upsetOf s (progAddr pe (progBase s pe (actProg s pe) + w)) != 2

/-- Unit u issues a word that reads srcs. -/
def ready (u : Agent) (srcs : List Nat) (s : State) : Bool :=
  match u with
  | .core c => coreReady c.val srcs s
  | .eng pe => engReady pe.val s

/-- The harts that execute the word: the core, or the lanes that do not nullify it (R85). -/
def harts (u : Agent) (s : State) : List Nat :=
  match u with
  | .core c => [c.val]
  | .eng pe => (liveLanes s pe.val).map (laneHart pe.val)

/-- What a register field holds after a value has been written to it: g0 and ZR stay zero, pointers keep 14 bits, and the other
registers the width of their profile (R71, R73, R96). -/
def heldIn (h r v : Nat) : Nat :=
  if h < 16 then (if r = 0 then 0 else v % 2 ^ 32)
  else if r ≤ 7 then v % 2 ^ 24 else if r ≤ 11 then v % 2 ^ 14 else 0

/-- What a word on registers alone does to one hart: registers written, in order; flags; accumulator and generator written. -/
structure HartPut where
  regs : List (Nat × Nat) := []
  flg : Flg := {}
  acc : Option (Nat × Int) := none
  dice : Option Nat := none

/-- What register field r of hart h holds after the put, where it held old: the value its last write gives it, else old. -/
def HartPut.regAfter (p : HartPut) (h r old : Nat) : Nat :=
  match p.regs.reverse.find? (fun e => e.1 == r) with
  | some e => heldIn h r e.2
  | none => old

/-- What accumulator x and the generator hold after the put. -/
def HartPut.accAfter (p : HartPut) (x : Nat) (old : Int) : Int :=
  match p.acc with
  | some (y, v) => if x = y then wrapI 56 v else old
  | none => old

def HartPut.diceAfter (p : HartPut) (old : Nat) : Nat :=
  match p.dice with
  | some v => if v % 2 ^ 24 = 0 then 1 else v % 2 ^ 24
  | none => old

/-- The state with a single-bit error of the engine's program word corrected (R158); the state itself where it has none. -/
def fetched (pe : Nat) (s : State) : State :=
  match runAt s pe with
  | none => s
  | some w => correctProg pe (progAddr pe (progBase s pe (actProg s pe) + w)) (progBase s pe (actProg s pe) + w) s

/-- An engine's run goes on to its next word, or ends after PLEN words; each nullify window steps down by one word; load deliveries
that wait stay, new ones join them, and all are gone with the run (R85, R137, R161). -/
def engGoes (pe : Nat) (new : List Delivery) (s t : State) : Prop :=
  let w := (runAt s pe).getD 0
  let goes := decide (w + 1 < progLen s pe (actProg s pe))
  (∀ q, runAt t q = if q = pe then (if goes then some (w + 1) else none) else runAt s q) ∧
  (∀ L : Fin 4, nullOf t (laneHart pe L) = if goes then nullOf s (laneHart pe L) - 1 else 0) ∧
  t.eng.deliver = if goes then s.eng.deliver ++ new else s.eng.deliver.filter (fun d => d.pe != pe)

/-- Register field r of hart h after a word that left it at v: the last word of a run is followed by the load deliveries that are due at
its end, in order (R161). -/
def landed (u : Agent) (s : State) (h r v : Nat) : Nat :=
  match u with
  | .core _ => v
  | .eng pe =>
    let w := (runAt s pe).getD 0
    if w + 1 < progLen s pe (actProg s pe) then v
    else match s.eng.deliver.reverse.find? (fun d =>
        d.pe == pe.val && decide (d.due ≤ w) && laneHart pe d.lane == h && d.rd == r && decide (r ≤ 11)) with
      | some d => heldIn h r d.value.toNat
      | none => v

/-- A word changes nothing but data registers, STAT, accumulators and generators, and goes on: a core's pc by 4, an engine's run to
its next word (R70, R137). -/
def goesOn (u : Agent) (s t : State) : Prop :=
  match u with
  | .core c => t = { s with hart := t.hart, core := { s.core with pc := t.core.pc, pend := t.core.pend } } ∧
      (∀ k, getPc t k = if k = c.val then getPc s c + 4 else getPc s k)
  | .eng pe =>
    let f := fetched pe s
    t = { f with hart := t.hart, eng := { f.eng with run := t.eng.run, null := t.eng.null, deliver := t.eng.deliver } } ∧
      engGoes pe [] s t

/-- A word on registers alone does p to the harts that execute it, and to nothing else. -/
def wordDoes (u : Agent) (p : Nat → HartPut) (s t : State) : Prop :=
  (∀ (h : Nat) (r : Fin 32), readReg t h r =
    landed u s h r (if h ∈ harts u s then (p h).regAfter h r (readReg s h r) else readReg s h r)) ∧
  (∀ h, getStat t h = if h ∈ harts u s then statWith (getStat s h) (p h).flg else getStat s h) ∧
  (∀ (h : Nat) (x : Fin 4), getAcc t h x = if h ∈ harts u s then (p h).accAfter x (getAcc s h x) else getAcc s h x) ∧
  (∀ h, getDice t h = if h ∈ harts u s then (p h).diceAfter (getDice s h) else getDice s h) ∧
  goesOn u s t

/-! What the words of R103 to R126 do to a hart, as their pseudocode states it: W is the profile width, x and y operand values. -/

/-- N and Z of a result (nz of R95), with C and V as given. -/
def nzcv (W r : Nat) (c v : Option Bool) : Flg := { n := some (r.testBit (W - 1)), z := some (r == 0), c := c, v := v }

/-- Whether an exact result lies outside [mins, maxs]. -/
def beyond (W : Nat) (e : Int) : Bool := decide (e < minS W ∨ maxS W < e)

/-- add of R103. -/
def Put.sum (rd W x y : Nat) : HartPut :=
  { regs := [(rd, (x + y) % 2 ^ W)],
    flg := nzcv W ((x + y) % 2 ^ W) (some (decide (2 ^ W ≤ x + y))) (some (beyond W (sxN W x + sxN W y))) }

/-- The flags of sub of R103, and sub. -/
def Put.compare (W x y : Nat) : HartPut :=
  { flg := nzcv W (toU W ((x : Int) - y)) (some (decide (y ≤ x))) (some (beyond W (sxN W x - sxN W y))) }
def Put.diff (rd W x y : Nat) : HartPut := { Put.compare W x y with regs := [(rd, toU W ((x : Int) - y))] }

/-- ADDS and SUBS of R104: e the exact result, c the carry of the modular operation. -/
def Put.saturated (rd W : Nat) (e : Int) (c : Bool) : HartPut :=
  let res := if maxS W < e then maxS W else if e < minS W then minS W else e
  { regs := [(rd, toU W res)],
    flg := { nzcv W (toU W res) (some c) (some (decide (res ≠ e))) with sat := decide (res ≠ e) } }

/-- ABS of R105. -/
def Put.magnitude (rd W x : Nat) : HartPut :=
  let res := if sxN W x < 0 then toU W (0 - (x : Int)) else x
  { regs := [(rd, res)], flg := nzcv W res none (some (decide (sxN W x = minS W))) }

/-- A result that writes N and Z (R106, R109). -/
def Put.nz (rd W r : Nat) : HartPut := { regs := [(rd, r)], flg := nzcv W r none none }

/-- A result that writes no flag (R106, R107, R110, R111). -/
def Put.plain (rd r : Nat) : HartPut := { regs := [(rd, r)] }

/-- The shifts and the rotation of R108, by k. -/
def Put.shift (kind : ShiftKind) (rd W x k : Nat) : HartPut :=
  if k = 0 then Put.nz rd W x
  else match kind with
    | .shl =>
      let r := if k < W then x * 2 ^ k % 2 ^ W else 0
      { regs := [(rd, r)], flg := nzcv W r (some (if k ≤ W then x.testBit (W - k) else false)) none }
    | .shr =>
      let r := if k < W then x / 2 ^ k else 0
      { regs := [(rd, r)], flg := nzcv W r (some (if k ≤ W then x.testBit (k - 1) else false)) none }
    | .sar =>
      let r := toU W (if k < W then sar (sxN W x) k else sar (sxN W x) W)
      { regs := [(rd, r)], flg := nzcv W r (some (if k ≤ W then x.testBit (k - 1) else x.testBit (W - 1))) none }
    | .ror =>
      let m := k % W
      let r := (x / 2 ^ m + x * 2 ^ (W - m)) % 2 ^ W
      { regs := [(rd, r)], flg := nzcv W r (some (r.testBit (W - 1))) none }

/-- BFX and BFXS of R109. -/
def Put.extract (signed : Bool) (rd W x pos wm1 : Nat) : HartPut :=
  if W ≤ pos then Put.nz rd W 0
  else
    let len := min (pos + (wm1 + 1)) W - 1 - pos + 1
    let field := x / 2 ^ pos % 2 ^ len
    Put.nz rd W (if signed then toU W (sxN len field) else field)

/-- BFI of R109; old is rd before the word. -/
def Put.insert (rd W old x pos wm1 : Nat) : HartPut :=
  if W ≤ pos then Put.nz rd W old
  else
    let top := min (pos + (wm1 + 1)) W - 1
    Put.nz rd W (old % 2 ^ pos + x % 2 ^ (top - pos + 1) * 2 ^ pos + old / 2 ^ (top + 1) * 2 ^ (top + 1))

/-- The number of leading bits equal to b, from bit n - 1 downwards: the largest k for which they all are. -/
def runOf (b : Bool) (x n : Nat) : Nat := (List.range (n + 1)).foldl (fun k j =>
  if (List.range j).all (fun i => x.testBit (n - 1 - i) == b) then j else k) 0

/-- Byte i of a word. -/
def byteOf (x i : Nat) : Nat := x / 256 ^ i % 256

/-- PERM of R111: source bytes chosen by two bits of SEL each. -/
def permuted (W x sel : Nat) : Nat :=
  let src := if W = 24 then toU 32 (sxN 24 x) else x
  ((List.range 4).map (fun i => byteOf src (sel / 4 ^ i % 4) * 256 ^ i)).foldl (· + ·) 0 % 2 ^ W

/-- MUL of R112. -/
def Put.product (rd W x y : Nat) : HartPut :=
  let p := sxN W x * sxN W y
  { regs := [(rd, toU W p)], flg := nzcv W (toU W p) none (some (beyond W p)) }

/-- The quotient and then the remainder (R113, R114), with V and DZ. -/
def Put.quotient (rd rr q r : Nat) (v dz : Bool) : HartPut :=
  { regs := [(rd, q), (rr, r)], flg := { nzcv 32 q none (some v) with dz := dz } }

/-- div and divu of R113. -/
def Put.divided (rd rr x y : Nat) : HartPut :=
  if y % 2 ^ 32 = 0 then Put.quotient rd rr (if 0 ≤ sxN 32 x then 0x7FFFFFFF else 0x80000000) x true true
  else if x = 0x80000000 ∧ sxN 32 y = -1 then Put.quotient rd rr 0x80000000 0 true false
  else
    let q := (sxN 32 x).tdiv (sxN 32 y)
    Put.quotient rd rr (toU 32 q) (toU 32 (sxN 32 x - q * sxN 32 y)) false false
def Put.dividedU (rd rr x y : Nat) : HartPut :=
  if y = 0 then Put.quotient rd rr 0xFFFFFFFF x true true else Put.quotient rd rr (x / y) (x % y) false false

/-- acc_write of R116. -/
def Put.acc (ad : Nat) (v : Int) : HartPut := { acc := some (ad, v), flg := { aov := decide (wrapI 56 v ≠ v) } }

/-- The product of R115. -/
def prodOf (x y : Nat) : Int := sxN 24 x * sxN 24 y

/-- STA of R119. -/
def Put.stored (rd W : Nat) (a : Int) (sh : Nat) : HartPut :=
  let v := sar a sh
  let w := if 0x7FFFFF < v then 0x7FFFFF else if v < -0x800000 then -0x800000 else v
  { regs := [(rd, toU W w)], flg := { sat := decide (w ≠ v) } }

/-- step of R126, and DICE: uniform, triangular. -/
def genStep (x : Nat) : Nat := if x % 2 = 1 then x / 2 ^^^ 0xE10000 else x / 2
def Put.uniform (rd W x : Nat) : HartPut := { regs := [(rd, toU W (sxN 24 (genStep x)))], dice := some (genStep x) }
def Put.triangular (rd W x : Nat) : HartPut :=
  let s1 := genStep x
  let s2 := genStep s1
  { regs := [(rd, toU W (wrapI 24 (sar (sxN 24 s1) 1 + sar (sxN 24 s2) 1)))], dice := some s2 }

/-- A word that issues completes, and does p to the harts that execute it and nothing else (R70, R97). -/
def wordRuns (i : Instr) (u : Agent) (srcs : List (Fin 32)) (p : Nat → HartPut) (s : State) : Prop :=
  i.wellFormed = true → ready u (srcs.map (fun r => r.val)) s = true → ∃ t, exec i s = .next t ∧ wordDoes u p s t

/-! Words that reach memory. -/

/-- No operand of the lanes that execute the word reaches a place that is "none" or a word whose check bits are in error (R145, R164,
R167). -/
def cleanReach (pe : Nat) (f : Nat → List Reach) (s : State) : Bool :=
  (liveLanes s pe).all (fun L => (f (laneHart pe L)).all (fun x => match x with
    | .none => false
    | .word w => upsetOf s (laneAddr pe L w) == 0
    | _ => true))

/-- The value a lane reads at an operand (R145). -/
def laneRead (s : State) (h : Nat) (x : Reach) : Nat := readReach s (peOf h) (laneOf h) x

/-- The pointer p after a modification, as a write of its register field; nothing where it keeps its value (R81). -/
def bumped (s : State) (h : Nat) (p : Fin 4) (pm : PtrMod) : List (Nat × Nat) :=
  match pm with
  | .keep => []
  | .inc => [(8 + p.val, (getPtr s h p + 1) % 2 ^ 14)]
  | .dec => [(8 + p.val, (getPtr s h p + (2 ^ 14 - 1)) % 2 ^ 14)]
  | .inc2 => [(8 + p.val, (getPtr s h p + 2) % 2 ^ 14)]

def opBumped (s : State) (h : Nat) (op : MemOp) : List (Nat × Nat) :=
  match op.off with
  | .imm _ => []
  | .ptr p pm => bumped s h p pm

/-- What the operands of MAC, MSU and MPY reach in a lane, their product, and the pointer they move (R115). -/
def macReaches (s : State) (h : Nat) : MacArgs → List Reach
  | .regs _ _ => []
  | .tapPtr tap p _ => [reach s (peOf h) .delay tap.val, reach s (peOf h) .palette (getPtr s h p)]
  | .regMem _ op => [opReach s h op]
  | .ptrCoef p _ coef => [reach s (peOf h) .delay (getPtr s h p), reach s (peOf h) .palette coef.val]

def macProduct (s : State) (h : Nat) : MacArgs → Int
  | .regs rs rt => prodOf (readReg s h rs) (readReg s h rt)
  | .tapPtr tap p _ => prodOf (laneRead s h (reach s (peOf h) .delay tap.val)) (laneRead s h (reach s (peOf h) .palette (getPtr s h p)))
  | .regMem tr op => prodOf (readReg s h tr) (laneRead s h (opReach s h op))
  | .ptrCoef p _ coef => prodOf (laneRead s h (reach s (peOf h) .delay (getPtr s h p))) (laneRead s h (reach s (peOf h) .palette coef.val))

def macBumped (s : State) (h : Nat) : MacArgs → List (Nat × Nat)
  | .regs _ _ => []
  | .tapPtr _ p pm => bumped s h p pm
  | .regMem _ op => opBumped s h op
  | .ptrCoef p pm _ => bumped s h p pm

/-- A word of an engine that reads lane memory through f completes, and does p to the lanes that execute it and nothing else. -/
def laneRuns (i : Instr) (pe : Fin 72) (f : Nat → List Reach) (p : Nat → HartPut) (s : State) : Prop :=
  i.wellFormed = true → engReady pe s = true → cleanReach pe f s = true → ∃ t, exec i s = .next t ∧ wordDoes (.eng pe) p s t

/-- Where a lane's write lands: the address of its word, and of the word of the spare that follows it while the engine migrates; after
a double-bit error only the palettes follow (R144, R169, R172). -/
def laneTargets (s : State) (pe L w : Nat) : List Nat :=
  let palette := dWords s pe ≤ w ∧ w < dWords s pe + 2 * pWords s pe
  laneAddr pe L w :: (match s.eng.mig.find? (fun m => m.src == pe) with
    | some m => if m.kind ≠ .doubleBit ∨ palette then [laneAddr (9 * m.cl + 8) L w] else []
    | none => [])

/-- The lane whose write stands at an address: the last one that reaches it. -/
def laneAt (s : State) (pe : Nat) (f : Nat → Reach) (a : Nat) : Option Nat :=
  (liveLanes s pe).reverse.find? (fun L => match f (laneHart pe L) with
    | .word w => (laneTargets s pe L w).contains a
    | _ => false)

/-- What the stores of an engine's word leave: at each lane word the value of the lane that writes it, sign-extended from 24 bits,
with valid check bits; in an in- or out-mailbox likewise; everything else as it was; a write-back that waits for a written word is
gone (R144, R145, R148, R164). -/
def laneStored (pe : Nat) (f : Nat → Reach) (v : Nat → Nat) (s t : State) : Prop :=
  (∀ a, getSlot t a = match laneAt s pe f a with
    | some L => BitVec.ofInt 32 (sxN 24 (v (laneHart pe L)))
    | none => getSlot s a) ∧
  (∀ a, upsetOf t a = if (laneAt s pe f a).isSome then 0 else upsetOf (fetched pe s) a) ∧
  (∀ k, Store.get zeroOf t.eng.inE k =
    match (liveLanes s pe).reverse.find? (fun L => match f (laneHart pe L) with
      | .inBox i => k == boxKey (logicalOf s pe) L i
      | _ => false) with
    | some L => BitVec.ofNat 24 (v (laneHart pe L))
    | none => Store.get zeroOf s.eng.inE k) ∧
  (∀ k, Store.get zeroOf t.eng.outE k =
    match (liveLanes s pe).reverse.find? (fun L => match f (laneHart pe L) with
      | .outBox i => k == boxKey (logicalOf s pe) L i
      | _ => false) with
    | some L => BitVec.ofNat 24 (v (laneHart pe L))
    | none => Store.get zeroOf s.eng.outE k) ∧
  t.eng.wback = s.eng.wback.filter (fun x => !(x.1 == pe && (liveLanes s pe).any (fun L => L == x.2.1 &&
    f (laneHart pe L) == .word x.2.2)))

/-- A word of an engine that stores v through f, after moving the pointers as p says, completes and does nothing else. -/
def laneStores (i : Instr) (pe : Fin 72) (f : Nat → Reach) (v : Nat → Nat) (p : Nat → List (Nat × Nat)) (s : State) : Prop :=
  i.wellFormed = true → engReady pe s = true → cleanReach pe (fun h => match f h with | .none => [.none] | _ => []) s = true →
  ∃ t, exec i s = .next t ∧ laneStored pe f v s t ∧ engGoes pe [] s t ∧
    (∀ (h : Nat) (r : Fin 32), readReg t h r =
      landed (.eng pe) s h r (if h ∈ harts (.eng pe) s then HartPut.regAfter { regs := p h } h r (readReg s h r) else readReg s h r)) ∧
    t = { fetched pe s with wmem := t.wmem, upset := t.upset, hart := { s.hart with r := t.hart.r },
                            eng := { (fetched pe s).eng with run := t.eng.run, null := t.eng.null, deliver := t.eng.deliver,
                                                             inE := t.eng.inE, outE := t.eng.outE, wback := t.eng.wback } }

/-- The byte of cluster shared memory that an engine's load or store of n bytes starts at: offset ea[19:0] of its own cluster, with the
address bits below the size ignored (R124). -/
def sharedAt (s : State) (h rs : Nat) (imm : BitVec 15) (n : Nat) : Nat :=
  0x10000000 + peOf h / 9 * 0x100000 + toU 20 ((readReg s h rs : Int) + sxN 15 imm.toNat) / n * n

/-- A core has entered the vector of cause n with the given ECAUSE[15:8]: EPC, ECAUSE, pc, IE cleared; a vector it cannot fetch halts
it (R305, R306). Nothing is released here. -/
def vectored (c n code : Nat) (epc : Word) (s t : State) : Prop :=
  let vec := Store.get vbaseReset s.core.vbase c + BitVec.ofNat 32 (0x40 * (n - 1))
  Store.get zeroOf t.core.epc c = epc ∧ Store.get zeroOf t.core.ecause c = BitVec.ofNat 32 (code * 256 + n) ∧ getPc t c = vec ∧
  t.bit .SCHED_CORE_n_CTRL c 2 = false ∧ coreMode t c = (if canFetch s vec.toNat then 1 else 3) ∧
  (canFetch s vec.toNat = false → t.bit .SCHED_CORE_n_STAT c 21 = true ∧ t.bit .EVT_RAW_w 1 31 = true)

/-- A core takes that trap: its item is released unless the cause keeps it; its registers stay, and so does every other core. With no
item released nothing else changes (R94, R122, R305). -/
def trapTaken (c n code : Nat) (epc : Word) (keeps : Bool) (s t : State) : Prop :=
  vectored c n code epc s t ∧ heldBy t c = (if keeps then heldBy s c else none) ∧
  t.hart = s.hart ∧ t.core = { s.core with pc := t.core.pc, epc := t.core.epc, ecause := t.core.ecause } ∧
  (∀ k, k ≠ c → getPc t k = getPc s k ∧ coreMode t k = coreMode s k) ∧
  ((keeps || (heldBy s c).isNone) = true → t = { s with regs := t.regs, core := t.core } ∧
    ∀ r i, ¬ ((r = .SCHED_CORE_n_CTRL ∨ r = .SCHED_CORE_n_STAT) ∧ i = c) → ¬ (r = .EVT_RAW_w ∧ i = 1) → t.reg r i = s.reg r i)

/-- The item that core c holds is released with a status: the core holds none; an ordered item waits, with its status, for its
turn; an unordered one has completed, with a completion token where its flow asks for one (R323). -/
def releasedAs (c : Nat) (st : RelStatus) (s t : State) : Prop :=
  heldBy t c = none ∧ (∀ k, k ≠ c → heldBy t k = heldBy s k) ∧
  match heldBy s c with
  | none => t.sched.await = s.sched.await ∧ t.sched.relQ = s.sched.relQ
  | some h =>
    let code := match st with | .finished => 0 | .aborted => 1 | .cancelled => 2
    let fl := s.reg .SCHED_FLOW_f h.item.flow
    t.bit .SCHED_CORE_n_STAT c 28 = false ∧
    if h.item.ordered then
      t.sched.await = s.sched.await.map (fun a => if a.item.born = h.item.born then { a with st := some st } else a) ∧
      t.sched.relQ = s.sched.relQ
    else
      t.sched.await = s.sched.await ∧
      t.sched.relQ = s.sched.relQ ++ (if bitOf fl 30 then
        [⟨fld fl 15 4, fld fl 3 2, BitVec.ofNat 32 (code * 2 ^ 30 + h.item.tag * 2 ^ 16 +
          (match h.item.seq with | some q => 2 ^ 15 + q | none => 0))⟩] else [])

/-- A command takes that trap. -/
def traps (i : Instr) (c : Fin 16) (n code : Nat) (keeps : Bool) (s : State) : Prop :=
  ∃ t, exec i s = .next t ∧ trapTaken c n code (getPc s c) keeps s t

/-- The n bytes that a load of core c takes at its issue: from core local memory or from a line its cache holds, its own buffered stores
first; none where it has to wait (R101, R102, R303). -/
def seenNow (s : State) (c ea n : Nat) : Option (List Byte) :=
  if regionOf ea = .localMem then some ((List.range n).map (fun k => byteSeen s c (ea + k)))
  else if isCached (regionOf ea) then (lineAt s c ea).map (fun l =>
    ((l.data.drop (ea - l.addr)).take n).zipIdx.map (fun x => (ownByte s c .cache (ea + x.2)).getD x.1))
  else none

/-- A core's load stands among those that have not arrived, with the bytes it has already; the core goes on, and rd is awaited, no other
register more than before (R101). u is the state after the load's access. -/
def loadWaits (c : Fin 16) (rd : Fin 32) (ea : Nat) (kind : LoadKind) (data : List (Nat × Byte)) (u t : State) : Prop :=
  getPc t c = getPc u c + 4 ∧ (∀ k, k ≠ c.val → getPc t k = getPc u k) ∧
  regPending t c rd = (rd.val != 0) ∧ (∀ r : Fin 32, r ≠ rd → regPending t c r = regPending u c r) ∧
  (t.core.pend.getLast?.map (fun l => (l.core, l.addr, l.kind, l.data))) = some (c.val, ea, kind, data) ∧
  t = { u with core := { u.core with pc := t.core.pc, pend := t.core.pend } }

/-- The address of a core's load or store (R121). -/
def coreAt (s : State) (c rs : Nat) (imm : Int) : Nat := toU 32 ((readReg s c rs : Int) + imm)

/-- A core's load of n bytes at ea into rd (R21, R101, R121, R122, R365, R368, R370). Misaligned or not readable it traps, as an LDX from
register space does. A load from core local memory or of a line that the cache holds gives rd the value f of the bytes it sees. Of a
line that the cache lacks it waits for the line, with the core's own buffered bytes. Any other is answered by its target, once no
buffered store of the core covers its bytes, and waits with that answer; a bus error traps. A domain that is not on is woken, and the load
waits without bytes, unless its word will end in a bus error. The core waits at the word for a request credit. That the value is settled at
the word, and a sleeping word's error too, are the model's choices (log entry 42). -/
def coreLoads (i : Instr) (c : Fin 16) (rd : Fin 32) (srcs : List Nat) (ea n : Nat) (kind : LoadKind) (f : List Byte → Nat) (s : State) :
    Prop :=
  let good : Prop := ea % n = 0 ∧ readable s true ea n = true ∧ ¬ (kind = .sample ∧ regionOf ea = .regs)
  let asks : Prop := coreRequests (s.core.pend.filter (fun l => l.core == c.val) ++ [waitLoad s c ea kind rd []]) ≤ 8
  let reaches : Prop := isCached (regionOf ea) = false ∧ regionOf ea ≠ .localMem
  let free : Prop := (∀ e ∈ wbufOf s c, ∀ p ∈ e.data, p.1 < ea ∨ ea + n ≤ p.1) ∧
    (isRegs ea = true → ∀ e ∈ wbufOf s c, isRegs e.addr = false)
  i.wellFormed = true → coreReady c srcs s = true →
  (ea % n ≠ 0 → traps i c 3 0 false s) ∧
  (ea % n = 0 → ¬ good → traps i c 4 0 false s) ∧
  (∀ b, seenNow s c ea n = some b → good → (isCached (regionOf ea) = false →
      domainOn s (domainAt ea) = true ∧ inRequest s (domainAt ea) = false) →
    ∃ t, exec i s = .next t ∧ wordDoes (.core c) (fun _ => Put.plain rd (f b)) s t) ∧
  (isCached (regionOf ea) = true → lineAt s c ea = none → good → asks → ∃ t, exec i s = .next t ∧
    loadWaits c rd ea kind ((List.range n).filterMap (fun k => (ownByte s c .cache (ea + k)).map (fun b => (ea + k, b)))) s t) ∧
  (reaches → good → free → asks → domainOn s (domainAt ea) = true → ∀ b u, busRead (.core c) ea n s = (.ok b, u) →
    ∃ t, exec i s = .next t ∧ loadWaits c rd ea kind (b.zipIdx.map (fun x => (ea + x.2, x.1))) u t) ∧
  (reaches → good → free → asks → domainOn s (domainAt ea) = true → ∀ u, busRead (.core c) ea n s = (.err, u) →
    ∃ t, exec i s = .next t ∧ trapTaken c 4 0 (getPc s c) false u t) ∧
  (isCached (regionOf ea) = false → good → (reaches → free) → asks → domainOn s (domainAt ea) = false →
    let u := demandWake (.core c) (domainAt ea) s
    (sleepError c ea u = false → ∃ t, exec i s = .next t ∧ loadWaits c rd ea kind [] u t) ∧
    (sleepError c ea u = true → ∃ t, exec i s = .next t ∧ trapTaken c 4 0 (getPc s c) false u t)) ∧
  (good → (isCached (regionOf ea) = true → lineAt s c ea = none) → (regionOf ea = .localMem → domainOn s (domainAt ea) = false) →
    ¬ asks ∨ (reaches ∧ ¬ free) → exec i s = .next s)

/-- A core's store of the n low bytes of v at ea: misaligned it traps; any other enters the write buffer when it has room, merging into the
entry of its line; a store to a register never merges, nor does one that its target denies for its width or as an STX (R102, R121, R307,
R370). While the buffer has no room the core waits. -/
def coreStores (i : Instr) (c : Fin 16) (srcs : List Nat) (ea n v : Nat) (sample : Bool) (s : State) : Prop :=
  let r := regionOf ea
  let k : WKind := if isCached r then .cache else if isWordOnly r = true ∧ (n ≠ 4 ∨ (sample = true ∧ r = .regs)) then .deny else .bus
  let alone : Bool := k == .deny || r == .regs || r == .aonRegs
  let merges (e : WEntry) : Bool := e.core == c.val && e.kind == k && !alone && e.addr == ea / 64 * 64
  let bytes := (bytesLE n v).zipIdx.map (fun p => (ea + p.2, p.1))
  let level := (wbufOf s c).length + (if s.core.wbuf.any merges then 0 else 1)
  i.wellFormed = true → coreReady c srcs s = true →
  (ea % n ≠ 0 → traps i c 3 0 false s) ∧
  (ea % n = 0 → level ≤ 8 → ∃ t, exec i s = .next t ∧ getPc t c = getPc s c + 4 ∧ (∀ k, k ≠ c.val → getPc t k = getPc s k) ∧
    t.core.wbuf = (if s.core.wbuf.any merges then
        s.core.wbuf.map (fun e => if merges e then
          { e with data := e.data.filter (fun p => !(decide (ea ≤ p.1) && decide (p.1 < ea + n))) ++ bytes } else e)
      else s.core.wbuf ++ [⟨c, if alone then ea else ea / 64 * 64, k, bytes⟩]) ∧
    t = { s with core := { s.core with pc := t.core.pc, wbuf := t.core.wbuf } }) ∧
  (ea % n = 0 → 8 < level → exec i s = .next s)

/-- A word of a core that changes its pc, and no register but those of p (R72, R128). -/
def coreJumps (i : Instr) (c : Fin 16) (srcs : List Nat) (pc : Word) (p : HartPut) (s : State) : Prop :=
  i.wellFormed = true → coreReady c srcs s = true → ∃ t, exec i s = .next t ∧ getPc t c = pc ∧
    (∀ k, k ≠ c.val → getPc t k = getPc s k) ∧
    (∀ (h : Nat) (r : Fin 32), readReg t h r = if h = c.val then p.regAfter h r (readReg s h r) else readReg s h r) ∧
    t = { s with hart := { s.hart with r := t.hart.r }, core := { s.core with pc := t.core.pc, pend := t.core.pend } }

/-! Pair words. -/

/-- What a short operation on registers and lane reads does to a hart (R86 to R89, R103 to R116). -/
def shortPut (s : State) (h : Nat) : ShortOp → HartPut
  | .nops => {}
  | .mov rd rs => Put.plain rd (readReg s h rs)
  | .add rd rs rt => Put.sum rd (widthOf h) (readReg s h rs) (readReg s h rt)
  | .sub rd rs rt => Put.diff rd (widthOf h) (readReg s h rs) (readReg s h rt)
  | .and rd rs rt => Put.nz rd (widthOf h) ((readReg s h rs &&& readReg s h rt) % 2 ^ widthOf h)
  | .or rd rs rt => Put.nz rd (widthOf h) ((readReg s h rs ||| readReg s h rt) % 2 ^ widthOf h)
  | .xor rd rs rt => Put.nz rd (widthOf h) ((readReg s h rs ^^^ readReg s h rt) % 2 ^ widthOf h)
  | .shli rd rs imm => Put.shift .shl rd (widthOf h) (readReg s h rs) imm
  | .sari rd rs imm => Put.shift .sar rd (widthOf h) (readReg s h rs) imm
  | .addi5 rd rs imm => Put.sum rd (widthOf h) (readReg s h rs) (toU (widthOf h) (sxN 5 imm.toNat))
  | .cmp rs rt => Put.compare (widthOf h) (readReg s h rs) (readReg s h rt)
  | .macs ad (.regs rs rt) => Put.acc ad (getAcc s h ad + prodOf (readReg s h rs) (readReg s h rt))
  | .macs ad (.ptrs tp ti cp ci) =>
    { Put.acc ad (getAcc s h ad + prodOf (laneRead s h (reach s (peOf h) .delay (getPtr s h tp)))
        (laneRead s h (reach s (peOf h) .palette (getPtr s h cp)))) with
      regs := (if ti then bumped s h tp .inc else []) ++ (if ci then bumped s h cp .inc else []) }
  | .mpys ad rs rt => { acc := some (ad.val, prodOf (readReg s h rs) (readReg s h rt)) }
  | .ldxs rd (.ptr sc p imm) =>
    { regs := [(rd.val, laneRead s h (reach s (peOf h) (if sc then .scratch else .delay) (getPtr s h p))),
               (8 + p.val, toU 14 ((getPtr s h p : Int) + sxN 5 imm.toNat))] }
  | .stxs _ (.ptr _ p imm) => { regs := [(8 + p.val, toU 14 ((getPtr s h p : Int) + sxN 5 imm.toNat))] }
  | .ldxs _ (.base _ _) | .stxs _ (.base _ _) => {}

/-- The registers it reads, and what it reaches in a lane (R86 to R89). -/
def shortSrcs : ShortOp → List Nat
  | .nops => []
  | .mov _ rs | .shli _ rs _ | .sari _ rs _ | .addi5 _ rs _ => [rs.val]
  | .add _ rs rt | .sub _ rs rt | .and _ rs rt | .or _ rs rt | .xor _ rs rt | .cmp rs rt | .mpys _ rs rt => [rs.val, rt.val]
  | .macs _ (.regs rs rt) => [rs.val, rt.val]
  | .ldxs _ (.base rs _) => [rs.val]
  | .stxs rd (.base rs _) => [rs.val, rd.val]
  | .macs _ (.ptrs _ _ _ _) | .ldxs _ (.ptr _ _ _) | .stxs _ (.ptr _ _ _) => []

def shortReaches (s : State) (h : Nat) : ShortOp → List Reach
  | .macs _ (.ptrs tp _ cp _) => [reach s (peOf h) .delay (getPtr s h tp), reach s (peOf h) .palette (getPtr s h cp)]
  | .ldxs _ (.ptr sc p _) => [reach s (peOf h) (if sc then .scratch else .delay) (getPtr s h p)]
  | _ => []

/-- Whether it stores, or makes a core's access. -/
def shortOnRegs : ShortOp → Bool
  | .stxs _ _ | .ldxs _ (.base _ _) => false
  | _ => true

/-- A pair word does a, and then b, to the harts that execute it, both from the state before the word, and nothing else: slot B's
values stand where both write, and a sticky flag set by either ends set (R91). -/
def pairDoes (u : Agent) (a b : Nat → HartPut) (s t : State) : Prop :=
  (∀ (h : Nat) (r : Fin 32), readReg t h r =
    landed u s h r (if h ∈ harts u s then (b h).regAfter h r ((a h).regAfter h r (readReg s h r)) else readReg s h r)) ∧
  (∀ h, getStat t h = if h ∈ harts u s then statWith (statWith (getStat s h) (a h).flg) (b h).flg else getStat s h) ∧
  (∀ (h : Nat) (x : Fin 4), getAcc t h x =
    if h ∈ harts u s then (b h).accAfter x ((a h).accAfter x (getAcc s h x)) else getAcc s h x) ∧
  (∀ h, getDice t h = getDice s h) ∧
  goesOn u s t

/-- A pair of x and y, neither of which stores or makes a core's access, completes in either order of the slots (R70, R83, R91). -/
def pairRuns (i : Slot → Instr) (u : Agent) (x y : ShortOp) (s : State) : Prop :=
  ∀ slot : Slot, shortOnRegs x = true → shortOnRegs y = true → (i slot).wellFormed = true →
    ready u (shortSrcs x ++ shortSrcs y) s = true →
    (∀ pe, u = .eng pe → shortAccesses x + shortAccesses y ≤ 2 ∧
      cleanReach pe (fun h => shortReaches s h x ++ shortReaches s h y) s = true) →
    ∃ t, exec (i slot) s = .next t ∧
      pairDoes u (match slot with | .a => fun h => shortPut s h x | .b => fun h => shortPut s h y)
        (match slot with | .a => fun h => shortPut s h y | .b => fun h => shortPut s h x) s t

/-! Accesses. -/

/-- Whether the boot fence keeps a register, or a field of it, from every initiator but the ROM (R423). -/
def fenced (r : RegName) (i : Nat) : Bool := sealedReg r i || (r == .SYNTH_OUT_n_CFG && decide (i < 4))

/-- The fabric holds no write to address a: neither one now nor one from before (R218). -/
def unheld (a : Nat) (s : State) : Bool := !fabHolds s a && !s.fab.held.any (fun e => e.2.1 == a)

/-- Host master k has no transaction in progress, and the host channel has one of its four credits free (R21, R446). -/
def credit (k : Fin 5) (s : State) : Bool :=
  !s.host.tx.any (fun y => y.m == k.val) && decide (s.host.tx.countP (fun y => y.cred) < 4)

/-- An access of m to domain d asks for no wake: no power request or vote names the domain, and HUB is on or the master's source asleep
(R405, R406). -/
def still (m : Initiator) (d : Nat) (s : State) : Bool :=
  !inRequest s d && (domainOn s 2 || !(accessSource m == 26 && s.bit .PWR_WAKE_EN 0 26))

/-- No write of a DMA channel waits to be made again (R353, R356). -/
def noneAgain (s : State) : Bool := s.dma.failed.all (fun w => w.stage != .again && w.stage != .left)

/-- A write of instance i of register r by m is carried out at once, and nothing with it: the device is out of reset, the boot fence does
not stand before the register, its power domain is on and no wake is asked for, and it is no token write that finds no credit; a host
master is the owner or the register is open to every master, it has no transaction in progress, the host channel has a credit, the device is
not in HALT unless the register is AON_FAULT_CLR, and JTAG is allowed in; another initiator has a credit, and the device is not in HALT
(R10, R21, R333, R367, R368, R406, R423, R438, R446, R451); the fabric holds no write to the register (R218), and no DMA write waits to be made
again. -/
def lands (m : Initiator) (r : RegName) (i : Nat) (s : State) : Bool :=
  let a := Reg.addr r i
  up s && !(fenceClosed s && fenced r i) && decide (i < (Reg.row r).count) && domainOn s (domainAt a) && !tokFull m a s &&
  unheld a s && still m (domainAt a) s && noneAgain s &&
  match m with
  | .host k => jtagOpen k a s && (sysState s != St.HALT || a == Reg.addr .AON_FAULT_CLR 0) && (isOwner s k || anyMaster k a) &&
      credit k s
  | _ => sysState s != St.HALT && !poolFull m s

/-- A write of a word of memory that takes whole words by m is carried out at once: as lands, with no bus error of the boot fence or
of a sealed load (R365, R423, R437). -/
def landsAt (m : Initiator) (a : Nat) (s : State) : Bool :=
  up s && takesWrites a && isWordOnly (regionOf a) && !(regionOf a == .regs || regionOf a == .aonRegs) && decide (a % 4 = 0) &&
  !barred m a 4 s &&
  domainOn s (domainAt a) && unheld a s && still m (domainAt a) s &&
  match m with
  | .host k => jtagOpen k a s && sysState s != St.HALT && isOwner s k && credit k s
  | _ => sysState s != St.HALT && !poolFull m s

/-- The changes that wait for the commit cut once a has joined them: of two writes of one enable the later stands (R58). -/
def queued (a : PendAct) (s : State) : List PendAct :=
  s.dev.pendNew.filter (fun b => a.enable.isNone || b.enable != a.enable) ++ [a]

/-- A command completes, and leaves a state of which p holds. -/
def gives (c : Instr) (s : State) (p : State → Prop) : Prop := ∃ t, exec c s = .next t ∧ p t

/-- Every register but those listed reads as before. -/
def regsKept (l : List (RegName × Nat)) (s t : State) : Prop := ∀ r i, (r, i) ∉ l → t.reg r i = s.reg r i

/-- t is u but for what the access itself keeps: a host master's answer, its HOSTIF_MSTAT, its lease and the master that the host channel
serves next, and the count of quiet decisions of the cluster it reached (R21, R409, R448, R453, R466). -/
def accessed (u t : State) : Prop :=
  t = { u with regs := t.regs, pwr := { u.pwr with quiet := t.pwr.quiet },
               host := { u.host with answer := t.host.answer, rr := t.host.rr, lease := t.host.lease } } ∧
  ∀ r i, r ≠ .HOSTIF_MSTAT_m → t.reg r i = u.reg r i

/-- A command that m makes by a write of register r completes, and leaves u. -/
def does (c : Instr) (m : Initiator) (r : RegName) (i : Nat) (s u : State) : Prop :=
  lands m r i s = true → ∃ t, exec c s = .next t ∧ accessed u t

/-- A command that m makes by a write of register r completes, and leaves a state of which p holds but for what the access keeps. -/
def doesSome (c : Instr) (m : Initiator) (r : RegName) (i : Nat) (s : State) (p : State → Prop) : Prop :=
  lands m r i s = true → ∃ u t, exec c s = .next t ∧ accessed u t ∧ p u

/-- A command that m makes by a write of the memory word at a completes, and leaves u. -/
def doesAt (c : Instr) (m : Initiator) (a : Nat) (s u : State) : Prop :=
  landsAt m a s = true → ∃ t, exec c s = .next t ∧ accessed u t

/-- The fault log has taken one entry, and nothing else of the registers and of the memory words has changed but what l names: the
entry stands at NEXT, NEXT steps on within 64, COUNT saturates with OVF, and FAULT_LOGGED is raised (R43 to R45). -/
def logged (event utype unit : Nat) (detail : Word) (l : List (RegName × Nat)) (s t : State) : Prop :=
  let next := s.f .AON_FAULT_STAT 0 5 0
  let n := s.f .AON_FAULT_STAT 0 31 16
  let a := 0xF0008000 + 16 * next
  (∀ b, getSlot t b =
    if b = a then BitVec.ofNat 32 (0x80000000 + event * 65536 + utype * 4096 + unit)
    else if b = a + 4 then BitVec.ofNat 32 s.time.turn.toNat
    else if b = a + 8 then BitVec.ofNat 32 (s.time.turn.toNat / 2 ^ 32 * 65536 + cycleNow s)
    else if b = a + 12 then detail else getSlot s b) ∧
  t.f .AON_FAULT_STAT 0 5 0 = (next + 1) % 64 ∧ t.f .AON_FAULT_STAT 0 31 16 = min (n + 1) 65535 ∧
  t.bit .AON_FAULT_STAT 0 15 = (s.bit .AON_FAULT_STAT 0 15 || decide (65535 ≤ n + 1)) ∧ t.bit .EVT_RAW_w 0 0 = true ∧
  regsKept ([(.AON_FAULT_STAT, 0), (.EVT_RAW_w, 0)] ++ l) s t

/-- The registers of the DMA channels that R353 leaves undefined, and those a write of 0 to CH_EN changes. -/
def dmaRegs : List (RegName × Nat) :=
  (.DMA_HALTED, 0) :: (List.range 32).flatMap (fun n =>
    [(.DMA_CH_n_CTRL, n), (.DMA_CH_n_STAT, n), (.DMA_CH_n_CUR, n), (.DMA_CH_n_REMAIN, n)])

/-- The device has entered HALT with that cause: the entry of the fault log, PREV, turns stopped, outputs muted, every DMA channel off
(R30, R43, R47, R358). -/
def halted (cause : Nat) (s t : State) : Prop :=
  sysState t = St.HALT ∧ t.f .SYS_STATE 0 19 16 = sysState s ∧ t.f .SYS_STATE 0 15 8 = cause ∧ t.bit .SYS_STATE 0 4 = true ∧
  turnsOn t = false ∧ logged 8 0 0 (BitVec.ofNat 32 cause) ([(.SYS_STATE, 0), (.SYS_PROBE_RESULT, 0)] ++ dmaRegs) s t ∧
  (∀ n : Fin 32, t.f .DMA_CH_n_STAT n 31 29 = 0 ∧ t.bit .DMA_CH_n_CTRL n 0 = false) ∧ t.port.sent = [] ∧ t.link.guarded = [] ∧
  t = { s with regs := t.regs, wmem := t.wmem, upset := t.upset, dev := t.dev, free := t.free,
               port := { s.port with sent := [] }, link := { s.link with guarded := [] }, guard := { s.guard with yPrev := [] },
               dma := { s.dma with jobs := t.dma.jobs, trig := t.dma.trig, failed := t.dma.failed, sent := t.dma.sent } }

end Sys2Proof.Machine
end

