-- ==== Sys2Proof/Certificates/Slice0/Obligations.lean ====
section
/-! DEFINITION. The statements: what the rules of the spec say the block and its commands do. -/

open Sys2Proof Sys2Proof.Machine

/-! Words on registers. In each, x and y are the operands as the hart that executes the word holds them. -/

/-- R103: ADD, SUB, NEG, ADDI, CMP and CMPI. R104 and R105: ADDS, SUBS and ABS. -/
def Obligations.AddAndSubtract : Prop :=
  (∀ (u : Agent) (rd rs rt : Fin 32) (imm : BitVec 15) (s : State),
    let W := widthOf
    let x := fun h => readReg s h rs
    let y := fun h => readReg s h rt
    let k := fun h => toU (W h) (sxN 15 imm.toNat)
    wordRuns (.add u rd rs rt) u [rs, rt] (fun h => Put.sum rd (W h) (x h) (y h)) s ∧
    wordRuns (.addi u rd rs imm) u [rs] (fun h => Put.sum rd (W h) (x h) (k h)) s ∧
    wordRuns (.sub u rd rs rt) u [rs, rt] (fun h => Put.diff rd (W h) (x h) (y h)) s ∧
    wordRuns (.neg u rd rs) u [rs] (fun h => Put.diff rd (W h) 0 (x h)) s ∧
    wordRuns (.cmp u rs rt) u [rs, rt] (fun h => Put.compare (W h) (x h) (y h)) s ∧
    wordRuns (.cmpi u rs imm) u [rs] (fun h => Put.compare (W h) (x h) (k h)) s) ∧
  (∀ (u : Agent) (rd rs rt : Fin 32) (s : State),
    let W := widthOf
    let x := fun h => readReg s h rs
    let y := fun h => readReg s h rt
    wordRuns (.adds u rd rs rt) u [rs, rt]
      (fun h => Put.saturated rd (W h) (sxN (W h) (x h) + sxN (W h) (y h)) (decide (2 ^ W h ≤ x h + y h))) s ∧
    wordRuns (.subs u rd rs rt) u [rs, rt]
      (fun h => Put.saturated rd (W h) (sxN (W h) (x h) - sxN (W h) (y h)) (decide (y h ≤ x h))) s ∧
    wordRuns (.abs u rd rs) u [rs] (fun h => Put.magnitude rd (W h) (x h)) s)



/-- R106 and R107: AND, OR, XOR, ANDN, ANDI, ORI, XORI, MOVI and MOVHI. -/
def Obligations.LogicAndMoves : Prop := ∀ (u : Agent) (rd rs rt : Fin 32) (imm : BitVec 15) (big : BitVec 20) (hi : BitVec 16) (s : State),
  let W := widthOf
  let x := fun h => readReg s h rs
  let y := fun h => readReg s h rt
  wordRuns (.andR u rd rs rt) u [rs, rt] (fun h => Put.nz rd (W h) ((x h &&& y h) % 2 ^ W h)) s ∧
  wordRuns (.orR u rd rs rt) u [rs, rt] (fun h => Put.nz rd (W h) ((x h ||| y h) % 2 ^ W h)) s ∧
  wordRuns (.xorR u rd rs rt) u [rs, rt] (fun h => Put.nz rd (W h) ((x h ^^^ y h) % 2 ^ W h)) s ∧
  wordRuns (.andn u rd rs rt) u [rs, rt] (fun h => Put.nz rd (W h) ((x h &&& (2 ^ W h - 1 - y h % 2 ^ W h)) % 2 ^ W h)) s ∧
  wordRuns (.andi u rd rs imm) u [rs] (fun h => Put.nz rd (W h) ((x h &&& imm.toNat) % 2 ^ W h)) s ∧
  wordRuns (.ori u rd rs imm) u [rs] (fun h => Put.nz rd (W h) ((x h ||| imm.toNat) % 2 ^ W h)) s ∧
  wordRuns (.xori u rd rs imm) u [rs] (fun h => Put.nz rd (W h) ((x h ^^^ imm.toNat) % 2 ^ W h)) s ∧
  wordRuns (.movi u rd big) u [] (fun h => Put.plain rd (toU (W h) (sxN 20 big.toNat))) s ∧
  wordRuns (.movhi u rd hi) u [rd] (fun h => Put.plain rd (readReg s h rd % 2 ^ 16 + hi.toNat * 2 ^ 16)) s

/-- R108: SHL, SHR, SAR, ROR by rt[7:0], and SHI by AMT. -/
def Obligations.Shifts : Prop := ∀ (u : Agent) (kind : ShiftKind) (rd rs rt amt : Fin 32) (s : State),
  let W := widthOf
  let x := fun h => readReg s h rs
  let k := fun h => readReg s h rt % 256
  wordRuns (.shl u rd rs rt) u [rs, rt] (fun h => Put.shift .shl rd (W h) (x h) (k h)) s ∧
  wordRuns (.shr u rd rs rt) u [rs, rt] (fun h => Put.shift .shr rd (W h) (x h) (k h)) s ∧
  wordRuns (.sar u rd rs rt) u [rs, rt] (fun h => Put.shift .sar rd (W h) (x h) (k h)) s ∧
  wordRuns (.ror u rd rs rt) u [rs, rt] (fun h => Put.shift .ror rd (W h) (x h) (k h)) s ∧
  wordRuns (.shi u kind rd rs amt) u [rs] (fun h => Put.shift kind rd (W h) (x h) amt) s

/-- R109 to R111: BFX, BFXS, BFI, CLZ, CLS and PERM. -/
def Obligations.FieldsAndCounts : Prop := ∀ (u : Agent) (rd rs pos wm1 : Fin 32) (sel : BitVec 8) (s : State),
  let W := widthOf
  let x := fun h => readReg s h rs
  wordRuns (.bfx u rd rs pos wm1) u [rs] (fun h => Put.extract false rd (W h) (x h) pos wm1) s ∧
  wordRuns (.bfxs u rd rs pos wm1) u [rs] (fun h => Put.extract true rd (W h) (x h) pos wm1) s ∧
  wordRuns (.bfi u rd rs pos wm1) u [rd, rs] (fun h => Put.insert rd (W h) (readReg s h rd) (x h) pos wm1) s ∧
  wordRuns (.clz u rd rs) u [rs] (fun h => Put.plain rd (runOf false (x h) (W h))) s ∧
  wordRuns (.cls u rd rs) u [rs] (fun h => Put.plain rd (runOf ((x h).testBit (W h - 1)) (x h) (W h - 1))) s ∧
  wordRuns (.perm u rd rs sel) u [rs] (fun h => Put.plain rd (permuted (W h) (x h) sel.toNat)) s

/-- R112 to R114: MUL, DIV and DIVU. -/
def Obligations.MultiplyAndDivide : Prop := ∀ (u : Agent) (rd rs rt rr : Fin 32) (s : State),
  let x := fun h => readReg s h rs
  let y := fun h => readReg s h rt
  wordRuns (.mul u rd rs rt) u [rs, rt] (fun h => Put.product rd (widthOf h) (x h) (y h)) s ∧
  wordRuns (.div u rd rs rt rr) u [rs, rt] (fun h => Put.divided rd rr (x h) (y h)) s ∧
  wordRuns (.divu u rd rs rt rr) u [rs, rt] (fun h => Put.dividedU rd rr (x h) (y h)) s

/-- R116 to R119: MAC, MSU and MPY of registers, ACCLD, SHA and STA. R126: DICE; NOP does nothing (R70). -/
def Obligations.AccumulatorsDiceAndNop : Prop :=
  (∀ (u : Agent) (ad as : Fin 4) (rd rs rt : Fin 32) (sh : Fin 64) (s : State),
    let x := fun h => readReg s h rs
    let y := fun h => readReg s h rt
    wordRuns (.mac u ad (.regs rs rt)) u [rs, rt] (fun h => Put.acc ad (getAcc s h ad + prodOf (x h) (y h))) s ∧
    wordRuns (.msu u ad (.regs rs rt)) u [rs, rt] (fun h => Put.acc ad (getAcc s h ad - prodOf (x h) (y h))) s ∧
    wordRuns (.mpy u ad (.regs rs rt)) u [rs, rt] (fun h => { acc := some (ad.val, prodOf (x h) (y h)) }) s ∧
    wordRuns (.accld u ad rs sh) u [rs] (fun h => Put.acc ad (sxN (widthOf h) (x h) * 2 ^ sh.val)) s ∧
    wordRuns (.sha u ad as false sh) u [] (fun h => Put.acc ad (getAcc s h as * 2 ^ sh.val)) s ∧
    wordRuns (.sha u ad as true sh) u [] (fun h => { acc := some (ad.val, sar (getAcc s h as) sh) }) s ∧
    wordRuns (.sta u rd as sh) u [] (fun h => Put.stored rd (widthOf h) (getAcc s h as) sh) s) ∧
  (∀ (u : Agent) (rd : Fin 32) (s : State),
    wordRuns (.dice u rd false) u [] (fun h => Put.uniform rd (widthOf h) (getDice s h)) s ∧
    wordRuns (.dice u rd true) u [] (fun h => Put.triangular rd (widthOf h) (getDice s h)) s ∧
    wordRuns (.nop u) u [] (fun _ => {}) s)



/-- R115, R116, R79 to R83: MAC, MSU and MPY of an engine in every operand mode. -/
def Obligations.MacMemoryModes : Prop := ∀ (pe : Fin 72) (ad : Fin 4) (x : MacArgs) (s : State),
  let reaches := fun h => macReaches s h x
  let moved := fun h (p : HartPut) => { p with regs := macBumped s h x }
  laneRuns (.mac (.eng pe) ad x) pe reaches (fun h => moved h (Put.acc ad (getAcc s h ad + macProduct s h x))) s ∧
  laneRuns (.msu (.eng pe) ad x) pe reaches (fun h => moved h (Put.acc ad (getAcc s h ad - macProduct s h x))) s ∧
  laneRuns (.mpy (.eng pe) ad x) pe reaches (fun h => moved h { acc := some (ad.val, macProduct s h x) }) s

/-- R125: LDX and STX of an engine. R145: an operand that reaches no word reads as zero, and sets ENG_FAULT.RANGE, whatever the other lanes
reach. That the moved pointer stands where the operand of an LDX moves its destination is the model's choice (log entry 79). The words in
the lanes hold no check-bit errors; EngineControl says what those do. -/
def Obligations.LaneLoadsAndStores : Prop :=
  (∀ (pe : Fin 72) (rd : Fin 32) (op : MemOp) (s : State),
    laneRuns (.ldx (.eng pe) rd (.mem op)) pe (fun h => [opReach s h op])
      (fun h => { regs := (rd.val, laneRead s h (opReach s h op)) :: opBumped s h op }) s ∧
    laneStores (.stx (.eng pe) rd (.mem op)) pe (fun h => opReach s h op) (fun h => readReg s h rd) (fun h => opBumped s h op) s) ∧
  (∀ (pe : Fin 72) (rd : Fin 8) (o : Fin 16384) (s : State),
    let i : Instr := .ldx (.eng pe) (wide rd) (.mem ⟨.palette, .imm o⟩)
    engReady pe s = true → s.f .ENG_LANE_MAP pe 25 16 * 16 ≤ o.val →
    ∃ t, exec i s = .next t ∧ (∀ h ∈ harts (.eng pe) s, readReg t h (wide rd) = landed (.eng pe) s h rd 0) ∧
      (liveLanes s pe ≠ [] → t.bit .ENG_FAULT pe 1 = true) ∧ engGoes pe [] s t ∧ t.wmem = s.wmem ∧ t.mem = s.mem)



/-- R124 and R161: LDW, LDH and LDB of an engine read the cluster shared memory, and deliver 16 words later; the loads of an engine that are
due deliver their results, in order, and the others wait on. That the bytes are those at the word itself is the model's reading (log entry
64). -/
def Obligations.EngineSharedLoads : Prop :=
  (∀ (pe : Fin 72) (rd rs : Fin 32) (imm : BitVec 15) (s : State),
    let runs (i : Instr) (n : Nat) (f : List Byte → Nat) : Prop := i.wellFormed = true → engReady pe s = true →
      ∃ t, exec i s = .next t ∧
        engGoes pe ((liveLanes s pe).map (fun L =>
          let a := sharedAt s (laneHart pe L) rs imm n
          ⟨pe, L, rd, BitVec.ofNat 32 (f ((List.range n).map (fun k => getByte s (a + k)))), (runAt s pe).getD 0 + 16⟩)) s t ∧
        (∀ (h : Nat) (r : Fin 32), readReg t h r = landed (.eng pe) s h r (readReg s h r)) ∧
        t = { fetched pe s with
                hart := { s.hart with r := t.hart.r },
                eng := { (fetched pe s).eng with run := t.eng.run, null := t.eng.null, deliver := t.eng.deliver } }
    runs (.ldw (.eng pe) rd rs imm) 4 (fun b => ofBytesLE b % 2 ^ 24) ∧
    runs (.ldh (.eng pe) rd rs imm) 2 (fun b => toU 24 (sxN 16 (ofBytesLE b))) ∧
    runs (.ldb (.eng pe) rd rs imm) 1 (fun b => toU 24 (sxN 8 (ofBytesLE b)))) ∧
  (∀ (pe : Fin 72) (w : Nat) (s : State), runAt s pe = some w →
    let due (d : Delivery) : Bool := d.pe == pe && decide (d.due < w)
    ∃ t, exec (.engineLoadDelivery pe) s = .next t ∧
      (∀ (h : Nat) (r : Fin 32), readReg t h r =
        match s.eng.deliver.reverse.find? (fun d => due d && laneHart pe d.lane == h && d.rd == r.val && decide (r.val ≤ 11)) with
        | some d => heldIn h r d.value.toNat
        | none => readReg s h r) ∧
      t.eng.deliver = s.eng.deliver.filter (fun d => !due d) ∧
      t = { s with hart := { s.hart with r := t.hart.r }, eng := { s.eng with deliver := t.eng.deliver } })

/-- R124: STW, STH and STB of an engine. That the highest lane's value stands where two lanes store the same byte is the model's choice (log
entry 84). -/
def Obligations.EngineSharedStores : Prop := ∀ (pe : Fin 72) (rd rs : Fin 32) (imm : BitVec 15) (s : State),
  let runs (i : Instr) (n : Nat) (f : Nat → Nat) : Prop := i.wellFormed = true → engReady pe s = true →
    ∃ t, exec i s = .next t ∧ engGoes pe [] s t ∧
      (∀ a, getByte t a =
        match (liveLanes s pe).reverse.find? (fun L =>
          let b := sharedAt s (laneHart pe L) rs imm n
          decide (b ≤ a) && decide (a < b + n)) with
        | some L => (bytesLE n (f (readReg s (laneHart pe L) rd))).getD (a - sharedAt s (laneHart pe L) rs imm n) 0
        | none => getByte s a) ∧
      (∀ (h : Nat) (r : Fin 32), readReg t h r = landed (.eng pe) s h r (readReg s h r)) ∧
      t = { fetched pe s with
              mem := t.mem, hart := { s.hart with r := t.hart.r },
              eng := { (fetched pe s).eng with run := t.eng.run, null := t.eng.null, deliver := t.eng.deliver } }
  runs (.stw (.eng pe) rd rs imm) 4 (fun v => toU 32 (sxN 24 v)) ∧
  runs (.sth (.eng pe) rd rs imm) 2 (fun v => v % 2 ^ 16) ∧
  runs (.stb (.eng pe) rd rs imm) 1 (fun v => v % 2 ^ 8)



/-- R21, R101, R121, R122, R365, R368, R370: LDW, LDH, LDB and LDX of a core. That an uncached load is settled at its word, behind the core's
own stores to its bytes, and that a bus error traps there, are the model's choices (log entry 42). -/
def Obligations.CoreLoads : Prop := ∀ (c : Fin 16) (rd rs : Fin 32) (imm : BitVec 15) (s : State),
  let ea := coreAt s c rs (sxN 15 imm.toNat)
  coreLoads (.ldw (.core c) rd rs imm) c rd [rs.val] ea 4 .word (fun b => ofBytesLE b) s ∧
  coreLoads (.ldh (.core c) rd rs imm) c rd [rs.val] ea 2 .half (fun b => toU 32 (sxN 16 (ofBytesLE b))) s ∧
  coreLoads (.ldb (.core c) rd rs imm) c rd [rs.val] ea 1 .byte (fun b => toU 32 (sxN 8 (ofBytesLE b))) s ∧
  coreLoads (.ldx (.core c) rd (.base rs imm)) c rd [rs.val] ea 4 .sample (fun b => toU 32 (sxN 24 (ofBytesLE b))) s

/-- R102, R121, R122, R370: STW, STH, STB and STX of a core. That a store which merges into an entry of a full buffer does not wait is the
model's choice (log entry 97). -/
def Obligations.CoreStores : Prop := ∀ (c : Fin 16) (rd rs : Fin 32) (imm : BitVec 15) (s : State),
  let ea := coreAt s c rs (sxN 15 imm.toNat)
  let v := readReg s c rd
  coreStores (.stw (.core c) rd rs imm) c [rs.val, rd.val] ea 4 v false s ∧
  coreStores (.sth (.core c) rd rs imm) c [rs.val, rd.val] ea 2 (v % 2 ^ 16) false s ∧
  coreStores (.stb (.core c) rd rs imm) c [rs.val, rd.val] ea 1 (v % 2 ^ 8) false s ∧
  coreStores (.stx (.core c) rd (.base rs imm)) c [rs.val, rd.val] ea 4 (toU 32 (sxN 24 v)) true s

/-- R128 and R72: Bcond, BL and JR of a core, and ROT. -/
def Obligations.Branches : Prop := ∀ (c : Fin 16) (k : Cond) (o : BitVec 21) (far : BitVec 25) (rd rs : Fin 32) (n : Fin 16) (s : State),
  let pc := getPc s c
  let st := getStat s c
  coreJumps (.bcond (.core c) k (.off o)) c []
    (if condHolds k (bitOf st 31) (bitOf st 30) (bitOf st 29) (bitOf st 28) then pc + BitVec.ofInt 32 (4 * sxN 21 o.toNat) else pc + 4) {} s ∧
  coreJumps (.bl (.core c) far) c [] (pc + BitVec.ofInt 32 (4 * sxN 25 far.toNat)) (Put.plain 15 (pc + 4).toNat) s ∧
  coreJumps (.jr (.core c) rd rs) c [rs.val] (BitVec.ofNat 32 (readReg s c rs / 4 * 4)) (Put.plain rd (pc + 4).toNat) s ∧
  (coreReady c [] s = true → ∃ t, exec (.rot (.core c) n) s = .next t ∧ getPc t c = pc + 4 ∧
    (∀ d, getRrb t d = if d = c.val then (getRrb s c + 16 - n.val) % 16 else getRrb s d) ∧ (∀ d, d ≠ c.val → getPc t d = getPc s d) ∧
    t = { s with core := { s.core with pc := t.core.pc, rrb := t.core.rrb } })

/-- R85 and R129: Bcond of an engine opens a nullify window in each lane whose condition holds. -/
def Obligations.NullifyWindows : Prop := ∀ (pe : Fin 72) (k : Cond) (n : Fin 64) (s : State), n.val ≠ 0 → engReady pe s = true →
  let w := (runAt s pe).getD 0
  let goes := decide (w + 1 < progLen s pe (actProg s pe))
  ∃ t, exec (.bcond (.eng pe) k (.ncnt n)) s = .next t ∧
    (∀ L : Fin 4, let h := laneHart pe L
      let st := getStat s h
      nullOf t h = if goes then
        (if nullOf s h ≠ 0 then nullOf s h - 1
         else if condHolds k (bitOf st 31) (bitOf st 30) (bitOf st 29) (bitOf st 28) then n.val else 0) else 0) ∧
    (∀ q, runAt t q = if q = pe.val then (if goes then some (w + 1) else none) else runAt s q) ∧
    (∀ (h : Nat) (r : Fin 32), readReg t h r = landed (.eng pe) s h r (readReg s h r)) ∧
    t = { fetched pe s with
            hart := { s.hart with r := t.hart.r },
            eng := { (fetched pe s).eng with run := t.eng.run, null := t.eng.null, deliver := t.eng.deliver } }

/-- R90, R127 and R135: SYS reads a system register into rd. -/
def Obligations.SysReads : Prop := ∀ (u : Agent) (rd : Fin 32) (s : State),
  let reads (num : BitVec 12) (v : Nat → Nat) : Prop := wordRuns (.sys u rd false num) u [] (fun h => Put.plain rd (v h)) s
  let wide (h : Nat) (x y : Nat) : Nat := if h < 16 then x else y
  reads 0 (fun h => wide h (getStat s h).toNat ((getStat s h).toNat / 2 ^ 28 * 2 ^ 20 + (getStat s h).toNat % 2 ^ 20)) ∧
  reads 2 (fun h => wide h h (logicalOf s (peOf h))) ∧
  reads 3 (fun h => (stamp s).toNat % 2 ^ widthOf h) ∧
  reads 0x10 (fun h => getDice s h) ∧
  (u.isCore = true →
    reads 1 (fun h => getRrb s h) ∧ reads 4 (fun h => (Store.get vbaseReset s.core.vbase h).toNat) ∧
    reads 5 (fun h => (Store.get zeroOf s.core.epc h).toNat) ∧ reads 6 (fun h => (Store.get zeroOf s.core.ecause h).toNat))

/-- R90, R127 and R135: SYS writes the fields of a system register. -/
def Obligations.SysWrites : Prop := ∀ (u : Agent) (c : Fin 16) (rd : Fin 32) (s : State),
  let v := readReg s c rd
  let w : Word := BitVec.ofNat 32 v
  let writes (num : BitVec 12) (f : State → Prop) : Prop := coreReady c [rd.val] s = true →
    ∃ t, exec (.sys (.core c) rd true num) s = .next t ∧ getPc t c = getPc s c + 4 ∧ (∀ d, d ≠ c.val → getPc t d = getPc s d) ∧ f t
  wordRuns (.sys u rd true 0x10) u [rd] (fun h => { dice := some (readReg s h rd) }) s ∧
  ((Instr.sys u rd true 0).wellFormed = true → ready u [rd.val] s = true → ∃ t, exec (.sys u rd true 0) s = .next t ∧
    (∀ h, getStat t h = if h ∈ harts u s then
        (if h < 16 then BitVec.ofNat 32 (readReg s h rd) &&& 0xF000000E
         else BitVec.ofNat 32 (readReg s h rd / 2 ^ 20 % 16 * 2 ^ 28 + readReg s h rd / 2 % 4 * 2))
      else getStat s h) ∧
    t.hart = { s.hart with stat := t.hart.stat } ∧ goesOn u s t) ∧
  writes 1 (fun t => (∀ d, getRrb t d = if d = c.val then v % 16 else getRrb s d) ∧
    t = { s with core := { s.core with pc := t.core.pc, rrb := t.core.rrb } }) ∧
  writes 4 (fun t => (∀ d, Store.get vbaseReset t.core.vbase d = if d = c.val then w &&& 0xFFFFFF00 else Store.get vbaseReset s.core.vbase d) ∧
    t = { s with core := { s.core with pc := t.core.pc, vbase := t.core.vbase } }) ∧
  writes 5 (fun t => (∀ d, Store.get zeroOf t.core.epc d = if d = c.val then w else Store.get zeroOf s.core.epc d) ∧
    t = { s with core := { s.core with pc := t.core.pc, epc := t.core.epc } }) ∧
  writes 6 (fun t => (∀ d, Store.get zeroOf t.core.ecause d = if d = c.val then w &&& 0xFFFF else Store.get zeroOf s.core.ecause d) ∧
    t = { s with core := { s.core with pc := t.core.pc, ecause := t.core.ecause } })

/-- R93, R94, R136: TRAP; an undefined word traps a core, and is a no-operation with ENG_FAULT.ILL for an engine. -/
def Obligations.TrapsAndUndefined : Prop := ∀ (c : Fin 16) (pe : Fin 72) (code : BitVec 8) (w : Word) (s : State),
  (coreReady c [] s = true → ∃ t, exec (.trap (.core c) code) s = .next t ∧ trapTaken c 2 code.toNat (getPc s c) false s t) ∧
  (coreReady c [] s = true → decodeRamtal (.core c) w = none →
    ∃ t, exec (.undefinedWord (.core c) w) s = .next t ∧ trapTaken c 1 0 (getPc s c) false s t) ∧
  (engReady pe s = true → decodeRamtal (.eng pe) w = none → ∃ t, exec (.undefinedWord (.eng pe) w) s = .next t ∧
    (liveLanes s pe = [] ∨ s.bit .ENG_FAULT pe 0 = true → t.regs = (fetched pe s).regs) ∧
    (liveLanes s pe ≠ [] → t.bit .ENG_FAULT pe 0 = true ∧ (s.bit .ENG_FAULT pe 0 = false →
      t.f .ENG_FAULT pe 28 16 = (progBase s pe (actProg s pe) + (runAt s pe).getD 0) % 2 ^ 13 ∧ t.bit .EVT_RAW_w 0 11 = true)) ∧
    engGoes pe [] s t ∧ (∀ (h : Nat) (r : Fin 32), readReg t h r = landed (.eng pe) s h r (readReg s h r)) ∧
    t = { fetched pe s with
            regs := t.regs, hart := { s.hart with r := t.hart.r },
            eng := { (fetched pe s).eng with run := t.eng.run, null := t.eng.null, deliver := t.eng.deliver } })

/-- R305, R458: an interrupt is taken while its condition holds and IE is 1, in a word or in GET, and the item is kept; else nothing happens.
R308 and R309: a recovered parity error is counted; a fault traps and is counted in PFAULT, and in a dirty line discards the line; the
fourth stops the core for its retirement. R322: a budget kill releases the item ABORTED, is counted, and traps whatever IE; below the
budget nothing happens. -/
def Obligations.InterruptsFaultsAndKills : Prop :=
  (∀ (c : Fin 16) (s : State),
    let takes := alive s = true ∧ (coreMode s c = 1 ∨ coreMode s c = 2) ∧ c.val ∉ s.core.stopped ∧ s.bit .SCHED_CORE_n_CTRL c 2 = true ∧
      ∃ w : Fin 4, s.reg .EVT_RAW_w w &&& s.reg .EVT_CORE_n_EN_w (4 * c + w) ≠ 0
    (takes → ∃ t, exec (.interrupt c) s = .next t ∧ trapTaken c 8 0 (getPc s c) true s t) ∧
    (¬ takes → exec (.interrupt c) s = .next s)) ∧
  (∀ (c : Fin 16) (line : Option Word) (s : State),
    let n := s.f .SCHED_CORE_n_STAT c 26 24
    let counted := s.f .SCHED_PAR_CORR 0 23 0
    let s' : State := match line with
      | some a => (match lineAt s c a.toNat with
        | some l => if l.dirty then
            { s with core := { s.core with dcache := s.core.dcache.filter (fun x => !(x.core == c.val && x.addr == a.toNat / 64 * 64)) } } else s
        | none => s)
      | none => s
    let live := alive s = true ∧ coreMode s c ≠ 4 ∧ c.val ∉ s.core.stopped
    let held := line.bind (fun a => lineAt s c a.toNat)
    (live → held = none → ∃ t, exec (.parityFault c true line) s = .next t ∧
      t.f .SCHED_PAR_CORR 0 23 0 = min (counted + 1) (2 ^ 24 - 1) ∧ t = { s with regs := t.regs } ∧
      (∀ r i, r ≠ .SCHED_PAR_CORR → t.reg r i = s.reg r i)) ∧
    (∀ l, live → held = some l → l.dirty = false → domainOn s (domainAt l.addr) = true → (setLines s c l.addr).length ≤ 4 →
      ∃ t, exec (.parityFault c true line) s = .next t ∧
        t.f .SCHED_PAR_CORR 0 23 0 = min (counted + 1) (2 ^ 24 - 1) ∧ (∀ r i, r ≠ .SCHED_PAR_CORR → t.reg r i = s.reg r i) ∧
        t.core.dcache = s.core.dcache.filter (fun x => !(x.core == c.val && x.addr == l.addr)) ++
          [(⟨c.val, l.addr, (List.range 64).map (fun k => byteSeen s c (l.addr + k)), false⟩ : Line)] ∧
        t = { s with regs := t.regs, core := { s.core with dcache := t.core.dcache }, pwr := { s.pwr with quiet := t.pwr.quiet } }) ∧
    (∀ l, held = some l → l.dirty = true → exec (.parityFault c true line) s = .next s) ∧
    (alive s = true → (coreMode s c = 1 ∨ coreMode s c = 2) → c.val ∉ s.core.stopped → n < 3 →
      ∃ t, exec (.parityFault c false line) s = .next t ∧ trapTaken c 7 0 (getPc s c) false s' t ∧
        t.f .SCHED_CORE_n_STAT c 26 24 = n + 1 ∧ (s'.core.dcache ≠ s.core.dcache → t.bit .SCHED_CORE_n_STAT c 23 = true)) ∧
    (alive s = true → (coreMode s c = 1 ∨ coreMode s c = 2) → c.val ∉ s.core.stopped → n = 3 → turnsOn s = true →
      ∃ t, exec (.parityFault c false line) s = .next t ∧ c.val ∈ t.core.stopped ∧ heldBy t c = none ∧
        t.f .SCHED_CORE_n_STAT c 26 24 = 4 ∧ t.dev.pendNew = s.dev.pendNew ++ [.retireCore c] ∧ getPc t c = getPc s c ∧ t.hart = s.hart ∧
        (∀ e ∈ t.sched.lastCore, e.2 ≠ c.val + 1))) ∧
  (∀ (c : Fin 16) (s : State),
    (heldBy s c = none → exec (.budgetKill c) s = .next s) ∧
    ∀ h, heldBy s c = some h →
      (s.time.hub - h.start < s.f .SCHED_CLASS_BUDGET_c h.item.own 23 0 → exec (.budgetKill c) s = .next s) ∧
      (alive s = false → exec (.budgetKill c) s = .next s) ∧
      (alive s = true → s.f .SCHED_CLASS_BUDGET_c h.item.own 23 0 ≤ s.time.hub - h.start → ∃ t, exec (.budgetKill c) s = .next t ∧
        vectored c 6 0 (getPc s c) s t ∧ releasedAs c .aborted s t ∧ t.hart = s.hart ∧
        t.f .SCHED_KILL_CNT 0 23 0 = min (s.f .SCHED_KILL_CNT 0 23 0 + 1) (2 ^ 24 - 1) ∧
        (s.f .SCHED_KILL_CNT 0 23 0 = 0 → t.bit .EVT_RAW_w 1 26 = true)))





/-- R130 to R132: GET, DONE and PUSHT. -/
def Obligations.SchedulerWords : Prop := ∀ (c : Fin 16) (pe : Fin 72) (rs rt : Fin 32) (s : State),
  let tok (h : Nat) : Tok := ⟨readReg s h rt / 4 % 4096, readReg s h rt % 4,
    BitVec.ofNat 32 (if h < 16 then readReg s h rs else toU 32 (sxN 24 (readReg s h rs)))⟩
  (coreReady c [] s = true → ∃ t, exec (.get (.core c)) s = .next t ∧ coreMode t c = 2 ∧ releasedAs c .finished s t ∧
    (∀ k, getPc t k = getPc s k) ∧ t.hart = s.hart ∧ t.core = { s.core with pc := t.core.pc } ∧
    (heldBy s c = none → t = { s with regs := t.regs, core := t.core } ∧
      ∀ r i, ¬ (r = .SCHED_CORE_n_STAT ∧ i = c.val) → t.reg r i = s.reg r i)) ∧
  (coreReady c [] s = true → ∃ t, exec (.doneItem (.core c)) s = .next t ∧ releasedAs c .finished s t ∧
    (∀ k, getPc t k = if k = c.val then getPc s c + 4 else getPc s k) ∧ t.hart = s.hart ∧ t.core = { s.core with pc := t.core.pc } ∧
    (heldBy s c = none → t = { s with core := t.core })) ∧
  (coreReady c [rs.val, rt.val] s = true → (s.sched.coreQ.filter (fun t => t.1 == c.val)).length < 8 →
    ∃ t, exec (.pusht (.core c) rs rt) s = .next t ∧ (∀ k, getPc t k = if k = c.val then getPc s c + 4 else getPc s k) ∧
      t = { s with core := { s.core with pc := t.core.pc }, sched := { s.sched with coreQ := s.sched.coreQ ++ [(c.val, tok c)] } }) ∧
  (8 ≤ (s.sched.coreQ.filter (fun t => t.1 == c.val)).length → exec (.pusht (.core c) rs rt) s = .next s) ∧
  ((Instr.pusht (.eng pe) rs rt).wellFormed = true → engReady pe s = true →
    let cl := pe.val / 9
    let level := (s.eng.tokq.filter (fun t => t.cl == cl)).length
    let new := (liveLanes s pe).map (fun L => (⟨cl, tok (laneHart pe L)⟩ : EngTok))
    ∃ t, exec (.pusht (.eng pe) rs rt) s = .next t ∧ t.eng.tokq = s.eng.tokq ++ new.take (32 - level) ∧
      t.f .ENG_TOKDROP pe 23 0 = min (s.f .ENG_TOKDROP pe 23 0 + (new.length - (32 - level))) (2 ^ 24 - 1) ∧
      engGoes pe [] s t ∧ (∀ (h : Nat) (r : Fin 32), readReg t h r = landed (.eng pe) s h r (readReg s h r)) ∧
      t.hart = { s.hart with r := t.hart.r } ∧ t.wmem = s.wmem)

/-- R133, R134: FENCE, its completion, CLEAN and INVAL. That CLEAN and INVAL wait while the buffer holds a store to a line of the range is the
model's choice (log entry 96). -/
def Obligations.FencesAndCaches : Prop := ∀ (c : Fin 16) (u : Agent) (rs rt : Fin 32) (s : State),
  let a := readReg s c rs
  let e := min (a + readReg s c rt) (2 ^ 32)
  let inRange (l : Line) : Bool := l.core == c && decide (l.addr < e) && decide (a < l.addr + 64) && decide (a < e)
  let todo := s.core.dcache.filter (fun l => inRange l && l.dirty)
  let waits := 8 ≤ (wbufOf s c).length ∨ ∃ x ∈ wbufOf s c, x.kind = .cache ∧ x.addr < e ∧ a < x.addr + 64 ∧ a < e
  let stays (t : State) : Prop := (∀ k, getPc t k = getPc s k) ∧ t = { s with core := { s.core with pc := t.core.pc } }
  let goes (t : State) : Prop := ∀ k, getPc t k = if k = c.val then getPc s c + 4 else getPc s k
  (coreReady c [] s = true → ∃ t, exec (.fence (.core c)) s = .next t ∧ goes t ∧
    t = { s with core := { s.core with pc := t.core.pc, fence := s.core.fence ++ [c.val] } }) ∧
  (u.isCore = false → wordRuns (.fence u) u [] (fun _ => {}) s) ∧
  (wbufOf s c = [] → ∃ t, exec (.fenceComplete c) s = .next t ∧
    t = { s with core := { s.core with fence := s.core.fence.filter (fun k => k != c.val) } }) ∧
  (wbufOf s c ≠ [] → exec (.fenceComplete c) s = .next s) ∧
  (coreReady c [rs.val, rt.val] s = true → waits →
    (∃ t, exec (.clean (.core c) rs rt) s = .next t ∧ stays t) ∧ ∃ t, exec (.inval (.core c) rs rt) s = .next t ∧ stays t) ∧
  (coreReady c [rs.val, rt.val] s = true → ¬ waits → (wbufOf s c).length + todo.length ≤ 8 →
    ∃ t, exec (.clean (.core c) rs rt) s = .next t ∧ goes t ∧
      t.core.dcache = s.core.dcache.map (fun l => if inRange l then { l with dirty := false } else l) ∧
      t.core.wbuf = (todo.foldl (fun u l => wbufPut c l.addr .bus l.data u) s).core.wbuf ∧
      t = { s with core := { s.core with pc := t.core.pc, dcache := t.core.dcache, wbuf := t.core.wbuf } }) ∧
  (coreReady c [rs.val, rt.val] s = true → ¬ waits → ∃ t, exec (.inval (.core c) rs rt) s = .next t ∧ goes t ∧
    t = { s with core := { s.core with pc := t.core.pc, dcache := s.core.dcache.filter (fun l => !inRange l) } })

/-- R101, R303, R368, R372: lines arrive and leave, and loads that waited are answered. In each the command completes. Which four lines form a
set, that a load which misses waits for its line, and that any line of a full set may be displaced are the model's choices (log entries
77, 65, 93), and so is the value of an uncached load being settled at its word, or, where its domain slept there, at its response (log
entry 42). -/
def Obligations.CacheTraffic : Prop := ∀ (c : Fin 16) (a : Word) (s : State),
  let k := a.toNat / 64 * 64
  let waits (l : PendLoad) : Bool := l.core == c.val && isCached (regionOf l.addr) && l.addr / 64 == a.toNat / 64
  let fresh : Line := ⟨c, k, (List.range 64).map (fun j => byteSeen s c (k + j)), false⟩
  let set := s.core.dcache.filter (fun l => l.core == c.val && l.addr / 64 % 128 == a.toNat / 64 % 128)
  let took (line : Line) (t : State) : Prop := t.core.pend = s.core.pend.filter (fun l => !waits l) ∧
    ∀ n : Fin 64, getPhys t c n = match (s.core.pend.filter (fun l => waits l && l.live && l.dst == n.val)).getLast? with
      | some l => BitVec.ofNat 32 (loadValue l.kind (overBytes l.addr l.data ((line.data.drop (l.addr - line.addr)).take (loadSize l.kind))))
      | none => getPhys s c n
  (s.core.pend.any waits = false → exec (.lineFill c a) s = .next s) ∧
  (∀ line, s.core.pend.any waits = true → lineAt s c a.toNat = some line → ∃ t, exec (.lineFill c a) s = .next t ∧ took line t ∧
    t = { s with hart := { s.hart with r := t.hart.r }, core := { s.core with pend := t.core.pend } }) ∧
  (s.core.pend.any waits = true → lineAt s c a.toNat = none → domainOn s (domainAt a.toNat) = false →
    exec (.lineFill c a) s = .next (demandWake (.core c) (domainAt a.toNat) s)) ∧
  (s.core.pend.any waits = true → lineAt s c a.toNat = none → domainOn s (domainAt a.toNat) = true → set.length < 4 →
    ∃ t, exec (.lineFill c a) s = .next t ∧ took fresh t ∧ t.core.dcache = s.core.dcache ++ [fresh] ∧
      t = { s with hart := { s.hart with r := t.hart.r }, core := { s.core with pend := t.core.pend, dcache := t.core.dcache },
                   pwr := { s.pwr with quiet := t.pwr.quiet } }) ∧
  (s.core.pend.any waits = true → lineAt s c a.toNat = none → domainOn s (domainAt a.toNat) = true → 4 ≤ set.length →
    (∀ v ∈ set, v.addr % 64 = 0) →
    ((∀ v ∈ set, v.dirty = true → wbufRoom s c v.addr .bus = true) → ∃ (t : State) (l : Line), exec (.lineFill c a) s = .next t ∧
      t.core.pend = s.core.pend.filter (fun l => !waits l) ∧ l.core = c.val ∧ l.addr = k ∧ l.dirty = false ∧
      ∃ v ∈ set, t.core.dcache = s.core.dcache.filter (fun x => !(x.core == c.val && x.addr == v.addr)) ++ [l]) ∧
    ((∀ v ∈ set, v.dirty = true ∧ wbufRoom s c v.addr .bus = false) → exec (.lineFill c a) s = .next s)) ∧
  (∀ l, lineAt s c a.toNat = some l → l.dirty = true → wbufRoom s c l.addr .bus = true →
    ∃ t, exec (.lineEviction c a) s = .next t ∧ lineAt t c l.addr = none ∧
      t.core.dcache = s.core.dcache.filter (fun x => !(x.core == c.val && x.addr == l.addr)) ∧
      t.core.wbuf = (wbufPut c l.addr .bus l.data s).core.wbuf ∧
      t = { s with core := { s.core with wbuf := t.core.wbuf, dcache := t.core.dcache } }) ∧
  ((∀ l, lineAt s c a.toNat = some l → l.dirty = false ∨ wbufRoom s c l.addr .bus = false) → exec (.lineEviction c a) s = .next s) ∧
  (∀ l rest, up s = true → domainOn s (domCore c) = true →
    takeFirst (fun l : PendLoad => l.core == c.val && !isCached (regionOf l.addr)) s.core.pend = some (l, rest) →
    l.data.map (fun p => p.1) = (List.range (loadSize l.kind)).map (fun j => l.addr + j) →
    ∃ t, exec (.uncachedLoadResponse c) s = .next t ∧
      (∀ n : Fin 64, getPhys t c n = if l.live = true ∧ n.val = l.dst then
        BitVec.ofNat 32 (loadValue l.kind (l.data.map (fun p => p.2))) else getPhys s c n) ∧
      t = { s with hart := { s.hart with r := t.hart.r }, core := { s.core with pend := rest } }) ∧
  (∀ l rest, up s = true → domainOn s (domCore c) = true →
    takeFirst (fun l : PendLoad => l.core == c.val && !isCached (regionOf l.addr)) s.core.pend = some (l, rest) → l.data = [] →
    let answered (v : BitVec 32 → Prop) (u : State) : Prop := ∃ t w, exec (.uncachedLoadResponse c) s = .next t ∧ v w ∧
      (∀ n : Fin 64, getPhys t c n = if l.live = true ∧ n.val = l.dst then w else getPhys u c n) ∧
      t = { u with hart := { u.hart with r := t.hart.r }, core := { u.core with pend := rest }, free := t.free }
    (∀ b u, busRead (.core c) l.addr (loadSize l.kind) s = (.ok b, u) → answered (fun w => w = BitVec.ofNat 32 (loadValue l.kind b)) u) ∧
    (∀ u, busRead (.core c) l.addr (loadSize l.kind) s = (.err, u) → answered (fun _ => True) u) ∧
    (∀ u, busRead (.core c) l.addr (loadSize l.kind) s = (.wait, u) → exec (.uncachedLoadResponse c) s = .next u)) ∧
  ((∀ l ∈ s.core.pend, l.core = c.val → isCached (regionOf l.addr) = true) → exec (.uncachedLoadResponse c) s = .next s)

/-- R102, R303, R307, R365: the oldest entry of a core's write buffer reaches its target: memory, a line of the cache, or a word of a memory
or register that takes whole words; a bus error is recorded in WERR, and the core goes on. An entry waits behind an older load of its
bytes that its domain has not answered (R99, R370). That WERR holds the entry's first byte, that a cached store's line is brought in
first, and which lines form a set are the model's choices (log entries 43, 65, 77). -/
def Obligations.WriteBuffer : Prop := ∀ (c : Fin 16) (e : WEntry) (rest : List WEntry) (s : State), up s = true → domainOn s (domCore c) = true →
  takeFirst (fun e : WEntry => e.core == c.val) s.core.wbuf = some (e, rest) → e.data ≠ [] →
  let a := (e.data.head?.map (fun p => p.1)).getD 0
  let k := lineOf e.addr
  let waits (l : PendLoad) : Bool := l.core == c.val && isCached (regionOf l.addr) && lineOf l.addr == k
  let line := (lineAt s c e.addr).getD ⟨c, k, (List.range 64).map (fun j => byteSeen s c (k + j)), false⟩
  let failed (i : Instr) : Prop := ∃ t, exec i s = .next t ∧ t.bit .SCHED_CORE_n_STAT c 22 = true ∧
    (s.bit .SCHED_CORE_n_STAT c 22 = false → t.reg .SCHED_CORE_n_WERR c = BitVec.ofNat 32 a ∧ t.bit .EVT_RAW_w 2 0 = true) ∧
    (s.bit .SCHED_CORE_n_STAT c 22 = true → t.regs = s.regs) ∧
    t = { s with regs := t.regs, core := { s.core with wbuf := rest } }
  (e.kind = .bus → isByteMem (regionOf e.addr) = true → isByteMem (regionOf a) = true → barred (.core c) a e.data.length s = false →
    behindLoad s c e = false → inDma e.data = false → domainOn s (domainAt a) = true → inRequest s (domainAt a) = false → ∃ t, exec (.writeBufferDrain c) s = .next t ∧
      (∀ x, getByte t x = match e.data.reverse.find? (fun p => primary p.1 == x) with | some p => p.2 | none => getByte s x) ∧
      t = { s with mem := t.mem, core := { s.core with wbuf := rest }, pwr := { s.pwr with quiet := t.pwr.quiet } }) ∧
  (∀ v u, e.kind = .bus → e.data = wordBytes a v → isWordOnly (regionOf e.addr) = true → behindLoad s c e = false → busWriteWord (.core c) a v s = (.ok [], u) →
    exec (.writeBufferDrain c) s = .next { u with core := { u.core with wbuf := rest } }) ∧
  (e.kind = .cache → (∀ p ∈ e.data, lineOf p.1 = k) → line.data.length = 64 →
    (lineAt s c e.addr = none → domainOn s (domainAt e.addr) = true ∧ (setLines s c e.addr).length < 4) →
    ∃ t l, exec (.writeBufferDrain c) s = .next t ∧ lineAt t c e.addr = some l ∧ l.dirty = true ∧
      (∀ j : Fin 64, l.data.getD j 0 =
        match e.data.reverse.find? (fun p => p.1 == k + j.val) with | some p => p.2 | none => line.data.getD j 0) ∧
      (∀ d x, d ≠ c.val ∨ lineOf x ≠ k → lineAt t d x = lineAt s d x) ∧
      t.core.wbuf = rest ∧ t.core.pend = s.core.pend.filter (fun l => !waits l) ∧ (s.core.pend.any waits = false → t.hart = s.hart) ∧
      t = { s with hart := { s.hart with r := t.hart.r },
                   core := { s.core with dcache := t.core.dcache, wbuf := t.core.wbuf, pend := t.core.pend },
                   pwr := { s.pwr with quiet := t.pwr.quiet } }) ∧
  (e.kind = .cache → lineAt s c e.addr = none → domainOn s (domainAt e.addr) = false →
    exec (.writeBufferDrain c) s = .next (demandWake (.core c) (domainAt e.addr) s)) ∧
  (e.kind = .deny ∨ (e.kind = .bus ∧ e.accesses = [e.data] ∧ takesWrites a = false ∧ behindLoad s c e = false ∧ inDma e.data = false) →
    failed (.storeBusError c) ∧ failed (.writeBufferDrain c)) ∧
  (e.kind = .bus → behindLoad s c e = true → exec (.writeBufferDrain c) s = .next s ∧ exec (.storeBusError c) s = .next s)

/-- R86 to R91: a pair word of operations on registers and lane reads. That the flags of the two slots merge flag by flag, slot B's over slot
A's, is the model's reading (log entry 20). -/
def Obligations.PairWords : Prop := ∀ (u : Agent) (rd rs rt : Fin 8) (n : Fin 32) (imm : BitVec 5) (ad : Fin 4) (m : MacsArgs) (sc : Bool) (p : Fin 4)
    (o : ShortOp) (s : State),
  pairRuns (fun z => .nops u z o) u .nops o s ∧
  pairRuns (fun z => .mov u z rd rs o) u (.mov rd rs) o s ∧
  pairRuns (fun z => .shortAdd u z rd rs rt o) u (.add rd rs rt) o s ∧
  pairRuns (fun z => .shortSub u z rd rs rt o) u (.sub rd rs rt) o s ∧
  pairRuns (fun z => .shortAnd u z rd rs rt o) u (.and rd rs rt) o s ∧
  pairRuns (fun z => .shortOr u z rd rs rt o) u (.or rd rs rt) o s ∧
  pairRuns (fun z => .shortXor u z rd rs rt o) u (.xor rd rs rt) o s ∧
  pairRuns (fun z => .shli u z rd rs n o) u (.shli rd rs n) o s ∧
  pairRuns (fun z => .sari u z rd rs n o) u (.sari rd rs n) o s ∧
  pairRuns (fun z => .addi5 u z rd rs imm o) u (.addi5 rd rs imm) o s ∧
  pairRuns (fun z => .shortCmp u z rs rt o) u (.cmp rs rt) o s ∧
  pairRuns (fun z => .macs u z ad m o) u (.macs ad m) o s ∧
  pairRuns (fun z => .mpys u z ad rs rt o) u (.mpys ad rs rt) o s ∧
  pairRuns (fun z => .ldxs u z rd (.ptr sc p imm) o) u (.ldxs rd (.ptr sc p imm)) o s

/-- R87, R88: LDXS and STXS, with no operation in the other slot. R91: a load beside a store reads the memory before the word. That a core's
loads are looked up before its stores, and settled at the word, is the model's reading (log entries 20, 42). -/
def Obligations.ShortLoadsAndStores : Prop := ∀ (c : Fin 16) (pe : Fin 72) (z : Slot) (rd rs ra rb : Fin 8) (off far : Fin 32) (sc : Bool)
    (p : Fin 4) (imm : BitVec 5) (s : State),
  let ea := coreAt s c rs (4 * off.val)
  let eb := coreAt s c rb (4 * far.val)
  coreLoads (.ldxs (.core c) z rd (.base rs off) .nops) c (wide rd) [rs.val] ea 4 .sample (fun b => toU 32 (sxN 24 (ofBytesLE b))) s ∧
  coreStores (.stxs (.core c) z rd (.base rs off) .nops) c [rs.val, rd.val] ea 4 (toU 32 (sxN 24 (readReg s c rd))) true s ∧
  (∀ b, coreReady c [rs.val, ra.val, rb.val] s = true → ea % 4 = 0 → eb % 4 = 0 → seenNow s c eb 4 = some b →
    (isCached (regionOf eb) = false → domainOn s (domainAt eb) = true) → (wbufOf s c).length < 8 →
    ∃ t, exec (.stxs (.core c) z ra (.base rs off) (.ldxs rd (.base rb far))) s = .next t ∧
      wordDoes (.core c) (fun _ => Put.plain (wide rd) (toU 32 (sxN 24 (ofBytesLE b)))) s
        { t with core := { t.core with wbuf := s.core.wbuf } } ∧
      ∃ x ∈ t.core.wbuf, x.core = c.val ∧ ∀ j : Fin 4, x.data.find? (fun q => q.1 == ea + j.val) =
        some (ea + j.val, (bytesLE 4 (toU 32 (sxN 24 (readReg s c ra)))).getD j 0)) ∧
  laneStores (.stxs (.eng pe) z rd (.ptr sc p imm) .nops) pe
    (fun h => reach s (peOf h) (if sc then .scratch else .delay) (getPtr s h p)) (fun h => readReg s h rd)
    (fun h => [(8 + p.val, toU 14 ((getPtr s h p : Int) + sxN 5 imm.toNat))]) s

/-! Requests for the operating state, and the grid of a turn. -/

/-- R28 to R37, R50, R61, R287, R482, R483: what each request of SYS_STATE_REQ does; any other sets SYS_STATE.REQ_REFUSED, and so does one
that an event of higher rank in the same HUBCLK cycle beats; the host hold is HOLD_CAUSE.REQ, and DISARM stands beside a hold cause. That
of two events of one cycle the one commanded first can beat a later one only is the model's choice (log entry 15). RUN stands from
acceptance (log entry 21); the place a follower's grid takes is the model's choice (log entry 89). -/
def Obligations.StateRequests : Prop := ∀ (m : Initiator) (key : BitVec 16) (s : State),
  let refused := s.setBit .SYS_STATE 0 6 true
  let row (i : Instr) (u : State) : Prop := does i m .SYS_STATE_REQ 0 s u
  let wait (a : PendAct) : State := { s with dev := { s.dev with pendNew := s.dev.pendNew ++ [a] } }
  let link := s.synth.use.refSel - 8
  let follows : Prop := 8 ≤ s.synth.use.refSel ∧ linkState s link = Lk.UP
  let woken : List RegName := [.SYS_STATE, .FABRIC_SIL_STAT_w, .FABRIC_QUIET_STAT, .EVT_RAW_w, .PWR_STATE_w, .PWR_LAST_WAKE,
    .PWR_LAST_WAKE_TURN]
  let waiting (l : List PendAct) : List PendAct := l.filter (fun a => a != .disarm && a != .testExit)
  let armed (t : State) : State := setMuted true (setTurns false (enterEff St.ARMED
    { t with dev := { t.dev with starting := false, pendNew := waiting t.dev.pendNew, pendCut := waiting t.dev.pendCut } }))
  let startable := synLock s = true ∧ holdCause s = 0 ∧ overBudget s = false ∧
    ∀ q ∈ s.safe.reqs, ∀ x ∈ reqMembers s q, memberBusy s x = false
  let emptied (i : Instr) (u : State) : Prop := doesSome i m .SYS_STATE_REQ 0 s (fun t =>
    t.reg .SYS_STATE 0 = u.reg .SYS_STATE 0 ∧ (∀ w : Fin 512, t.reg .FABRIC_SIL_STAT_w w = 0) ∧ t.f .FABRIC_QUIET_STAT 0 7 0 = 0 ∧
    (∀ c : Fin 8, Store.get natZero t.fab.quietCnt c = 0) ∧ (∀ r i, r ∉ woken → t.reg r i = s.reg r i) ∧
    ((∃ c : Fin 8, quiescent s c = true) → t.bit .EVT_RAW_w 0 25 = true) ∧
    ((∀ w : Fin 512, s.reg .FABRIC_SIL_STAT_w w = 0) → s.f .FABRIC_QUIET_STAT 0 7 0 = 0 →
      t.pwr = s.pwr ∧ ∀ r i, r ≠ .SYS_STATE → t.reg r i = s.reg r i) ∧
    (¬ follows → t.time = s.time ∧ t.eng.mig = s.eng.mig ∧ t.link.arrived = s.link.arrived) ∧
    (follows → t.time = { s.time with clk :=
      (64 + s.f .LINK_DELAY link 9 0 + (gridTime s - Store.get natZero s.link.arrived link)) % turnLen s }) ∧
    t = { s with regs := t.regs, time := t.time, pwr := { s.pwr with wake := t.pwr.wake, latch := t.pwr.latch, wokeAt := t.pwr.wokeAt, firedAt := t.pwr.firedAt, fired := t.pwr.fired },
                 dev := { s.dev with starting := true, late := [] },
                 eng := { s.eng with inF := [], inE := [], outE := [], outF := [], run := [], deliver := [], mig := t.eng.mig },
                 sect := { s.sect with chainIn := [], chainRun := [], chainOut := [] },
                 fab := { s.fab with busA := [], busB := [], linkIn := [], portOut := [], linkOut := [], detCnt := [], loud := [],
                                     quietCnt := t.fab.quietCnt },
                 link := { s.link with rx := [], phys := [], fwd := [], due := [], stage := [], guarded := [], arrived := t.link.arrived },
                 port := { s.port with stage := [], sent := [] } })
  let holds := effState s = St.ARMED ∨ effState s = St.RUN ∨ effState s = St.HOLD ∨ inTest s = true
  let held : State := if s.bit .SYS_STATE 0 20 then s.setBit .SYS_STATE 0 20 true
    else { s.setBit .SYS_STATE 0 20 true with dev := { s.dev with won := some (s.time.hub, 4) } }
  (key ≠ 0x6400 → ∀ i ∈ [Instr.start m key, .disarm m key, .holdSet m key, .holdClear m key, .testEnter m key, .testExit m key,
    .halt m key], row i refused) ∧
  (key = 0x6400 → ∀ rank, s.dev.won = some (s.time.hub, rank) →
    (rank < 6 → ∀ i ∈ [Instr.start m key, .holdClear m key, .testEnter m key, .testExit m key], row i refused) ∧
    (rank < 6 → rank ≠ 4 → row (.disarm m key) refused) ∧ (rank < 4 → row (.holdSet m key) refused) ∧ (rank < 3 → row (.halt m key) refused)) ∧
  (key = 0x6400 → (∀ h rank, s.dev.won = some (h, rank) → h ≠ s.time.hub ∨ rank = 4) →
    (effState s = St.RUN → turnsOn s = true → row (.disarm m key) (wait .disarm)) ∧
    ((effState s = St.RUN ∧ turnsOn s = false) ∨ effState s = St.HOLD → row (.disarm m key) (armed s)) ∧
    (effState s ≠ St.RUN → effState s ≠ St.HOLD → row (.disarm m key) refused)) ∧
  (key = 0x6400 → (∀ h rank, s.dev.won = some (h, rank) → h ≠ s.time.hub) →
    (effState s = St.ARMED → startable → emptied (.start m key) (enterEff St.RUN s)) ∧
    (¬ (effState s = St.ARMED ∧ startable) → row (.start m key) refused) ∧
    (holds → row (.holdSet m key) held ∧ row (.holdClear m key) (s.setBit .SYS_STATE 0 20 false)) ∧
    (¬ holds → row (.holdSet m key) refused ∧ row (.holdClear m key) refused) ∧
    (sysState s = St.ARMED → startable → emptied (.testEnter m key) (enter St.TEST s)) ∧
    (¬ (sysState s = St.ARMED ∧ startable) → row (.testEnter m key) refused) ∧
    (inTest s = true → turnsOn s = true → row (.testExit m key) (wait .testExit)) ∧
    (inTest s = true → turnsOn s = false → row (.testExit m key) (armed (abandonProbe s))) ∧
    (inTest s = false → row (.testExit m key) refused) ∧
    doesSome (.halt m key) m .SYS_STATE_REQ 0 s (fun t => if sysState s = St.HALT then t = refused else halted 1 s t))

/-- R30, R35, R36, R48, R51, R56, R59, R61, R180, R184, R206, R269, R383: a boundary of the grid starts, resumes, runs on or freezes turns;
while turns run on, the fabric members of the commits that the cut decided flip there, the others are due at their clk of the turn, and
the record is due. A DISARM that came too late for the cut before a freeze acts at the next one. That a boundary moves HUBCLK on is the
model's convention (log entry 26), the order of what acts at one boundary its reading (log entry 29), and that tone levels and constants
are taken at the next boundary however late they are written its choice (log entry 87). -/
def Obligations.Boundary : Prop := ∀ s : State, alive s = true →
  let row (p : State → Prop) : Prop := gives .boundary s p
  let hub := s.time.hub + (max (turnLen s) s.time.clk / 2 - s.time.clk / 2)
  let N (t : State) : Prop := t.time.clk = 0 ∧ t.time.grid = s.time.grid + 1 ∧ t.time.hub = hub
  let none_ : Prop := s.safe.strokes = [] ∧ s.fab.held = [] ∧ s.pwr.wake = []
  let quiet : Prop := none_ ∧ s.safe.flipFab ++ s.safe.flipEng ++ s.safe.flipNext = [] ∧ s.safe.decided = []
  let flips := s.safe.flipFab ++ s.safe.flipEng ++ s.safe.flipNext
  let awake : Prop := ∀ x ∈ flips, domainOn s (memberDomain x) = true ∧ inRequest s (memberDomain x) = false
  let sided : Prop := s.safe.flipFab.Nodup ∧ ∀ x ∈ s.safe.flipFab, fabricSide x = true
  let begun (t : State) : Prop := turnsOn t = true ∧ t.bit .SYS_STATE 0 4 = false ∧ t.dev.cutPast = false ∧ t.dev.freeze = false ∧
    t.dev.swapped = [] ∧ t.dev.exchanged = [] ∧ t.dev.started = [] ∧ t.dev.starting = false
  let loads (t : State) : Prop := t.port.stage = s.fab.portOut ∧
    (∀ n : Fin 32, Store.get zeroOf t.fab.const n = s.reg .FABRIC_CONST_n n) ∧
    (∀ n : Fin 8, Store.get zeroOf t.fab.level n = s.reg .FABRIC_TONE_n_LEVEL n)
  let delivered (t : State) : Prop := ∀ a < 0x400, sapMode s (a / 16) ≠ 2 → (∀ n ∈ s.asrc.on, asrcAddr s n ≠ a) →
    Store.get zeroOf t.fab.portIn a = Store.get zeroOf s.port.cap a
  let stays (t : State) : Prop := t.mem = s.mem ∧ t.wmem = s.wmem ∧ t.hart = s.hart ∧ t.core = s.core ∧ t.sched = s.sched ∧
    t.eng.outE = s.eng.outE ∧ t.eng.inF = s.eng.inF ∧ t.sect.chainOut = s.sect.chainOut ∧ t.sect.chainRun = s.sect.chainRun ∧ t.pending = s.pending
  let resumes : Prop := (effState s = St.HOLD ∨ inTest s = true) ∧ holdCause s = 0
  let locks := s.bit .SYS_STATE 0 21
  (turnsOn s = false → s.dev.pendCut = [] → s.dev.starting = true → ((effState s ≠ St.HOLD ∧ locks = false) ∨ resumes) → row (fun t => N t ∧ begun t ∧ loads t ∧ stays t ∧ t.time.turn = s.time.turn ∧
    t.dev.first = s.time.turn ∧ t.fab.portIn = [] ∧ effState t = (if effState s = St.HOLD then St.RUN else effState s))) ∧
  (turnsOn s = false → s.dev.pendCut = [] → s.dev.starting = false → resumes → row (fun t =>
    N t ∧ begun t ∧ loads t ∧ stays t ∧ t.time.turn = s.time.turn ∧ t.dev.first = s.dev.first ∧
    effState t = (if effState s = St.HOLD then St.RUN else effState s))) ∧
  (turnsOn s = false → s.dev.pendCut = [] → (s.dev.starting = true → effState s = St.HOLD ∨ locks = true) → ¬ resumes → row (fun t =>
    N t ∧ stays t ∧ turnsOn t = false ∧ t.time.turn = s.time.turn ∧ t.fab.portIn = s.fab.portIn ∧ t.dev.starting = s.dev.starting ∧
    (if s.dev.starting = true ∧ locks = true ∧ effState s = St.RUN then effState t = St.HOLD
      else t.reg .SYS_STATE 0 = s.reg .SYS_STATE 0))) ∧
  (turnsOn s = false → s.dev.pendCut = [.disarm] → effState s = St.HOLD → row (fun t =>
    N t ∧ stays t ∧ turnsOn t = false ∧ effState t = St.ARMED ∧ t.bit .SYS_STATE 0 4 = true ∧ t.dev.pendCut = [] ∧
    t.time.turn = s.time.turn ∧ t.fab.portIn = s.fab.portIn)) ∧
  (turnsOn s = true → s.dev.freeze = false → s.dev.relockEnd = false → s.dev.pendCut = [] → none_ → awake → sided → row (fun t =>
    N t ∧ t.safe.flipFab = [] ∧ t.safe.flipNext = [] ∧ t.safe.flipEng = s.safe.flipEng ++ s.safe.flipNext ∧ t.safe.decided = [] ∧
    t.safe.doneDue = s.safe.doneDue ++ s.safe.decided ∧ t.fab.hold = false ∧
    routeAct t = (if .route ∈ s.safe.flipFab then 1 - routeAct s else routeAct s) ∧
    gainAct t = (if .gain ∈ s.safe.flipFab then 1 - gainAct s else gainAct s) ∧
    (∀ q ∈ s.safe.decided, ∀ g ∈ q.groups, t.bit .SAFE_MIRROR_VALID 0 g = false) ∧ t.reg .SAFE_DONE 0 = s.reg .SAFE_DONE 0 ∧
    (∀ pe : Fin 72, t.bit .ENG_STATUS pe 3 = s.bit .ENG_STATUS pe 3 ∧ actProg t pe = actProg s pe) ∧
    (∀ k : Fin 512, chainSide t k = chainSide s k) ∧ t.time.turn = s.time.turn + 1 ∧ turnsOn t = true ∧ t.dev.cutPast = false ∧
    t.dev.swapped = [] ∧ t.dev.exchanged = [] ∧ t.dev.started = [] ∧ loads t ∧ delivered t ∧ stays t ∧
    (∀ n : Fin 8, Store.get natZero t.fab.phase n = if n.val ∈ s.fab.clr then 0
      else (Store.get natZero s.fab.phase n + s.f .FABRIC_TONE_n_INC n 23 0) % 2 ^ 24) ∧
    t.dev.probe = (match s.dev.probe with | .idle => .idle | .armed => .running 0 | .running k => .running (k + 1)) ∧
    t.dev.marker = decide (s.dev.probe = .armed))) ∧
  (turnsOn s = true → (s.dev.freeze = true ∨ s.dev.relockEnd = true) → s.dev.pendCut = [] →
    (s.dev.pendNew = [] ∨ s.dev.pendNew = [.disarm]) → effState s = St.RUN → quiet → s.dev.exch = [] →
    s.sect.held = [] → row (fun t => N t ∧ t.time.turn = s.time.turn + 1 ∧ turnsOn t = false ∧ t.bit .SYS_STATE 0 4 = true ∧
    effState t = St.HOLD ∧ t.port.sent = [] ∧ t.link.guarded = [] ∧ t.guard.yPrev = [] ∧ t.dev.pendNew = [] ∧
    t.dev.pendCut = s.dev.pendNew ∧ stays t)) ∧
  (turnsOn s = true → s.dev.freeze = false → s.dev.relockEnd = false → s.dev.pendCut = [.disarm] → s.dev.pendNew = [] →
    effState s = St.RUN → quiet → s.dev.exch = [] →
    s.sect.held = [] → row (fun t => N t ∧ t.time.turn = s.time.turn + 1 ∧ turnsOn t = false ∧ t.bit .SYS_STATE 0 4 = true ∧
    effState t = St.ARMED ∧ t.port.sent = [] ∧ t.link.guarded = [] ∧ t.guard.yPrev = [] ∧ stays t))

/-- R35, R48, R51, R53, R56, R58, R137, R146, R147, R180, R183, R184, R187, R238: the commit cut, the fabric-side swap, the mailbox exchange
and the start of the engine runs, in a turn with no enable or disable to apply. The decided chains flip at the swap, the decided palettes
and programs of a cluster at its exchange, and the flips are recorded, with DONE and the stamp, at clk N/2 + 128. The clk of a command
(log entry 26), DB at a PLEN of 0 (log entry 25), the exchange and the record cluster by cluster (log entry 27), and that a cluster which
wakes over the boundary starts the runs of its turn late, with the exchange made at the end of it (log entry 92), are the model's
readings. -/
def Obligations.TurnMiddle : Prop := ∀ (c : Fin 8) (s : State), turnsOn s = true → s.dev.exch = [] →
  s.sect.held = [] → s.boxesWf = true → s.safe.flipEng.Nodup → (∀ k, .chain k ∈ s.safe.flipEng → k < 512) →
  (∀ e f : Fin 64, physOf s e = physOf s f → e = f) →
  let due (x : Member) : Bool := decide (x ∈ s.safe.flipEng)
  let at_ (n : Nat) : TimeState := { s.time with clk := max n s.time.clk, hub := s.time.hub + (max n s.time.clk / 2 - s.time.clk / 2) }
  (s.dev.cutPast = false → gives .commitCut s (fun t => t.dev.cutPast = true ∧ t.dev.freeze = decide (holdCause s ≠ 0) ∧
    t.dev.pendCut = s.dev.pendCut ++ s.dev.pendNew ∧ t.dev.pendNew = [] ∧ t.time = at_ (turnLen s - 256) ∧
    t.safe.flipEng = s.safe.flipEng ∧ (s.safe.reqs = [] → t.safe.reqs = [] ∧ t.safe.flipFab = [] ∧ t.safe.flipNext = [] ∧ t.f .SAFE_PENDING 0 31 16 = 0) ∧
    t.fab.portIn = s.fab.portIn ∧ t.eng.run = s.eng.run ∧ t.mem = s.mem ∧ t.hart = s.hart)) ∧
  (s.dev.cutPast = true → exec .commitCut s = .next s) ∧
  (s.dev.swapped = [] → (∀ k ∈ s.eng.outE, k.1 < 0x1000) → gives .fabricSwap s (fun t => t.time = at_ (turnLen s / 2) ∧
    (∀ k < 0x1000, Store.get zeroOf t.eng.outF k = Store.get zeroOf s.eng.outE k) ∧ t.eng.outE = [] ∧
    (∀ k : Fin 512, chainSide t k = (if due (.chain k) then 1 - chainSide s k else chainSide s k) ∧
      (due (.chain k) = true → chainMuted t k = false ∧ ∀ j : Fin 17,
        getSlot t (activeAddr k (1 + j)) = getSlot s (stagedAddr k (1 + j)))) ∧
    t.safe.flipEng = s.safe.flipEng.filter (fun x => !sectionSide x) ∧
    t.sect.chainOut = s.sect.chainRun ∧ t.link.due = [] ∧ (∀ d : Fin 8, d.val ∈ t.dev.swapped) ∧ t.mem = s.mem ∧ t.hart = s.hart)) ∧
  (s.dev.exchanged = [] → domainOn s (6 + c) = true → quiescent s c = false → migOf s c = none →
    gives (.mailboxExchange c) s (fun t => t.time = at_ (turnLen s / 2) ∧
      (∀ k, Store.get zeroOf t.eng.inE k = if k / 512 = c then Store.get zeroOf s.eng.inF k else Store.get zeroOf s.eng.inE k) ∧
      (∀ e : Fin 64, e.val / 8 = c.val →
        t.bit .ENG_STATUS (physOf s e) 3 = (s.bit .ENG_STATUS (physOf s e) 3 != due (.palette e)) ∧
        actProg t (physOf s e) = (if due (.prog e) then 1 - actProg s (physOf s e) else actProg s (physOf s e)) ∧
        (due (.prog e) = true → t.bit .ENG_STATUS (physOf s e) 4 = false)) ∧
      (∀ pe, (∀ e : Fin 64, e.val / 8 = c.val → physOf s e = pe → due (.palette e) = false ∧ due (.prog e) = false) →
        t.reg .ENG_STATUS pe = s.reg .ENG_STATUS pe) ∧
      t.safe = { s.safe with flipEng := s.safe.flipEng.filter (fun x => !inCluster c x) } ∧
      (∀ pe : Fin 72, t.reg .ENG_DB pe = if pe.val / 9 = c ∧ dbSteps t pe = true then
        BitVec.ofNat 32 ((s.f .ENG_DB pe 13 0 + dWords s pe - 1) % dWords s pe) else s.reg .ENG_DB pe) ∧
      t.dev.exchanged = [c.val] ∧ c.val ∈ t.dev.swapped ∧ (∀ r i, r ≠ .ENG_DB → r ≠ .ENG_STATUS → t.reg r i = s.reg r i) ∧ t.mem = s.mem ∧
      t.wmem = s.wmem ∧ t.hart = s.hart)) ∧
  (domainOn s (6 + c) = true → s.dev.late.contains c.val = false → s.dev.exchanged.contains c.val = true →
    s.dev.started.contains c.val = false → s.eng.run = [] → s.safe.doneDue = [] → s.safe.strokes = [] →
    gives (.engineRunStart c) s (fun t =>
      (∀ pe : Fin 72, runAt t pe = if pe.val / 9 = c ∧ willRun s pe = true then some 0 else none) ∧
      t = { s with time := at_ (turnLen s / 2 + 128), dev := { s.dev with started := c.val :: s.dev.started },
                   eng := { s.eng with run := t.eng.run } })) ∧
  (∀ q, s.safe.doneDue = [q] → q.groups.Nodup → (∀ g ∈ q.groups, g < 16) → s.safe.strokes = [] → s.dev.late.contains c.val = false →
    gives (.engineRunStart c) s (fun t => t.safe.doneDue = [] ∧ t.time = at_ (turnLen s / 2 + 128) ∧
      (q.groups ≠ [] → t.bit .EVT_RAW_w 0 16 = true) ∧
      (∀ g ∈ q.groups, t.bit .SAFE_DONE 0 g = true ∧ t.bit .SAFE_PENDING 0 g = s.safe.reqs.any (fun r => r.groups.contains g) ∧
        t.f .SAFE_GROUP_n_STAMP g 31 16 = s.time.turn.toNat % 65536 ∧
        t.f .SAFE_GROUP_n_STAMP g 14 0 = min (s.f .SAFE_GROUP_n_STAMP g 14 0 + 1) 32767 ∧
        (g ∈ s.safe.mirGroups → t.bit .SAFE_MIRROR_BUSY 0 g = true)) ∧
      (∀ g : Fin 16, g.val ∉ q.groups → t.bit .SAFE_DONE 0 g = s.bit .SAFE_DONE 0 g ∧
        t.reg .SAFE_GROUP_n_STAMP g = s.reg .SAFE_GROUP_n_STAMP g) ∧ t.mem = s.mem ∧ t.wmem = s.wmem ∧ t.hart = s.hart)) ∧
  (domainOn s (6 + c) = true → s.dev.late.contains c.val = true → s.eng.run = [] → gives (.engineRunStart c) s (fun t =>
    (∀ pe : Fin 72, runAt t pe = if pe.val / 9 = c ∧ willRun s pe = true then some 0 else none) ∧
    t = { s with dev := { s.dev with late := s.dev.late.filter (fun x => x != c.val) }, eng := { s.eng with run := t.eng.run } })) ∧
  (s.dev.late.contains c.val = true → domainOn s (6 + c) = false → exec (.engineRunStart c) s = .next s)

/-! The mixing fabric. -/

/-- R205, R206, R210, R211, R219, R292: a pass sums the products of its route words in program order, in 40 bits, and gives each sink it
writes the sum saturated to 24 bits, and every other sink of its kind zero; a double-bit error enters HALT. A sum that saturates counts at
a sink that is closed as well: that is the model's reading (log entry 24). -/
def Obligations.FabricPasses : Prop := ∀ (passB : Bool) (s : State), turnsOn s = true → domainOn s 3 = true →
  let i : Instr := if passB then .fabricPassB else .fabricPassA
  let ws := passWords s passB
  let val (w : RouteWord) : Int := if w.gate && silent s w.src then 0 else srcValue s passB w.src
  let prod (w : RouteWord) : Int := sar (val w * sxN 24 (getSlot s (gainAddr (gainAct s) w.gain)).toNat) 20
  let exact (old : Int) (w : RouteWord) : Int := if w.op = 1 then old + prod w else old - prod w
  let sum (l : List (Nat × RouteWord)) (a : Nat) : Option Int := l.foldl (fun old x =>
    if x.2.sink = a then some (if x.2.op = 0 then prod x.2 else wrapI 40 (exact (old.getD 0) x.2)) else old) none
  let out (a : Nat) : Sample := match sum ws a with
    | some v => if sinkOpen s a then toSample (satI 24 v) else 0
    | none => 0
  let clean := ∀ x ∈ ws, ∀ a ∈ wordAddrs s x.1 x.2, upsetOf s a ≠ 2
  let read : LinkState := if passB then { s.link with fwd := s.link.phys } else s.link
  (clean → gives i s (fun t =>
    (passB = false → (∀ k < 0x1000, Store.get zeroOf t.eng.inF k = out (0x1400 + k)) ∧
      (∀ k < 0x200, Store.get zeroOf t.sect.chainIn k = out (0x2400 + k)) ∧
      (∀ k < 0x800, Store.get zeroOf t.fab.busA k = out (0x2800 + k)) ∧
      t.fab.portOut = s.fab.portOut ∧ t.fab.linkOut = s.fab.linkOut ∧ t.fab.busB = s.fab.busB) ∧
    (passB = true → (∀ k < 0x400, Store.get zeroOf t.fab.portOut k = out k) ∧
      (∀ k < 0x1000, Store.get zeroOf t.fab.linkOut k = out (0x400 + k)) ∧
      (∀ k < 0x800, Store.get zeroOf t.fab.busB k = out (0x2800 + k)) ∧
      t.eng.inF = s.eng.inF ∧ t.sect.chainIn = s.sect.chainIn ∧ t.fab.busA = s.fab.busA) ∧
    (∀ a, getSlot t a = if 0x3C120000 ≤ a ∧ a < 0x3C120400 ∧ a % 4 = 0 then
        (match sum ws (0x2600 + (a - 0x3C120000) / 4) with
          | some v => BitVec.ofInt 32 (satI 24 v)
          | none => getSlot s a)
      else getSlot s a) ∧
    t.bit .FABRIC_FAULT 0 0 = (s.bit .FABRIC_FAULT 0 0 || (List.range 0x4000).any (fun a => match sum ws a with
      | some v => decide (satI 24 v ≠ v)
      | none => false)) ∧
    t.bit .FABRIC_FAULT 0 1 = (s.bit .FABRIC_FAULT 0 1 || (List.range ws.length).any (fun k => match ws[k]? with
      | some x => x.2.op != 0 && (let e := exact ((sum (ws.take k) x.2.sink).getD 0) x.2; decide (wrapI 40 e ≠ e))
      | none => false)) ∧
    t = { s with regs := t.regs, wmem := t.wmem, upset := t.upset, eng := { s.eng with inF := t.eng.inF },
                 sect := { s.sect with chainIn := t.sect.chainIn },
                 fab := { s.fab with portOut := t.fab.portOut, linkOut := t.fab.linkOut, busA := t.fab.busA, busB := t.fab.busB,
                                     detCnt := t.fab.detCnt, loud := t.fab.loud },
                 dev := { s.dev with probe := t.dev.probe }, link := read,
                 pwr := { s.pwr with wake := t.pwr.wake, latch := t.pwr.latch, wokeAt := t.pwr.wokeAt, firedAt := t.pwr.firedAt, fired := t.pwr.fired } })) ∧
  (¬ clean → alive s = true → gives i s (halted 3 { s with link := read }))

/-- R220, R221, R223: what a value of a source does to its silence detector once it is readable, of a link input, an engine or a chain at clk
N/2, of a port input or a bus at a boundary, a bus that was loud at the end of a pass not counting. R224 to R229: the decision of a turn
on each cluster. That the counts step where a turn begins is the model's choice (log entry 99). -/
def Obligations.Quiescence : Prop := ∀ (c : Fin 8) (s : State), turnsOn s = true →
  let on (d : Nat) : Bool := bitOf (detCfg s d) 0
  let same (d : Nat) (t : State) : Prop :=
    Store.get natZero t.fab.detCnt d = Store.get natZero s.fab.detCnt d ∧ silent t d = silent s d
  let sees (d : Nat) (q : Bool) (t : State) : Prop :=
    let k := if q then min (Store.get natZero s.fab.detCnt d + 1) (2 ^ 20) else 0
    Store.get natZero t.fab.detCnt d = k ∧ silent t d = (q && decide (silHold s (detProfile s d) ≤ k))
  let words : Prop := s.wmemWf = true ∧ ∀ e ∈ s.wmem, e.1 % 4 = 0
  let calm : Prop := s.dev.exch = [] ∧ s.safe.flipFab ++ s.safe.flipEng ++ s.safe.flipNext = [] ∧ s.sect.held = []
  let bus (t : State) (passB : Bool) (d : Nat) : Int := ofSample (Store.get zeroOf (if passB then t.fab.busB else t.fab.busA) (d - 0x2800))
  (words → calm → gives .fabricSwap s (fun t => ∀ d, 0x400 ≤ d → d < 0x2600 →
    if on d then sees d (quiet s d (srcValue t false d)) t else same d t)) ∧
  (∀ passB : Bool, words → domainOn s 3 = true →
    (∀ x ∈ passWords s passB, ∀ a ∈ wordAddrs s x.1 x.2, upsetOf s a ≠ 2) →
    gives (if passB then .fabricPassB else .fabricPassA) s (fun t => ∀ d, 0x2800 ≤ d → d < 0x3000 →
      let q := quiet s d (bus t passB d)
      (if on d = true ∧ q = false then sees d false t else same d t) ∧
      (d ∈ t.fab.loud ↔ d ∈ s.fab.loud ∨ (on d = true ∧ q = false)))) ∧
  (words → calm → alive s = true → s.dev.freeze = false → s.dev.relockEnd = false → s.dev.pendCut = [] → s.safe.strokes = [] →
    s.safe.decided = [] → s.fab.held = [] → s.pwr.wake = [] → gives .boundary s (fun t => t.fab.loud = [] ∧
      (∀ d, d < 0x400 → if on d then sees d (quiet s d (srcValue t false d)) t else same d t) ∧
      (∀ d, 0x2800 ≤ d → d < 0x3000 → if on d = true ∧ d ∉ s.fab.loud then sees d true t else same d t))) ∧
  let n := min (Store.get natZero s.fab.quietCnt c + 1) (2 ^ 20)
  let loud := clusterLoud s c
  let en := s.bit .FABRIC_QUIET_n c 31
  gives .quiescenceDecision s (fun t =>
    quiescent t c = (en && !loud && (quiescent s c || decide (s.f .FABRIC_QUIET_n c 20 0 ≤ n))) ∧
    (en = true → Store.get natZero t.fab.quietCnt c = if loud then 0 else n) ∧
    (quiescent s c = false → quiescent t c = true →
      t.bit .EVT_RAW_w 0 24 = true ∧ ∀ k < 512, Store.get zeroOf t.eng.outF (512 * c + k) = 0 ∧ Store.get zeroOf t.eng.outE (512 * c + k) = 0) ∧
    (quiescent s c = true → quiescent t c = false → t.bit .EVT_RAW_w 0 25 = true) ∧
    t.eng.inF = s.eng.inF ∧ t.mem = s.mem ∧ t.wmem = s.wmem ∧ t.hart = s.hart ∧ t.time = s.time)

/-- R8, R206, R209, R214 to R219, R222, R225: writes of the fabric's memory and registers, and the check of a route bank; a write of the
shadow bank's LEN is stored and starts the check. A write to the shadow bank in the commit window waits: its initiator gets no completion.
That PHASE_CLR has no cut before its boundary is the model's choice (log entry 87). -/
def Obligations.FabricControl : Prop := ∀ (m : Initiator) (bank : Fin 2) (k : Fin 65536) (up : Bool) (j : Fin 4096) (c : Fin 8)
    (n : Fin 4) (a : Fin 12288) (v : Word) (s : State),
  let act := routeAct s
  let ra := routeAddr bank k + 4 * b2n up
  let ga := gainAddr bank j
  let stored (x : Nat) (w : Word) : State := setUpset { s with wmem := Store.set zeroOf s.wmem x w } x 0
  let awr : State := if s.bit .FABRIC_FAULT 0 2 then s else (s.setBit .FABRIC_FAULT 0 2 true).setBit .EVT_RAW_w 0 28 true
  let len : RegName := if bank = 0 then .FABRIC_BANK_A_LEN else .FABRIC_BANK_B_LEN
  let still := s.safe.mirrors = []
  let open_ : State := { s with fab := { s.fab with hold := false, held := [] } }
  let waits (i : Instr) (x : Nat) : Prop := (m, x, v) ∉ s.fab.held → gives i s (fun t =>
    t.fab = { s.fab with held := s.fab.held ++ [(m, x, v)] } ∧
    (match m with
      | .host h => t.host.tx = s.host.tx ++ [⟨h, x, true, [v], 0, [], none, true, true, s.time.hub + 1⟩] ∧ t.pwr.stalled = s.pwr.stalled
      | .stroke _ => t.host = s.host ∧ t.pwr.stalled = s.pwr.stalled
      | _ => t.host = s.host ∧ t.pwr.stalled = s.pwr.stalled ++ [⟨m, x, some v⟩]) ∧
    t = { s with fab := t.fab, pwr := { s.pwr with quiet := t.pwr.quiet, stalled := t.pwr.stalled },
                 host := { s.host with tx := t.host.tx, rr := t.host.rr, lease := t.host.lease } })
  (bank = act → doesAt (.routeWordWrite m bank k up v) m ra s awr) ∧
  (bank = gainAct s → doesAt (.gainWrite m bank j v) m ga s awr) ∧
  (bank = act → does (.fabricBankLenWrite m bank v) m len 0 s awr) ∧
  (bank ≠ act → s.fab.hold = true → poolFull m s = false →
    (landsAt m ra open_ = true → waits (.routeWordWrite m bank k up v) ra) ∧
    (lands m len 0 open_ = true → waits (.fabricBankLenWrite m bank v) (Reg.addr len 0))) ∧
  (bank ≠ act → s.fab.hold = false → still → landsAt m ra s = true → gives (.routeWordWrite m bank k up v) s (fun t =>
    (∀ x, getSlot t x = if x = ra then v else getSlot s x) ∧
    (∀ x, upsetOf t x = if x = routeAddr bank k ∨ x = routeAddr bank k + 4 then 0 else upsetOf s x) ∧
    t.bit .SAFE_MIRROR_VALID 0 (groupOf s .route) = false)) ∧
  (bank ≠ act → s.fab.hold = false → still → doesSome (.fabricBankLenWrite m bank v) m len 0 s (fun u =>
    u.f len 0 16 0 = (if fld v 16 0 ≤ 65536 then fld v 16 0 else 0) ∧ u.fab.chkRun = bank.val :: s.fab.chkRun.filter (fun b => b != bank.val) ∧
    Store.get chkReset u.fab.chk bank = 0x40000000 ∧ Store.get natZero u.fab.split bank = 0 ∧
    u.bit .SAFE_MIRROR_VALID 0 (groupOf s .route) = false ∧
    (fld v 16 0 ≤ 65536 → regsKept [(len, 0), (.SAFE_MIRROR_VALID, 0)] s u) ∧
    u = { s with regs := u.regs, fab := { s.fab with chk := u.fab.chk, split := u.fab.split, chkRun := u.fab.chkRun } })) ∧
  (bank ≠ gainAct s → still → doesAt (.gainWrite m bank j v) m ga s
    ((stored ga (slot24 v.toNat)).setBit .SAFE_MIRROR_VALID 0 (groupOf s .gain) false)) ∧
  (domainOn s 3 = true → Machine.up s = true → s.fab.chkRun.contains bank = true → gives (.routeCheckDone bank) s (fun t =>
    Store.get chkReset t.fab.chk bank = (routeResult s bank).1 ∧ Store.get natZero t.fab.split bank = (routeResult s bank).2 ∧
    t.fab.chkRun = s.fab.chkRun.filter (fun b => b != bank.val) ∧ t.wmem = s.wmem ∧
    (fld (routeResult s bank).1 29 24 = 6 → t.bit .FABRIC_FAULT 0 3 = true) ∧
    t = { s with regs := t.regs, upset := t.upset, fab := { s.fab with chk := t.fab.chk, split := t.fab.split, chkRun := t.fab.chkRun } })) ∧
  (hasDetector a = true → landsAt m (0x3C110000 + 4 * a.val) s = true → gives (.detectorConfigWrite m (.word a) v) s (fun t =>
    (∀ x, getSlot t x = if x = 0x3C110000 + 4 * a.val then v &&& 7 else getSlot s x) ∧ silent t a = false ∧
    Store.get natZero t.fab.detCnt a = 0 ∧ t.mem = s.mem ∧ t.hart = s.hart)) ∧
  (hasDetector a = true → (silent s a = false ∨ s.bit .PWR_WAKE_EN 0 25 = false) → doesAt (.detectorConfigWrite m (.word a) v) m (0x3C110000 + 4 * a.val) s
    ({ stored (0x3C110000 + 4 * a.val) (v &&& 7) with fab := { s.fab with detCnt := Store.set natZero s.fab.detCnt a 0 } }.setBit
      .FABRIC_SIL_STAT_w (a.val / 32) (a.val % 32) false)) ∧
  doesSome (.detectorConfigWrite m (.thresh n) v) m .FABRIC_SIL_THRESH_n n s (fun u =>
    u.f .FABRIC_SIL_THRESH_n n 23 0 = fld v 23 0 ∧ (∀ d : Fin 0x3000, hasDetector d = true → bitOf (detCfg s d) 0 = true →
      detProfile s d = n → silent u d = false ∧ Store.get natZero u.fab.detCnt d = 0) ∧
    ∀ q : Fin 8, s.f .FABRIC_QUIET_n q 25 24 = n → Store.get natZero u.fab.quietCnt q = 0) ∧
  doesSome (.detectorConfigWrite m (.hold n) v) m .FABRIC_SIL_HOLD_n n s (fun u =>
    u.f .FABRIC_SIL_HOLD_n n 20 0 = (if fld v 20 0 ≤ 2 ^ 20 then fld v 20 0 else 48000) ∧ u.fab.quietCnt = s.fab.quietCnt) ∧
  doesSome (.fabricQuietWrite m c v) m .FABRIC_QUIET_n c s (fun u => u.bit .FABRIC_QUIET_n c 31 = bitOf v 31 ∧
    u.f .FABRIC_QUIET_n c 25 24 = fld v 25 24 ∧ u.f .FABRIC_QUIET_n c 20 0 = (if 1 ≤ fld v 20 0 ∧ fld v 20 0 ≤ 2 ^ 20 then fld v 20 0 else 48000) ∧ Store.get natZero u.fab.quietCnt c = 0) ∧
  doesSome (.phaseClr m c v) m .FABRIC_TONE_n_INC c s (fun u => u.f .FABRIC_TONE_n_INC c 23 0 = fld v 23 0 ∧
    (turnsOn s = true → u.fab = { s.fab with clr := c.val :: s.fab.clr.filter (fun k => k != c.val) }) ∧
    (turnsOn s = false → Store.get natZero u.fab.phase c = 0) ∧ u.dev = s.dev)

/-- R46, R49, R50, R66, R67, R157, R215, R257: the rate, the fault log's clear, and the latency probe. That a START in the word that sets EN
counts is the model's choice (log entry 91). -/
def Obligations.RateAndProbe : Prop := ∀ (m : Initiator) (v : Word) (passB : Bool) (s : State),
  let ctrl := s.f .SYS_PROBE_CTRL 0 23 16
  let limit := if ctrl = 0 then 256 else ctrl
  (turnsOn s = true → does (.rateWrite m v) m .SYS_TURN_CFG 0 s (cfgErr .SYS_TURN_CFG 0 s)) ∧
  (turnsOn s = false → doesSome (.rateWrite m v) m .SYS_TURN_CFG 0 s (fun u =>
    u.f .SYS_TURN_CFG 0 1 0 = (if fld v 1 0 < 3 then fld v 1 0 else 0) ∧
    (∀ pe : Fin 72, fld (engProgChk u pe) 31 30 = 1) ∧ fld (fabricChk u) 31 30 = 1 ∧ u.fab.chkRun.contains (1 - routeAct s) = true ∧
    (s.fab.chkRun.contains (routeAct s) = false → Store.get chkReset u.fab.chk (routeAct s) = (routeResult u (routeAct s)).1) ∧
    (∀ p : Fin 64, u.bit .SAP_CTRL p 0 = (s.bit .SAP_CTRL p 0 && sapCfgOk u p)) ∧ u.time = s.time ∧ u.wmem = s.wmem ∧ u.hart = s.hart)) ∧
  doesSome (.faultLogClear m v) m .AON_FAULT_CLR 0 s (fun u =>
    (∀ a, getSlot u a = if 0xF0008000 ≤ a ∧ a < 0xF0008400 then 0 else getSlot s a) ∧
    u.f .AON_FAULT_STAT 0 31 16 = 0 ∧ u.f .AON_FAULT_STAT 0 5 0 = 0 ∧ regsKept [(.AON_FAULT_STAT, 0)] s u ∧
    u = { s with regs := u.regs, wmem := u.wmem, upset := u.upset }) ∧
  doesSome (.probeStart m v) m .SYS_PROBE_CTRL 0 s (fun u =>
    u.f .SYS_PROBE_CTRL 0 23 16 = fld v 23 16 ∧ u.bit .SYS_PROBE_CTRL 0 0 = bitOf v 0 ∧
    (if bitOf v 0 = true ∧ s.bit .SYS_PROBE_RESULT 0 29 = false ∧ sysState s = St.TEST ∧ turnsOn s = true then
      u.reg .SYS_PROBE_RESULT 0 = 0x20000000 ∧ u.dev.probe = .armed
    else u.reg .SYS_PROBE_RESULT 0 = s.reg .SYS_PROBE_RESULT 0 ∧ u.dev.probe = s.dev.probe) ∧
    u = { s with regs := u.regs, dev := { s.dev with probe := u.dev.probe } }) ∧
  (∀ age, s.dev.probe = .running age →
    (limit < age → exec .probeTimeout s = .next { s.setReg .SYS_PROBE_RESULT 0 0x40000000 with dev := { s.dev with probe := .idle } }) ∧
    (age ≤ limit → exec .probeTimeout s = .next s) ∧
    (turnsOn s = true → domainOn s 3 = true → sysState s = St.TEST → s.bit .SYS_PROBE_WATCH 0 16 = passB → age ≤ limit →
      (∀ x ∈ passWords s passB, ∀ a ∈ wordAddrs s x.1 x.2, upsetOf s a ≠ 2) →
      gives (if passB then .fabricPassB else .fabricPassA) s (fun t =>
        if 0x100000 ≤ (srcValue s passB (s.f .SYS_PROBE_WATCH 0 13 0)).natAbs then
          t.reg .SYS_PROBE_RESULT 0 = BitVec.ofNat 32 (0x80000000 + age % 65536) ∧ t.dev.probe = .idle
        else t.reg .SYS_PROBE_RESULT 0 = s.reg .SYS_PROBE_RESULT 0 ∧ t.dev.probe = .running age)))

/-! The section bank. -/

/-- R232, R239, R243, R251: a section run evaluates the sections of every enabled chain in series, on the chain's input, with the coefficients
of its active side; y and e saturate as R239 says; a chain without sections or with its mute set gives zero. A double-bit error in a
coefficient mutes its chain, one in a state word zeroes that section's state and the chain's output of the turn. The spec's check refuses
a chain of more than 64 sections (R247). -/
def Obligations.SectionRun : Prop := ∀ s : State, turnsOn s = true → domainOn s 4 = true →
  (∀ c : Fin 512, nsecOf (activeW1 s c) ≤ 64) →
  let coefWord (c i j : Nat) : Nat := coefAddr (chainSide s c) c + 32 * i + 4 * j
  let stateWord (c i j : Nat) : Nat := stateAddr c + 32 * i + 4 * j
  let clean : Prop := ∀ c : Fin 512, ∀ i : Fin 64, ∀ j : Fin 5, upsetOf s (coefWord c i j) ≠ 2 ∧ upsetOf s (stateWord c i j) ≠ 2
  let w (a : Nat) : Int := (getSlot s a).toInt
  let acc (c i : Nat) (x0 : Int) : Int :=
    let k := coefAddr (chainSide s c) c + 32 * i
    let t := stateAddr c + 32 * i
    let d := getSlot s (activeAddr c (2 + i / 4))
    let num := sar ((w k * x0 + w (k + 4) * w t + w (k + 8) * w (t + 4)) * 8) (fld d (8 * (i % 4) + 3) (8 * (i % 4)))
    let den := sar (w (k + 12) * w (t + 8) + w (k + 16) * w (t + 12)) 2
    num - den + (if bitOf d (8 * (i % 4) + 4) then w (t + 16) else 0)
  let y (c i : Nat) (x0 : Int) : Int := satI 32 (sar (acc c i x0) 28)
  let e (c i : Nat) (x0 : Int) : Int :=
    let t := sar (acc c i x0) 28
    if satI 32 t = t then acc c i x0 - t * 2 ^ 28 else 0
  let out (c i : Nat) (x0 : Int) : Int :=
    satI 24 (sar (if finishOf (activeW1 s c) && decide (i + 1 = nsecOf (activeW1 s c)) then y c i x0 + 16 else y c i x0) 5)
  let x (c n : Nat) : Int := (List.range n).foldl (fun v i => out c i v) (ofSample (Store.get zeroOf s.sect.chainIn c))
  let runs (c : Nat) : Bool := chainEn s c && !chainMuted s c && decide (nsecOf (activeW1 s c) ≠ 0)
  let broken (c : Nat) : Prop := ∃ i < nsecOf (activeW1 s c), ∃ j : Fin 5, upsetOf s (coefWord c i j) = 2
  gives .sectionRun s (fun t =>
    (∀ c : Fin 512, runs c = true → broken c → Store.get zeroOf t.sect.chainRun c = 0 ∧ chainMuted t c = true ∧
      t.bit .SECTION_FAULT 0 5 = true ∧ t.bit .SECTION_FAULT 0 4 = true ∧ t.bit .EVT_RAW_w 1 0 = true ∧
      ∀ i < 64, ∀ j < 5, getSlot t (stateWord c i j) = getSlot s (stateWord c i j)) ∧
    (∀ c : Fin 512, runs c = true → ¬ broken c → chainMuted t c = false ∧ ∀ i < nsecOf (activeW1 s c),
      (∃ j : Fin 5, upsetOf s (stateWord c i j) = 2) → Store.get zeroOf t.sect.chainRun c = 0 ∧ t.bit .SECTION_FAULT 0 4 = true ∧
        ∀ j < 5, getSlot t (stateWord c i j) = 0) ∧
    ∀ c : Fin 512, runs c = true → ¬ broken c → ∀ i < nsecOf (activeW1 s c), (∀ j : Fin 5, upsetOf s (stateWord c i j) ≠ 2) →
      ∀ j : Fin 5, upsetOf s (coefWord c i j) = 1 → upsetOf t (coefWord c i j) = 0) ∧
  (clean → gives .sectionRun s (fun t =>
    (∀ c : Fin 512, Store.get zeroOf t.sect.chainRun c =
      if runs c then toSample (x c (nsecOf (activeW1 s c)))
      else if chainEn s c then 0 else Store.get zeroOf s.sect.chainRun c) ∧
    (∀ c : Fin 512, runs c = true → ∀ i < nsecOf (activeW1 s c), let a := stateAddr c + 32 * i
      getSlot t a = BitVec.ofInt 32 (x c i) ∧ getSlot t (a + 4) = getSlot s a ∧ getSlot t (a + 8) = BitVec.ofInt 32 (y c i (x c i)) ∧
      getSlot t (a + 12) = getSlot s (a + 8) ∧ getSlot t (a + 16) = BitVec.ofInt 32 (e c i (x c i))) ∧
    (∀ a, (∀ c : Fin 512, runs c = true → ∀ i < nsecOf (activeW1 s c), ∀ j < 5, a ≠ stateAddr c + 32 * i + 4 * j) →
      getSlot t a = getSlot s a) ∧
    regsKept [(.SECTION_FAULT, 0), (.SECTION_SAT_CNT, 0), (.SECTION_ECC_CORR, 0), (.EVT_RAW_w, 1)] s t ∧
    t = { s with regs := t.regs, wmem := t.wmem, upset := t.upset, sect := { s.sect with chainRun := t.sect.chainRun } }))

/-- R233 to R238, R247 to R250: writes of section memory, the check of a chain, and the clear of its state. -/
def Obligations.SectionControl : Prop := ∀ (m : Initiator) (side : Fin 2) (c : Fin 512) (i : Fin 64) (k : Fin 8) (w : Fin 17)
    (v : Word) (s : State),
  let put (a : Nat) (x : Word) : State := setUpset { s with wmem := Store.set zeroOf s.wmem a x } a 0
  let awr : State := if s.bit .SECTION_FAULT 0 2 then s else (s.setBit .SECTION_FAULT 0 2 true).setBit .EVT_RAW_w 1 3 true
  let da := stagedAddr c (w + 1)
  let ca := coefAddr side c + 32 * i + 4 * k
  let sa := stateAddr c + 32 * i + 4 * k
  (s.sect.holdChains.contains c.val = false → doesAt (.chainDescriptorWrite m c w v) m da s
    ({ put da v with sect := { s.sect with chkRun := c.val :: s.sect.chkRun.filter (fun x => x != c.val) } }.setReg .SECTION_CHK 0
      (BitVec.ofNat 32 (2 ^ 30 + c)))) ∧
  (s.sect.holdChains.contains c.val = true → doesAt (.chainDescriptorWrite m c w v) m da s
    { s with sect := { s.sect with held := s.sect.held ++ [(da, v)] } }) ∧
  (fld (getSlot s (stagedAddr c 0)) 7 4 = fld v 7 4 →
    (turnsOn s = true → doesAt (.chainEnableWrite m c v) m (stagedAddr c 0) s
      { put (stagedAddr c 0) (v &&& 0xF1) with dev := { s.dev with pendNew := queued (.chainEn c (bitOf v 0)) s } }) ∧
    (turnsOn s = false → landsAt m (stagedAddr c 0) s = true → gives (.chainEnableWrite m c v) s (fun t =>
      getSlot t (stagedAddr c 0) = v &&& 0xF1 ∧ chainEn t c = bitOf v 0 ∧ bitOf (getSlot t (activeAddr c 0)) 0 = bitOf v 0 ∧
      (chainEn s c = false → bitOf v 0 = true → ∀ o < 512, getSlot t (stateAddr c + 4 * o) = 0) ∧
      (chainEn s c = true → bitOf v 0 = false → Store.get zeroOf t.sect.chainOut c = 0 ∧ Store.get zeroOf t.sect.chainRun c = 0) ∧
      (∀ d : Fin 512, d ≠ c → chainEn t d = chainEn s d)))) ∧
  (Machine.up s = true → domainOn s 4 = true → s.sect.chkRun.contains c.val = true → gives (.chainCheckDone c) s (fun t =>
    let r := chainReason s c
    t.reg .SECTION_CHK 0 = BitVec.ofNat 32 ((if r = 0 then 2 else 3) * 2 ^ 30 + r * 2 ^ 24 + c) ∧
    t.sect = { s.sect with chkRun := s.sect.chkRun.filter (fun x => x != c.val), bad := Store.set natZero s.sect.bad c r } ∧
    t = { s with regs := t.regs, upset := t.upset, sect := t.sect })) ∧
  (k.val < 5 → side.val = chainSide s c → doesAt (.sectionCoefficientWrite m side c i k v) m ca s awr) ∧
  (k.val < 5 → side.val ≠ chainSide s c → s.safe.mirrors = [] → doesAt (.sectionCoefficientWrite m side c i k v) m ca s
    ((put ca v).setBit .SAFE_MIRROR_VALID 0 (groupOf s (.chain c)) false)) ∧
  (5 ≤ k.val → doesAt (.sectionCoefficientWrite m side c i k v) m ca s s ∧ doesAt (.sectionStateWrite m c i k v) m sa s s) ∧
  (k.val < 5 → chainEn s c = true → doesAt (.sectionStateWrite m c i k v) m sa s awr) ∧
  (k.val < 5 → chainEn s c = false → doesAt (.sectionStateWrite m c i k v) m sa s
    (put sa (if k.val < 2 then slot24 v.toNat else if k.val = 4 then v &&& 0x0FFFFFFF else v))) ∧
  (turnsOn s = true → does (.sectionClr m v) m .SECTION_CLR 0 s
    { s with dev := { s.dev with pendNew := s.dev.pendNew ++ [if bitOf v 16 then .chainZeroAll else .chainZero (fld v 8 0)] } }) ∧
  (bitOf v 16 = false → turnsOn s = false → doesSome (.sectionClr m v) m .SECTION_CLR 0 s (fun u =>
    (∀ a, getSlot u a = if stateAddr (fld v 8 0) ≤ a ∧ a < stateAddr (fld v 8 0) + 2048 then 0 else getSlot s a) ∧
    u = { s with wmem := u.wmem, upset := u.upset })) ∧
  (bitOf v 16 = true → turnsOn s = false → doesSome (.sectionClr m v) m .SECTION_CLR 0 s (fun u =>
    (∀ a, getSlot u a = if 0x38200000 ≤ a ∧ a < 0x38300000 then 0 else getSlot s a) ∧ u = { s with wmem := u.wmem, upset := u.upset }))

/-! Ports, rate conversion and output guards. -/

/-- R255 to R258, R262 to R268: enables and configurations, the frames that a port finds on its pins, its loss of sync, and the trackers; a
disabled or retired port drives the pins that are its to drive low, and DO changes with the edge of BCK that BCKINV chooses. What counts
as a frame, its phase and its bits, and that a port which nothing has configured since reset drives no clock pin, are the model's readings
(log entry 58). -/
def Obligations.Ports : Prop := ∀ (m : Initiator) (p : Fin 64) (n : Fin 256) (f : PortFrame) (ratio : Nat) (v : Word) (s : State),
  let st := sapState s p
  let live := Machine.up s = true ∧ domainOn s (domPort p) = true
  let kept (t : State) : Prop := t.mem = s.mem ∧ t.hart = s.hart ∧ t.time = s.time ∧ t.eng = s.eng ∧ t.fab.portOut = s.fab.portOut ∧
    (∀ q : Fin 64, q ≠ p → sapState t q = sapState s q)
  let enAfter := bitOf v 0 && sapCfgOk s p
  let locks (r : PortRx) (t : State) : Prop :=
    let ph := if sapMode s p = 2 then 0 else r.phase
    sapState t p = Sap.LOCKED ∧ t.f .SAP_STAT p 12 0 = ph % 8192 ∧
      t.bit .SAP_STAT p 28 = (decide (sapMode s p ≠ 2) && (decide (ph < 64) || decide (turnLen s ≤ ph + 16))) ∧
      t.bit .SAP_STAT p 27 = s.bit .SAP_STAT p 27
  let lost (t : State) : Prop := sapState t p = Sap.SEARCH ∧ t.bit .SAP_FAULT p 1 = true ∧
    t.f .SAP_SYNC_CNT p 30 16 = min (s.f .SAP_SYNC_CNT p 30 16 + 1) 32767 ∧ t.bit .EVT_RAW_w 1 8 = true ∧
    (sapMode s p ≠ 2 → t.bit .SAP_STAT p 27 = true ∧ Store.get natZero t.port.left p = s.f .SAP_CONCEAL p 7 0 + 1) ∧
    (sapMode s p = 2 → trkLocked t p = false) ∧ ∀ k < 16, Store.get zeroOf t.port.sent (16 * p + k) = 0
  doesSome (.sapEnWrite m p v) m .SAP_CTRL p s (fun u => u.bit .SAP_CTRL p 0 = enAfter ∧
    (enAfter = false → bitOf v 0 = true → sapState u p = st ∧ u.dev = s.dev ∧ u.bit .SAP_FAULT p 31 = true) ∧
    (enAfter = bitOf v 0 → turnsOn s = true → u.dev.pendNew = queued (.sapEn p enAfter) s ∧ sapState u p = st) ∧
    (enAfter = true → turnsOn s = false → st = Sap.IDLE → s.port.on.contains p.val = false →
      u.port.on.contains p.val = true ∧ sapState u p = if sapMode s p = 0 then Sap.LOCKED else Sap.SEARCH) ∧
    (bitOf v 0 = false → turnsOn s = false → st ≠ Sap.RETIRED → u.port.on.contains p.val = false ∧ sapState u p = Sap.IDLE)) ∧
  doesSome (.sapCfgWrite m p v) m .SAP_CFG p s (fun u =>
    let inUse := sapMode s p = 2 ∧ fld v 1 0 ≠ 2 ∧ ∃ k : Fin 256, asrcEn s k = true ∧ asrcAddr s k / 16 = p
    if s.bit .SAP_CTRL p 0 = true ∨ ¬ (st = Sap.IDLE ∨ st = Sap.RETIRED) ∨ inUse then u = cfgErr .SAP_CFG p s
    else u.f .SAP_CFG p 1 0 = (if fld v 1 0 < 3 then fld v 1 0 else 0) ∧
      u.f .SAP_CFG p 5 4 = (if fld v 5 4 < 3 then fld v 5 4 else 0) ∧
      u.f .SAP_CFG p 13 12 = (if fld v 13 12 < 3 then fld v 13 12 else 2) ∧
      u.f .SAP_CFG p 17 16 = (if fld v 17 16 < 3 then fld v 17 16 else 2) ∧
      u.f .SAP_CFG p 11 8 = (if u.f .SAP_CFG p 5 4 = 2 ∧ fld v 11 8 = 0 then 1 else fld v 11 8) ∧
      u.bit .SAP_CFG p 23 = (bitOf v 23 && decide (p.val < 16)) ∧ p.val ∈ u.port.touched ∧
      u.port = { s.port with touched := u.port.touched }) ∧
  (∀ (k : Nat) (second : Bool), s.port.on.contains p.val = false ∨ st = Sap.RETIRED →
    let low := if sapMode s p = 0 ∧ p.val ∈ s.port.touched then some false else none
    portPins s p k second = ⟨low, low, false⟩) ∧
  (∀ (k : Nat) (second : Bool), s.port.on.contains p.val = true → st ≠ Sap.RETIRED → sapMode s p = 0 → p.val ∈ s.port.touched →
    rootRuns s = true → (portPins s p k second).bck = some (second != s.bit .SAP_CFG p 22)) ∧
  (readPins s p f = none → exec (.portFrame p f) s = .next s) ∧
  (live → ∀ r, readPins s p f = some r → let good := frameGood s p r
    gives (.portFrame p f) s (fun t => kept t ∧
    (st = Sap.IDLE ∨ st = Sap.RETIRED → t = s) ∧
    (st = Sap.LOCKED → good = false → lost t ∧ t.bit .SAP_FAULT p 0 = true) ∧
    (st = Sap.LOCKED → good = true → sapState t p = st ∧ t.bit .SAP_STAT p 27 = false ∧ Store.get natZero t.port.left p = 0 ∧
      ∀ k < sapSlots s p, Store.get zeroOf (if lateIn s p then t.port.capLate else t.port.cap) (16 * p + k) =
        BitVec.ofNat 24 ((r.slots.getD k 0).toNat % 2 ^ sapWl s p * 2 ^ (24 - sapWl s p))) ∧
    (st = Sap.SEARCH ∨ st = Sap.CONFIRM → good = true → if Store.get natZero s.port.good p = 3 then locks r t
      else Store.get natZero s.port.good p < 3 → sapState t p = Sap.CONFIRM ∧
        Store.get natZero t.port.good p = Store.get natZero s.port.good p + 1) ∧
    (st = Sap.SEARCH ∨ st = Sap.CONFIRM → good = false → s.port.fails = [] → sapState t p = Sap.SEARCH ∧
      t.bit .SAP_FAULT p 0 = true ∧ t.bit .SAP_FAULT p 2 = true ∧ Store.get natZero t.port.good p = 0 ∧
      t.f .SAP_SYNC_CNT p 14 0 = min (s.f .SAP_SYNC_CNT p 14 0 + 1) 32767 ∧ t.port.fails = [(p.val, s.time.hub)]))) ∧
  (live → gives (.frameTimeout p) s (fun t => kept t ∧
    (sapMode s p = 0 ∨ ¬ (st = Sap.CONFIRM ∨ st = Sap.LOCKED) → t = s) ∧
    (sapMode s p ≠ 0 → st = Sap.CONFIRM → sapState t p = Sap.SEARCH ∧ Store.get natZero t.port.good p = 0) ∧
    (sapMode s p ≠ 0 → st = Sap.LOCKED → lost t))) ∧
  (live → gives (.concealExpire p) s (fun t => kept t ∧
    if s.bit .SAP_STAT p 27 = true ∧ Store.get natZero s.port.left p = 0 then t.bit .SAP_STAT p 27 = false ∧
      ∀ k < 16, Store.get zeroOf t.fab.portIn (16 * p + k) = 0 ∧ Store.get zeroOf t.port.cap (16 * p + k) = 0
    else t = s)) ∧
  doesSome (.asrcChCfgWrite m n v) m .ASRC_CH_n_CFG n s (fun u =>
    let a := fld v 9 0
    let clash := sapMode s (a / 16) ≠ 2 ∨ ∃ k : Fin 256, k ≠ n ∧ asrcEn s k = true ∧ asrcAddr s k = a
    (asrcEn s n = false → asrcAddr u n = a ∧ (clash → bitOf v 31 = true → asrcEn u n = false ∧ u.bit .ASRC_FAULT 0 31 = true) ∧
      (¬ clash → asrcEn u n = bitOf v 31) ∧
      (¬ clash → bitOf v 31 = true → if turnsOn s then u.dev.pendNew = queued (.asrcEn n true) s else u.asrc.on.contains n.val = true)) ∧
    (asrcEn s n = true → asrcAddr u n = asrcAddr s n ∧ asrcEn u n = bitOf v 31 ∧
      (bitOf v 31 = false → if turnsOn s then u.dev.pendNew = queued (.asrcEn n false) s else u.asrc.on.contains n.val = false) ∧
      (a ≠ asrcAddr s n → u.bit .ASRC_FAULT 0 31 = true))) ∧
  (live → domainOn s 5 = true → st = Sap.LOCKED → sapMode s p = 2 → trkLocked s p = false → gives (.trackerLock p ratio) s (fun t =>
    let hz := ratio * frameRate s
    if hz < 7500 * 2 ^ 23 ∨ 200000 * 2 ^ 23 < hz then t = s.setBit .ASRC_TRK_p p 29 true
    else trkLocked t p = true ∧ t.f .ASRC_TRK_p p 27 0 = ratio % 2 ^ 28 ∧ t.bit .EVT_RAW_w 1 10 = true ∧
      regsKept [(.ASRC_TRK_p, p), (.EVT_RAW_w, 1)] s t ∧ t = { s with regs := t.regs })) ∧
  (Machine.up s = true → domainOn s 5 = true → gives (.trackerUnlock p) s (fun t =>
    if trkLocked s p = true then trkLocked t p = false ∧ t.bit .ASRC_TRK_p p 30 = true ∧ t.bit .EVT_RAW_w 1 11 = true ∧
      t.f .ASRC_UNLOCK_CNT 0 15 0 = min (s.f .ASRC_UNLOCK_CNT 0 15 0 + 1) 65535 ∧ t = { s with regs := t.regs }
    else t = s))

/-- R261, R269 to R272: the guard evaluation of a turn, in channel order: the DC mean, the clip run, the faults they bring and what each does
by its RESP, the record of the first, the outputs; its mute; the clear of faults; the pin MUTE_N. How the mean is kept, and which of two
faults of one evaluation is recorded, are the model's readings (log entry 59). -/
def Obligations.Guards : Prop := ∀ (m : Initiator) (w : Fin 32) (l : Fin 8) (v : Word) (low : Bool) (s : State),
  let xm := s.guard.latch || s.guard.low
  let chans := guardPorts s ++ guardLinks s
  let x (a : Nat) : Int := if a < 0x400 then ofSample (Store.get zeroOf s.port.stage a) else ofSample (Store.get zeroOf s.link.stage (a - 0x400))
  let ceil (a : Nat) : Int := s.f .GUARD_PROF_n_CEIL (guardProf s a) 22 0
  let slew (a : Nat) : Int := s.f .GUARD_PROF_n_SLEW (guardProf s a) 22 0
  let dcExp (a : Nat) : Nat := s.f .GUARD_PROF_n_DC (guardProf s a) 31 28
  let mean (a : Nat) : Int :=
    let old := (Store.get zeroOf s.guard.mean a).toInt
    old + sar (x a * 2 ^ 16 - old) (dcExp a)
  let dcn (a : Nat) : Nat := if s.f .GUARD_PROF_n_DC (guardProf s a) 22 0 < (sar (mean a) 16).natAbs then
    min (Store.get natZero s.guard.dcn a + 1) 65535 else 0
  let run (a : Nat) : Nat :=
    if x a < -(ceil a) - 1 ∨ ceil a < x a then min (Store.get natZero s.guard.run a + 1) 65535 else 0
  let dcFault (a : Nat) : Bool := dcExp a != 0 && decide (max (s.f .GUARD_PROF_n_HOLD (guardProf s a) 31 16) 1 ≤ dcn a)
  let clipFault (a : Nat) : Bool :=
    s.f .GUARD_PROF_n_HOLD (guardProf s a) 15 0 != 0 && decide (s.f .GUARD_PROF_n_HOLD (guardProf s a) 15 0 ≤ run a)
  let new (a : Nat) : Bool := !guardFaulty s a && (dcFault a || clipFault a)
  let alone (a : Nat) : Bool := guardResp s a == 1 || guardResp s a == 3
  let mutes (a : Nat) : Bool := s.guard.muted.contains a || (new a && alone a)
  let outMutes (o : Nat) : Bool := s.guard.outMuted.contains o || chans.any (fun b => new b && guardResp s b == 2 && guardOut b == o)
  let ext (a : Nat) : Bool := xm && extMuted (s.setBit .GUARD_STATUS 0 1 true) a
  let c (a : Nat) : Int := if mutes a || outMutes (guardOut a) || ext a then 0 else clampI (-(ceil a) - 1) (ceil a) (x a)
  let y (a : Nat) : Int :=
    let y0 := ofSample (Store.get zeroOf s.guard.yPrev a)
    if slew a = 0 then c a else clampI (y0 - slew a) (y0 + slew a) (c a)
  (turnsOn s = true → s.bit .SYS_STATE 0 4 = false → chans.Nodup → gives .guardEvaluation s (fun t =>
    (∀ a ∈ chans, ofSample (Store.get zeroOf t.guard.yPrev a) = sxN 24 (toU 24 (y a)) ∧ Store.get natZero t.guard.run a = run a ∧
      (dcExp a ≠ 0 → Store.get zeroOf t.guard.mean a = BitVec.ofInt 40 (mean a) ∧ Store.get natZero t.guard.dcn a = dcn a) ∧
      guardFaulty t a = (guardFaulty s a || new a) ∧ t.guard.muted.contains a = mutes a) ∧
    (∀ o, t.guard.outMuted.contains o = outMutes o) ∧
    t.guard.lfault = s.guard.lfault ++ chans.filter (fun a => new a && decide (0x400 ≤ a)) ∧
    (chans.any new = true → t.bit .EVT_RAW_w 1 12 = true) ∧
    (if s.bit .GUARD_FIRST_0 0 31 then t.reg .GUARD_FIRST_0 0 = s.reg .GUARD_FIRST_0 0 ∧ t.reg .GUARD_FIRST_1 0 = s.reg .GUARD_FIRST_1 0
      else match chans.find? new with
        | some a => t.reg .GUARD_FIRST_0 0 = BitVec.ofNat 32 (2 ^ 31 + (if dcFault a then 1 else 2) * 2 ^ 29 + a) ∧
            t.reg .GUARD_FIRST_1 0 = Machine.stamp s
        | none => t.reg .GUARD_FIRST_0 0 = s.reg .GUARD_FIRST_0 0 ∧ t.reg .GUARD_FIRST_1 0 = s.reg .GUARD_FIRST_1 0) ∧
    (∀ k : Fin 8, t.reg .GUARD_LFAULT_l k = if s.bit .GUARD_LFAULT_l k 31 then s.reg .GUARD_LFAULT_l k
      else match chans.find? (fun a => new a && decide (0x400 ≤ a) && (a - 0x400) / 512 == k.val) with
        | some a => BitVec.ofNat 32 (2 ^ 31 + (a - 0x400) % 512)
        | none => s.reg .GUARD_LFAULT_l k) ∧
    (∀ a ∈ chans, a < 0x400 → Store.get zeroOf t.port.sent a =
      if sapState s (a / 16) = Sap.LOCKED then BitVec.ofNat 32 (toU (sapWl s (a / 16)) (formatWord (sapWl s (a / 16))
        (s.bit .SAP_CFG (a / 16) 23) (if lateOut s (a / 16) then ofSample (Store.get zeroOf s.guard.yPrev a) else y a)))
      else 0) ∧
    (∀ a ∈ chans, 0x400 ≤ a → Store.get zeroOf t.link.guarded (a - 0x400) = toSample (y a)) ∧
    t.bit .GUARD_STATUS 0 1 = xm ∧ t.guard.latch = s.guard.low ∧ (xm = true → s.bit .GUARD_STATUS 0 1 = false → t.bit .EVT_RAW_w 1 13 = true) ∧
    t.bit .GUARD_STATUS 0 0 = !(faultChannels t).isEmpty ∧
    t.bit .GUARD_STATUS 0 2 = (faultChannels t).any (fun a => guardResp s a == 3) ∧
    t.bit .SYS_STATE 0 22 = (faultChannels t).any (fun a => guardResp s a == 3) ∧
    t.mem = s.mem ∧ t.wmem = s.wmem ∧ t.hart = s.hart ∧ t.eng = s.eng ∧ t.time = s.time)) ∧
  (turnsOn s = true → s.bit .SYS_STATE 0 4 = true → gives .guardEvaluation s (fun t =>
    t.port.sent = [] ∧ t.link.guarded = [] ∧ t.guard.yPrev = [] ∧ t.guard.mean = s.guard.mean ∧ t.guard.run = s.guard.run)) ∧
  doesSome (.guardPfaultClear m w v) m .GUARD_PFAULT_w w s (fun u =>
    u.reg .GUARD_PFAULT_w w = s.reg .GUARD_PFAULT_w w &&& ~~~ v ∧
    (∀ i : Fin 32, bitOf v i = true → s.bit .GUARD_PFAULT_w w i = true → Store.get zeroOf u.guard.mean (32 * w + i) = 0 ∧
      Store.get natZero u.guard.dcn (32 * w + i) = 0 ∧ Store.get natZero u.guard.run (32 * w + i) = 0 ∧
      u.guard.muted.contains (32 * w.val + i.val) = false) ∧
    u.bit .GUARD_STATUS 0 0 = !(faultChannels u).isEmpty ∧
    u.bit .SYS_STATE 0 22 = (faultChannels u).any (fun a => guardResp s a == 3) ∧
    (∀ o, u.guard.outMuted.contains o = (s.guard.outMuted.contains o && (faultChannels u).any (fun a => guardOut a == o)))) ∧
  doesSome (.guardLfaultClear m l v) m .GUARD_LFAULT_l l s (fun u => u.bit .GUARD_LFAULT_l l 31 = false ∧
    u.guard.lfault = s.guard.lfault.filter (fun a => (a - 0x400) / 512 != l.val) ∧
    u.bit .GUARD_STATUS 0 0 = !(faultChannels u).isEmpty ∧
    u.bit .SYS_STATE 0 22 = (faultChannels u).any (fun a => guardResp s a == 3)) ∧
  exec (.muteN low) s = .next { s with guard := { s.guard with low := low, latch := s.guard.latch || low } }

/-! Cascade links. -/

/-- R279 to R291, R299 to R302: the enable and commands of a link, what its lane carries, its frames as they are read from the symbols, its
states, errors and counts, and its wake. The model's readings and choices: the byte order of the header's and the slots' numbers (log
entry 88), failed frames under a far STOP (log entry 30), concealment at RETRAIN, the loss of alignment in UP only and the pins of a
disabled link (log entry 60), the wakes that a link's pattern asks for (log entry 32), and the code groups behind the symbols (log entry
100). -/
def Obligations.LinkStates : Prop := ∀ (m : Initiator) (l : Fin 8) (f : LinkFrame) (pattern : Bool) (v : Word) (s : State),
  let st := linkState s l
  let live := Machine.up s = true ∧ domainOn s (domLink l) = true
  let noRef := s.synth.use.refSel ≠ 8 + l.val
  let frame (r : List (RegName × Nat)) (t : State) : Prop := regsKept r s t ∧ t = { s with regs := t.regs, link := t.link }
  let ev (b : Nat) (t : State) : Prop := t.bit .EVT_RAW_w 1 b = true
  let silent (t : State) : Prop := ∀ c < 512, Store.get zeroOf t.link.phys (512 * l + c) = 0
  let retrains (t : State) : Prop := linkState t l = Lk.ALIGN ∧ t.bit .LINK_STAT l 26 = true ∧ Store.get natZero t.link.away l = 1 ∧
    Store.get natZero t.link.left l = s.f .LINK_CFG l 15 8 + 1
  let clocked := (synState s = Syn.LOCKED ∨ synState s = Syn.COAST) ∧ onBackup s = false
  let line := clocked ∧ sysState s ≠ St.HALT ∧ st ≠ Lk.IDLE ∧ st ≠ Lk.RETIRED ∧ st ≠ Lk.SIGNAL
  let sends (stop : Bool) (t : State) : Prop :=
    let mine := s.link.outbox.filter (fun x => x.1 == l.val)
    let n := Store.get natZero s.link.seq l
    t = { s with link := { s.link with sent := t.link.sent, seq := t.link.seq, outbox := t.link.outbox, wakeReq := t.link.wakeReq,
                                       wakes := t.link.wakes } } ∧
    ∃ x, t.link.sent.filter (fun y => y.1 == l.val) = [(l.val, x)] ∧ x.train = decide (st = Lk.ALIGN ∨ st = Lk.TRAIN) ∧
      x.stop = stop ∧ x.mute = (!stop && s.bit .SYS_STATE 0 4) ∧ x.rxOk = s.link.rxOk.contains l.val ∧ x.pos = myPos s ∧
      x.posValid = posValid s ∧ x.rate = s.f .SYS_TURN_CFG 0 1 0 ∧ x.family = s.bit .SYS_TURN_CFG 0 4 ∧ x.seq = n ∧
      Store.get natZero t.link.seq l = (n + 1) % 65536 ∧ x.echo = Store.get natZero s.link.echo l ∧ x.link = l.val ∧
      (∀ c < 512, Store.get zeroOf x.audio (512 * l + c) =
        if x.train = true ∨ x.mute = true ∨ stop = true then 0 else Store.get zeroOf s.link.guarded (512 * l + c)) ∧
      x.hold = (s.time.grid * turnLen s + 64 - Store.get natZero s.link.arrived l) % 65536 ∧
      x.wake = (s.link.wakeReq.contains l.val && decide (st = Lk.UP)) ∧
      x.rd = laneRd s l ∧ x.msgs = (mine.take 16).map (fun y => y.2) ∧ t.link.outbox.filter (fun y => y.1 == l.val) = mine.drop 16 ∧
      t.link.wakeReq.contains l.val = false ∧
      Store.get natZero t.link.wakes l =
        Store.get natZero s.link.wakes l + b2n (s.link.wakeReq.contains l.val && decide (st = Lk.UP))
  let near := s.link.crc.filter (fun x => x.1 == l.val && decide (s.time.grid - x.2 ≤ 65535))
  let err (t : State) : Prop := t.bit .LINK_FAULT l 0 = true ∧ t.link.rxOk.contains l.val = false ∧
    if s.link.farStop.contains l.val = true then linkState t l = st ∧ frame [(.LINK_FAULT, l)] t
    else t.f .LINK_CRC_CNT l 23 0 = min (s.f .LINK_CRC_CNT l 23 0 + 1) 0xFFFFFF ∧
      (near.length < 16 → linkState t l = st ∧ frame [(.LINK_FAULT, l), (.LINK_CRC_CNT, l)] t) ∧
      (16 ≤ near.length → turnsOn s = true → s.link.retiring = [] → t.dev.pendNew = queued (.retireLink l 17) s) ∧
      (16 ≤ near.length → turnsOn s = false → linkState t l = Lk.RETIRED ∧ ev 18 t)
  let calm := Store.get natZero s.link.viol l + violations f.syms < 4 ∧ commaOut f.syms = false
  let n := Store.get natZero s.link.good l
  (lineContent s l = if st = Lk.IDLE ∨ st = Lk.RETIRED ∨ domainOn s (domLink l) = false ∨ ¬ clocked ∨
      (sysState s = St.HALT ∧ s.f .SYS_STATE 0 15 8 = 2) then .electricalIdle
    else if sysState s = St.HALT then .fault else if st = Lk.SIGNAL then .idle else .frames) ∧
  (bitOf v 4 = false → bitOf v 5 = false → doesSome (.linkEnWrite m l v) m .LINK_CTRL l s (fun u => u.bit .LINK_CTRL l 0 = bitOf v 0 ∧
    (turnsOn s = true → u.dev.pendNew = queued (.linkEn l (bitOf v 0)) s ∧ linkState u l = st) ∧
    (bitOf v 0 = true → turnsOn s = false → linkState u l = if st = Lk.IDLE then Lk.SIGNAL else st) ∧
    (bitOf v 0 = false → turnsOn s = false → st ≠ Lk.RETIRED → linkState u l = Lk.IDLE ∧ silent u ∧
      u.link.outbox = s.link.outbox.filter (fun x => x.1 != l.val)))) ∧
  (bitOf v 0 = true → bitOf v 4 = false → doesSome (.retrain m l v) m .LINK_CTRL l s (fun u =>
    u.reg .LINK_RETRAIN_CNT l = s.reg .LINK_RETRAIN_CNT l ∧ (st = Lk.UP → retrains u ∧ ev 17 u) ∧ (st = Lk.TRAIN → linkState u l = Lk.ALIGN) ∧
    (st ≠ Lk.UP → st ≠ Lk.TRAIN → st ≠ Lk.IDLE → linkState u l = st))) ∧
  (bitOf v 0 = true → bitOf v 5 = false → st ≠ Lk.IDLE → does (.wakeTx m l v) m .LINK_CTRL l s
    (let u := s.setBit .LINK_CTRL l 0 true
     let u := if turnsOn s then { u with dev := { s.dev with pendNew := queued (.linkEn l true) s } } else u
     if st = Lk.UP then { u with link := { s.link with wakeReq := l.val :: s.link.wakeReq.filter (fun x => x != l.val) } }
     else if st = Lk.SIGNAL then
       { u with link := { s.link with wakes := Store.set natZero s.link.wakes l (Store.get natZero s.link.wakes l + 1) } }
     else u)) ∧
  (live → gives (.linkFrameTx l) s (fun t => if line ∧ turnsOn s = true then sends false t else t = s)) ∧
  (live → gives (.frameTimer l) s (fun t => if line ∧ turnsOn s = false then sends true t else t = s)) ∧
  (live → gives (.signalDetect l) s (fun t =>
    if st = Lk.SIGNAL then linkState t l = Lk.ALIGN ∧ frame [(.LINK_STAT, l)] t else t = s)) ∧
  (live → gives (.alignmentAchieved l) s (fun t =>
    if st = Lk.ALIGN then linkState t l = Lk.TRAIN ∧ Store.get natZero t.link.good l = 0 ∧ frame [(.LINK_STAT, l)] t else t = s)) ∧
  (live → st ≠ Lk.UP → st ≠ Lk.TRAIN → exec (.linkFrame l f) s = .next s) ∧
  (live → st = Lk.UP → ∀ r, readFrame f = some r →
    let off := (r.arrival + 2 * turnLen s - (64 + s.f .LINK_DELAY l 9 0)) % turnLen s
    ∃ t, exec (.linkFrame l f) s = .next (symbolErrors l f.syms (r.msgs.foldl (fun u q => messageStep l q u) t)) ∧
      frame [(.LINK_STAT, l)] t ∧ linkState t l = st ∧
      t.f .LINK_STAT l 23 20 = r.pos ∧ t.bit .LINK_STAT l 19 = r.posValid ∧ t.f .LINK_STAT l 18 16 = r.link ∧
      t.bit .LINK_STAT l 27 = (decide (off ≤ 8) || decide (turnLen s ≤ off + 8)) ∧ t.link.rxOk.contains l.val = true ∧
      t.link.farStop.contains l.val = r.stop ∧ Store.get natZero t.link.echo l = r.seq.toNat ∧
      Store.get natZero t.link.arrived l = s.time.grid * turnLen s + r.arrival ∧
      (turnsOn s = false ∨ (r.train = true ∧ r.stop = false ∧ r.mute = false) → t.link.due = s.link.due ∧ t.link.rx = s.link.rx) ∧
      (r.train = false ∨ r.stop = true ∨ r.mute = true → turnsOn s = true → t.link.due.contains l.val = true ∧ ∀ c < 512, Store.get zeroOf t.link.rx (512 * l + c) =
        if r.stop = true ∨ r.mute = true ∨ linkChannels s ≤ c then 0 else r.audio.getD c 0)) ∧
  (live → st = Lk.UP → readFrame f = none → calm → gives (.linkFrame l f) s err) ∧
  (live → st = Lk.UP → readFrame f = none → ¬ calm → near.length < 16 ∨ turnsOn s = true → gives (.linkFrame l f) s (fun t =>
    retrains t ∧ ev 17 t ∧ t.bit .LINK_FAULT l 0 = true ∧ t.bit .LINK_FAULT l 1 = true ∧
    t.f .LINK_RETRAIN_CNT l 30 16 = min (s.f .LINK_RETRAIN_CNT l 30 16 + 1) 32767)) ∧
  (live → gives (.missingFrame l) s (fun t => if st = Lk.UP then err t
    else if st = Lk.TRAIN then Store.get natZero t.link.good l = 0 ∧ t.link.rxOk.contains l.val = false ∧ frame [] t
    else t = s)) ∧
  (live → st = Lk.TRAIN → gives (.linkFrame l f) s (fun t =>
    (readFrame f = none → linkState t l = st ∧ Store.get natZero t.link.good l = 0 ∧ t.link.rxOk.contains l.val = false ∧ frame [] t) ∧
    (∀ r, readFrame f = some r → let d := (r.rtt - r.hold) / 2 - 40
      let wrong := r.rate.val ≠ s.f .SYS_TURN_CFG 0 1 0 ∨ r.family ≠ s.bit .SYS_TURN_CFG 0 4
      let takes := isHead s = false ∧ s.f .LINK_CFG l 1 0 = 1 ∧ r.posValid = true
      let clash := takes ∧ (r.pos.val = 15 ∨ (s.bit .LINK_POS 0 4 = true ∧ s.f .LINK_POS 0 3 0 ≠ r.pos.val + 1))
      (calm → t.link.rxOk.contains l.val = true) ∧
      (wrong → linkState t l = st ∧ t.bit .LINK_FAULT l 3 = true ∧ Store.get natZero t.link.good l = 0) ∧
      (¬ wrong → clash → linkState t l = st ∧ t.bit .LINK_FAULT l 4 = true ∧ Store.get natZero t.link.good l = 0) ∧
      (¬ wrong → ¬ clash → takes → t.bit .LINK_POS 0 4 = true ∧ t.f .LINK_POS 0 3 0 = r.pos.val + 1) ∧
      (¬ wrong → ¬ clash → 512 < d → linkState t l = st ∧ t.bit .LINK_FAULT l 5 = true ∧ Store.get natZero t.link.good l = 0) ∧
      (¬ wrong → ¬ clash → d ≤ 512 →
        if r.rxOk = true ∧ 7 ≤ n then ev 16 t ∧ t.f .LINK_DELAY l 9 0 = d ∧ t.f .LINK_DELAY l 31 28 = 1 ∧
          (¬ calm → linkState t l = Lk.ALIGN) ∧
          (calm → linkState t l = Lk.UP ∧ t.reg .LINK_RETRAIN_CNT l = s.reg .LINK_RETRAIN_CNT l ∧
            frame [(.LINK_STAT, l), (.LINK_DELAY, l), (.LINK_POS, 0), (.EVT_RAW_w, 1)] t)
        else linkState t l = st ∧ Store.get natZero t.link.good l = (if r.rxOk then n + 1 else 0) ∧
          frame [(.LINK_STAT, l), (.LINK_POS, 0)] t)))) ∧
  (live → gives (.lossOfAlignment l) s (fun t => if st = Lk.UP then retrains t ∧ ev 17 t ∧ t.bit .LINK_FAULT l 1 = true ∧
      t.f .LINK_RETRAIN_CNT l 30 16 = min (s.f .LINK_RETRAIN_CNT l 30 16 + 1) 32767 ∧ t.bit .LINK_STAT l 27 = false ∧
      (noRef → frame [(.LINK_STAT, l), (.LINK_FAULT, l), (.LINK_RETRAIN_CNT, l), (.EVT_RAW_w, 1)] t) ∧
      (¬ noRef → synState s = Syn.LOCKED → synState t = Syn.COAST)
    else t = s)) ∧
  (live → gives (.linkConcealExpire l) s (fun t => if s.bit .LINK_STAT l 26 = true ∧ Store.get natZero s.link.left l = 0 then
      t.bit .LINK_STAT l 26 = false ∧ silent t ∧ linkState t l = st ∧ regsKept [(.LINK_STAT, l)] s t ∧
      t = { s with regs := t.regs, link := t.link, fab := { s.fab with linkIn := t.fab.linkIn } }
    else t = s)) ∧
  (live → gives (.retrainTimeout l) s (fun t =>
    let k := s.f .LINK_RETRAIN_CNT l 3 0 + 1
    if 256 < Store.get natZero s.link.away l then t.f .LINK_RETRAIN_CNT l 3 0 = min k 8 ∧
      (k < 8 → linkState t l = Lk.ALIGN ∧ Store.get natZero t.link.away l = 1) ∧
      (k < 8 → st ≠ Lk.UP → frame [(.LINK_STAT, l), (.LINK_RETRAIN_CNT, l)] t) ∧
      (8 ≤ k → turnsOn s = true → s.link.retiring = [] → t.dev.pendNew = queued (.retireLink l 8) s) ∧
      (8 ≤ k → turnsOn s = false → st ≠ Lk.RETIRED → linkState t l = Lk.RETIRED ∧ ev 18 t)
    else t = s)) ∧
  (live → gives (.failReset l) s (fun t => if st = Lk.UP ∧ 65536 ≤ Store.get natZero s.link.upTurns l then
      t = s.setF .LINK_RETRAIN_CNT l 3 0 0 else t = s)) ∧
  (live → gives (.faultReceived l) s (fun t => if st = Lk.UP ∨ st = Lk.ALIGN ∨ st = Lk.TRAIN then
      linkState t l = Lk.FAULT_RX ∧ t.bit .LINK_FAULT l 2 = true ∧ ev 19 t ∧ silent t ∧ (st = Lk.UP → ev 17 t) ∧
      t.reg .LINK_CRC_CNT l = s.reg .LINK_CRC_CNT l ∧ t.reg .LINK_RETRAIN_CNT l = s.reg .LINK_RETRAIN_CNT l
    else t = s)) ∧
  (live → gives (.faultRxEnd l) s (fun t =>
    if st = Lk.FAULT_RX then linkState t l = Lk.ALIGN ∧ frame [(.LINK_STAT, l)] t else t = s)) ∧
  (Machine.up s = true → gives (.linkWake l pattern) s (fun t =>
    if (pattern = true ∨ wakeMode s l = false) ∧ s.bit .PWR_WAKE_EN 0 27 = true ∧ domainDown s (domLink l) = true ∧ inRequest s (domLink l) = false then
      t.pwr.wake = s.pwr.wake ++ [(domLink l, decide (domainCode s (domLink l) = Dom.OFF))] ∧ domainCode t (domLink l) = Dom.MOVING ∧
      (s.pwr.wokeAt ≠ s.time.hub + 1 → t.reg .PWR_LAST_WAKE 0 = BitVec.ofNat 32 (2 ^ 31 + domLink l * 256 + 27) ∧ t.bit .EVT_RAW_w 2 26 = true)
    else ((pattern = false ∧ wakeMode s l = true) ∨ s.bit .PWR_WAKE_EN 0 27 = false → t = s) ∧
      (domainOn s (domLink l) = true → inRequest s (domLink l) = false →
        t = { s with pwr := { s.pwr with firedAt := t.pwr.firedAt, fired := t.pwr.fired } })))

/-- R292 to R298: the messages that arrive on a link, reroutes, the alternate route table and the tunnel. The status of a tunnelled access
that has no effect (log entry 38), the messages of a link that is not UP (log entry 30) and the latency of a reroute (log entry 62) are
the model's readings. -/
def Obligations.LinkMessages : Prop := ∀ (m : Initiator) (l : Fin 8) (i : Fin 2048) (q : Msg) (seg cnt : BitVec 8) (v : Word) (s : State),
  let live := Machine.up s = true ∧ domainOn s (domLink l) = true ∧ linkState s l = Lk.UP
  let pick (up : Bool) : Option Nat := (List.range 8).find? (fun k => linkState s k == Lk.UP && (s.f .LINK_CFG k 1 0 == 1) == up)
  let sg := s.f .LINK_RING_STAT 0 3 0
  let act := s.bit .LINK_RING_STAT 0 31
  let ring := s.bit .LINK_RING_CFG 0 31
  let pos := if isHead s then 0 else s.f .LINK_POS 0 3 0
  let crosses (d : Nat) : Bool := act && (if pos ≤ d then decide (pos ≤ sg) && decide (sg < d) else decide (pos ≤ sg) || decide (sg < d))
  let route (request : Bool) (d : Nat) : Option Nat := if ring then pick (crosses d) else pick (!request)
  let out (k : Option Nat) (x : Msg) : State := match k with
    | some k => { s with link := { s.link with outbox := s.link.outbox ++ [(k, x)] } }
    | none => s
  let answer (k : MsgKind) (status : Nat) (data : Word) : Msg := ⟨k, q.src, q.dst, q.tag, BitVec.ofNat 8 status, q.addr, data⟩
  let bad (t : State) : Prop := t.f .LINK_TUN_STAT 0 14 0 = min (s.f .LINK_TUN_STAT 0 14 0 + 1) 32767 ∧
    regsKept [(.LINK_TUN_STAT, 0)] s t ∧ t = { s with regs := t.regs }
  let mine := q.dst.val = pos ∧ q.src.val = 0
  let a := q.addr.toNat
  let idle := s.host.tx.any (fun y => y.m == 3) = false
  let owns := a = 0x40000040 ∨ a = 0x40000048 ∨ a = 0x4000004C
  let completes (k : MsgKind) (t : State) : Prop := match s.link.tun with
    | none => t = s
    | some (tag, rd, _) => if q.tag.toNat ≠ tag then t = s else
        t.link.tun = none ∧ t.bit .LINK_TUN_STAT 0 31 = false ∧ t.bit .LINK_TUN_STAT 0 30 = true ∧
        t.f .LINK_TUN_STAT 0 23 16 = q.status.toNat ∧ t.bit .EVT_RAW_w 1 21 = true ∧
        t.reg .LINK_TUN_DATA 0 = (if rd && k == .readResp then q.data else s.reg .LINK_TUN_DATA 0) ∧
        regsKept [(.LINK_TUN_STAT, 0), (.LINK_TUN_DATA, 0), (.EVT_RAW_w, 1)] s t ∧
        t = { s with regs := t.regs, link := { s.link with tun := none } }
  let due := s.link.reroute.filter (fun r => decide (r.left ≤ 1))
  let rest := s.link.reroute.filter (fun r => decide (1 < r.left))
  let reaches := Machine.up s = true ∧ domainOn s 2 = true ∧ still m 2 s = true ∧ unheld (0x43081000 + 4 * i) s = true ∧
    match m with
    | .host k => jtagOpen k (0x43081000 + 4 * i) s = true ∧ sysState s ≠ St.HALT ∧ isOwner s k = true ∧ credit k s = true
    | _ => sysState s ≠ St.HALT ∧ poolFull m s = false
  let turned := s.link.tun.isSome = true ∨ pos ≠ 0 ∨ (isHead s = false ∧ s.bit .LINK_POS 0 4 = false)
  (live → ∀ x ∈ [(Instr.readRequest l q, MsgKind.readReq, MsgKind.readResp), (.writeRequest l q, .writeReq, .writeResp),
      (.ownershipMessage l q, .owner, .writeResp)],
    (q.dst.val ≠ pos → exec x.1 s = .next (match route true q.dst with
      | some k => out (some k) { q with kind := x.2.1 }
      | none => out (route false q.src) (answer x.2.2 3 0))) ∧
    (q.dst.val = pos → q.src.val ≠ 0 → gives x.1 s bad)) ∧
  (live → ∀ x ∈ [(Instr.readResponse l q, MsgKind.readResp), (.writeResponse l q, .writeResp)],
    (q.dst.val ≠ pos → exec x.1 s = .next (out (route false q.dst) { q with kind := x.2 })) ∧
    (q.dst.val = pos → gives x.1 s (completes x.2))) ∧
  (live → mine → credit 3 s = true → domainOn s 2 = true → inRequest s 2 = false → regionOf a = .hub → a % 4 = 0 → gives (.readRequest l q) s (fun t =>
    regsKept [(.HOSTIF_MSTAT_m, 3)] s t ∧ t = { out (route false 0) (answer .readResp 0 (wordOfBytes (getBytes s a 4))) with
      regs := t.regs, host := { s.host with answer := t.host.answer, rr := t.host.rr, lease := t.host.lease } })) ∧
  (live → mine → ∀ (r : RegName) (j : Nat), a = Reg.addr r j → lands (.host 3) r j s = true → ¬ owns →
    ∃ u, exec (.registerWrite (.host 3) q.addr q.data) s = .next u ∧
      exec (.writeRequest l q) s = .next (sendMsg (answer .writeResp 0 0) u)) ∧
  (live → mine → idle → sysState s ≠ St.HALT → isOwner s 3 = false → a % 4 = 0 → ¬ owns → a ≠ Reg.addr .HOSTIF_MSTAT_m 3 →
    gives (.writeRequest l q) s (fun t => ∃ u, t = sendMsg (answer .writeResp 2 0) u ∧ u.bit .HOSTIF_MSTAT_m 3 31 = true ∧
      u.f .HOSTIF_WIGN_CNT_m 3 23 0 = min (s.f .HOSTIF_WIGN_CNT_m 3 23 0 + 1) 0xFFFFFF ∧ u.mem = s.mem ∧ u.wmem = s.wmem)) ∧
  (live → mine → ¬ owns → exec (.ownershipMessage l q) s = .next (out (route false 0) (answer .writeResp 1 0))) ∧
  (live → mine → a = 0x40000040 → q.data = 0x64000001 → lands (.host 3) .SYS_OWNER_CLAIM 0 s = true → gives (.ownershipMessage l q) s (fun t =>
    (ownerValid s = false → ∃ u, t = sendMsg (answer .writeResp 0 0) u ∧ u.reg .SYS_OWNER 0 = 0xB0000000 ∧ u.bit .EVT_RAW_w 0 2 = true) ∧
    (ownerValid s = true → ownerIdx s ≠ 3 → ∃ u, t = sendMsg (answer .writeResp 2 0) u ∧ u.reg .SYS_OWNER 0 = s.reg .SYS_OWNER 0 ∧
      u.bit .HOSTIF_MSTAT_m 3 27 = true))) ∧
  (live → gives (.reroute l seg cnt) s (fun t =>
    (ring = false ∨ (act = true ∧ sg = seg.toNat) ∨ (∃ r ∈ s.link.reroute, r.seg = seg.toNat) → t = s) ∧
    (ring = true → act = true → sg ≠ seg.toNat → (∀ r ∈ s.link.reroute, r.seg ≠ seg.toNat) → t = s.setBit .LINK_RING_STAT 0 29 true) ∧
    (ring = true → act = false → (∀ r ∈ s.link.reroute, r.seg ≠ seg.toNat) →
      t.bit .LINK_RING_STAT 0 30 = true ∧
      t.f .LINK_RING_STAT 0 3 0 = (if s.bit .LINK_RING_STAT 0 30 then sg else seg.toNat % 16) ∧
      t.link.reroute = s.link.reroute ++ [⟨seg.toNat, max cnt.toNat 1, l⟩] ∧ t.bit .LINK_RING_STAT 0 28 = (s.bit .LINK_RING_STAT 0 28 || decide (cnt = 0)) ∧
      t.link.outbox = s.link.outbox ++ ((List.range 8).filter (fun k => linkState s k == Lk.UP && k != l.val)).map (fun k =>
        (k, ⟨.reroute, 0, 0, 0, 0, BitVec.ofNat 32 ((cnt.toNat - 1) * 256 + seg.toNat), 0⟩)) ∧
      regsKept [(.LINK_RING_STAT, 0)] s t ∧
      t = { s with regs := t.regs, link := { s.link with outbox := t.link.outbox, reroute := t.link.reroute } }))) ∧
  (Machine.up s = true → domainOn s 2 = true → gives .rerouteTarget s (fun t => match due with
    | [] => t = s
    | r :: more =>
      let inSeg (k : Nat) : Bool := linkState s k != Lk.IDLE && segmentOf s k == r.seg
      let inForce := ((List.range 1024).map (altEntry s)).filter (fun e => e.kind == 2 && (e.any || e.seg == r.seg % 16))
      let lat := inForce.foldl (fun n e => max n e.hops) 0
      t.link.reroute = rest ∧ t.bit .LINK_RING_STAT 0 30 = !rest.isEmpty ∧ t.bit .LINK_RING_STAT 0 31 = true ∧
      (act = true ∨ more ≠ [] → t.bit .LINK_RING_STAT 0 29 = true) ∧
      (act = true → t.f .LINK_RING_STAT 0 3 0 = sg ∧ regsKept [(.LINK_RING_STAT, 0)] s t ∧
        t = { s with regs := t.regs, link := { s.link with reroute := rest } }) ∧
      (act = false →
        t.f .LINK_RING_STAT 0 3 0 = r.seg % 16 ∧ t.f .LINK_RING_STAT 0 15 8 = lat % 256 ∧
        (∀ k : Fin 8, linkState t k = if inSeg k then Lk.RETIRED else linkState s k) ∧ t.bit .EVT_RAW_w 1 20 = true ∧
        ((∀ k : Fin 8, inSeg k = true → s.synth.use.refSel ≠ 8 + k.val) →
          logged 5 2 (((List.range 8).find? inSeg).getD r.via) (BitVec.ofNat 32 lat)
            ([(.LINK_RING_STAT, 0), (.EVT_RAW_w, 1)] ++ (List.range 8).map (fun k => (.LINK_STAT, k))) s t) ∧
        (ring = true → s.bit .LINK_RING_CFG 0 27 = true → (∃ k : Fin 8, inSeg k = true ∧ linkState s k ≠ Lk.RETIRED ∧ s.synth.use.refSel = 8 + k.val) →
          t.f .SYNTH_CFG 0 3 0 = 8 + s.f .LINK_RING_CFG 0 26 24)))) ∧
  (reaches → ∃ t, exec (.alternateRouteWrite m i v) s = .next t ∧ accessed (if act then cfgErr .LINK_RING_CFG 0 s
    else setUpset { s with wmem := Store.set zeroOf s.wmem (0x43081000 + 4 * i) v } (0x43081000 + 4 * i) 0) t) ∧
  (turned → does (.tunnelGo m v) m .LINK_TUN_CMD 0 s (cfgErr .LINK_TUN_CMD 0 s)) ∧
  (¬ turned → doesSome (.tunnelGo m v) m .LINK_TUN_CMD 0 s (fun u =>
    u.f .LINK_TUN_CMD 0 3 0 = fld v 3 0 ∧ u.bit .LINK_TUN_CMD 0 8 = bitOf v 8 ∧
    (fld v 3 0 = 0 → u.link = s.link) ∧
    (fld v 3 0 ≠ 0 →
      let wr := bitOf v 8
      let dest := s.reg .LINK_TUN_ADDR 0
      let tag := (s.link.tag + 1) % 256
      let kind : MsgKind := if !wr then .readReq
        else if dest = 0x40000040 ∨ dest = 0x40000048 ∨ dest = 0x4000004C then .owner else .writeReq
      match route true (fld v 3 0) with
      | some k => u.bit .LINK_TUN_STAT 0 31 = true ∧ u.link = { s.link with tag := tag, tun := some (tag, !wr, 0), outbox := s.link.outbox ++
          [(k, ⟨kind, Fin.ofNat 16 (fld v 3 0), 0, BitVec.ofNat 8 tag, 0, dest, if wr then s.reg .LINK_TUN_DATA 0 else 0⟩)] }
      | none => u.bit .LINK_TUN_STAT 0 31 = false ∧ u.bit .LINK_TUN_STAT 0 30 = true ∧ u.f .LINK_TUN_STAT 0 23 16 = 3 ∧
          u.link = { s.link with tag := tag, tun := none }))) ∧
  (Machine.up s = true → domainOn s 2 = true → gives .tunnelTimeout s (fun t => match s.link.tun with
    | none => t = s
    | some (_, _, age) => if age < 256 then t = s else t.bit .LINK_TUN_STAT 0 31 = false ∧ t.bit .LINK_TUN_STAT 0 29 = true ∧
        regsKept [(.LINK_TUN_STAT, 0)] s t ∧ t = { s with regs := t.regs, link := { s.link with tun := none } }))

/-! The engines. -/

/-- R140, R143, R144, R146, R150, R152 to R157, R164 to R169, R172, R175: the registers of an engine, its program memory and the check of its
shadow program, bus accesses to its lanes, write-back and scrubbing, and the check-bit errors that a run meets: a single-bit error is
corrected, counted and recorded, the fourth at a word within the window starts a migration, and a double-bit error stops the run and mutes
the engine. A write of a program word in use is ignored and sets ENG_FAULT.PWR. That a program which the cut has decided is in use before
its flip is the model's choice (log entry 86), and when a bus access to a lane lands its reading (log entry 23). -/
def Obligations.EngineControl : Prop := ∀ (m : Initiator) (pe : Fin 72) (l : Fin 4) (w : Fin 16384) (pw : Fin 8192) (b : Bool)
    (data : Option Word) (v : Word) (s : State),
  let gone := engRetired s pe = true
  let here := engRetired s pe = false
  let live := Machine.up s = true ∧ domainOn s (domCluster pe) = true
  let d := 1 - actProg s pe
  let r : RegName := if b then .ENG_PROG_B else .ENG_PROG_A
  let within (x : Nat) : Prop := progBase s pe x ≤ pw.val ∧ pw.val < progBase s pe x + progLen s pe x
  let checking (u : State) : Prop := fld (engProgChk u pe) 31 30 = 1
  let nd := if fld v 2 0 < 5 then 1024 * 2 ^ fld v 2 0 else 16384
  let np := if 16384 < nd + 32 * fld v 25 16 then 0 else 16 * fld v 25 16
  let fits := ∀ o < progLen s pe (actProg s pe), progBase s pe (actProg s pe) + o < 8192 →
    upsetOf s (progAddr pe (progBase s pe (actProg s pe) + o)) ≠ 2 → ∀ i, progInstr s pe (progBase s pe (actProg s pe)) o = some i → (staticsOf i).any (outOfRegion np (16384 - nd - 2 * np)) = false
  let a := laneAddr pe l w
  let free := ∀ x ∈ s.eng.mig, x.src ≠ pe.val
  (gone → does (.engEnWrite m pe v) m .ENG_CTRL pe s s ∧ does (.engLaneMapWrite m pe v) m .ENG_LANE_MAP pe s s ∧
    does (.engDbWrite m pe v) m .ENG_DB pe s s ∧ does (.engProgWrite m pe b v) m r pe s s ∧
    doesAt (.programMemoryWrite m pe pw v) m (progAddr pe pw) s s) ∧
  (here → doesSome (.engEnWrite m pe v) m .ENG_CTRL pe s (fun u => u.reg .ENG_CTRL pe = v &&& 0xFF01 ∧
    (turnsOn s = true → u.eng = s.eng ∧ u.dev = { s.dev with pendNew := queued (.engEn pe (bitOf v 0)) s }) ∧
    (turnsOn s = false → u.eng.on.contains pe.val = bitOf v 0 ∧ u.dev = s.dev))) ∧
  (here → (engRunning s pe = true ∨ ¬ fits) → does (.engLaneMapWrite m pe v) m .ENG_LANE_MAP pe s (cfgErr .ENG_LANE_MAP pe s)) ∧
  (here → engRunning s pe = false → fits → doesSome (.engLaneMapWrite m pe v) m .ENG_LANE_MAP pe s (fun u =>
    dWords u pe = nd ∧ pWords u pe = np ∧ checking u)) ∧
  (here → engRunning s pe = true → does (.engDbWrite m pe v) m .ENG_DB pe s (cfgErr .ENG_DB pe s)) ∧
  (here → engRunning s pe = false → does (.engDbWrite m pe v) m .ENG_DB pe s
    (s.setReg .ENG_DB pe (BitVec.ofNat 32 (fld v 13 0 % dWords s pe)))) ∧
  (here → actProg s pe = b2n b ∨ progDecided s pe = true → does (.engProgWrite m pe b v) m r pe s (cfgErr r pe s)) ∧
  (here → actProg s pe ≠ b2n b → progDecided s pe = false → doesSome (.engProgWrite m pe b v) m r pe s (fun u =>
    u.reg r pe = v &&& 0x1FFF1FFF ∧ checking u ∧ regsKept [(r, pe), (.SAFE_MIRROR_VALID, 0)] s u)) ∧
  (here → within (actProg s pe) ∨ (progDecided s pe = true ∧ within d) → doesAt (.programMemoryWrite m pe pw v) m (progAddr pe pw) s (s.setBit .ENG_FAULT pe 2 true)) ∧
  (here → free → ¬ within (actProg s pe) → progDecided s pe = false ∨ ¬ within d → doesAt (.programMemoryWrite m pe pw v) m (progAddr pe pw) s
    { setUpset { s with wmem := Store.set zeroOf s.wmem (progAddr pe pw) v } (progAddr pe pw) 0 with
      eng := { s.eng with chk := if progBase s pe d ≤ pw.val ∧ pw.val < progBase s pe d + progLen s pe d
                            then Store.set zeroOf (if Store.get zeroOf s.eng.chk (2 * pe + actProg s pe) = 0
                              then Store.set zeroOf s.eng.chk (2 * pe + actProg s pe) 0x80000000 else s.eng.chk) (2 * pe + d) 0x40000000
                            else s.eng.chk } }) ∧
  (live → checking s → gives (.programCheckDone pe) s (fun t =>
    let x := progResult s pe d
    engProgChk t pe = BitVec.ofNat 32 (if x.1 = 0 then 2 * 2 ^ 30 else 3 * 2 ^ 30 + x.1 * 2 ^ 24 + x.2) ∧
    regsKept [(.ENG_ECC_CORR, pe), (.ENG_ECC_LAST, pe)] s t ∧
    t = { s with regs := t.regs, upset := t.upset, eng := { s.eng with chk := t.eng.chk } })) ∧
  (live → (data.isSome = true → barred m a 4 s = false) → (match m with
      | .host k => jtagOpen k a s = true ∧ (data.isSome = true → sysState s ≠ St.HALT ∧ isOwner s k = true)
      | _ => sysState s ≠ St.HALT) → gives (.laneMemoryAccess m pe l w data) s (fun t =>
    t = { s with eng := { s.eng with busq := s.eng.busq ++ [⟨pe, l, w, data, m⟩] }, pwr := { s.pwr with quiet := t.pwr.quiet } })) ∧
  (live → here → free → ∀ x rest, s.eng.busq = x :: rest → x.pe = pe → x.lane = l → x.word = w →
    gives (.laneAccessComplete pe l) s (fun t => t.eng.busq = rest ∧
      (∀ z, x.write = some z → (∀ q, getSlot t q = if q = a then BitVec.ofNat 32 (toU 32 (sxN 24 z.toNat)) else getSlot s q) ∧
        upsetOf t a = 0 ∧ t.eng.wback = s.eng.wback.filter (fun y => y != (pe.val, l.val, w.val)) ∧ t.eng.resp = s.eng.resp) ∧
      (x.write = none → upsetOf s a = 0 → t = { s with eng := { s.eng with busq := rest, resp := s.eng.resp ++ [(x.who, some (getSlot s a))] } }) ∧
      (x.write = none → upsetOf s a = 2 → t.eng.resp = s.eng.resp ++ [(x.who, none)] ∧ t.bit .ENG_FAULT pe 4 = true))) ∧
  (live → free → ∀ rest, s.eng.wback = (pe.val, l.val, w.val) :: rest → gives (.writeBack pe l) s (fun t =>
    t = { setUpset { s with wmem := Store.set zeroOf s.wmem a (BitVec.ofNat 32 (toU 32 (sxN 24 (getSlot s a).toNat))) } a 0 with
          eng := { s.eng with wback := s.eng.wback.filter (fun y => y != (pe.val, l.val, w.val)) } })) ∧
  (∀ (L q slot : Nat) (rd : Fin 32) (op : MemOp),
    let i : Instr := .ldx (.eng pe) rd (.mem op)
    let h := laneHart pe L
    let at_ := laneAddr pe L q
    let cl := pe.val / 9
    let detail := BitVec.ofNat 32 (L * 2 ^ 30 + q)
    let migrates (kind : MigKind) (t : State) : Prop :=
      t.eng.mig = s.eng.mig.filter (fun x => x.cl != cl) ++ [⟨cl, slot, pe, kind, false, gridTime s⟩]
    let retires (t : State) : Prop := turnsOn s = true → t.dev.pendNew = queued (.retireEngine pe detail) s ∧ t.eng.mig = s.eng.mig
    let entry := s.eng.faultTab.find? (fun x => x.pe == pe.val && x.lane == L && x.word == q)
    i.wellFormed = true → engReady pe s = true → fetched pe s = s → here → free → slotOf s pe = some slot → liveLanes s pe = [L] →
    opReach s h op = .word q →
    (upsetOf s at_ = 2 → gives i s (fun t => t.bit .ENG_FAULT pe 4 = true ∧ runAt t pe = none ∧ pe.val ∈ t.eng.muted ∧ t.hart = s.hart ∧
      (∀ j < 64, Store.get zeroOf t.eng.outE (64 * (8 * cl + slot) + j) = 0) ∧
      (spareFree s cl = true → migrates .doubleBit t ∧ logged 2 1 pe detail [(.ENG_FAULT, pe), (.ENGC_MIG_STAT, cl)] s t) ∧
      (spareFree s cl = false → retires t))) ∧
    (upsetOf s at_ = 1 → (pe.val, L, q) ∉ s.eng.corrected → gives i s (fun t =>
      readReg t h rd = landed (.eng pe) s h rd (HartPut.regAfter { regs := (rd.val, laneRead s h (.word q)) :: opBumped s h op } h rd
        (readReg s h rd)) ∧
      t.f .ENG_ECC_CORR pe 23 0 = min (s.f .ENG_ECC_CORR pe 23 0 + 1) 0xFFFFFF ∧
      t.reg .ENG_ECC_LAST pe = BitVec.ofNat 32 (2 ^ 31 + L * 2 ^ 28 + q) ∧
      (pe.val, L, q) ∈ t.eng.corrected ∧ (pe.val, L, q) ∈ t.eng.wback ∧
      (entry = none → (s.eng.faultTab.filter (fun x => x.pe == pe.val && x.lane == L)).length < 4 →
        t.eng.faultTab = s.eng.faultTab ++ [⟨pe, L, q, 1, s.time.grid⟩] ∧ t.eng.mig = s.eng.mig) ∧
      (∀ x, entry = some x → s.time.grid - x.turn < 65536 → 1 ≤ x.count →
        (x.count < 3 → { x with count := x.count + 1 } ∈ t.eng.faultTab ∧ t.eng.mig = s.eng.mig) ∧
        (x.count = 3 → spareFree s cl = true → migrates .correctable t ∧
          logged 1 1 pe detail [(.ENG_ECC_CORR, pe), (.ENG_ECC_LAST, pe), (.ENGC_MIG_STAT, cl)] s t) ∧
        (x.count = 3 → spareFree s cl = false → retires t))))) ∧
  (onBackup s = true → exec (.scrub pe) s = .next s) ∧
  (live → here → onBackup s = false → (∀ k : Fin 4, ∀ q, upsetOf s (laneAddr pe k q) = 0) → gives (.scrub pe) s (fun t =>
    (∀ k : Fin 4, Store.get natZero t.eng.scrubPos (laneHart pe k) % 16384 =
      (Store.get natZero s.eng.scrubPos (laneHart pe k) + scrubRate s pe) % 16384) ∧
    t = { s with eng := { s.eng with scrubPos := t.eng.scrubPos } }))

/-- R168 to R176: a requested migration, the copy of a migration, its switch at the mailbox exchange, and the writes of REMAP and PRET. That a
write of PRET is not logged is the model's choice (log entry 83), what a copy reads and moves its reading (log entry 22). -/
def Obligations.Migration : Prop := ∀ (m : Initiator) (cl : Fin 8) (v : Word) (s : State),
  let k := fld v 6 4
  let pe := physOf s (8 * cl + k)
  let dst := 9 * cl.val + 8
  let slot (j : Nat) : Nat := fld v (4 * j + 3) (4 * j)
  let lret (u : State) : Prop := ∀ j : Fin 8, u.bit .ENGC_RETIRE cl (24 + j) = engRetired u (9 * cl + remapSlot u cl j)
  let legal := (∀ j : Fin 8, slot j ≤ 8) ∧ (∀ i j : Fin 8, slot i = slot j → i = j) ∧
    ∀ j : Fin 8, slot j = remapSlot s cl j ∨ engRetired s (9 * cl + slot j) = false
  let live := Machine.up s = true ∧ domainOn s (6 + cl) = true
  let clean (q : Nat) : Prop := ∀ a, laneAddr q 0 0 ≤ a → a < laneAddr q 0 0 + 0x40000 → upsetOf s a ≤ 1
  (spareFree s cl = true → engRetired s pe = false → slotOf s pe = some k → doesSome (.migStart m cl v) m .ENGC_MIG_CTRL cl s (fun u =>
    logged 1 1 pe 0 [(.ENGC_MIG_CTRL, cl), (.ENGC_MIG_STAT, cl)] s u ∧ u.f .ENGC_MIG_STAT cl 31 30 = 1 ∧ u.f .ENGC_MIG_STAT cl 26 24 = k ∧
    u.f .ENGC_MIG_STAT cl 14 0 = 0 ∧ u.reg .ENGC_MIG_CTRL cl = v &&& 0x70 ∧
    u.eng = { s.eng with mig := s.eng.mig.filter (fun x => x.cl != cl.val) ++ [⟨cl, k, pe, .request, false, gridTime s⟩] })) ∧
  (¬ (spareFree s cl = true ∧ engRetired s pe = false) → does (.migStart m cl v) m .ENGC_MIG_CTRL cl s
    (cfgErr .ENGC_MIG_CTRL cl (s.setReg .ENGC_MIG_CTRL cl (v &&& 0x70)))) ∧
  (∀ g, migOf s cl = some g → g.src ≠ dst → g.src < 72 → (slotOf s g.src).isSome = true → live → s.canonical = true →
    (g.kind ≠ .doubleBit → clean g.src → gives (.migrationCopyComplete cl) s (fun t =>
      (∀ w : Fin 8192, getSlot t (progAddr dst w) = getSlot s (progAddr g.src w) ∧
        upsetOf t (progAddr dst w) = if upsetOf s (progAddr g.src w) = 2 then 2 else 0) ∧
      (∀ L : Fin 4, ∀ w : Fin 16384, getSlot t (laneAddr dst L w) = getSlot s (laneAddr g.src L w) ∧ upsetOf t (laneAddr dst L w) = 0) ∧
      t.f .ENGC_MIG_STAT cl 14 0 = 16384 ∧ migOf t cl = some { g with copied := true })) ∧
    (g.kind = .doubleBit → clean g.src → dWords s g.src + 2 * pWords s g.src ≤ 16384 →
      gives (.migrationCopyComplete cl) s (fun t =>
      (∀ w : Fin 8192, getSlot t (progAddr dst w) = getSlot s (progAddr g.src w)) ∧
      (∀ L : Fin 4, ∀ w : Fin 16384, getSlot t (laneAddr dst L w) =
        if dWords s g.src ≤ w.val ∧ w.val < dWords s g.src + 2 * pWords s g.src then getSlot s (laneAddr g.src L w) else 0) ∧
      migOf t cl = some { g with copied := true })) ∧
    (turnsOn s = true → s.dev.exchanged = [] → s.dev.exch = [] → s.safe.flipEng = [] → quiescent s cl = false → migReady s g = true →
      g.src / 9 = cl → g.cl = cl → g.slot < 8 → gives (.mailboxExchange cl) s (fun t =>
      remapSlot t cl g.slot = 8 ∧ engRetired t g.src = true ∧ migOf t cl = none ∧ t.f .ENGC_MIG_STAT cl 31 30 = 0 ∧
      t.bit .ENGC_MIG_STAT cl 28 = true ∧ t.bit .EVT_RAW_w 0 9 = true ∧
      (∀ r ∈ [RegName.ENG_CTRL, .ENG_LANE_MAP, .ENG_PROG_A, .ENG_PROG_B, .ENG_SCRUB], t.reg r dst = s.reg r g.src) ∧
      t.f .ENG_STATUS dst 3 2 = s.f .ENG_STATUS g.src 3 2 ∧
      (∀ L : Fin 4, ∀ x : Fin 4, getAcc t (laneHart dst L) x = if g.kind = .doubleBit then 0 else getAcc s (laneHart g.src L) x) ∧
      (∀ L : Fin 4, getDice t (laneHart dst L) = max (getDice s (laneHart g.src L)) 1) ∧
      (∀ L : Fin 4, ∀ n : Fin 12, getPhys t (laneHart dst L) n = if g.kind = .doubleBit then 0 else getPhys s (laneHart g.src L) n)))) ∧
  (turnsOn s = false → legal → doesSome (.engcRemapWrite m cl false v) m .ENGC_REMAP cl s (fun u =>
    u.reg .ENGC_REMAP cl = v ∧ lret u ∧ u.f .ENGC_RETIRE cl 8 0 = s.f .ENGC_RETIRE cl 8 0 ∧ u.eng = s.eng)) ∧
  (turnsOn s = true ∨ (∃ i j : Fin 8, i ≠ j ∧ slot i = slot j ∧ slot i ≤ 8) → doesSome (.engcRemapWrite m cl false v) m .ENGC_REMAP cl s (fun u =>
    u.reg .ENGC_REMAP cl = s.reg .ENGC_REMAP cl ∧ u.bit .ENGC_MIG_STAT cl 27 = true)) ∧
  (turnsOn s = true → does (.engcRemapWrite m cl true v) m .ENGC_RETIRE cl s (cfgErr .ENGC_RETIRE cl s)) ∧
  (turnsOn s = false → doesSome (.engcRemapWrite m cl true v) m .ENGC_RETIRE cl s (fun u =>
    u.f .ENGC_RETIRE cl 8 0 = fld v 8 0 ∧ lret u ∧ u.reg .ENGC_REMAP cl = s.reg .ENGC_REMAP cl ∧
    u.eng.on = s.eng.on ∧ ∀ j : Fin 9, bitOf v j = true → engRetired s (9 * cl + j) = false → runAt u (9 * cl + j) = none ∧
      ∀ q, slotOf s (9 * cl + j) = some q → ∀ i < 64, Store.get zeroOf u.eng.outE (64 * (8 * cl + q) + i) = 0 ∧
        Store.get zeroOf u.eng.outF (64 * (8 * cl + q) + i) = 0))

/-! Safe-load. -/

/-- R179 to R187: a request joins the pending ones; the cut decides it, holds it or refuses it; with turns stopped it flips at once. That a
member decided before turns stopped flips when the last run of its engine ends is the model's reading (log entry 41). -/
def Obligations.Commits : Prop := ∀ (m : Initiator) (v : Word) (q : SafeReq) (s : State),
  let named (g : Nat) : Bool := decide (g < 16) && bitOf v g
  let ms := reqMembers s q
  let busy := ms.any (memberBusy s) || q.groups.any (fun g => s.bit .SAFE_MIRROR_BUSY 0 g)
  let refused := ms.any (memberRefused s)
  let alone := s.safe.reqs = [q] ∧ q.groups ≠ [] ∧ q.groups.Nodup ∧ (∀ g ∈ q.groups, g < 16) ∧ q.strokes = [] ∧ memberChains ms = [] ∧
    s.safe.strokes = []
  let one : Prop := ∀ e f : Fin 64, physOf s e = physOf s f → e = f
  doesSome (.safeCommit m v) m .SAFE_COMMIT 0 s (fun u =>
    (∀ g : Fin 16, u.bit .SAFE_PENDING 0 g = (s.bit .SAFE_PENDING 0 g || named g)) ∧ regsKept [(.SAFE_PENDING, 0)] s u ∧
    (fld v 15 0 = 0 → u = s) ∧
    (fld v 15 0 ≠ 0 → ∃ r ∈ u.safe.reqs, (∀ g, named g = true → g ∈ r.groups) ∧
      (∀ p ∈ s.safe.reqs, (∃ g ∈ p.groups, named g = true) → ∀ g ∈ p.groups, g ∈ r.groups) ∧
      (∀ p ∈ s.safe.reqs, (∀ g ∈ p.groups, g ∉ r.groups) → p ∈ u.safe.reqs)) ∧
    u = { s with regs := u.regs, safe := { s.safe with reqs := u.safe.reqs } }) ∧
  (turnsOn s = true → s.dev.cutPast = false → alone →
    (busy = false → refused = false → gives .commitCut s (fun t => t.safe.reqs = [] ∧ t.safe.decided = [q] ∧
      (∀ x ∈ ms, if x = .gain ∨ x = .route then x ∈ t.safe.flipFab else x ∈ t.safe.flipNext) ∧
      (.route ∈ ms → t.fab.hold = true))) ∧
    (busy = true → refused = false → gives .commitCut s (fun t => t.safe.reqs = [q] ∧ t.safe.decided = [] ∧ t.safe.flipFab = [] ∧
      ∀ g ∈ q.groups, t.bit .SAFE_PENDING 0 (16 + g) = true)) ∧
    (refused = true → gives .commitCut s (fun t => t.safe.reqs = [] ∧ t.safe.decided = [] ∧ t.safe.flipFab = [] ∧
      t.bit .EVT_RAW_w 0 17 = true ∧
      ∀ g ∈ q.groups, t.bit .SAFE_DONE 0 (16 + g) = true ∧ t.bit .SAFE_PENDING 0 g = false))) ∧
  (Machine.up s = true → turnsOn s = false → (∀ d : Fin 34, domainOn s d = true) → alone → s.safe.flipEng = [] → busy = false → refused = false →
    one → gives .flipWhileStopped s (fun t => t.safe.reqs = [] ∧ t.bit .EVT_RAW_w 0 16 = true ∧
      (∀ g ∈ q.groups, t.bit .SAFE_PENDING 0 g = false ∧ t.bit .SAFE_DONE 0 g = true ∧
        t.f .SAFE_GROUP_n_STAMP g 31 16 = s.time.turn.toNat % 65536 ∧
        t.f .SAFE_GROUP_n_STAMP g 14 0 = min (s.f .SAFE_GROUP_n_STAMP g 14 0 + 1) 32767 ∧
        t.bit .SAFE_MIRROR_BUSY 0 g = s.bit .SAFE_MIRROR_EN 0 g) ∧
      gainAct t = (if .gain ∈ ms then 1 - gainAct s else gainAct s) ∧
      routeAct t = (if .route ∈ ms then 1 - routeAct s else routeAct s) ∧
      (∀ e : Fin 64, t.bit .ENG_STATUS (physOf s e) 3 = (s.bit .ENG_STATUS (physOf s e) 3 != decide (.palette e.val ∈ ms)) ∧
        actProg t (physOf s e) = (if .prog e.val ∈ ms then 1 - actProg s (physOf s e) else actProg s (physOf s e))) ∧
      t.mem = s.mem ∧ t.hart = s.hart ∧ t.time = s.time)) ∧
  (∀ e : Fin 64, turnsOn s = false → Machine.up s = true → domainOn s 2 = true → s.safe.reqs = [] → s.safe.strokes = [] →
    s.safe.flipEng = [.palette e.val] → gives .flipWhileStopped s (fun t =>
      if (runAt s (physOf s e)).isSome = true ∨ e.val / 8 ∈ s.dev.late then
        t.safe.flipEng = s.safe.flipEng ∧ t.reg .ENG_STATUS (physOf s e) = s.reg .ENG_STATUS (physOf s e)
      else t.safe.flipEng = [] ∧ t.bit .ENG_STATUS (physOf s e) 3 = !s.bit .ENG_STATUS (physOf s e) 3)) ∧
  (s.safe.reqs = [] → s.safe.strokes = [] → (turnsOn s = true ∨ s.safe.flipEng = []) → Machine.up s = true → domainOn s 2 = true →
    gives .flipWhileStopped s (fun t => gainAct t = gainAct s ∧ routeAct t = routeAct s ∧ t.safe = s.safe ∧ t.mem = s.mem ∧ t.hart = s.hart))

/-- R188 to R199: a mirror's completion, and the start, the stop and the step of a stroke; a STOP beside a step that has begun, or whose
commit is still to be recorded, waits for it. That reserved bits are judged before the mask, and that all entries are read before the
first is written, is the model's reading (log entry 41). -/
def Obligations.MirrorsAndStrokes : Prop := ∀ (m : Initiator) (g : Fin 16) (n : Fin 8) (e : Fin 64) (v : Word) (s : State),
  let live := Machine.up s = true ∧ domainOn s 2 = true
  let base := (s.reg .SAFE_STROKE_n_BASE n).toNat / 8 * 8
  let groups := fld v 31 16
  let fit := strokeOf s n = none ∧ strokeBaseOk base = true ∧ (∀ k ∈ s.safe.strokes, k.groups &&& groups = 0) ∧
    ∀ h : Fin 16, groups.testBit h = true → s.bit .SAFE_MIRROR_BUSY 0 h = false
  let pe := physOf s e
  let D := dWords s pe
  let P := pWords s pe
  let act := if s.bit .ENG_STATUS pe 3 then D + P else D
  let shadow := if s.bit .ENG_STATUS pe 3 then D else D + P
  let halts (c : Instr) (step err a : Nat) : Prop := gives c s (fun t => t.f .SAFE_STROKE_n_STAT n 31 30 = 3 ∧ t.f .SAFE_STROKE_n_STAT n 29 26 = err ∧
    t.reg .SAFE_STROKE_n_ERRADDR n = BitVec.ofNat 32 a ∧ t.bit .SAFE_STATUS 0 n = false ∧ t.bit .EVT_RAW_w 0 19 = true ∧
    t.f .SAFE_STROKE_n_STAT n 7 0 = step % 256 ∧ strokeOf t n = none ∧ t.wmem = s.wmem ∧ t.mem = s.mem)
  let flipped : Prop := s.safe.flipEng = []
  (live → flipped → s.safe.mirrors.find? (fun x => x.group == g.val) = none → exec (.mirrorComplete g) s = .next s) ∧
  (∀ x, live → flipped → s.safe.mirrors.find? (fun x => x.group == g.val) = some x → x.kept = [] →
    (x.members = [.gain] → (∀ j : Fin 4096, upsetOf s (gainAddr (gainAct s) j) = 0) → gives (.mirrorComplete g) s (fun t =>
      (∀ a, getSlot t a = if gainAddr (1 - gainAct s) 0 ≤ a ∧ a < gainAddr (1 - gainAct s) 0 + 0x4000 ∧ a % 4 = 0
        then getSlot s (gainAddr (gainAct s) ((a - gainAddr (1 - gainAct s) 0) / 4)) else getSlot s a) ∧
      t.bit .SAFE_MIRROR_BUSY 0 g = false ∧ t.bit .SAFE_MIRROR_VALID 0 g = (s.bit .SAFE_MIRROR_VALID 0 g || !x.dirty) ∧
      t.safe.mirrors = s.safe.mirrors.filter (fun y => y.group != g.val))) ∧
    (x.members = [.palette e.val] → D + 2 * P ≤ 16384 → (∀ L : Fin 4, ∀ w, upsetOf s (laneAddr pe L w) = 0) → engRetired s pe = false →
      (∀ y ∈ s.eng.mig, y.src = pe → 9 * y.cl + 8 ≠ pe) → gives (.mirrorComplete g) s (fun t =>
      (∀ L : Fin 4, ∀ w < P,
        getSlot t (laneAddr pe L (shadow + w)) = BitVec.ofInt 32 (sxN 24 (getSlot s (laneAddr pe L (act + w))).toNat) ∧
        getSlot t (laneAddr pe L (act + w)) = getSlot s (laneAddr pe L (act + w)) ∧
        ∀ y, s.eng.mig.find? (fun y => y.src == pe) = some y →
          getSlot t (laneAddr (9 * y.cl + 8) L (shadow + w)) = getSlot t (laneAddr pe L (shadow + w))) ∧
      t.bit .SAFE_MIRROR_BUSY 0 g = false ∧ t.bit .SAFE_MIRROR_VALID 0 g = (s.bit .SAFE_MIRROR_VALID 0 g || !x.dirty)))) ∧
  (bitOf v 2 = false → fit → doesSome (.strokeStart m n v) m .SAFE_STROKE_n_CTRL n s (fun u =>
    u.safe.strokes = s.safe.strokes ++ [⟨n, s.f .SAFE_STROKE_n_LEN n 7 0 + 1, groups,
      (if fld v 15 8 = 0 then 256 else fld v 15 8), 0, base, 0, 1, false, false, false, false, false, false, false, false, []⟩] ∧
    u.reg .SAFE_STROKE_n_STAT n = BitVec.ofNat 32 (2 ^ 30 + 2 ^ 23 * b2n (s.bit .SAFE_STROKE_n_STAT n 23)) ∧ u.bit .SAFE_STATUS 0 n = true ∧
    regsKept [(.SAFE_STROKE_n_CTRL, n), (.SAFE_STROKE_n_STAT, n), (.SAFE_STATUS, 0)] s u)) ∧
  (bitOf v 2 = false → ¬ fit → doesSome (.strokeStart m n v) m .SAFE_STROKE_n_CTRL n s (fun u =>
    u.safe.strokes = s.safe.strokes ∧ u.bit .SAFE_STATUS 0 31 = true)) ∧
  (∀ k, bitOf v 1 = false → strokeOf s n = some k →
    (k.begun = true ∨ k.comm = true → doesSome (.strokeStop m n v) m .SAFE_STROKE_n_CTRL n s (fun u => u.f .SAFE_STROKE_n_STAT n 31 30 = 2 ∧ u.safe = s.safe)) ∧
    (k.begun = false → k.comm = false → doesSome (.strokeStop m n v) m .SAFE_STROKE_n_CTRL n s (fun u => u.f .SAFE_STROKE_n_STAT n 31 30 = 0 ∧
      u.bit .SAFE_STATUS 0 n = false ∧ u.safe = { s.safe with strokes := s.safe.strokes.filter (fun k => k.ch != n.val) }))) ∧
  (∀ k, live → turnsOn s = true → strokeOf s n = some k → k.ch = n → k.fin = false → k.begun = false → k.due = 0 → (∀ x ∈ s.fab.held, x.1 ≠ .stroke n) →
    0x18000000 ≤ k.addr → k.addr + 16 ≤ 0x18400000 → k.addr % 8 = 0 →
    let h0 := getWord s k.addr
    let h1 := getWord s (k.addr + 4)
    let w0 := getWord s (k.addr + 8)
    let w1 := getWord s (k.addr + 12)
    let mask := fld h0 15 0
    let steps (p : State → Prop) : Prop := gives (.strokeStep n) s (fun t => p t ∧ t.mem = s.mem ∧ t.hart = s.hart ∧
      (mask ≠ 0 → ∃ q ∈ t.safe.reqs, n.val ∈ q.strokes ∧ ∀ g < 16, mask.testBit g = true → g ∈ q.groups ∧ t.bit .SAFE_PENDING 0 g = true) ∧
      t.f .SAFE_STROKE_n_STAT n 7 0 = k.step % 256 ∧
      strokeOf t n = some { k with mask := h0.toNat, begun := true, accepted := true, blocked := false, rest := [] })
    (headerBad h0 h1 = true → halts (.strokeStep n) k.step 6 k.addr) ∧
    (headerBad h0 h1 = false → fld h0 23 16 = 1 → bitOf w0 1 = true → halts (.strokeStep n) k.step 6 (k.addr + 8)) ∧
    (headerBad h0 h1 = false → fld h0 23 16 = 0 → mask &&& k.groups ≠ mask → halts (.strokeStep n) k.step 4 k.addr) ∧
    (headerBad h0 h1 = false → fld h0 23 16 = 0 → mask &&& k.groups = mask → s.safe.strokes = [k] → steps (fun t => t.wmem = s.wmem)) ∧
    (headerBad h0 h1 = false → fld h0 23 16 = 1 → bitOf w0 1 = false → mask &&& k.groups = mask → s.safe.strokes = [k] →
      s.safe.mirrors = [] → fenceClosed s = false → s.boot.load = none → domainOn s 3 = true → (w0.toNat / 4 * 4) / 0x4000 = 0xF040 →
      let a := if bitOf w0 0 && gainAct s == 0 then w0.toNat / 4 * 4 + 0x4000 else w0.toNat / 4 * 4
      steps (fun t => if bitOf w0 0 = false ∧ gainAct s = 0 then t.bit .FABRIC_FAULT 0 2 = true ∧ t.wmem = s.wmem
        else ∀ b, getSlot t b = if b = a then slot24 w1.toNat else getSlot s b)))

/-! DMA and timers. -/

/-- R341, R342, R352 to R359: a channel is enabled, disabled, started, paused, resumed and aborted; two triggers of one HUBCLK cycle count as
one, and in HALT a channel stays off. RESUME issues again, at once, the write whose error the channel has taken; a write that has left a
running channel completes at its target when the channel is disabled. The model's choices: which write has left a channel and how a write
is made again (log entry 40), the order of the bits of one write, what counts as one HUBCLK cycle and the order of writes beside a trigger
(log entry 50). -/
def Obligations.DmaControl : Prop := ∀ (m : Initiator) (n : Fin 32) (v : Word) (s : State),
  let k := dmaState s n
  let others (u : State) : Prop := u.hart = s.hart ∧ u.time = s.time ∧ ∀ c : Fin 32, c ≠ n → dmaState u c = dmaState s c ∧ jobOf u c = jobOf s c
  let row (i : Instr) (p : State → Prop) : Prop := doesSome i m .DMA_CH_n_CTRL n s (fun u => p u ∧ u.mem = s.mem ∧ others u)
  let told := s.dma.failed.filter (fun w => w.ch == n.val && w.stage == .told)
  let inHubMemory (l : List (Nat × Byte)) : Prop := l ≠ [] ∧ (∀ x ∈ l, 0x18000000 ≤ x.1 ∧ x.1 < 0x18400000) ∧
    barred (.dma n) ((l.map (·.1)).headD 0) l.length s = false
  let fetching (counted : Bool) (u : State) : Prop := dmaState u n = Dma.RUN ∧ jobOf u n = some ⟨n, .fetch counted, [], 0, 0, []⟩
  let activated (u : State) : Prop := fetching true u ∧ u.reg .DMA_CH_n_CUR n = s.reg .DMA_CH_n_DESC n ∧
    u.f .DMA_CH_n_STAT n 15 0 = 0 ∧ dmaPend u n = false
  let only (bits : List Nat) : Prop := ∀ b ∈ [1, 2, 3, 4], b ∉ bits → bitOf v b = false
  let paused := bitOf v 1
  let wrong (u : State) : Prop := u.bit .DMA_STATUS 0 31 = true ∧ dmaState u n = k ∧ jobOf u n = jobOf s n
  let fresh := Store.get natZero s.dma.trig n ≠ s.time.hub + 1
  (sysState s = St.HALT → k = Dma.OFF → dmaState (regWrite m .DMA_CH_n_CTRL n v s) n = Dma.OFF) ∧
  (sysState s ≠ St.HALT → k = Dma.OFF → only [1] → row (.channelEnable m n v) (fun u => dmaState u n = Dma.IDLE ∧ u.bit .DMA_CH_n_CTRL n 0 = true ∧
    u.bit .DMA_CH_n_CTRL n 1 = paused ∧ dmaPend u n = false)) ∧
  (k ≠ Dma.OFF → (dmaInFlight n s).1 = [] → row (.channelDisable m n v) (fun u => dmaState u n = Dma.OFF ∧ u.bit .DMA_CH_n_CTRL n 0 = false ∧
    dmaPend u n = false ∧ jobOf u n = none ∧ u.bit .DMA_HALTED 0 n = false ∧ u.f .DMA_CH_n_STAT n 28 26 = s.f .DMA_CH_n_STAT n 28 26 ∧
    u.reg .DMA_CH_n_ERRADDR n = s.reg .DMA_CH_n_ERRADDR n ∧ u.reg .DMA_CH_n_ERRDIR n = s.reg .DMA_CH_n_ERRDIR n ∧
    ∀ w ∈ u.dma.failed, w.ch ≠ n)) ∧
  (∀ j, k = Dma.RUN → jobOf s n = some j → j.dir = 1 → (∀ x ∈ j.writeBytes, j.open_ x = false) → inHubMemory (j.writeBytes.zip j.buf) →
    doesSome (.channelDisable m n v) m .DMA_CH_n_CTRL n s (fun u => dmaState u n = Dma.OFF ∧ jobOf u n = none ∧
      u.mem = (putBytes (j.writeBytes.zip j.buf) s).mem ∧ (∀ w ∈ u.dma.failed, w.ch ≠ n) ∧ others u)) ∧
  (bitOf v 0 = true → sysState s ≠ St.HALT →
    (k = Dma.IDLE → dmaPend s n = false → only [2] → fresh → row (.dmaStart m n v) activated) ∧
    (k ≠ Dma.OFF → paused = true → only [1, 2] → ¬ fresh → row (.dmaStart m n v) (fun u => dmaState u n = k ∧
      dmaPend u n = dmaPend s n ∧ u.reg .DMA_CH_n_TRIG_OVR n = s.reg .DMA_CH_n_TRIG_OVR n)) ∧
    (k = Dma.RUN ∨ k = Dma.PAUSED ∨ k = Dma.HALTED → paused = true → only [1, 2] → fresh → row (.dmaStart m n v) (fun u => dmaState u n = k ∧
      dmaPend u n = true ∧ u.f .DMA_CH_n_TRIG_OVR n 23 0 =
        if dmaPend s n then min (s.f .DMA_CH_n_TRIG_OVR n 23 0 + 1) (2 ^ 24 - 1) else s.f .DMA_CH_n_TRIG_OVR n 23 0)) ∧
    (k ≠ Dma.OFF → paused = true → only [1] → row (.pause m n v) (fun u => u.bit .DMA_CH_n_CTRL n 1 = true ∧ dmaState u n = k ∧
      jobOf u n = jobOf s n)) ∧
    (k = Dma.PAUSED → only [] → row (.pause m n v) (fun u => u.bit .DMA_CH_n_CTRL n 1 = false ∧ fetching true u ∧
      u.reg .DMA_CH_n_CUR n = s.reg .DMA_CH_n_CUR n)) ∧
    (k = Dma.IDLE → dmaPend s n = true → only [] → row (.pause m n v) activated) ∧
    (k = Dma.HALTED → told = [] → s.bit .DMA_CH_n_ERRDIR n 3 = false → only [1, 3] → row (.resume m n v) (fun u => u.bit .DMA_HALTED 0 n = false ∧
      u.f .DMA_CH_n_STAT n 28 23 = 0 ∧
      (dmaErr s n = 1 → fetching false u ∧ u.reg .DMA_CH_n_CUR n = s.reg .DMA_CH_n_CUR n) ∧
      (dmaErr s n = 2 → dmaState u n = Dma.RUN ∧ jobOf u n = jobOf s n) ∧
      (dmaErr s n = 3 → fetching true u ∧ u.f .DMA_CH_n_STAT n 15 0 = 0))) ∧
    (k = Dma.HALTED → told = [] → s.bit .DMA_CH_n_ERRDIR n 3 = true → paused = true → only [1, 3] → row (.resume m n v) (fun u =>
      u.bit .DMA_HALTED 0 n = false ∧ u.f .DMA_CH_n_STAT n 28 23 = 0 ∧ dmaState u n = Store.get natZero s.dma.back n % 8 ∧
      jobOf u n = jobOf s n ∧ u.dma.failed = s.dma.failed)) ∧
    (∀ w, k = Dma.HALTED → told = [w] → inHubMemory w.bytes → s.bit .DMA_CH_n_ERRDIR n 3 = true → paused = true → only [1, 3] →
      doesSome (.resume m n v) m .DMA_CH_n_CTRL n s (fun u => u.bit .DMA_HALTED 0 n = false ∧ u.f .DMA_CH_n_STAT n 28 23 = 0 ∧
        dmaState u n = Store.get natZero s.dma.back n % 8 ∧ jobOf u n = jobOf s n ∧ u.dma.failed = s.dma.failed.erase w ∧
        u.mem = (putBytes w.bytes s).mem ∧ others u)) ∧
    (k = Dma.IDLE ∧ (dmaPend s n = false ∨ paused = true) ∨ k = Dma.RUN ∨ k = Dma.PAUSED ∧ paused = true → only [1, 3] →
      row (.resume m n v) wrong) ∧
    (k = Dma.PAUSED → only [3] → row (.resume m n v) (fun u => u.bit .DMA_STATUS 0 31 = true ∧ fetching true u)) ∧
    (k = Dma.PAUSED ∨ k = Dma.HALTED → only [1, 4] → row (.dmaAbort m n v) (fun u => dmaState u n = Dma.IDLE ∧ jobOf u n = none ∧
      dmaPend u n = false ∧ u.bit .DMA_CH_n_STAT n 20 = true ∧ u.bit .DMA_HALTED 0 n = false ∧ u.f .DMA_CH_n_STAT n 28 23 = 0)) ∧
    (k = Dma.IDLE ∧ (dmaPend s n = false ∨ paused = true) ∨ k = Dma.RUN → only [1, 4] → row (.dmaAbort m n v) wrong))

/-- R343 to R351, R355 to R357, R360, R361, R368: a descriptor is fetched, moves its data and completes; a bus error and a timeout halt the
channel, late where the descriptor of the write has completed; a descriptor with FENCE completes with no write in error, and waits for one
that RESUME has issued again; an access to a domain that is not on is no timeout, and wakes it; a timer is enabled and expires when its
count has run, its token the time stamp of the expiry. The model's choices: which writes can still be answered, their errors and the
address a timeout names (log entry 40), the move of clk at an expiry (log entry 26), one trigger in a HUBCLK cycle (log entry 50). -/
def Obligations.DmaAndTimers : Prop := ∀ (m : Initiator) (n : Fin 32) (q : Fin 8) (v a : Word) (j : DmaJob) (s : State),
  let ready := Machine.up s = true ∧ domainOn s 2 = true ∧ sysState s ≠ St.HALT ∧ dmaState s n = Dma.RUN ∧ jobOf s n = some j ∧ j.ch = n
  let cur := (s.reg .DMA_CH_n_CUR n).toNat
  let limit := s.f .DMA_CH_n_CFG n 31 16
  let cnt := s.f .DMA_CH_n_STAT n 15 0
  let hub (x len : Nat) : Prop := 0x18000000 ≤ x ∧ x + len ≤ 0x18400000
  let halted (i : Instr) (err reason addr dir : Nat) : Prop := gives i s (fun t => dmaState t n = Dma.HALTED ∧ dmaErr t n = err ∧
    t.f .DMA_CH_n_STAT n 25 23 = reason ∧ t.reg .DMA_CH_n_ERRADDR n = BitVec.ofNat 32 addr ∧
    t.reg .DMA_CH_n_ERRDIR n = BitVec.ofNat 32 dir ∧ t.bit .DMA_HALTED 0 n = true ∧ t.bit .EVT_RAW_w 2 9 = true ∧ t.mem = s.mem)
  let fetched : DmaJob := ⟨n, .move, (List.range 8).map (fun k => getWord s (cur + 4 * k)), 0, 0, []⟩
  let reason := progReason (dmaCompat s n) fetched
  let quiet := j.trigout = false ∧ j.tok = false ∧ (j.fence = true → dmaFailed s n = [])
  let calm := noneAgain s = true
  let late (w : DmaWrite) : Nat := if w.done then 8 else 0
  let whole := j.src % 4 = 0 ∧ j.dst % 4 = 0 ∧ j.len % 4 = 0 ∧ j.srcFix = false ∧ j.dstFix = false
  let starts := j.stage = .move ∧ j.rd = 0 ∧ j.wr = 0 ∧ j.buf = [] ∧ j.len ≠ 0
  let due := Store.get natZero s.timer.start q + Store.get natZero s.timer.period q
  let expires := if timerMode s q then turnsOn s = true ∧ s.reg .TIMER_n_COUNT q = 0 ∧ q.val ∉ s.timer.fired else due ≤ s.time.hub
  (∀ counted, ready → j.stage = .fetch counted → hub cur 32 → cur % 32 = 0 →
    (counted = true → limit ≠ 0 → limit ≤ cnt → halted (.descriptorFetch n) 3 0 cur 2) ∧
    (¬ (counted = true ∧ limit ≠ 0 ∧ limit ≤ cnt) → reason ≠ 0 → halted (.descriptorFetch n) 1 reason cur 2) ∧
    (¬ (counted = true ∧ limit ≠ 0 ∧ limit ≤ cnt) → reason = 0 → fetched.len ≠ 0 → gives (.descriptorFetch n) s (fun t =>
      jobOf t n = some fetched ∧ dmaState t n = Dma.RUN ∧ t.reg .DMA_CH_n_REMAIN n = BitVec.ofNat 32 fetched.len ∧
      t.f .DMA_CH_n_STAT n 15 0 = (if counted then (cnt + 1) % 65536 else cnt) ∧ t.mem = s.mem ∧ t.hart = s.hart))) ∧
  (ready → calm → j.stage = .move → j.dir = 3 → j.fence = true → ∀ w rest, dmaFailed s n = w :: rest →
    halted (.descriptorComplete n) 2 0 w.addr (1 + late w)) ∧
  (∀ w x y, ready → j.stage = .move → j.dir = 3 → j.fence = true → s.dma.failed = [w] → w.ch = n → w.stage = .again → w.bytes = wordBytes x y →
    x % 4 = 0 → takesWrites x = true → barred (.dma n) x 4 s = false → domainOn s (domainAt x) = false →
    gives (.descriptorComplete n) s (fun t => dmaState t n = Dma.RUN ∧ jobOf t n = some j ∧ t.dma.failed = [w] ∧ t.mem = s.mem)) ∧
  (ready → calm → starts → whole → quiet → hub j.src j.len → hub j.dst j.len → (j.src + j.len ≤ j.dst ∨ j.dst + j.len ≤ j.src) →
    fenceClosed s = false → s.boot.load = none → gives (.descriptorComplete n) s (fun t =>
      (∀ x, getByte t x = if j.dst ≤ x ∧ x < j.dst + j.len then getByte s (x - j.dst + j.src) else getByte s x) ∧
      t.reg .DMA_CH_n_REMAIN n = 0 ∧ (j.irq = true → t.bit .EVT_DMA_DONE 0 n = true ∧ t.bit .EVT_RAW_w 2 8 = true) ∧
      (j.last = true → dmaPend s n = false → dmaState t n = Dma.IDLE ∧ jobOf t n = none) ∧
      (j.last = false → t.reg .DMA_CH_n_CUR n = (j.word 4 &&& 0xFFFFFFE0) ∧
        if dmaPause s n then dmaState t n = (if limit ≠ 0 ∧ limit ≤ cnt then Dma.HALTED else Dma.PAUSED) else dmaState t n = Dma.RUN ∧ jobOf t n = some ⟨n, .fetch true, [], 0, 0, []⟩) ∧
      t.wmem = s.wmem ∧ t.hart = s.hart ∧ t.time = s.time)) ∧
  (ready → calm → starts → whole → readable s false j.src 4 = false → halted (.dmaBusError n none) 2 0 j.src 0) ∧
  (Machine.up s = true → domainOn s 2 = true → ∀ w,
    s.dma.failed.find? (fun w => w.ch == n.val && w.addr == a.toNat && w.stage == .failed) = some w →
    (dmaTakes s n = true → halted (.dmaBusError n (some a)) 2 0 a.toNat (1 + late w)) ∧
    (dmaTakes s n = false → gives (.dmaBusError n (some a)) s (fun t => t = { s with dma := { s.dma with failed := t.dma.failed } } ∧
      t.dma.failed = s.dma.failed.map (fun x => if x = w then { w with stage := .told } else x)))) ∧
  (s.dma.failed.find? (fun w => w.ch == n.val && w.addr == a.toNat && w.stage == .failed) = none →
    exec (.dmaBusError n (some a)) s = .next s) ∧
  (ready → starts → whole → domainOn s (domainAt j.src) = true → halted (.dmaTimeout n (.next 0)) 2 0 j.src 4) ∧
  (ready → starts → whole → domainOn s (domainAt j.src) = false → gives (.dmaTimeout n (.next 0)) s (fun t => dmaState t n = Dma.RUN ∧
    jobOf t n = some j ∧ t.mem = s.mem ∧ (domainDown s (domainAt j.src) = true → inRequest s (domainAt j.src) = false → domainCode t (domainAt j.src) = Dom.MOVING))) ∧
  (Machine.up s = true → domainOn s 2 = true → dmaTakes s n = true →
    ∀ w, s.dma.sent.find? (fun w => w.ch == n.val && w.addr == a.toNat) = some w →
      halted (.dmaTimeout n (.earlier a)) 2 0 a.toNat (5 + late w)) ∧
  (s.bit .TIMER_n_CTRL q 0 = false → doesSome (.timerEnable m q v) m .TIMER_n_CTRL q s (fun u =>
    u.bit .TIMER_n_CTRL q 0 = true ∧ timerMode u q = bitOf v 1 ∧
    (bitOf v 1 = true → turnsOn s = true → u.dev = { s.dev with pendNew := queued (.timerStart q) s } ∧ u.timer = s.timer) ∧
    (¬ (bitOf v 1 = true ∧ turnsOn s = true) → u.timer.on.contains q.val = true ∧ u.reg .TIMER_n_COUNT q = 0 ∧
      Store.get natZero u.timer.start q = s.time.hub ∧ Store.get natZero u.timer.period q = (u.reg .TIMER_n_PERIOD q).toNat ∧
      u.dev = s.dev))) ∧
  (s.timer.on.contains q.val = false ∨ ¬ expires → exec (.timerExpire q) s = .next s) ∧
  (Machine.up s = true → domainOn s 2 = true → s.timer.on.contains q.val = true → expires → gives (.timerExpire q) s (fun t =>
      (∀ c : Fin 32, c.val ∈ timerListeners s q → dmaState s c = Dma.IDLE → dmaPause s c = false →
        Store.get natZero s.dma.trig c ≠ t.time.hub + 1 → dmaState t c = Dma.RUN) ∧
      (∀ c : Fin 32, c.val ∉ timerListeners s q → dmaState t c = dmaState s c) ∧
      (s.bit .TIMER_n_CTRL q 3 = true → t.bit .EVT_TIMER 0 q = true ∧ t.bit .EVT_RAW_w 2 11 = true) ∧
      (bitOf (s.reg .TIMER_n_TOK q) 31 = true → (if s.sched.timerQ.any (fun x => x.1 == q.val)
        then t.f .TIMER_n_OVR q 23 0 = min (s.f .TIMER_n_OVR q 23 0 + 1) (2 ^ 24 - 1) ∧ t.sched.timerQ = s.sched.timerQ
        else t.sched.timerQ = s.sched.timerQ ++ [(q.val, ⟨s.f .TIMER_n_TOK q 13 2, s.f .TIMER_n_TOK q 1 0, stamp t⟩)])) ∧
      (s.bit .TIMER_n_CTRL q 2 = true → t.bit .TIMER_n_CTRL q 0 = false ∧ t.timer.on.contains q.val = false) ∧
      (s.bit .TIMER_n_CTRL q 2 = false → t.timer.on.contains q.val = true) ∧
      (timerMode s q = false → Store.get natZero t.timer.start q = due ∧ t.time = s.time) ∧
      (timerMode s q = true → q.val ∈ t.timer.fired ∧ t.time.clk = max (Store.get natZero s.timer.phase q % turnLen s) s.time.clk) ∧
      t.mem = s.mem ∧ t.hart = s.hart))

/-! The scheduler and the cores it serves. -/

/-- R311 to R316, R317, R329: a host token is queued and accepted, into no instance, a new one, an open one, or one it completes; an item is
dispatched to a core. A token write of any other initiator than a host master has no effect. The model's choices: that reading of R22 (log
entry 55), the order of a group's tokens (log entry 31), and waits counted in HUBCLK cycles and when an item counts as blocked (log entry
70). -/
def Obligations.TokensAndDispatch : Prop := ∀ (m : Initiator) (v : Word) (s : State),
  let up := Machine.up s = true ∧ domainOn s 2 = true
  let lone (t : Tok) (rest : List Tok) : Prop := s.sched.hostQ = t :: rest ∧ s.sched.coreQ = [] ∧ s.sched.relQ = [] ∧ s.sched.dmaQ = [] ∧
    s.sched.timerQ = [] ∧ s.eng.tokq = [] ∧ s.pwr.stalled = [] ∧ s.host.tx = [] ∧ s.dma.jobs = [] ∧ s.dma.failed = [] ∧
    (∀ k ∈ s.safe.strokes, k.rest = []) ∧
    ∀ i ∈ s.sched.opens, filled i = false
  let untraced := s.bit .SCHED_TRACE_CTRL 0 0 = false
  does (.schedHostTokPush m v) m .SCHED_HOST_TOK_PUSH 0 s (if (∃ k, m = .host k) then
    { s with sched := { s.sched with hostQ := s.sched.hostQ ++ [⟨fld v 13 2, fld v 1 0, s.reg .SCHED_HOST_TOK_VAL 0⟩] } } else s) ∧
  (∀ t rest, up → lone t rest → t.slot < 4 →
    let d0 := s.reg .SCHED_DESC0_t t.tag
    let nops := fld d0 27 26 + 1
    let bad := bitOf d0 31 = false ∨ nops ≤ t.slot
    let flow := fld d0 25 16
    let fl := s.reg .SCHED_FLOW_f flow
    let cls := if bitOf fl 31 then fld fl 29 28 else fld d0 29 28
    let open? := s.sched.opens.find? (fun i => i.tag == t.tag && (i.ops.getD t.slot none).isNone && decide (t.slot < i.nops))
    let new : Item := ⟨t.tag, cls, cls, flow, bitOf fl 31, nops, fld (s.reg .SCHED_DESC1_t t.tag) 15 0,
      (List.range 4).map (fun k => if k = t.slot then some t.value else none), none, false, 0, 0, s.sched.births⟩
    (bad → gives .tokenAccept s (fun u => u.f .SCHED_TOK_BAD 0 23 0 = min (s.f .SCHED_TOK_BAD 0 23 0 + 1) (2 ^ 24 - 1) ∧
      u = { s with regs := u.regs, sched := { s.sched with hostQ := rest } })) ∧
    (¬ bad → open? = none → entryFree s cls = true → 1 < nops → exec .tokenAccept s = .next
      { s with sched := { s.sched with hostQ := rest, opens := s.sched.opens ++ [new], births := s.sched.births + 1 } }) ∧
    (¬ bad → open? = none → entryFree s cls = false → exec .tokenAccept s = .next s) ∧
    (∀ i, ¬ bad → open? = some i → i.born ∈ s.sched.bad → alive s = true → gives .tokenAccept s (fun u => sysState u = St.HALT ∧
      u.f .SYS_STATE 0 15 8 = 4 ∧ u.sched.opens = s.sched.opens)) ∧
    (∀ i, ¬ bad → open? = some i → i.born ∉ s.sched.bad → (∀ x ∈ s.sched.opens, x.born = i.born → x = i) →
      let i' := { i with ops := i.ops.set t.slot (some t.value) }
      (filled i' = false → exec .tokenAccept s = .next { s with sched := { s.sched with
        hostQ := rest, opens := s.sched.opens.map (fun x => if x.born = i.born then i' else x) } }) ∧
      (filled i' = true → s.sched.opens = [i] → i.own ≠ 0 → i.lst = i.own → i.ordered = false → untraced →
        (∃ c : Fin 16, i.pool.testBit c = true ∧ c.val ∉ resCores s ∧ coreMode s c ≠ 4) →
        (onChip s i.lst).length < 64 → waitingOf s i.lst = [] → ringOf s i.lst = [] → exec .tokenAccept s = .next
        { s with sched := { s.sched with
          hostQ := rest, opens := [],
          ready := s.sched.ready ++ [{ i' with seq := none, stamp := stamp s, readyAt := s.time.hub }] } }))) ∧
  (s.bit .SCHED_CTRL 0 0 = false ∨ sysState s = St.HALT → up → exec .dispatch s = .next s) ∧
  (up → s.bit .SCHED_CTRL 0 0 = true → sysState s ≠ St.HALT → untraced → s.sched.bad = [] →
    let idle := idleCores s
    let moved (it : Item) : List Item := match waitingOf s 0 with
      | w :: _ => if ringOf s 0 = [] ∧ ((onChip s 0).filter (fun x => x.born != it.born)).length < 64 then [w] else []
      | [] => []
    let sent (it : Item) (k : Nat) (t : State) : Prop :=
      it ∈ s.sched.ready ∧ coreMode s k = 2 ∧ k < 16 ∧ coreMode t k = 1 ∧ getPc t k = getPc s k + 4 ∧
      t.bit .SCHED_CORE_n_STAT k 28 = true ∧ t.f .SCHED_CORE_n_STAT k 11 0 = it.tag % 4096 ∧
      getPhys t k 1 = BitVec.ofNat 32 (it.lst * 2 ^ 30 + b2n it.ordered * 2 ^ 29 + b2n it.aged * 2 ^ 28 + (it.nops - 1) * 2 ^ 26 +
        it.flow * 2 ^ 16 + it.tag) ∧
      (∀ j : Fin 4, getPhys t k (2 + j) = (it.ops.getD j none).getD 0) ∧
      (∀ h n, ¬ (h = k ∧ 1 ≤ n ∧ n ≤ 5) → n < 64 → getPhys t h n = getPhys s h n) ∧
      t.sched.held = s.sched.held ++ [⟨k, it, s.time.hub⟩] ∧
      t.sched.ready = s.sched.ready.filter (fun x => x.born != it.born) ++ moved it ∧
      Store.get natZero t.sched.lastCore it.flow = k + 1 ∧
      t.sched.await = s.sched.await ++ (if it.ordered then [⟨it, k, none, true, it.own == 0 && decide (robC0 s < 128)⟩] else []) ∧
      t.mem = s.mem ∧ t.eng = s.eng ∧ t.time = s.time
    (∀ it k, choose s (pickC0 s idle) 0 = some (it, k) → gives .dispatch s (fun t => sent it k t ∧ it.lst = 0 ∧ blocked s it = false ∧
      (k ∈ resCores s ∨ it.pool.testBit k = true) ∧ t.sched.credit = s.sched.credit)) ∧
    (choose s (pickC0 s idle) 0 = none → ∀ c it k, c = (s.sched.rr - 1) % 3 + 1 → creditOf s c ≠ 0 → choose s (pickC s idle) c = some (it, k) →
      gives .dispatch s (fun t => sent it k t ∧ it.lst = c ∧ blocked s it = false ∧ it.pool.testBit k = true ∧ k ∉ resCores s ∧
        t.sched.rr = c ∧ creditOf t c = creditOf s c - 1)) ∧
    ((∀ c : Fin 4, onChip s c = []) → gives .dispatch s (fun t => (∀ c : Fin 3, creditOf t (c + 1) = s.f .SCHED_CLASS_CFG_c (c + 1) 3 0) ∧
      t = { s with sched := { s.sched with credit := t.sched.credit } })))

/-- R304, R314, R320, R321, R323 to R326, R329 to R332, R335: releases, cancels, aging, spill and unspill, class 0's rate, the writes of a
flow and of the spill area, and the start and stop of a core. In HALT nothing spills or comes back. The model's choices: the numbers that
a cancel gives back in the HUBCLK cycle an item became ready (log entry 31); the waits counted in HUBCLK cycles, and the release of an
item that no core may run (log entry 70); what a start takes from SCHED_CORE_n_BOOT (log entry 49); the scheduler in HALT, and its writes
that the boot fence or a sealed load bars, which the clause on a spill leaves out (log entry 95). -/
def Obligations.ItemsAndCores : Prop := ∀ (m : Initiator) (f : Fin 1024) (c : Fin 3) (k : Fin 16) (size : Bool) (v : Word) (s : State),
  let up := Machine.up s = true ∧ domainOn s 2 = true
  let untraced := s.bit .SCHED_TRACE_CTRL 0 0 = false
  let cpl (it : Item) (code : Nat) : List Tok :=
    let fl := s.reg .SCHED_FLOW_f it.flow
    if bitOf fl 30 then [⟨fld fl 15 4, fld fl 3 2, BitVec.ofNat 32 (code * 2 ^ 30 + it.tag * 2 ^ 16 +
      (match it.seq with | some q => 2 ^ 15 + q | none => 0))⟩] else []
  let q := Store.get natZero s.sched.nextRel f
  let due (a : Await) : Bool := a.item.flow == f && a.item.seq == some q
  let base := if size then (s.reg .SCHED_SPILL_BASE 0).toNat else fld v 31 16 * 65536
  let units := if size then (if fld v 22 16 = 0 ∨ 64 < fld v 22 16 then 16 else fld v 22 16) else s.f .SCHED_SPILL_SIZE 0 22 16
  let r : RegName := if size then .SCHED_SPILL_SIZE else .SCHED_SPILL_BASE
  let fits := s.bit .SCHED_CTRL 0 0 = false ∧ s.sched.spilled = [] ∧ inHub base (units * 65536) = true ∧
    overlap base (units * 65536) (s.reg .SCHED_TRACE_BASE 0).toNat (traceSize s) = false
  let mode := coreMode s k
  (up → untraced → ∀ a, s.sched.await.find? due = some a →
    (∀ st, a.st = some st → exec (.release f) s = .next { s with sched := { s.sched with
      await := s.sched.await.filter (fun x => x.item.born != a.item.born),
      nextRel := Store.set natZero s.sched.nextRel f ((q + 1) % 32768),
      relQ := s.sched.relQ ++ cpl a.item (match st with | .finished => 0 | .aborted => 1 | .cancelled => 2) } }) ∧
    (a.st = none → exec (.release f) s = .next s)) ∧
  (s.sched.await.find? due = none → exec (.release f) s = .next s) ∧
  ((∀ i ∈ inStore s ++ s.sched.spilled, i.tag ≠ fld v 11 0) → does (.schedCancel m v) m .SCHED_CANCEL 0 s
    (s.setBit .SCHED_CANCEL_STAT 0 31 true)) ∧
  (∀ i, untraced → s.sched.opens = [i] → s.sched.ready = [] → s.sched.waiting = [] → s.sched.spilled = [] → i.tag = fld v 11 0 →
    i.seq = none → does (.schedCancel m v) m .SCHED_CANCEL 0 s
      { s with sched := { s.sched with opens := [], relQ := s.sched.relQ ++ cpl i 2 } }) ∧
  (∀ i n, untraced → s.sched.ready = [i] → s.sched.opens = [] → s.sched.waiting = [] → s.sched.spilled = [] → s.sched.await = [] →
    i.tag = fld v 11 0 → i.seq = some n →
    does (.schedCancel m v) m .SCHED_CANCEL 0 s { s with sched := if i.readyAt = s.time.hub then
        { s.sched with ready := [], relQ := s.sched.relQ ++ cpl { i with seq := none } 2,
                       nextSeq := Store.set natZero s.sched.nextSeq i.flow ((Store.get natZero s.sched.nextSeq i.flow + 32767) % 32768) }
      else { s.sched with ready := [], await := [⟨i, 0, some .cancelled, false, false⟩] } }) ∧
  (∀ i, s.sched.spilled = [i] → s.sched.gone = [] → inStore s = [] → i.tag = fld v 11 0 → s.sched.cancels = [] → does (.schedCancel m v) m .SCHED_CANCEL 0 s
    { s with sched := { s.sched with cancels := [i.born] } }) ∧
  (up → s.f .SCHED_CLASS_CFG_c 3 27 8 = 0 → ∀ it, (onChip s 2).head? = some it → it.lst = 2 →
    let limit := s.f .SCHED_CLASS_CFG_c 2 27 8
    (limit ≠ 0 → 16 * limit < s.time.hub - it.readyAt → ringOf s 1 = [] → (onChip s 1).length < 64 → gives .aging s (fun t =>
      t.sched.ready = s.sched.ready.filter (fun x => x.born != it.born) ++ [{ it with lst := 1, aged := true }] ∧
      t.f .SCHED_AGED_CNT 0 23 0 = min (s.f .SCHED_AGED_CNT 0 23 0 + 1) (2 ^ 24 - 1) ∧
      t = { s with regs := t.regs, sched := { s.sched with ready := t.sched.ready } })) ∧
    (limit = 0 ∨ s.time.hub - it.readyAt ≤ 16 * limit → exec .aging s = .next s)) ∧
  (up → ∀ it rest, waitingOf s (c + 1) = it :: rest → it.lst = c + 1 →
    (ringOf s (c + 1) = [] → (onChip s (c + 1)).length < 64 → exec (.spill c) s = .next { s with sched := { s.sched with
      waiting := s.sched.waiting.filter (fun x => x.born != it.born), ready := s.sched.ready ++ [it] } }) ∧
    (64 ≤ (onChip s (c + 1)).length → (ringOf s (c + 1)).length < ringSize s → untraced → it.born ∉ s.sched.bad →
      sysState s ≠ St.HALT → fenceClosed s = false → s.boot.load = none → gives (.spill c) s (fun t =>
      t.sched.spilled = s.sched.spilled ++ [it] ∧ t.sched.waiting = s.sched.waiting.filter (fun x => x.born != it.born) ∧
      (let a := ringAddr s (c + 1) (Store.get natZero s.sched.ringHead (c + 1) + (ringOf s (c + 1)).length)
       getBytes t a 32 = (spillWords it).flatMap bytesOfWord ∧ (∀ x, x < a ∨ a + 32 ≤ x → getByte t x = getByte s x) ∧
       ∀ j : Fin 8, upsetOf t (a + 4 * j) = 0) ∧
      t.hart = s.hart ∧ t.wmem = s.wmem)) ∧
    (64 ≤ (onChip s (c + 1)).length → sysState s = St.HALT → exec (.spill c) s = .next s)) ∧
  (up → untraced → ∀ it rest, ringOf s (c + 1) = it :: rest → s.sched.cancels = [] → s.sched.gone = [] →
    let a := ringAddr s (c + 1) (Store.get natZero s.sched.ringHead (c + 1))
    let runs := it.own = 0 ∨ ∃ k : Fin 16, (fld (getWord s (a + 12)) 15 0).testBit k = true ∧ k.val ∉ resCores s ∧ coreMode s k ≠ 4
    let comes := (onChip s (c + 1)).length ≤ 48 ∧ sysState s ≠ St.HALT
    (comes → ¬ runs → (∀ j : Fin 8, upsetOf s (a + 4 * j) ≠ 2) → gives (.unspill c) s (fun t => t.bit .SCHED_STATUS 0 1 = true ∧
      t.sched.ready = s.sched.ready ∧ t.sched.spilled = s.sched.spilled.filter (fun x => x.born != it.born))) ∧
    (comes → (∃ j : Fin 8, upsetOf s (a + 4 * j) = 2) → alive s = true → gives (.unspill c) s (halted 4 s)) ∧
    (comes → runs → (∀ j : Fin 8, upsetOf s (a + 4 * j) ≠ 2) → gives (.unspill c) s (fun t =>
      t.sched.spilled = s.sched.spilled.filter (fun x => x.born != it.born) ∧
      (∃ x, t.sched.ready = s.sched.ready ++ [x] ∧ x.born = it.born ∧ x.lst = it.lst ∧ x.tag = fld (getWord s a) 11 0 ∧
        x.flow = fld (getWord s a) 25 16 ∧ x.nops = fld (getWord s a) 27 26 + 1 ∧ x.stamp = getWord s (a + 8) ∧
        x.pool = fld (getWord s (a + 12)) 15 0 ∧ ∀ j : Fin 4, x.ops.getD j none = if j.val < x.nops then some (getWord s (a + 16 + 4 * j)) else none) ∧
      Store.get natZero t.sched.ringHead (c + 1) = (Store.get natZero s.sched.ringHead (c + 1) + 1) % ringSize s ∧
      t.mem = s.mem ∧ t.hart = s.hart)) ∧
    (¬ comes → exec (.unspill c) s = .next s)) ∧
  (let n := s.sched.refill + s.f .SCHED_C0_RATE 0 15 0
   up → exec .c0Refill s = .next (if n ≤ s.time.hub then
     { s with sched := { s.sched with bucket := min (s.sched.bucket + 1) (s.f .SCHED_C0_RATE 0 23 16), refill := n } } else s)) ∧
  (fld v 23 16 ≠ 0 → fld v 15 0 ≠ 0 → does (.c0RateWrite m v) m .SCHED_C0_RATE 0 s
    { s.setReg .SCHED_C0_RATE 0 (v &&& 0xFFFFFF) with sched := { s.sched with bucket := fld v 23 16, refill := s.time.hub } }) ∧
  (fld v 23 16 = 0 ∨ fld v 15 0 = 0 → doesSome (.c0RateWrite m v) m .SCHED_C0_RATE 0 s (fun u =>
    u.f .SCHED_C0_RATE 0 23 16 = (if fld v 23 16 = 0 then 8 else fld v 23 16) ∧
    u.f .SCHED_C0_RATE 0 15 0 = (if fld v 15 0 = 0 then 0x800 else fld v 15 0) ∧ u.bit .SCHED_STATUS 0 31 = true)) ∧
  does (.schedFlowWrite m f v) m .SCHED_FLOW_f f s
    (if flowBusy s f then cfgErr .SCHED_FLOW_f 0 s else s.setReg .SCHED_FLOW_f f (v &&& 0xF000FFFC)) ∧
  doesSome (.spillAreaWrite m size v) m r 0 s (fun u => u.reg r 0 = (if fits then
      BitVec.ofNat 32 ((if size then units else fld v 31 16) * 65536) else s.reg r 0) ∧
    (¬ fits → u.bit .SCHED_STATUS 0 31 = true) ∧ u.sched.spilled = s.sched.spilled ∧ u.mem = s.mem) ∧
  (bitOf v 1 = false → mode = 0 ∨ mode = 3 → doesSome (.coreStart m k v) m .SCHED_CORE_n_CTRL k s (fun u =>
    coreMode u k = 1 ∧ getPc u k = s.reg .SCHED_CORE_n_BOOT k ∧ (∀ n : Fin 32, readReg u k n = 0) ∧ (∀ x : Fin 4, getAcc u k x = 0) ∧
    getStat u k = 0 ∧ getRrb u k = 0 ∧ Store.get vbaseReset u.core.vbase k = 0x08000000 ∧ u.bit .SCHED_CORE_n_CTRL k 2 = bitOf v 2 ∧
    (∀ d : Fin 16, d ≠ k → coreMode u d = coreMode s d ∧ getPc u d = getPc s d) ∧ getDice u k = getDice s k ∧ u.core.dcache = s.core.dcache)) ∧
  (bitOf v 1 = false → mode ≠ 0 → mode ≠ 3 → does (.coreStart m k v) m .SCHED_CORE_n_CTRL k s
    (cfgErr .SCHED_CTRL 0 (s.setBit .SCHED_CORE_n_CTRL k 2 (bitOf v 2)))) ∧
  (bitOf v 0 = false → mode = 1 ∨ mode = 2 → doesSome (.coreStop m k v) m .SCHED_CORE_n_CTRL k s (fun u =>
    coreMode u k = 0 ∧ releasedAs k .aborted s u ∧ u.hart = s.hart ∧ u.core = s.core ∧ u.bit .SCHED_CORE_n_CTRL k 2 = bitOf v 2)) ∧
  (bitOf v 0 = false → mode ≠ 1 → mode ≠ 2 → does (.coreStop m k v) m .SCHED_CORE_n_CTRL k s
    (s.setBit .SCHED_CORE_n_CTRL k 2 (bitOf v 2)))

/-! The clock synthesiser. -/

/-- R377 to R396: the loop and its configuration, references and their return, divider resets, ramps, overspeed trips, and the writes of
dividers, bands and ceilings. With turns frozen under SNAP the divider reset starts the first turn after HOLD. The model's choices in the
corners of the loop, its ramps and its dividers, among them what APPLY does inside the tracking range, the hold of a relock while turns
stand, SNAP at a disable, the nominal frequency of a ceiling, and the levels that LOCK_ACQUIRED takes, are log entry 61. -/
def Obligations.Synthesiser : Prop := ∀ (m : Initiator) (n : Fin 12) (b : Fin 32) (e : Int) (dlock sensed : Bool) (v : Word) (s : State),
  let live := Machine.up s = true ∧ domainOn s 1 = true
  let st := synState s
  let en := s.bit .SYNTH_CTRL 0 0
  let meets (x : Nat) : Prop := x = s.time.hub + 1
  let root : Prop := (st = Syn.LOCKED ∨ st = Syn.COAST) ∧ s.bit .SYNTH_STATUS 0 25 = false
  let frame (r : List (RegName × Nat)) (t : State) : Prop := regsKept r s t ∧ t = { s with regs := t.regs }
  let ev (k : Nat) (t : State) : Prop := t.bit .EVT_RAW_w 2 k = true
  let staged : LoopCfg :=
    ⟨s.reg .SYNTH_CFG 0, s.reg .SYNTH_REF_FREQ 0, s.reg .SYNTH_RDIV 0, s.reg .SYNTH_N_INT 0, s.reg .SYNTH_NUM 0, s.reg .SYNTH_DEN 0⟩
  let spans (c : LoopCfg) (o : Int) (w : Word) : Prop :=
    let f : Int := c.hz.toNat * (c.nint.toNat * c.den.toNat + c.num.toNat)
    let d : Int := c.rdiv.toNat * c.den.toNat * 1000000 * 1000000000
    fld w 23 12 ≠ 0 ∧ fld w 11 0 * d ≤ f * (1000000000 + o) ∧ f * (1000000000 + o) ≤ fld w 23 12 * d
  let tracks (c : LoopCfg) (o : Int) : Prop := spans c o (s.reg .SYNTH_BAND_n (s.f .SYNTH_STATUS 0 20 16))
  let linkBad := 8 ≤ fld staged.cfg 3 0 ∧ ¬ (staged.nint.toNat = 65536 / rateMul s ∧ staged.num = 0 ∧ staged.rdiv = 1)
  let acquires (c : LoopCfg) (u : State) : Prop := u.synth.dither = s.f .SYNTH_SEED 0 15 0 ∧
    (∀ k : Fin 32, spans c 0 (s.reg .SYNTH_BAND_n k) → (∀ j : Fin 32, j < k → ¬ spans c 0 (s.reg .SYNTH_BAND_n j)) →
      synState u = Syn.CAL ∧ u.f .SYNTH_STATUS 0 20 16 = k) ∧
    ((∀ k : Fin 32, ¬ spans c 0 (s.reg .SYNTH_BAND_n k)) →
      synState u = Syn.OFF ∧ u.bit .SYNTH_FAULT 0 18 = true ∧ u.bit .SYNTH_CTRL 0 0 = false)
  let uses (c : LoopCfg) (u : State) : Prop := u.synth.use = c ∧ u.bit .SYS_TURN_CFG 0 4 = bitOf c.cfg 24
  let toBackup (u : State) : Prop := u.bit .SYNTH_STATUS 0 25 = true ∧
    (turnsOn s = true → u.bit .SYS_STATE 0 4 = true ∧ u.dev.relockEnd = true ∧ u.bit .SYS_STATE 0 21 = true ∧
      u.port.sent = [] ∧ u.link.guarded = [] ∧ u.guard.yPrev = [])
  let relocks (c : LoopCfg) (u : State) : Prop := acquires c u ∧ toBackup u ∧ u.bit .SYS_STATE 0 21 = true ∧ u.bit .SYS_STATE 0 23 = false ∧
    u.f .SYNTH_RELOCK_CNT 0 15 0 = min (s.f .SYNTH_RELOCK_CNT 0 15 0 + 1) 65535 ∧ ev 19 u
  let lost (u : State) : Prop := synState u = Syn.COAST ∧ u.bit .SYNTH_STATUS 0 28 = false ∧ u.bit .SYNTH_STATUS 0 24 = false ∧
    u.bit .SYNTH_FAULT 0 17 = true ∧ u.f .SYNTH_REF_LOSS_CNT 0 15 0 = min (s.f .SYNTH_REF_LOSS_CNT 0 15 0 + 1) 65535 ∧ ev 18 u ∧
    (synLock s = true → ev 17 u)
  let refused := (turnsOn s = true ∧ bitOf staged.cfg 24 ≠ s.synth.use.family) ∨ staged.den.toNat ≤ staged.num.toNat ∨ linkBad
  let enables (c : Instr) : Prop := (linkBad → does c m .SYNTH_CTRL 0 s (cfgErr .SYNTH_CTRL 0 s)) ∧
    (¬ linkBad → doesSome c m .SYNTH_CTRL 0 s (fun u => uses staged u ∧ acquires staged u ∧
      (8 ≤ fld staged.cfg 3 0 → u.bit .SYNTH_RAMP_STAT 0 31 = false ∧ u.reg .SYNTH_RAMP_OFFSET 0 = 0) ∧
      (synState u = Syn.CAL → u.bit .SYNTH_CTRL 0 0 = true)))
  let resets (l : List Nat) (u : State) : Prop := ∀ k : Fin 12, Store.get natZero u.synth.resets k =
    Store.get natZero s.synth.resets k + (if k.val ∈ l then 1 else 0)
  let mask := (List.range 12).filter (fun k => s.bit .SYNTH_SYNC_MASK 0 k)
  let run := s.bit .SYNTH_RAMP_STAT 0 31
  let seg := fld v 3 0
  let rate (k : Nat) : Int := sxN 16 (s.f .SYNTH_RAMP_SEG_n k 31 16)
  let dur (k : Nat) : Nat := s.f .SYNTH_RAMP_SEG_n k 15 0
  let o (j : Nat) : Int := (List.range (j + 1)).foldl (fun x k => x + rate k * dur k) (s.reg .SYNTH_RAMP_OFFSET 0).toInt
  let legal := run = false ∧ s.synth.use.refSel < 8 ∧ ∀ j ≤ seg, (o j).natAbs ≤ 10000000 ∧ tracks s.synth.use (o j)
  let div := if fld v 11 0 = 0 then 4096 else fld v 11 0
  let vco := if s.synth.use.family then 2890137600 else 3145728000
  let divOk := if n.val = 0 then div = 8 else if n.val = 1 then 8 ≤ div else if n.val = 2 then div = 16 else if n.val = 3 then div = 2
    else vco ≤ s.f .SYNTH_CEIL_n n 20 0 * 1000 * div
  let top := if n.val ≤ 1 then 420000 else if n.val = 2 then 210000 else if n.val = 3 then 1680000 else 55000
  let tripped := Store.get natZero s.synth.trips n = s.time.hub + 1
  (en = false → enables (.synthEnable m v) ∧ enables (.apply m v)) ∧
  (en = true → bitOf v 1 = false → does (.synthEnable m v) m .SYNTH_CTRL 0 s s) ∧
  (en = false → does (.synthDisable m v) m .SYNTH_CTRL 0 s s) ∧
  (en = true → doesSome (.synthDisable m v) m .SYNTH_CTRL 0 s (fun u => u.bit .SYNTH_CTRL 0 0 = false ∧ synState u = Syn.OFF ∧
    (st ≠ Syn.OFF → toBackup u ∧ (turnsDue s = true → u.bit .SYS_STATE 0 21 = true) ∧ u.bit .SYS_STATE 0 23 = false ∧ (synLock s = true → u.bit .SYNTH_STATUS 0 28 = false ∧ ev 17 u)))) ∧
  (en = true → refused → does (.apply m v) m .SYNTH_CTRL 0 s (cfgErr .SYNTH_CTRL 0 s)) ∧
  (en = true → ¬ refused → doesSome (.apply m v) m .SYNTH_CTRL 0 s (fun u => uses staged u ∧
    (8 ≤ fld staged.cfg 3 0 → u.bit .SYNTH_RAMP_STAT 0 31 = false ∧ u.reg .SYNTH_RAMP_OFFSET 0 = 0) ∧
    (st = Syn.LOCKED → tracks staged 0 → lost u) ∧ (st = Syn.COAST → tracks staged 0 → synState u = st) ∧
    (st = Syn.LOCKED ∨ st = Syn.COAST → ¬ tracks staged 0 → relocks staged u) ∧
    (st = Syn.CAL ∨ st = Syn.ACQUIRE → acquires staged u))) ∧
  (live → gives .calibrationComplete s (fun t =>
    if st = Syn.CAL then synState t = Syn.ACQUIRE ∧ (synLock s = false → frame [(.SYNTH_STATUS, 0)] t) else t = s)) ∧
  ((outRuns s n = true ↔ n.val ≤ 2 ∨ root ∧ (if n.val = 3 then ¬ (sysState s = St.HALT ∧ s.f .SYS_STATE 0 15 8 = 2)
    else s.bit .SYNTH_OUT_n_CFG n 31 = true)) ∧
   (wclkOut s = true ↔ bitOf s.synth.use.cfg 29 = true ∧ s.bit .SYNTH_STATUS 0 25 = false ∧ s.time.clk < turnLen s / 2)) ∧
  (live → gives (.lockAcquired ⟨dlock, sensed⟩) s (fun t => if st = Syn.ACQUIRE ∨ st = Syn.LOCKED then
      t.bit .SYNTH_STATUS 0 27 = dlock ∧ t.bit .SYNTH_STATUS 0 26 = sensed ∧
      (if st = Syn.ACQUIRE ∧ dlock = true ∧ (sensed = true ∨ bitOf s.synth.use.cfg 31 = false) then
        synState t = Syn.LOCKED ∧ t.bit .SYNTH_STATUS 0 28 = true ∧ t.bit .SYNTH_STATUS 0 25 = false ∧ t.bit .SYS_STATE 0 21 = false ∧
        (synLock s = false → ev 16 t) ∧ regsKept [(.SYNTH_STATUS, 0), (.SYS_STATE, 0), (.EVT_RAW_w, 2)] s t ∧
        t = { s with regs := t.regs, synth := { s.synth with switched := t.synth.switched } } ∧
        (onBackup s = true → meets t.synth.switched)
      else synState t = st ∧ frame [(.SYNTH_STATUS, 0)] t)
    else t = s)) ∧
  (live → gives .refLoss s (fun t => if st = Syn.LOCKED then
      lost t ∧ frame [(.SYNTH_STATUS, 0), (.SYNTH_FAULT, 0), (.SYNTH_REF_LOSS_CNT, 0), (.EVT_RAW_w, 2)] t
    else t = s)) ∧
  (live → gives (.refReturn e) s (fun t => (st ≠ Syn.COAST → t = s) ∧ (st = Syn.COAST → ¬ tracks s.synth.use 0 → relocks s.synth.use t) ∧
    (st = Syn.COAST → tracks s.synth.use 0 → synState t = Syn.LOCKED ∧ t.bit .SYNTH_STATUS 0 27 = s.bit .SYNTH_STATUS 0 27 ∧
      t.reg .SYNTH_PHASE 0 = BitVec.ofInt 32 e ∧
      (if e.natAbs ≤ 8 * s.f .SYNTH_PHASE_WIN 0 15 0 ∨ bitOf s.synth.use.cfg 30 = false then
        t.bit .SYNTH_STATUS 0 24 = decide (2 < e.natAbs) ∧ t.bit .SYS_STATE 0 23 = s.bit .SYS_STATE 0 23
      else t.bit .SYS_STATE 0 23 = true) ∧
      regsKept [(.SYNTH_STATUS, 0), (.SYNTH_PHASE, 0), (.SYS_STATE, 0), (.EVT_RAW_w, 2)] s t ∧
      t = { s with regs := t.regs, dev := { s.dev with won := t.dev.won } }))) ∧
  (live → gives (.slewComplete e) s (fun t => if s.bit .SYNTH_STATUS 0 24 = true ∧ e.natAbs ≤ 2 then
      t = (s.setBit .SYNTH_STATUS 0 24 false).setReg .SYNTH_PHASE 0 (BitVec.ofInt 32 e)
    else t = s)) ∧
  (live → (s.bit .SYS_STATE 0 23 = false ∨ turnsOn s = true ∨ alive s = false) → exec .dividerReset s = .next s) ∧
  (live → s.bit .SYS_STATE 0 23 = true → turnsOn s = false → alive s = true → s.dev.pendCut = [] → s.dev.starting = false →
    gives .dividerReset s (fun t => resets (List.range 12) t ∧ t.bit .SYS_STATE 0 23 = false ∧ t.reg .SYNTH_PHASE 0 = 0 ∧
      t.time = { s.time with grid := s.time.grid + 1, clk := 0 } ∧
      (turnsOn t = true ↔ (effState s = St.HOLD ∨ inTest s = true) ∧ holdCause (s.setBit .SYS_STATE 0 23 false) = 0) ∧
      (turnsOn t = true → t.bit .SYS_STATE 0 4 = false ∧ effState t = (if effState s = St.HOLD then St.RUN else effState s)) ∧
      t.mem = s.mem ∧ t.wmem = s.wmem ∧ t.hart = s.hart ∧ t.sched = s.sched)) ∧
  (live → gives .syncIn s (fun t => t = { s with regs := t.regs, synth := t.synth, time := t.time } ∧ regsKept [(.SYNTH_FAULT, 0)] s t ∧
    (onBackup s = true ∨ meets s.synth.switched → resets [] t ∧ t.bit .SYNTH_FAULT 0 16 = true ∧ t.time = s.time) ∧
    (onBackup s = false → ¬ meets s.synth.switched → turnsOn s = true → resets (mask.filter (fun k => decide (4 ≤ k))) t ∧ t.time = s.time ∧
      t.bit .SYNTH_FAULT 0 16 = (s.bit .SYNTH_FAULT 0 16 || mask.any (fun k => decide (k < 4)))) ∧
    (onBackup s = false → ¬ meets s.synth.switched → turnsOn s = false → resets mask t ∧
      t.time = if mask.any (fun k => decide (k < 4)) then { s.time with clk := 0 } else s.time))) ∧
  (bitOf v 30 = false → legal → doesSome (.rampGo m v) m .SYNTH_RAMP_CTRL 0 s (fun u => u.f .SYNTH_RAMP_CTRL 0 3 0 = seg ∧
    u.reg .SYNTH_RAMP_OFFSET 0 = s.reg .SYNTH_RAMP_OFFSET 0 ∧
    (if turnsOn s then u.dev.pendNew = queued (.rampGo) s ∧ u.reg .SYNTH_RAMP_STAT 0 = s.reg .SYNTH_RAMP_STAT 0
     else u.reg .SYNTH_RAMP_STAT 0 = BitVec.ofNat 32 (2 ^ 31 + dur 0)))) ∧
  (bitOf v 30 = false → ¬ legal → doesSome (.rampGo m v) m .SYNTH_RAMP_CTRL 0 s (fun u => u.bit .SYNTH_FAULT 0 31 = true ∧
    u.reg .SYNTH_RAMP_STAT 0 = s.reg .SYNTH_RAMP_STAT 0 ∧ u.dev = s.dev)) ∧
  doesSome (.rampAbort m v) m .SYNTH_RAMP_CTRL 0 s (fun u => (run = true → u.bit .SYNTH_FAULT 0 31 = true) ∧ u.bit .SYNTH_RAMP_STAT 0 31 = false ∧
    u.reg .SYNTH_RAMP_OFFSET 0 = s.reg .SYNTH_RAMP_OFFSET 0 ∧ u.dev.pendNew = s.dev.pendNew.filter (fun a => a != .rampGo) ∧
    u.dev.pendCut = s.dev.pendCut.filter (fun a => a != .rampGo)) ∧
  (live → gives .rampSegmentEnd s (fun t =>
    let k := s.f .SYNTH_RAMP_STAT 0 19 16
    if run = true ∧ s.f .SYNTH_RAMP_STAT 0 15 0 = 0 then
      (if k < s.f .SYNTH_RAMP_CTRL 0 3 0 then t.f .SYNTH_RAMP_STAT 0 19 16 = k + 1 ∧ t.f .SYNTH_RAMP_STAT 0 15 0 = dur (k + 1) ∧
          t.bit .SYNTH_RAMP_STAT 0 31 = true ∧ frame [(.SYNTH_RAMP_STAT, 0)] t
        else t.bit .SYNTH_RAMP_STAT 0 31 = false ∧ ev 21 t ∧ frame [(.SYNTH_RAMP_STAT, 0), (.EVT_RAW_w, 2)] t)
    else t = s)) ∧
  (live → gives (.overspeedTrip n) s (fun t =>
    let u := if n.val ≤ 2 then s.setBit .SYNTH_STATUS 0 25 true else s
    (n.val ≤ 3 → alive s = true → halted 2 u t) ∧ (n.val ≤ 3 → alive s = false → t = u) ∧
    (4 ≤ n.val → meets (Store.get natZero t.synth.trips n) ∧
      t = { ((s.setBit .SYNTH_OUT_n_CFG n 31 false).setBit .SYNTH_FAULT 0 (n - 4) true).setBit .EVT_RAW_w 2 20 true with synth := { s.synth with trips := t.synth.trips } }))) ∧
  (¬ divOk → (4 ≤ n.val → s.bit .SYNTH_OUT_n_CFG n 31 = false ∧ ¬ tripped) → does (.synthOutCfgWrite m n v) m .SYNTH_OUT_n_CFG n s (cfgErr .SYNTH_OUT_n_CFG n s)) ∧
  (divOk → doesSome (.synthOutCfgWrite m n v) m .SYNTH_OUT_n_CFG n s (fun u =>
    (n.val ≤ 3 → u.bit .SYNTH_OUT_n_CFG n 31 = s.bit .SYNTH_OUT_n_CFG n 31 ∧ u.f .SYNTH_OUT_n_CFG n 11 0 = fld v 11 0 ∧
      u.f .SYNTH_OUT_n_CFG n 23 16 = (if s.bit .SYNTH_LOCK 0 0 then s.f .SYNTH_OUT_n_CFG n 23 16 else fld v 23 16)) ∧
    (4 ≤ n.val → s.bit .SYNTH_OUT_n_CFG n 31 = false → ¬ tripped → u = s.setReg .SYNTH_OUT_n_CFG n (v &&& 0x80FF0FFF)))) ∧
  (4 ≤ n.val → s.bit .SYNTH_OUT_n_CFG n 31 = true ∨ tripped → doesSome (.synthOutCfgWrite m n v) m .SYNTH_OUT_n_CFG n s (fun u =>
    u.reg .SYNTH_OUT_n_CFG n = (s.reg .SYNTH_OUT_n_CFG n &&& 0x7FFFFFFF) ||| (if tripped then 0 else v &&& 0x80000000) ∧
    (fld v 23 16 ≠ s.f .SYNTH_OUT_n_CFG n 23 16 ∨ fld v 11 0 ≠ s.f .SYNTH_OUT_n_CFG n 11 0 → u.bit .SYNTH_FAULT 0 31 = true))) ∧
  (en = true → does (.synthBandWrite m b v) m .SYNTH_BAND_n b s (cfgErr .SYNTH_BAND_n b s)) ∧
  (en = false → doesSome (.synthBandWrite m b v) m .SYNTH_BAND_n b s (fun u => u.f .SYNTH_BAND_n b 29 24 = fld v 29 24 ∧
    u.f .SYNTH_BAND_n b 23 12 = fld v 23 12 ∧ u.f .SYNTH_BAND_n b 11 0 = fld v 11 0 ∧ regsKept [(.SYNTH_BAND_n, b)] s u ∧
    u = { s with regs := u.regs })) ∧
  (s.bit .SYNTH_LOCK 0 0 = true → does (.synthCeilWrite m n v) m .SYNTH_CEIL_n n s s) ∧
  (s.bit .SYNTH_LOCK 0 0 = false → top < fld v 20 0 → does (.synthCeilWrite m n v) m .SYNTH_CEIL_n n s (cfgErr .SYNTH_CEIL_n n s)) ∧
  (s.bit .SYNTH_LOCK 0 0 = false → fld v 20 0 ≤ top → doesSome (.synthCeilWrite m n v) m .SYNTH_CEIL_n n s (fun u =>
    u.f .SYNTH_CEIL_n n 20 0 = fld v 20 0 ∧ regsKept [(.SYNTH_CEIL_n, n)] s u ∧ u = { s with regs := u.regs }))

/-! Power domains. -/

/-- R397 to R411, R415: sleep requests and their votes, entries with their saves, wakes with their records and restores, automatic retention,
and the always-on regulator. A load is counted in 0.01 mA: a save or a restore adds 18 mA, low-power mode takes 1.8 mA. The model's
choices: the order of the save lists and what a cluster shows while it is off (log entry 51), the load of GPIO detection and of a read of
LOAD (log entry 52), who votes, when a domain stops for a vote and what a wake beside one does (log entry 53), the code and the instant of
an automatic retention (log entry 54), what source 27 and 28 name (log entry 32), and that a brown-out above the limit is the one fault of
the model (log entry 71). -/
def Obligations.Power : Prop := ∀ (m : Initiator) (d : Fin 34) (c n : Fin 8) (k : Fin 29) (v : Word) (s : State),
  let live := Machine.up s = true
  let bit (hi lo : Word) (x : Nat) : Bool := if x < 32 then bitOf lo x else bitOf hi (x - 32)
  let named (hi lo : Word) : List Nat := (List.range 34).filter (fun x => x ≠ 0 && bit hi lo x)
  let ds := named (s.reg .PWR_REQ_MASK_HI 0) (s.reg .PWR_REQ_MASK_LO 0)
  let map (x : Nat) : List Nat := named (s.reg .PWR_WAKE_MAP_s_HI x) (s.reg .PWR_WAKE_MAP_s_LO x)
  let ev (b : Nat) (t : State) : Prop := t.bit .EVT_RAW_w 2 b = true
  let states := [(RegName.PWR_STATE_w, 0), (.PWR_STATE_w, 1), (.PWR_STATE_w, 2)]
  let records (src x : Nat) (replayed : Bool) (s t : State) : Prop :=
    if s.pwr.wokeAt = s.time.hub + 1 ∧ s.bit .PWR_LAST_WAKE 0 31 = true ∧ (s.f .PWR_LAST_WAKE 0 4 0 < src ∨
        s.f .PWR_LAST_WAKE 0 4 0 = src ∧ s.f .PWR_LAST_WAKE 0 13 8 ≤ x) then
      t.reg .PWR_LAST_WAKE 0 = s.reg .PWR_LAST_WAKE 0 ∧ t.reg .PWR_LAST_WAKE_TURN 0 = s.reg .PWR_LAST_WAKE_TURN 0
    else t.reg .PWR_LAST_WAKE 0 = BitVec.ofNat 32 (2 ^ 31 + b2n replayed * 2 ^ 30 + x * 256 + src) ∧
      t.reg .PWR_LAST_WAKE_TURN 0 = BitVec.ofNat 32 s.time.turn.toNat ∧ ev 26 t
  let met (s : State) : List (Nat × Nat) := if s.pwr.firedAt = s.time.hub + 1 then s.pwr.fired else []
  let wakes (src : Nat) (l : List Nat) (s t : State) : Prop :=
    let down := l.filter (fun x => domainDown s x && !inRequest s x)
    t.pwr.latch = s.pwr.latch ++ (l.filter (inRequest s)).map (fun x => (src, x)) ∧
    met t = met s ++ (l.filter (fun x => domainOn s x && !inRequest s x)).map (fun x => (src, x)) ∧
    t.pwr.wake = s.pwr.wake ++ down.map (fun x => (x, decide (domainCode s x = Dom.OFF))) ∧
    (∀ x : Fin 34, domainCode t x = if x.val ∈ down then Dom.MOVING else domainCode s x) ∧
    (down = [] → regsKept [] s t) ∧
    (∀ x, (List.range 34).find? (fun y => down.contains y) = some x → records src x false s t) ∧
    regsKept (states ++ [(.PWR_LAST_WAKE, 0), (.PWR_LAST_WAKE_TURN, 0), (.EVT_RAW_w, 2)]) s t ∧
    t = { s with regs := t.regs, pwr := { s.pwr with latch := t.pwr.latch, wake := t.pwr.wake, wokeAt := t.pwr.wokeAt, firedAt := t.pwr.firedAt, fired := t.pwr.fired } }
  let busy := s.f .PWR_REQ_STAT 0 31 30 = 1
  let barred := ds = [] ∨ sysState s = St.HALT
  let refused := busy ∨ barred
  let group : Option Nat := match m with | .core x => some (14 + x.val / 4) | _ => none
  let held (x : Nat) : Bool := coreMode s x == 1 || (heldBy s x).isSome
  let why (w : Vote) (x : Nat) : Nat :=
    let own :=
      if x = 1 then (if s.bit .SYNTH_CTRL 0 0 then 1 else 0)
      else if x = 2 then
        if turnsOn s || (List.range 32).any (fun j => s.f .DMA_CH_n_STAT j 31 29 != Dma.OFF && s.f .DMA_CH_n_STAT j 31 29 != Dma.IDLE) ||
          !s.safe.strokes.isEmpty || !s.timer.on.isEmpty then 1
        else if (List.range 4).any (fun g => domainOn s (14 + g) && !w.voters.contains (14 + g)) then 5 else 0
      else if x = 3 then (if turnsOn s then 2 else 0)
      else if x = 4 then (if turnsOn s && (List.range 16).any (fun j => s.reg .SECTION_EN_w j != 0) then 2 else 0)
      else if x = 5 then (if (List.range 256).any (fun j => s.bit .ASRC_CH_n_CFG j 31) then 1 else 0)
      else if x < 14 then (if s.eng.mig.any (fun y => y.cl + 6 == x) then 1
        else if turnsOn s && !s.bit .FABRIC_QUIET_STAT 0 (x - 6) then 2 else 0)
      else if x < 18 then (if (List.range 4).any (fun j => held (4 * (x - 14) + j)) then 1 else if w.self = some x then 3 else 0)
      else if x < 26 then (if (List.range 8).any (fun j => s.port.on.contains (8 * (x - 18) + j) &&
        (s.f .SAP_CFG (8 * (x - 18) + j) 1 0 == 0 || sapState s (8 * (x - 18) + j) == Sap.CONFIRM || sapState s (8 * (x - 18) + j) == Sap.LOCKED))
        then 1 else 0)
      else if s.bit .LINK_CTRL (x - 26) 0 && linkState s (x - 26) != Lk.SIGNAL && linkState s (x - 26) != Lk.RETIRED then 1 else 0
    if own ≠ 0 then own else if w.busy.contains x && inFlight s x then 4 else 0
  let sleeps (i : Instr) (code tgt : Nat) : Prop :=
    (refused → does i m .PWR_REQ_CTRL 0 s (cfgErr .PWR_REQ_CTRL 0 s)) ∧
    (¬ refused → doesSome i m .PWR_REQ_CTRL 0 s (fun u =>
      let others := if code = Dom.OFF then ds.filter (fun x => domainCode s x == Dom.RET) else []
      let voters := ds.filter (domainOn s)
      let vote : Vote := ⟨code, voters, others, group, voters.filter (inFlight s), []⟩
      let keeps := voters.filter (fun x => why vote x != 0)
      u.f .PWR_REQ_CTRL 0 1 0 = tgt ∧ u.f .PWR_REQ_STAT 0 31 30 = 1 ∧
      u.pwr = { s.pwr with vote := some { vote with keeps := keeps },
                           latch := s.pwr.latch ++ (met s).filter (fun y => voters.contains y.2) } ∧
      (∀ x : Fin 34, domainCode u x = if x.val ∈ voters ++ others ∧ x.val ∉ keeps then Dom.MOVING else domainCode s x) ∧
      regsKept (states ++ [(.PWR_REQ_CTRL, 0), (.PWR_REQ_STAT, 0)]) s u ∧ u = { s with regs := u.regs, pwr := u.pwr }))
  let load (en : Word) (extra : Option Nat) (moving : Bool) : Nat :=
    let off (x : Nat) : Bool := domainDown s x || extra == some x
    90 + ((List.range 8).map (fun l => if off (26 + l) then (if wakeMode s l then 45 else 20) else 0)).foldl (· + ·) 0 +
      (if bitOf en 28 then ((List.range 8).filter (fun g => off (18 + g))).length * 6 else 0) +
      (2 * ((List.range 16).filter (fun i => bitOf en i)).length + 15) / 16 + (if bitOf en 26 then 8 else 0) +
      b2n (s.bit .PWR_AON_TIMER_CTRL 0 0) + (if moving then 1800 else 0)
  let waits (n : Nat) : Prop := s.bit .AON_REG 0 31 = true ∧ s.bit .AON_REG 0 8 = false ∧ 180 < n
  let stepping : State := { s with pwr := { s.pwr with stepping := true } }
  let moving := (s.bit .AON_REG 0 8 || !s.bit .AON_REG 0 31) && (s.pwr.enter.any (fun e => e.2 == Dom.OFF) || s.pwr.wake.any (fun w => w.2))
  let now := load (s.reg .PWR_WAKE_EN 0) none moving
  let held' := [RegName.ENGC_RETIRE, .ENGC_REMAP, .ENG_CTRL, .ENG_LANE_MAP]
  let kept := held' ++ [.ENG_STATUS, .SECTION_ACT_w, .SAFE_FABRIC_GROUP, .SAP_STAT, .LINK_STAT, .SCHED_CORE_n_STAT]
  let margin (c : Nat) : Prop := ∀ j : Fin 9, s.bit .ENG_CTRL (9 * c + j) 0 = true →
    ∀ z : Fin 2, progLen s (9 * c + j) z + 128 + (if s.bit .SYS_TURN_CFG 0 4 then 1084 else 1180) ≤ turnLen s
  sleeps (.reqRetention m v) Dom.RET 1 ∧ sleeps (.reqOff m v) Dom.OFF 2 ∧
  (barred ∨ (busy ∧ s.pwr.rising ≠ []) → does (.reqOn m v) m .PWR_REQ_CTRL 0 s (cfgErr .PWR_REQ_CTRL 0 s)) ∧
  (¬ barred → busy → s.pwr.rising = [] → doesSome (.reqOn m v) m .PWR_REQ_CTRL 0 s (fun u => u.f .PWR_REQ_CTRL 0 1 0 = 3 ∧
    ∃ w, wakes 30 ds s w ∧ u.pwr = w.pwr ∧ regsKept [(.PWR_REQ_CTRL, 0)] w u)) ∧
  (¬ refused → doesSome (.reqOn m v) m .PWR_REQ_CTRL 0 s (fun u =>
    let left := ds.filter (fun x => !domainOn s x)
    u.f .PWR_REQ_CTRL 0 1 0 = 3 ∧ u.f .PWR_REQ_STAT 0 31 30 = (if left = [] then 2 else 1) ∧ (left = [] → ev 24 u) ∧
    ∃ w, wakes 30 ds s w ∧ u.pwr = (if left = [] then w.pwr else { w.pwr with rising := left }) ∧
      regsKept [(.PWR_REQ_CTRL, 0), (.PWR_REQ_STAT, 0), (.EVT_RAW_w, 2)] w u)) ∧
  (live → gives .voteComplete s (fun t => match s.pwr.vote with
    | none => t = s
    | some w => (∀ x ∈ w.voters ++ w.others ++ w.keeps, x < 34) → match w.voters.find? (fun x => why w x != 0) with
      | some x => s.pwr.stalled = [] → s.host.tx = [] → s.dma.failed = [] → (∀ k ∈ s.safe.strokes, k.rest = []) →
        (s.pwr.latch = [] → (∀ y : Fin 34, domainCode t y = if y.val ∈ w.others then Dom.RET else if y.val ∈ w.voters then Dom.ON else domainCode s y) ∧
          t.reg .PWR_REFUSE 0 = BitVec.ofNat 32 (2 ^ 31 + x * 256 + why w x) ∧ t.f .PWR_REQ_STAT 0 31 30 = 3 ∧ ev 25 t ∧
          regsKept (states ++ [(.PWR_REFUSE, 0), (.PWR_REQ_STAT, 0), (.EVT_RAW_w, 2)]) s t ∧
          t = { s with regs := t.regs, pwr := { s.pwr with vote := none } }) ∧
        (∀ src y, s.pwr.latch = [(src, y)] → y ∈ w.voters → y ∉ w.others → records src y false s t ∧ t.pwr.latch = [])
      | none => t.pwr = { s.pwr with vote := none, enter := (w.voters ++ w.others).map (fun x => (x, w.target)) } ∧
        t.f .PWR_REQ_STAT 0 31 30 = (if w.voters ++ w.others = [] then 2 else s.f .PWR_REQ_STAT 0 31 30) ∧
        (∀ x : Fin 34, domainCode t x = if x.val ∈ w.keeps then Dom.MOVING else domainCode s x) ∧
        (w.voters ++ w.others = [] → ev 24 t) ∧ regsKept (states ++ [(.PWR_REQ_STAT, 0), (.EVT_RAW_w, 2)]) s t ∧
        t = { s with regs := t.regs, pwr := t.pwr })) ∧
  (live → d.val ≠ 0 → gives (.domainEntryDone d) s (fun t => match s.pwr.enter.find? (fun e => e.1 == d.val) with
    | none => t = s
    | some (_, code) =>
      let last := s.pwr.enter.all (fun e => e.1 == d.val)
      let quiet := s.pwr.latch.all (fun y => y.2 != d.val) = true ∧
        (List.range 16).all (fun i => !(s.bit .PWR_WAKE_EN 0 i && gpioLevelWake s i && (map i).contains d.val)) = true
      (waits (load (s.reg .PWR_WAKE_EN 0) (some d) (code == Dom.OFF)) → t = stepping) ∧
      (¬ waits (load (s.reg .PWR_WAKE_EN 0) (some d) (code == Dom.OFF)) →
        t.pwr.enter = s.pwr.enter.filter (fun e => e.1 != d.val) ∧ t.pwr.latch = s.pwr.latch.filter (fun y => y.2 != d.val) ∧
        (last = true → t.f .PWR_REQ_STAT 0 31 30 = 2 ∧ ev 24 t) ∧ (quiet → domainCode t d = code % 4) ∧
        (∀ src y, s.pwr.latch.find? (fun y => y.2 == d.val) = some (src, y) → domainCode t d = Dom.MOVING ∧ records src d true s t ∧
          t.pwr.wake = s.pwr.wake ++ [(d.val, code % 4 == Dom.OFF)]) ∧
        (code = Dom.RET → t = { s with regs := t.regs, pwr := t.pwr } ∧
          regsKept (states ++ [(.PWR_REQ_STAT, 0), (.PWR_LAST_WAKE, 0), (.PWR_LAST_WAKE_TURN, 0), (.EVT_RAW_w, 2)]) s t) ∧
        (code = Dom.OFF → (∀ a, domainAt a = d.val → getByte t a = 0 ∧ getSlot t a = 0) ∧
          (∀ r i, i < (Reg.row r).count → domainAt (Reg.addr r i) = d.val → r ∉ kept → t.reg r i = Reg.resetOf (Reg.key r i)) ∧
          (∀ r i, i < (Reg.row r).count → r ∈ held' → t.reg r i = s.reg r i) ∧
          (∀ i x, (saveList d)[i]? = some x → getSlot t (saveBase d + 4 * i) = saveValue s x) ∧
          (d.val = 2 → ∀ i : Fin 2048, getSlot t (0xF000C800 + 4 * i) = getSlot s (0x43081000 + 4 * i)))))) ∧
  let slaves := (List.range 8).any (fun j => slavePort s (8 * n + j))
  (live → gives (.wakeSource k n) s (fun t => (k.val = 26 → t = s) ∧ (k.val ≠ 26 → s.bit .PWR_WAKE_EN 0 k = false → t = s) ∧
    (k.val = 28 → slaves = false → t = s) ∧
    (k.val ≠ 26 → s.bit .PWR_WAKE_EN 0 k = true → (k.val = 28 → slaves = true) →
      wakes k (if k.val = 27 then [26 + n.val] else if k.val = 28 then [18 + n.val] else map k) s t))) ∧
  (live → gives (.demandWake d) s (wakes 29 [d.val] s)) ∧
  (live → gives (.domainReady d) s (fun t => ∃ u, t = retryAll u ∧ match s.pwr.wake.find? (fun w => w.1 == d.val) with
    | none => u = s
    | some (_, off) =>
      let left := s.pwr.rising.filter (fun x => x != d.val)
      let last := d.val ∈ s.pwr.rising ∧ left = []
      let kept (x : State) : Prop := regsKept (states ++ if last then [(.PWR_REQ_STAT, 0), (.EVT_RAW_w, 2)] else []) s x ∧
        (last → x.f .PWR_REQ_STAT 0 31 30 = 2 ∧ ev 24 x)
      let up : State := { s with pwr := { s.pwr with wake := s.pwr.wake.filter (fun w => w.1 != d.val), rising := left, quiet := u.pwr.quiet } }
      (off = true → waits (load (s.reg .PWR_WAKE_EN 0) none true) → u = stepping) ∧
      (off = false → domainCode u d = Dom.ON ∧ u = { up with regs := u.regs } ∧ kept u) ∧
      (off = true → ¬ waits (load (s.reg .PWR_WAKE_EN 0) none true) →
        (saveBroken s d = true → alive s = true → ∃ x, domainCode x d = Dom.ON ∧ x = { up with regs := x.regs } ∧ kept x ∧ halted 6 x u) ∧
        (saveBroken s d = false → domainCode u d = Dom.ON ∧
          (∀ i r j mask, (saveList d)[i]? = some (.reg r j mask) →
            u.reg r j &&& BitVec.ofNat 32 mask = getSlot s (saveBase d + 4 * i) &&& BitVec.ofNat 32 mask) ∧
          (d.val = 2 → ∀ i : Fin 2048, getSlot u (0x43081000 + 4 * i) = getSlot s (0xF000C800 + 4 * i)))))) ∧
  (live → gives .aonTimerExpire s (fun t =>
    if s.bit .PWR_AON_TIMER_CTRL 0 0 then ∃ u, u = (if s.bit .PWR_AON_TIMER_CTRL 0 1 then s.setBit .PWR_AON_TIMER_CTRL 0 0 false else s) ∧
      (if s.bit .PWR_WAKE_EN 0 24 then wakes 24 (map 24) u t else t = u)
    else t = s)) ∧
  (live → gives (.autoRetentionEntry c) s (fun t =>
    if s.bit .PWR_AUTO_RET 0 c = true ∧ domainOn s (6 + c) = true ∧ s.bit .FABRIC_QUIET_STAT 0 c = true ∧ inFlight s (6 + c) = false ∧
        s.f .PWR_AUTO_RET_DELAY 0 15 0 < Store.get natZero s.pwr.quiet c then
      domainCode t (6 + c) = Dom.RET ∧ (∀ x : Fin 34, x.val ≠ 6 + c → domainCode t x = domainCode s x) ∧ regsKept states s t ∧ t = { s with regs := t.regs }
    else t = s)) ∧
  doesSome (.pwrAutoRetWrite m v) m .PWR_AUTO_RET 0 s (fun u =>
    (∀ x : Fin 32, u.bit .PWR_AUTO_RET 0 x = true ↔ x.val < 8 ∧ bitOf v x = true ∧ margin x) ∧
    ((∃ x : Fin 8, bitOf v x = true ∧ ¬ margin x) → u.bit .PWR_FAULT 0 0 = true) ∧
    regsKept [(.PWR_AUTO_RET, 0), (.PWR_FAULT, 0)] s u ∧ u = { s with regs := u.regs }) ∧
  (live → gives .regulatorModeChange s (fun t => if s.pwr.stepping = true then
      let level (v : Word) (i : Nat) : Prop := bitOf v i = true ∧ gpioLevelWake s i = true
      t.bit .AON_REG 0 8 = true ∧ t.bit .AON_REG 0 0 = true ∧ t.reg .PWR_WAKE_EN 0 = s.pwr.waitEn.getD (s.reg .PWR_WAKE_EN 0) ∧
      (∀ v, s.pwr.waitEn = some v → ∀ i : Fin 16, level v i → ∀ x ∈ map i, domainDown s x = true → inRequest s x = false →
        domainCode t x = Dom.MOVING) ∧
      ((∀ v, s.pwr.waitEn = some v → ∀ i : Fin 16, ¬ level v i) → regsKept [(.AON_REG, 0), (.PWR_WAKE_EN, 0)] s t ∧
        t = { s with regs := t.regs, pwr := { s.pwr with stepping := false, waitEn := none } })
    else t = s)) ∧
  (live → gives .lowPowerReturn s (fun t =>
    if s.bit .AON_REG 0 31 = true ∧ s.bit .AON_REG 0 8 = true ∧ s.pwr.stepping = false ∧ now ≤ 180 then
      t = (s.setBit .AON_REG 0 8 false).setBit .AON_REG 0 0 false
    else t = s)) ∧
  exec .brownOut s = if Machine.up s = true ∧ (if s.bit .AON_REG 0 8 then 4000 else 200) < now then .fault .alwaysOnBrownOut else .next s

/-! The SEC block. -/

/-- R429 to R441: seal operations and their refusals, sealed loads, which copy everything or nothing, the floor, OTP programs, and service
access. The model's choices: a length out of range with CFG_ERR alone, a GO while busy, and when reasons 6 and 8 apply (log entry 47), the
order of the bits of one SEC_SVC_CTRL write (log entry 48), and which of two writes of one HUBCLK cycle came first in the queue (log entry
15). -/
def Obligations.Security : Prop := ∀ (m : Initiator) (v failed : Word) (s : State),
  let live := Machine.up s = true
  let st := sysState s
  let image := s.f .SEC_BOOT_INFO 0 27 16
  let sealer := s.bit .SEC_STATUS 0 4
  let life := s.f .SEC_STATUS 0 17 16
  let fuse (s : State) (i : Nat) : Bool := bitOf (otpWord s (2 + i / 32)) (i % 32)
  let fused := ((List.range 64).filter (fuse s)).length
  let ev (b : Nat) (t : State) : Prop := t.bit .EVT_RAW_w 3 b = true
  let err (t : State) : Prop := t.bit .SEC_STATUS 0 31 = true
  let memKept (t : State) : Prop := t.mem = s.mem ∧ t.wmem = s.wmem
  let ended (reason : Nat) (t : State) : Prop := t.bit .SEC_SEAL_STAT 0 31 = false ∧ t.f .SEC_SEAL_STAT 0 27 24 = reason ∧
    t.bit .SEC_SEAL_STAT 0 (if reason = 0 then 30 else 29) = true ∧ ev 3 t ∧ t.boot.sealJob = none
  let locked := s.bit .SEC_SEAL_CTRL 0 30 = true ∨ bitOf v 30 = true
  let len := s.f .SEC_SEAL_LEN 0 14 0
  let ver := s.f .SEC_SEAL_VER 0 11 0
  let goes (i : Instr) (isOpen : Bool) : Prop := doesSome i m .SEC_SEAL_CTRL 0 s (fun u =>
    let badLen := isOpen = false ∧ (len = 0 ∨ 16384 < len)
    let reason := if locked ∨ st = St.SERVICE then 1 else if isOpen = false ∧ sealer = false then 2
      else if isOpen = false ∧ image < ver then 3 else if life = 0 then 7 else 0
    let busy := s.bit .SEC_SEAL_STAT 0 31 = true
    memKept u ∧ u.bit .SEC_SEAL_CTRL 0 30 = (s.bit .SEC_SEAL_CTRL 0 30 || bitOf v 30) ∧
    (st = St.HALT → u.boot = s.boot ∧ u.reg .SEC_SEAL_STAT 0 = s.reg .SEC_SEAL_STAT 0) ∧
    (st ≠ St.HALT → busy ∨ badLen → err u ∧ u.boot = s.boot ∧ u.reg .SEC_SEAL_STAT 0 = s.reg .SEC_SEAL_STAT 0) ∧
    (st ≠ St.HALT → ¬ busy → ¬ badLen → s.boot.sealJob = none → reason ≠ 0 → ended reason u ∧ u.boot = s.boot) ∧
    (st ≠ St.HALT → ¬ busy → ¬ badLen → reason = 0 → u.bit .SEC_SEAL_STAT 0 31 = true ∧ u.boot = { s.boot with
      sealJob := some ⟨isOpen, (s.reg .SEC_SEAL_SRC 0).toNat, (s.reg .SEC_SEAL_DST 0).toNat, len, ver, 0⟩ }))
  let key (w : Nat) : List Byte := hashN (image - w) s.boot.verKey
  let outside (a n : Nat) (t : State) : Prop := ∀ b, b < a ∨ a + n ≤ b → getByte t b = getByte s b
  let lockAfter (t : State) : Prop := t.bit .SEC_SEAL_CTRL 0 30 = (s.bit .SEC_SEAL_CTRL 0 30 || s.boot.lockAfter)
  let src := (s.reg .SEC_SEALED_LOAD 0).toNat
  let loadEnds (reason : Nat) (block : Option Nat) (t : State) : Prop := t.boot = { s.boot with load := none } ∧
    t.bit .SEC_SEALED_LOAD_STAT 0 31 = false ∧ t.f .SEC_SEALED_LOAD_STAT 0 27 24 = reason ∧
    t.f .SEC_SEALED_LOAD_STAT 0 11 0 = block.getD 0 % 4096 ∧ t.bit .SEC_SEALED_LOAD_STAT 0 29 = true ∧ ev 5 t ∧ memKept t
  let target := fld v 22 16
  let floorBad := sealer = false ∨ s.bit .SEC_SEAL_CTRL 0 30 = true ∨ target ≤ fused ∨ 64 < target ∨ image < 64 * target
  let w := fld v 8 0
  let d := s.reg .SEC_OTP_DATA 0
  let program := match m with | .host _ => True | .core _ => True | _ => False
  let allowed :=
    if w = 0 then life ≠ 2 ∧ (bitOf d 0 = true → keyCheck s ≠ 0) ∧ (bitOf d 1 = true → bitOf (otpWord s 0) 0 = true)
    else if w = 1 ∨ (16 ≤ w ∧ w < 24) ∨ 128 ≤ w then life ≠ 2 else 8 ≤ w ∧ w < 16 ∧ life = 0
  let accepted := s.bit .SEC_SVC_STAT 0 30 = false ∧ life = 2 ∧ (st = St.ARMED ∨ st = St.RUN ∨ st = St.HOLD ∨ st = St.RECOVERY)
  let pw := bitOf v 28
  let n := fld v 5 0
  let resp := (List.range 8).flatMap (fun i => bytesOfWord (s.reg .SEC_SVC_RESP_i i))
  let nonce := (List.range 4).flatMap (fun i => bytesOfWord (s.reg .SEC_SVC_NONCE_i i)) ++ bytesOfWord (otpWord s 4) ++ bytesOfWord (otpWord s 5)
  let root := (List.range 8).flatMap (fun k => bytesOfWord (otpWord s (8 + k)))
  let mode := fld (otpWord s 1) 6 5
  let checks := accepted ∧ (if pw then (mode = 2 ∨ mode = 3) ∧ 1 ≤ n ∧ n ≤ 32 else (mode = 1 ∨ mode = 3) ∧ s.bit .SEC_SVC_STAT 0 29 = true)
  let matches' := if pw then sha256 (resp.take n) = (List.range 8).flatMap (fun k => bytesOfWord (otpWord s (16 + k)))
    else hmacSha256 (hmacSha256 root [0x53, 0x56, 0x43]) nonce = resp
  let fails := s.f .SEC_SVC_STAT 0 1 0 + 1
  let first : Prop := ∀ k, m = .host k → s.boot.svcAt = s.time.hub + 1 → k.val ≤ s.boot.svcPort
  let bootIs (b : BootState) (u : State) : Prop := u.boot = { b with svcAt := u.boot.svcAt, svcPort := u.boot.svcPort } ∧
    ∀ k, m = .host k → u.boot.svcAt = s.time.hub + 1 ∧ u.boot.svcPort = k
  goes (.sealData m v) false ∧ goes (.openBlob m v) true ∧
  (live → gives .sealOperationDone s (fun t => match s.boot.sealJob with
    | none => t = s
    | some j => (sealAsleep j s ≠ [] → memKept t ∧ t.boot = s.boot) ∧
      (sealAsleep j s = [] → j.isOpen = false →
        let size := 48 + (j.len + 3) / 4 * 4
        (secRead s j.src j.len = none ∨ secTakes s j.dst size = false → ended 6 t ∧ memKept t ∧ lockAfter t) ∧
        (∀ pt, secRead s j.src j.len = some pt → secTakes s j.dst size = true →
          ended 0 t ∧ lockAfter t ∧ outside j.dst size t ∧ ∃ iv : List Byte, iv.length = 12 ∧
            let h := blobHeader j.ver j.len iv
            let c := gcmSeal (key j.ver) iv h pt
            getBytes t j.dst size = h ++ pad4 c.1 ++ c.2)) ∧
      (sealAsleep j s = [] → j.isOpen = true → (secRead s j.src 32 = none → ended 6 t ∧ memKept t ∧ lockAfter t) ∧
        ∀ h, secRead s j.src 32 = some h →
        let word (k : Nat) : Word := wordOfBytes ((h.drop (4 * k)).take 4)
        let l := (word 2).toNat
        let pad := (l + 3) / 4 * 4
        let wrong := word 0 ≠ 0x64005EA1 ∨ fld (word 1) 31 12 ≠ 0 ∨ l = 0 ∨ 16384 < l ∨ word 3 ≠ 0 ∨ word 7 ≠ 0
        (wrong → ended 5 t ∧ memKept t ∧ lockAfter t) ∧
        (¬ wrong → image < (word 1).toNat → ended 3 t ∧ memKept t ∧ lockAfter t) ∧
        (¬ wrong → (word 1).toNat ≤ image → match secRead s (j.src + 32) (pad + 16) with
          | none => ended 6 t ∧ memKept t ∧ lockAfter t
          | some body => match gcmOpen (key (word 1).toNat) ((h.drop 16).take 12) h (body.take l) (body.drop pad) with
            | none => ended 4 t ∧ memKept t ∧ lockAfter t
            | some pt => if secTakes s j.dst l then ended 0 t ∧ lockAfter t ∧ getBytes t j.dst l = pt ∧ outside j.dst l t ∧
                t.f .SEC_SEAL_VER 0 11 0 = (word 1).toNat else ended 6 t ∧ memKept t ∧ lockAfter t)))) ∧
  (bitOf v 31 = false → doesSome (.sealLock m v) m .SEC_SEAL_CTRL 0 s (fun u => u.bit .SEC_SEAL_CTRL 0 30 = true ∧ u.boot = s.boot ∧
    u.reg .SEC_SEAL_STAT 0 = s.reg .SEC_SEAL_STAT 0 ∧ memKept u)) ∧
  (st = St.HALT → regWrite m .SEC_SEALED_LOAD_CTRL 0 v s = s) ∧
  (st ≠ St.HALT → s.boot.load.isSome = true → does (.sealedLoad m v) m .SEC_SEALED_LOAD_CTRL 0 s (cfgErr .SEC_SEALED_LOAD_CTRL 0 s)) ∧
  (st ≠ St.HALT → s.boot.load = none → doesSome (.sealedLoad m v) m .SEC_SEALED_LOAD_CTRL 0 s (fun u =>
    let size := (getWord s (primary (src + 0x10))).toNat
    u = { s.setBit .SEC_SEALED_LOAD_STAT 0 31 true with boot := { s.boot with load := some (primary src, size + size / 1024) } } ∧
    barred m (primary src) 1 u = (decide (0 < size) || barred m (primary src) 1 s))) ∧
  (live → gives .sealedLoadDone s (fun t => match s.boot.load with
    | none => t = s
    | some (a, k) =>
      let rd (o : Nat) : Byte := getByte s (a + o)
      let whole := (regionOf a = .hub ∨ regionOf a = .shared) ∧ regionOf (a + k - 1) = regionOf a
      let segs := imgSegs rd
      let head := headReason true s.boot.floor rd
      let sound := if life = 0 then badBlocks rd = [] else tagOk s rd = true
      (¬ whole → loadEnds 8 none t) ∧
      (whole → (∀ d : Fin 34, domainOn s d = true) →
        (head ≠ 0 → loadEnds head none t) ∧ (head = 0 → formatBad true (some (a, k)) rd = true → loadEnds 5 none t) ∧
        (head = 0 → formatBad true (some (a, k)) rd = false →
          (¬ sound → loadEnds (if life = 0 then 7 else 6) (badBlocks rd).head? t) ∧
          (sound → (∃ g ∈ segs, ∃ i < g.len / 4, takesWrites (g.dest + 4 * i) = false ∨ barred .sec (g.dest + 4 * i) 4 s = true) →
            loadEnds 8 none t) ∧
          (sound → (∀ g ∈ segs, ∀ i < g.len / 4, takesWrites (g.dest + 4 * i) = true ∧ barred .sec (g.dest + 4 * i) 4 s = false) →
            (∃ g ∈ segs, ∃ i < g.len / 4, fabHolds s (g.dest + 4 * i) = true) → t.boot = s.boot ∧ memKept t) ∧
          (sound → (∀ g ∈ segs, isByteMem (regionOf g.dest) = true) → fenceClosed s = false →
            t.boot = { s.boot with load := none } ∧ t.bit .SEC_SEALED_LOAD_STAT 0 31 = false ∧ t.bit .SEC_SEALED_LOAD_STAT 0 30 = true ∧
            t.f .SEC_SEALED_LOAD_STAT 0 27 24 = 0 ∧ ev 4 t ∧ t.wmem = s.wmem ∧
            (∀ g ∈ segs, ∀ o < g.len, getByte t (g.dest + o) = rd (g.off + o)) ∧
            (∀ b, (∀ g ∈ segs, b < g.dest ∨ g.dest + g.len ≤ b) → getByte t b = getByte s b)))))) ∧
  (st = St.HALT → regWrite m .SEC_FLOOR 0 v s = s ∧ regWrite m .SEC_OTP_CTRL 0 v s = s) ∧
  (st ≠ St.HALT → floorBad → does (.floorAdvance m v) m .SEC_FLOOR 0 s (cfgErr .SEC_FLOOR 0 s)) ∧
  (st ≠ St.HALT → ¬ floorBad → doesSome (.floorAdvance m v) m .SEC_FLOOR 0 s (fun u => u = { s with boot := { s.boot with otp := u.boot.otp } } ∧
    (∀ i : Fin 64, fuse u i = (fuse s i || (decide (fused ≤ i.val) && decide (i.val < target)))) ∧
    (∀ k, k ≠ 2 → k ≠ 3 → otpWord u k = otpWord s k))) ∧
  (st ≠ St.HALT → fld v 31 16 ≠ 0x6400 ∨ ¬ program ∨ s.boot.otpBusy ≠ none ∨ ¬ allowed →
    does (.otpProgram m v) m .SEC_OTP_CTRL 0 s (s.setBit .SEC_OTP_STAT 0 29 true)) ∧
  (st ≠ St.HALT → fld v 31 16 = 0x6400 → program → s.boot.otpBusy = none → allowed → doesSome (.otpProgram m v) m .SEC_OTP_CTRL 0 s (fun u =>
    u = { s.setBit .SEC_OTP_STAT 0 31 true with boot := { s.boot with otpBusy := some (w, d) } })) ∧
  (live → gives (.otpProgramDone failed) s (fun t => match s.boot.otpBusy with
    | none => t = s
    | some (k, x) => otpWord t k = otpWord s k ||| (x &&& ~~~ failed) ∧ (∀ j, j ≠ k → otpWord t j = otpWord s j) ∧
        t.boot.otpBusy = none ∧ t.bit .SEC_OTP_STAT 0 31 = false ∧ t.bit .SEC_OTP_STAT 0 30 = true ∧
        t.bit .SEC_OTP_STAT 0 28 = (s.bit .SEC_OTP_STAT 0 28 || decide (x &&& failed &&& ~~~ otpWord s k ≠ 0)) ∧
        regsKept [(.SEC_OTP_STAT, 0)] s t ∧ t = { s with regs := t.regs, boot := { s.boot with otp := t.boot.otp, otpBusy := none } })) ∧
  (¬ first → ∀ c ∈ [Instr.chal m v, .check m v, .close m v], does c m .SEC_SVC_CTRL 0 s (cfgErr .SEC_SVC_CTRL 0 s)) ∧
  (first → bitOf v 30 = false → bitOf v 31 = false → doesSome (.chal m v) m .SEC_SVC_CTRL 0 s (fun u => memKept u ∧ bootIs s.boot u ∧
    (¬ accepted → err u ∧ u.reg .SEC_SVC_STAT 0 = s.reg .SEC_SVC_STAT 0 ∧ ∀ i, u.reg .SEC_SVC_NONCE_i i = s.reg .SEC_SVC_NONCE_i i) ∧
    (accepted → u.reg .SEC_SVC_STAT 0 = s.reg .SEC_SVC_STAT 0 ||| 0x20000000 ∧
      regsKept [(.SEC_SVC_CTRL, 0), (.SEC_SVC_STAT, 0), (.SEC_SVC_NONCE_i, 0), (.SEC_SVC_NONCE_i, 1), (.SEC_SVC_NONCE_i, 2),
        (.SEC_SVC_NONCE_i, 3)] s u))) ∧
  (first → bitOf v 31 = false → doesSome (.check m v) m .SEC_SVC_CTRL 0 s (fun u => memKept u ∧
    (¬ checks → err u ∧ bootIs s.boot u ∧ u.reg .SEC_SVC_STAT 0 = s.reg .SEC_SVC_STAT 0 ∧ sysState u = st) ∧
    (checks → pw = false → u.bit .SEC_SVC_STAT 0 29 = false) ∧
    (checks → matches' → sysState u = St.SERVICE ∧ u.f .SYS_STATE 0 19 16 = st ∧ u.bit .SEC_SVC_STAT 0 31 = true ∧
      u.f .SEC_SVC_STAT 0 1 0 = 0 ∧ ev 0 u ∧ (s.boot.sealJob = none → u.bit .SEC_SEAL_CTRL 0 30 = true ∧ bootIs s.boot u) ∧
      (s.boot.sealJob ≠ none → bootIs { s.boot with lockAfter := true } u)) ∧
    (checks → ¬ matches' → sysState u = st ∧ u.f .SEC_SVC_STAT 0 1 0 = fails % 4 ∧ u.bit .SEC_SVC_STAT 0 28 = true ∧ ev 1 u ∧
      (3 ≤ fails → u.bit .SEC_SVC_STAT 0 30 = true ∧ ev 2 u ∧ (bitOf v 29 = true → err u)) ∧ (fails < 3 → u.bit .SEC_SVC_STAT 0 30 = false)))) ∧
  (live → exec .nonceExpire s = .next (s.setBit .SEC_SVC_STAT 0 29 false)) ∧
  (first → doesSome (.close m v) m .SEC_SVC_CTRL 0 s (fun u => memKept u ∧ u.reg .SEC_SEAL_CTRL 0 = s.reg .SEC_SEAL_CTRL 0 ∧
    (st = St.SERVICE → sysState u = s.f .SYS_STATE 0 19 16 ∧ u.bit .SEC_SVC_STAT 0 31 = false ∧
      (s.host.seized = false → u.reg .SYS_OWNER 0 = s.reg .SYS_OWNER 0) ∧
      (s.host.seized = true → ownerValid u = s.bit .SYS_OWNER 0 23 ∧ (s.bit .SYS_OWNER 0 23 = true → ownerIdx u = s.f .SYS_OWNER 0 22 20))) ∧
    (st ≠ St.SERVICE → regsKept [(.SEC_SVC_CTRL, 0)] s u ∧ bootIs s.boot u ∧ u = { s with regs := u.regs, boot := u.boot })))

/-! Host interfaces, ownership, events and GPIO. -/

/-- R7 to R10, R59, R446 to R453, R462: single writes and bursts of the host masters, their reads, their time-out, the writes that ownership
ignores, and the lease that a transaction of the owner restarts, all said of hub memory; and what a REGISTER_WRITE does to read-only, W1C,
RW, reserved and reserved-encoded bits and to TURN_COUNT, whose high word is read from the latch of the master that read the low one. The
model's choices: an I2C write of more than 16 words (log entry 34), a write in HALT answered before ownership is judged (log entry 35), a
time-out that does not count while a domain wakes (log entry 37), the one code of a burst (log entry 36), and where a lease starts (log
entry 94). -/
def Obligations.HostTransactions : Prop := ∀ (m : Initiator) (p : Fin 2) (k : Fin 5) (a : Word) (ws : List Word) (w : Word) (n : Nat) (cmd : BitVec 8)
    (s : State),
  let live := Machine.up s = true
  let idle (k : Nat) : Prop := s.host.tx.any (fun y => y.m == k) = false
  let room : Prop := s.host.tx.countP (fun y => y.cred) < 4
  let code (k x : Nat) (t : State) : Prop := t.f .HOSTIF_MSTAT_m k 7 0 = x
  let leased (k : Nat) : Nat := if isOwner s k = true ∧ s.f .SYS_LEASE 0 15 0 ≠ 0 then s.time.hub + 1 else s.host.lease
  let answers (k : Nat) (l : List (Nat × Word)) (t : State) : Prop :=
    t.host = { s.host with answer := s.host.answer.filter (fun x => x.1 != k) ++ [(k, l)], rr := (k + 1) % 5, lease := leased k }
  let inHub (a len : Nat) : Prop := a % 4 = 0 ∧ 0x18000000 ≤ a ∧ a + len ≤ 0x18400000
  let writes (c : Instr) (k a : Nat) (ws : List Word) : Prop :=
    live → idle k → ws ≠ [] → jtagOpen k a s = true → inRequest s 2 = false → inHub a (4 * ws.length) →
    (sysState s = St.HALT → room ∨ isOwner s k = false → gives c s (fun t => code k 0x81 t ∧ t.bit .HOSTIF_MSTAT_m k 30 = true ∧ t = { s with regs := t.regs, host := t.host } ∧
      regsKept [(.HOSTIF_MSTAT_m, k)] s t)) ∧
    (sysState s ≠ St.HALT → isOwner s k = false → gives c s (fun t => code k 0x82 t ∧ t.bit .HOSTIF_MSTAT_m k 31 = true ∧
      t.f .HOSTIF_WIGN_CNT_m k 23 0 = min (s.f .HOSTIF_WIGN_CNT_m k 23 0 + ws.length) 0xFFFFFF ∧
      (s.bit .HOSTIF_MSTAT_m k 31 = false → t.bit .EVT_RAW_w 0 5 = true) ∧ t = { s with regs := t.regs, host := t.host } ∧
      regsKept [(.HOSTIF_MSTAT_m, k), (.HOSTIF_WIGN_CNT_m, k), (.EVT_RAW_w, 0)] s t)) ∧
    (isOwner s k = true → ¬ room → exec c s = .next { s with host := { s.host with tx := s.host.tx ++ [⟨k, a, true, ws, 0, [], none, false, false, 0⟩] } }) ∧
    (sysState s ≠ St.HALT → isOwner s k = true → room → domainOn s 2 = true → (fenceClosed s = false ∨ s.boot.window = true) → s.boot.load = none →
      gives c s (fun t => code k 0x80 t ∧ answers k (ws.map (fun _ => (0x80, 0))) t ∧ regsKept [(.HOSTIF_MSTAT_m, k)] s t ∧
        t = { s with regs := t.regs, mem := t.mem, host := t.host } ∧ getBytes t a (4 * ws.length) = ws.flatMap bytesOfWord ∧
        ∀ b, b < a ∨ a + 4 * ws.length ≤ b → getByte t b = getByte s b)) ∧
    (sysState s ≠ St.HALT → isOwner s k = true → room → domainOn s 2 = false → (fenceClosed s = false ∨ s.boot.window = true) → s.boot.load = none →
      gives c s (fun t => t.mem = s.mem ∧ t.host.tx = s.host.tx ++ [⟨k, a, true, ws, 0, [], none, true, true, 0⟩]))
  let reads (c : Instr) (k a n : Nat) : Prop :=
    live → idle k → 0 < n → jtagOpen k a s = true → inHub a (4 * n) →
    (¬ room → exec c s = .next { s with host := { s.host with tx := s.host.tx ++ [⟨k, a, false, [], n, [], none, false, false, 0⟩] } }) ∧
    (room → domainOn s 2 = true → gives c s (fun t => code k 0x80 t ∧
      answers k ((List.range n).map (fun j => (0x80, wordOfBytes (getBytes s (a + 4 * j) 4)))) t ∧
      regsKept [(.HOSTIF_MSTAT_m, k)] s t ∧ t = { s with regs := t.regs, host := t.host }))
  let word := a.toNat / 4 * 4
  (ws.length ≤ 16 → writes (.spiWrite p a ws) p word ws) ∧ (ws.length ≤ 16 → writes (.i2cWrite a ws) 2 a.toNat ws) ∧
  writes (.jtagAccess a (some w)) 4 a.toNat [w] ∧ writes (.registerWrite (.host k) a w) k a.toNat [w] ∧
  reads (.spiRead p a n) p word n ∧ reads (.spiDualRead p a n) p word n ∧ reads (.spiQuadRead p a n) p word n ∧
  reads (.i2cRead (some a) n) 2 a.toNat n ∧ reads (.i2cRead none n) 2 s.host.i2cAddr n ∧ reads (.jtagAccess a none) 4 a.toNat 1 ∧
  (live → 16 < ws.length → ¬ idle p → exec (.spiWrite p a ws) s = .next { s with host := { s.host with tx := s.host.tx ++
    [⟨p, word, true, ws, 0, [], none, false, false, 0⟩] } }) ∧
  (live → 16 < ws.length → idle p → gives (.spiWrite p a ws) s (fun t => code p 0x83 t ∧ t.bit .HOSTIF_MSTAT_m p 28 = true ∧
    t.host = { s.host with answer := s.host.answer.filter (fun x => x.1 != p.val) ++ [(p.val, [(0x83, 0)])], lease := leased p } ∧
    regsKept [(.HOSTIF_MSTAT_m, p)] s t ∧ t = { s with regs := t.regs, host := t.host })) ∧
  (live → 16 < ws.length → ∀ t, exec (.i2cWrite a (ws.take 16)) s = .next t →
    exec (.i2cWrite a ws) s = .next (t.setBit .HOSTIF_MSTAT_m 2 28 true)) ∧
  exec (.spiUnknownCommand p cmd) s = .next s ∧
  (live → exec (.i2cAddressWrite a) s = .next { s with host := { s.host with i2cAddr := a.toNat } }) ∧
  (live → idle 2 → room → a.toNat % 4 ≠ 0 → gives (.i2cWrite a [w]) s (fun t => code 2 0x81 t ∧ t.bit .HOSTIF_MSTAT_m 2 30 = true ∧
    t = { s with regs := t.regs, host := t.host })) ∧
  (jtagOpen 4 a.toNat s = false → exec (.jtagAccess a (some w)) s = .next s ∧ exec (.jtagAccess a none) s = .next s) ∧
  (live → ¬ idle k → jtagOpen k a.toNat s = true → exec (.registerWrite (.host k) a w) s =
    .next { s with host := { s.host with tx := s.host.tx ++ [⟨k, a.toNat, true, [w], 0, [], none, false, false, 0⟩] } }) ∧
  (live → gives (.hostTimeout k) s (fun t => (idle k → t = s) ∧
    (∀ x, s.host.tx = [x] → x.cred = false → t = s) ∧
    ∀ x, s.host.tx = [x] → x.m = k.val → x.cred = true →
      if domainOn s (domainAt x.addr) = false ∨ x.since = 0 ∨ s.time.hub + 1 < x.since + 4096 then t = s
      else x.msg = none → (x.write = true ∧ x.data.length = 1) ∨ (x.write = false ∧ x.left = 1) →
        t.host.tx = [] ∧ t.bit .HOSTIF_MSTAT_m k 29 = true ∧ t.host.answer = s.host.answer.filter (fun y => y.1 != k.val) ++ [(k.val, x.out ++ [(0x84, 0)])] ∧
        regsKept [(.HOSTIF_MSTAT_m, k)] s t ∧
        t = { s with regs := t.regs, host := t.host, fab := { s.fab with held := s.fab.held.filter (fun e => e.1 != Initiator.host k) } })) ∧
  (let reg (r : RegName) (q : State → Prop) : Prop := doesSome (.registerWrite m (BitVec.ofNat 32 (Reg.addr r 0)) w) m r 0 s (fun u =>
      q u ∧ u = { s with regs := u.regs, time := u.time })
   let delay := s.reg .PWR_AUTO_RET_DELAY 0
   let turn := s.time.turn.toNat
   reg .SYS_PART (fun u => regsKept [] s u ∧ u.time = s.time) ∧
   reg .SYS_GPIO_EDGE (fun u => u.reg .SYS_GPIO_EDGE 0 = s.reg .SYS_GPIO_EDGE 0 &&& ~~~ (w &&& 0xFFFF) ∧ regsKept [(.SYS_GPIO_EDGE, 0)] s u ∧
     u.time = s.time) ∧
   (fld w 15 0 ≠ 0 → reg .PWR_AUTO_RET_DELAY (fun u => u.reg .PWR_AUTO_RET_DELAY 0 = (delay &&& 0xFFFF0000) ||| (w &&& 0xFFFF) ∧
     regsKept [(.PWR_AUTO_RET_DELAY, 0)] s u ∧ u.time = s.time)) ∧
   (fld w 15 0 = 0 → reg .PWR_AUTO_RET_DELAY (fun u => u.reg .PWR_AUTO_RET_DELAY 0 = (delay &&& 0xFFFF0000) ||| 16 ∧
     u.bit .PWR_FAULT 0 31 = true ∧ u.time = s.time)) ∧
   (turnsOn s = true → reg .SYS_TURN_COUNT_LO (fun u => u = cfgErr .SYS_TURN_COUNT_LO 0 s) ∧
     reg .SYS_TURN_COUNT_HI (fun u => u = cfgErr .SYS_TURN_COUNT_LO 0 s)) ∧
   (turnsOn s = false →
     reg .SYS_TURN_COUNT_LO (fun u => regsKept [] s u ∧ u.time = { s.time with turn := BitVec.ofNat 48 (turn / 2 ^ 32 * 2 ^ 32 + w.toNat) }) ∧
     reg .SYS_TURN_COUNT_HI (fun u => regsKept [] s u ∧
       u.time = { s.time with turn := BitVec.ofNat 48 (w.toNat % 2 ^ 16 * 2 ^ 32 + turn % 2 ^ 32) })) ∧
   (live → idle p → room → domainOn s 0 = true →
     gives (.spiRead p 0x40000024 2) s (fun t => Store.get zeroOf t.host.latch p = BitVec.ofNat 32 (turn / 2 ^ 32) ∧ t.time = s.time ∧
       t.host.answer = s.host.answer.filter (fun x => x.1 != p.val) ++
         [(p.val, [(0x80, BitVec.ofNat 32 turn), (0x80, BitVec.ofNat 32 (turn / 2 ^ 32))])]) ∧
     gives (.spiRead p 0x40000028 1) s (fun t => t.host.latch = s.host.latch ∧ t.time = s.time ∧
       t.host.answer = s.host.answer.filter (fun x => x.1 != p.val) ++ [(p.val, [(0x80, Store.get zeroOf s.host.latch p)])])))

/-- R452 to R454, R459, R463: claims, seizures, handovers and leases, soft events, and edges of a GPIO pin. That a core's writes of the
ownership registers have no effect is the model's reading (log entry 55); where a lease starts and the length of a tick are its choice
(log entry 94), and so is the level of a pin in its peripheral function (log entry 5). -/
def Obligations.Ownership : Prop := ∀ (k : Fin 5) (c : Fin 16) (i : Fin 16) (level : Bool) (v : Word) (s : State),
  let live := Machine.up s = true
  let valid := s.bit .SYS_OWNER 0 31
  let owner := s.f .SYS_OWNER 0 30 28
  let pend := s.bit .SYS_OWNER 0 27
  let target := s.f .SYS_OWNER 0 26 24
  let keyed := fld v 31 16 = 0x6400
  let ev (b : Nat) (t : State) : Prop := t.bit .EVT_RAW_w 0 b = true
  let owned (n : Nat) (b : Nat) (t : State) : Prop := t.reg .SYS_OWNER 0 = BitVec.ofNat 32 n ∧ ev b t ∧ t.host.seized = false
  let at1 (n : Nat) : Nat := 0x80000000 + n * 2 ^ 28
  let mst (b : Nat) (r : RegName) (cmd : Instr) : Prop := lands (.host k) r 0 s = true → gives cmd s (fun t =>
    t.bit .HOSTIF_MSTAT_m k b = true ∧ regsKept [(.HOSTIF_MSTAT_m, k), (.HOSTIF_WIGN_CNT_m, k), (.EVT_RAW_w, 0)] s t)
  (¬ keyed → does (.claim (.host k) v) (.host k) .SYS_OWNER_CLAIM 0 s s ∧ does (.seize (.host k) v) (.host k) .SYS_OWNER_CLAIM 0 s s ∧
    does (.handover (.host k) v) (.host k) .SYS_HANDOVER 0 s s ∧ does (.accept (.host k) v) (.host k) .SYS_ACCEPT 0 s s) ∧
  (keyed → valid = false → doesSome (.claim (.host k) v) (.host k) .SYS_OWNER_CLAIM 0 s (fun u => owned (at1 k) 2 u ∧
    regsKept [(.SYS_OWNER, 0), (.EVT_RAW_w, 0)] s u)) ∧
  (keyed → valid = true → owner = k.val → does (.claim (.host k) v) (.host k) .SYS_OWNER_CLAIM 0 s s) ∧
  (keyed → valid = true → owner ≠ k.val → mst 27 .SYS_OWNER_CLAIM (.claim (.host k) v)) ∧
  (keyed → k.val = 4 → sysState s = St.SERVICE → doesSome (.seize (.host k) v) (.host k) .SYS_OWNER_CLAIM 0 s (fun u =>
    u.reg .SYS_OWNER 0 = BitVec.ofNat 32 (0xC0000000 + (if valid then 2 ^ 23 + owner * 2 ^ 20 else 0)) ∧ u.host.seized = true ∧ ev 2 u)) ∧
  (keyed → ¬ (k.val = 4 ∧ sysState s = St.SERVICE) → mst 27 .SYS_OWNER_CLAIM (.seize (.host k) v)) ∧
  (keyed → fld v 2 0 < 5 → fld v 2 0 ≠ k.val → doesSome (.handover (.host k) v) (.host k) .SYS_HANDOVER 0 s (fun u =>
    u.bit .SYS_OWNER 0 27 = true ∧ u.f .SYS_OWNER 0 26 24 = fld v 2 0 ∧ u.bit .SYS_OWNER 0 31 = true ∧ u.f .SYS_OWNER 0 30 28 = k ∧
    regsKept [(.SYS_OWNER, 0)] s u ∧ u = { s with regs := u.regs })) ∧
  (keyed → fld v 2 0 = 5 ∨ fld v 2 0 = 6 ∨ fld v 2 0 = k.val →
    does (.handover (.host k) v) (.host k) .SYS_HANDOVER 0 s (cfgErr .SYS_HANDOVER 0 s)) ∧
  (keyed → fld v 2 0 = 7 → doesSome (.handover (.host k) v) (.host k) .SYS_HANDOVER 0 s (owned 0 2)) ∧
  (keyed → doesSome (.ownerRelease (.host k) v) (.host k) .SYS_HANDOVER 0 s (owned 0 2)) ∧
  (keyed → pend = true → target = k.val → doesSome (.accept (.host k) v) (.host k) .SYS_ACCEPT 0 s (owned (at1 k) 2)) ∧
  (keyed → ¬ (pend = true ∧ target = k.val) → mst 31 .SYS_ACCEPT (.accept (.host k) v)) ∧
  (∀ x ∈ [(Instr.claim (.core c) v, RegName.SYS_OWNER_CLAIM), (.seize (.core c) v, .SYS_OWNER_CLAIM), (.handover (.core c) v, .SYS_HANDOVER),
      (.accept (.core c) v, .SYS_ACCEPT), (.ownerRelease (.core c) v, .SYS_HANDOVER)],
    lands (.core c) x.2 0 s = true → exec x.1 s = .next s) ∧
  (live → gives .handoverTimeout s (fun t => if pend = true then t.reg .SYS_OWNER 0 = s.reg .SYS_OWNER 0 &&& 0xF0FFFFFF ∧ ev 3 t ∧
    regsKept [(.SYS_OWNER, 0), (.EVT_RAW_w, 0)] s t ∧ t = { s with regs := t.regs } else t = s)) ∧
  let ms := s.f .SYS_LEASE 0 15 0
  (live → gives .ownerLapsed s (fun t => if ms ≠ 0 ∧ valid = true ∧ s.host.lease ≠ 0 ∧ s.host.lease + 32 * ms ≤ s.time.hub + 1 then owned 0 4 t ∧
    t.host.lease = 0 ∧ regsKept [(.SYS_OWNER, 0), (.EVT_RAW_w, 0)] s t else t = s)) ∧
  (∀ m : Initiator, doesSome (.sysLeaseWrite m v) m .SYS_LEASE 0 s (fun u => u.f .SYS_LEASE 0 15 0 = fld v 15 0 ∧
    regsKept [(.SYS_LEASE, 0)] s u ∧ u = { s with regs := u.regs, host := { s.host with lease := u.host.lease } })) ∧
  (∀ m : Initiator, lands m .SYS_LEASE 0 s = true → gives (.sysLeaseWrite m v) s (fun t => t.host.lease = if fld v 15 0 = 0 then 0
    else if (∃ k, m = .host k) ∨ s.host.lease = 0 then s.time.hub + 1 else s.host.lease)) ∧
  (∀ m : Initiator, does (.softEventSet m v) m .EVT_SET_w 3 s (s.setReg .EVT_RAW_w 3 (s.reg .EVT_RAW_w 3 ||| (v &&& 0xFFFF0000)))) ∧
  gives (.gpioEdge i level) s (fun t =>
    let func := s.f .SYS_GPIO_CFG_i i 5 4
    let sel := s.f .SYS_GPIO_CFG_i i 3 2
    let was := s.pins.gpio.toNat.testBit i
    let moves := was ≠ level ∧ (func = 0 ∨ func = 3 ∨ (func = 2 ∧ s.bit .SYS_GPIO_OUT 0 i = true))
    (∀ j : Fin 16, t.pins.gpio.toNat.testBit j = if j = i then level else s.pins.gpio.toNat.testBit j) ∧
    (¬ moves → t = { s with pins := { s.pins with gpio := t.pins.gpio } }) ∧
    (moves → (level = true ∧ (sel = 1 ∨ sel = 3)) ∨ (level = false ∧ (sel = 2 ∨ sel = 3)) → t.bit .SYS_GPIO_EDGE 0 i = true ∧ ev 6 t) ∧
    (moves → (sel = 0 ∨ (level = true ∧ sel = 2) ∨ (level = false ∧ sel = 1)) → t.reg .SYS_GPIO_EDGE 0 = s.reg .SYS_GPIO_EDGE 0) ∧
    (moves → s.bit .PWR_WAKE_EN 0 i = false → regsKept [(.SYS_GPIO_EDGE, 0), (.EVT_RAW_w, 0)] s t ∧
      t = { s with regs := t.regs, pins := { s.pins with gpio := t.pins.gpio } }) ∧
    (moves → s.bit .PWR_WAKE_EN 0 i = true →
      (let w := s.f .PWR_GPIO_WAKE_CFG 0 (2 * i + 1) (2 * i); if level then w = 0 ∨ w = 2 else w = 1 ∨ w = 3) →
      ∀ d, d ∈ wakeMap s i → domainDown s d = true → inRequest s d = false → domainCode t d = Dom.MOVING))

/-! Supplies, reset and boot. -/

/-- R30, R412, R414, R416: a supply rises or fails, RESET_N falls, reset is released. What is kept beyond the spec's words is the model's
choice (log entry 44). -/
def Obligations.SuppliesAndReset : Prop := ∀ (off goldenN sfdp : Bool) (sel : Fin 4) (s : State),
  let wiped (t : State) : Prop :=
    t = { State.reset with
            regs := t.regs, wmem := t.wmem, upset := t.upset,
            boot := { State.reset.boot with otp := t.boot.otp, flash := s.boot.flash, sfdp := s.boot.sfdp }, pins := s.pins,
            guard := { State.reset.guard with low := s.guard.low, latch := s.guard.low }, free := t.free, pending := s.pending } ∧
    (s.boot.otpBusy = none → t.boot.otp = s.boot.otp)
  (sysState s = St.OFF → gives .supplyRise s (fun t => t = s.setF .SYS_STATE 0 3 0 St.POR)) ∧
  (sysState s ≠ St.OFF → gives (.supplyLoss off) s (fun t => wiped t ∧ t.wmem = [] ∧ t.upset = [] ∧
    sysState t = (if off then St.OFF else St.POR) ∧ ∀ r i, ¬ (r = .SYS_STATE ∧ i = 0) → t.reg r i = Reg.resetOf (Reg.key r i))) ∧
  (sysState s ≠ St.OFF → sysState s ≠ St.POR → gives .resetNLow s (fun t => wiped t ∧ sysState t = St.POR ∧
    (∀ a, getSlot t a = if 0xF0008000 ≤ a then getSlot s a else 0) ∧ (∀ a, upsetOf t a = if 0xF0008000 ≤ a then upsetOf s a else 0) ∧
    t.reg .AON_FAULT_STAT 0 = s.reg .AON_FAULT_STAT 0 ∧ t.reg .AON_REG 0 = s.reg .AON_REG 0 ∧
    t.reg .SEC_SVC_STAT 0 = s.reg .SEC_SVC_STAT 0 &&& 0x40000003 ∧
    ∀ r i, ¬ (r ∈ [RegName.SYS_STATE, .AON_FAULT_STAT, .AON_REG, .SEC_SVC_STAT] ∧ i = 0) → t.reg r i = Reg.resetOf (Reg.key r i))) ∧
  (sysState s = St.POR → gives (.resetRelease sel goldenN sfdp) s (fun t => sysState t = St.ROM ∧
    t.reg .SEC_STRAP 0 = BitVec.ofNat 32 (4 * b2n goldenN + sel.val) ∧
    t.reg .HOSTIF_STRAP 0 = BitVec.ofNat 32 (0x38 + s.pins.gpio.toNat % 4) ∧ t.f .SEC_STATUS 0 17 16 = otpLife s ∧
    t = { s with regs := t.regs, boot := { s.boot with sfdp := sfdp, floor := 64 * fuses s } }))

/-- R381, R416, R417, R422, R427: in ROM the boot ROM loads the bands, reads the directory and leaves for the state that the straps select,
and for RECOVERY whatever they select where the flash answers no SFDP read; LOADED by the owner closes the load window, and from any other
initiator, or in another state, it sets SEC_STATUS.CFG_ERR. The model's choices: the step in ROM (log entry 12), the directory in every
mode and RECOVERY over the straps (log entry 46), and LOADED by a host that is not the owner (log entry 33). -/
def Obligations.BootSelect : Prop := (∀ (m : Initiator) (v : Word) (s : State),
  let fits := s.boot.window = true ∧ (sysState s = St.FETCH ∨ sysState s = St.RECOVERY) ∧ ∃ k : Fin 5, m = .host k ∧ isOwner s k = true
  (fits → does (.loaded m v) m .SEC_BOOT_CTRL 0 s { enter St.VERIFY s with boot := { s.boot with window := false, place := true } }) ∧
  (¬ fits → does (.loaded m v) m .SEC_BOOT_CTRL 0 s (cfgErr .SEC_BOOT_CTRL 0 s))) ∧
  ∀ s : State, s.pending = [] → sysState s = St.ROM →
  let picks (n : Nat) (p : State → Prop) : Prop := bootMode s = n → ∃ t, step s = .next t ∧
    (∀ k : Fin 32, t.reg .SYNTH_BAND_n k = otpWord s (24 + k) &&& 0x3FFFFFFF) ∧ p t
  (s.boot.sfdp = true →
    picks 1 (fun t => sysState t = St.FETCH ∧ t.boot.window = true) ∧
    picks 2 (fun t => sysState t = St.RECOVERY ∧ t.boot.window = true) ∧
    picks 3 (fun t => sysState t = St.TEST ∧ t.dev.testRom = true ∧ turnsOn t = turnsOn s)) ∧
  (s.boot.sfdp = false → ∀ n : Fin 4, picks n (fun t => sysState t = St.RECOVERY ∧ t.boot.window = true ∧
    t.f .SEC_SLOT_FAIL_n 0 31 28 = 1 ∧ t.f .SEC_SLOT_FAIL_n 1 31 28 = 1)) ∧
  (s.boot.sfdp = true → s.bit .SEC_STRAP 0 2 = true → bitOf (otpWord s 1) 0 = false →
    let u := readDirectory s
    (∀ k : Fin 2, headReason false s.boot.floor (slotRd u k) = 0 ∧ s.f .SEC_SLOT_FAIL_n k 31 28 = 0) →
    picks 0 (fun t => sysState t = St.FETCH ∧ t.boot.slot = (if imgSeq (slotRd u 0) < imgSeq (slotRd u 1) then 1 else 0) ∧
      t.boot.order = (if imgSeq (slotRd u 0) < imgSeq (slotRd u 1) then [0] else [1]) ∧
      (imgSeq (slotRd u 0) = imgSeq (slotRd u 1) → t.bit .SEC_STATUS 0 6 = true)))

/-- R403, R419, R422, R424, R427: a slot has been read, or its read has failed, or its format is wrong; a segment for a domain that is not on
waits for it. What counts as a format error beyond the rules' list, and that the segments are written as ordinary bus writes, is log entry
46. -/
def Obligations.FetchComplete : Prop := ∀ (ok : Bool) (s : State), sysState s = St.FETCH → s.boot.window = false →
  let k := s.boot.slot
  let rd := slotRd s k
  let fails (reason : Nat) : Prop := gives (.fetchComplete ok) s (fun t =>
    t.f .SEC_SLOT_FAIL_n k 31 28 = reason ∧ t.bit .SEC_SLOT_FAIL_n k 27 = true ∧
    regsKept [(.SEC_SLOT_FAIL_n, k), (.SYS_STATE, 0)] s t ∧
    match s.boot.order with
    | j :: rest => sysState t = St.FETCH ∧ t = { s with regs := t.regs, boot := { s.boot with slot := j, order := rest } }
    | [] => sysState t = St.RECOVERY ∧ t = { s with regs := t.regs, boot := { s.boot with window := true, order := [], staging := [] } })
  (ok = false → fails 1) ∧
  (ok = true → formatBad false none rd = true → fails 5) ∧
  (ok = true → formatBad false none rd = false → segsAsleep (imgSegs rd) s ≠ [] → gives (.fetchComplete ok) s (fun t =>
    sysState t = St.FETCH ∧ t.boot = s.boot ∧ t.mem = s.mem)) ∧
  (ok = true → formatBad false none rd = false → segsAsleep (imgSegs rd) s = [] → gives (.fetchComplete ok) s (fun t => sysState t = St.VERIFY ∧
    t.bit .SEC_SLOT_FAIL_n k 27 = true ∧
    (∀ o, inParts [(0, 256), (imgSegOff rd, 16 * imgSegCount rd), (imgSealOff rd, 868), (imgLen rd, 4 * imgBlocks rd)] o = true →
      stagedRd t o = rd o) ∧
    (s.boot.load = none → ∀ g ∈ imgSegs rd, isByteMem (regionOf g.dest) = true →
      ∀ o < g.len, getByte t (g.dest + o) = rd (g.off + o))))

/-- R403, R421, R425, R427, R432, R433: the image on chip is checked, once the domains it lies in are on; it starts on core 0 with the seal
block written and the locks set, or its slot fails, or, of an image that a host has loaded, the device returns to RECOVERY; the stream of
one that passes is zeroed. The model's choices (log entry 46): one reading again of a bad block, of flash images only, an image of a host
placed when it is verified, and CLKDIV after the boot. What the start of core 0 takes from its BOOT register is log entry 49. -/
def Obligations.VerifyComplete : Prop := ∀ s : State, sysState s = St.VERIFY → (s.boot.place = false → s.boot.slot < 2) →
  let host := s.boot.place
  let k := s.boot.slot
  let win (o : Nat) : Byte := getByte s (0x18000000 + o)
  let refused := host = true ∧ (headReason false s.boot.floor win ≠ 0 ∨
    formatBad false (some (0x18000000, imgLen win + 4 * imgBlocks win)) win = true)
  let back (t : State) : Prop := sysState t = St.RECOVERY ∧ t.boot.window = true ∧ t.boot.place = false
  let asleep := segsAsleep (imgSegs (if host then win else stagedRd s)) s
  let v := if host then copyImage win s else s
  let segs := imgSegs (stagedRd v)
  let u := if host then v else (badBlocks (copyByte s segs)).foldl (fun t b => reread (slotRd t k) b t) s
  let rd := copyByte u segs
  let w (j : Nat) : Word := imgWord rd (imgSealOff rd + 4 * j)
  let blank := lifecycle u == Life.BLANK
  let passes := if blank then (badBlocks rd).isEmpty else tagOk u rd
  let sealed (t : State) : Prop :=
    (u.bit .GUARD_LOCK 0 0 = false → ∀ (j : Fin 203) (r : RegName) (i : Nat), Reg.lookup (0x400D0100 + 4 * j) = some (r, i) →
      (r ≠ .GUARD_PROF_n_DC → t.reg r i &&& BitVec.ofNat 32 (Reg.row r).rwl = w j &&& BitVec.ofNat 32 (Reg.row r).rwl) ∧
      (r = .GUARD_PROF_n_DC → t.f r i 22 0 = fld (w j) 22 0 ∧
        t.f r i 31 28 = (if 0 < fld (w j) 31 28 ∧ fld (w j) 31 28 < 4 then 0 else fld (w j) 31 28))) ∧
    (u.bit .SYNTH_LOCK 0 0 = false → ∀ j : Fin 12, fld (w (203 + j)) 20 0 ≤ fld (Reg.resetOf (Reg.key .SYNTH_CEIL_n j)) 20 0 →
      t.f .SYNTH_CEIL_n j 20 0 = fld (w (203 + j)) 20 0) ∧
    (∀ j : Fin 4, t.f .SYNTH_OUT_n_CFG j 23 16 = fld (w 215) (8 * j + 7) (8 * j)) ∧
    t.f .SEC_PIN_LOCK 0 16 0 = fld (w 216) 16 0
  (refused → gives .verifyComplete s (fun t => back t ∧ t.mem = s.mem ∧ t.wmem = s.wmem)) ∧
  (¬ refused → asleep ≠ [] → gives .verifyComplete s (fun t => sysState t = St.VERIFY ∧ t.boot = s.boot ∧ t.mem = s.mem)) ∧
  (¬ refused → asleep = [] → passes = true → gives .verifyComplete s (fun t => sysState t = St.ARMED ∧
    t.bit .SYNTH_LOCK 0 0 = true ∧ t.bit .SEC_PIN_LOCK 0 31 = true ∧ t.bit .GUARD_LOCK 0 0 = true ∧ sealed t ∧
    t.f .SEC_STATUS 0 1 0 = (if host then (if s.f .SYS_STATE 0 19 16 = St.RECOVERY then 3 else 2) else k) ∧
    t.bit .SEC_STATUS 0 4 = bitOf (imgWord rd 4) 16 ∧ t.bit .SEC_STATUS 0 9 = blank ∧
    t.f .SEC_BOOT_INFO 0 27 16 = imgVersion rd ∧ t.reg .SEC_BOOT_SEQ 0 = (if host then 0 else imgWord rd 8) ∧
    (blank = false → t.boot.verKey = ladderKey u (imgVersion rd)) ∧ t.boot.place = false ∧
    (host = true → ∀ o < imgLen rd + 4 * imgBlocks rd, getByte t (0x18000000 + o) = 0) ∧
    getPc t 0 = imgWord rd 0x14 ∧ coreMode t 0 = 1 ∧ getStat t 0 = 0 ∧
    (blank = false → badBlocks rd ≠ [] → t.bit .SEC_STATUS 0 7 = true))) ∧
  (¬ refused → asleep = [] → passes = false → gives .verifyComplete s (fun t => (host = true → back t) ∧
    (host = false → t.f .SEC_SLOT_FAIL_n k 31 28 = (if blank then 7 else 6) ∧
      (∀ b, (badBlocks rd).head? = some b → t.f .SEC_SLOT_FAIL_n k 11 0 = b % 2 ^ 12) ∧
      (match u.boot.order with
        | j :: rest => sysState t = St.FETCH ∧ t.boot.slot = j ∧ t.boot.order = rest
        | [] => sysState t = St.RECOVERY ∧ t.boot.window = true))))

/-! The queue, reset and decoding. -/

/-- A step takes the command at the front of the queue and runs it with the queue's rest. -/
def Obligations.StepRunsFront : Prop := ∀ (c : Instr) (rest : List Instr) (s : State),
  s.pending = c :: rest → step s = exec c { s with pending := rest }

/-- No step is refused, and the only fault is a brown-out of the always-on regulator (R411). The model's choice (log entry 12): with nothing
waiting the block idles for one HUBCLK cycle. -/
def Obligations.StepOutcomes : Prop := ∀ s : State,
  (∀ r, step s ≠ .refused r) ∧
  (∀ f, step s = .fault f → ∃ rest, s.pending = .brownOut :: rest ∧ up s = true ∧ overload s = true ∧ f = .alwaysOnBrownOut) ∧
  (s.pending = [] → up s = false → step s = .next s) ∧
  (s.pending = [] → up s = true → sysState s ≠ St.ROM → ∃ t, step s = .next t ∧
    t = { s with time := { s.time with hub := s.time.hub + 1, clk := t.time.clk } } ∧
    t.time.clk = if s.time.clk + 2 < turnLen s then s.time.clk + 2 else s.time.clk)

/-- R9: the values that registers hold right after reset. -/
def Obligations.ResetRegisters : Prop :=
  let s := State.reset
  s.reg .SYS_STATE 0 = 0x00000012 ∧ s.reg .SYS_TURN_CFG 0 = 0 ∧ s.reg .SCHED_CORE_n_STAT 0 = 0x20000000 ∧
  (∀ c : Fin 16, c ≠ 0 → s.reg .SCHED_CORE_n_STAT c = 0) ∧
  (∀ pe : Fin 72, s.reg .ENG_CTRL pe = 0) ∧ s.reg .PWR_AUTO_RET 0 = Reg.resetOf (Reg.key .PWR_AUTO_RET 0) ∧
  s.reg .AON_FAULT_STAT 0 = 0 ∧ s.reg .SYS_OWNER 0 = Reg.resetOf (Reg.key .SYS_OWNER 0) ∧ s.pending = [] ∧
  sysState s = St.ROM ∧ s.bit .SYS_STATE 0 4 = true ∧ turnsOn s = false ∧ s.time.turn = 0

/-- The memories and registers of the machine after reset stand in their canonical form. -/
def Obligations.CanonicalReset : Prop := State.reset.canonical = true

/-- Every step keeps the canonical form of the memories, their check-bit conditions and the registers. -/
def Obligations.CanonicalKept : Prop := ∀ s t : State, s.canonical = true → step s = .next t → t.canonical = true

/-- Every word of the Ramtal opcode table is decoded as the instruction it encodes. -/
def Obligations.DecodeEncode : Prop := ∀ (i : Instr) (w : Word), i.wellFormed = true → encodeRamtal i = some w →
  ∃ u, decodeRamtal u w = some (match Ramtal.pairParts i with | some (u, a, b) => Ramtal.pairOf u a b | none => i)
end

