-- ==== Sys2Proof/Laws/Map.lean ====
section
/-! SUPPORT. The register map is one-to-one: the address of an instance of a register is found to be that instance. -/

namespace Sys2Proof.Machine

/-- No instance of q stands at an address of t: q lies below, above, or at another residue of its stride. -/
def RegRow.misses (q t : RegRow) : Bool :=
  decide (t.base + t.stride * (t.count - 1) < q.base) || (decide (q.base + q.stride * (q.count - 1) < t.base) && decide (0 < q.stride)) ||
    (decide (t.stride % q.stride = 0) && decide (t.base % q.stride ≠ q.base % q.stride))

theorem misses_sound (q : RegName) (t : RegRow) (h : (Reg.row q).misses t = true) (i : Nat) (hi : i < t.count) :
    Reg.covers q (t.base + t.stride * i) = false := by
  have hi' : t.stride * i ≤ t.stride * (t.count - 1) := Nat.mul_le_mul_left _ (by omega)
  unfold RegRow.misses at h
  simp only [Bool.or_eq_true, Bool.and_eq_true, decide_eq_true_eq] at h
  unfold Reg.covers
  simp only [Bool.and_eq_false_iff, decide_eq_false_iff_not]
  rcases h with (h | ⟨h, hs⟩) | ⟨h1, h2⟩
  · left; left; omega
  · by_cases hm : (t.base + t.stride * i - (Reg.row q).base) % (Reg.row q).stride = 0
    · right
      intro hlt
      obtain ⟨m, hm⟩ := Nat.dvd_of_mod_eq_zero hm
      rw [hm, Nat.mul_div_cancel_left _ hs] at hlt
      have := Nat.mul_le_mul_left (Reg.row q).stride (show m ≤ (Reg.row q).count - 1 by omega)
      omega
    · left; right; exact hm
  · left
    by_cases hb : (Reg.row q).base ≤ t.base + t.stride * i
    · right
      intro hm
      apply h2
      obtain ⟨k, hk⟩ := Nat.dvd_of_mod_eq_zero h1
      obtain ⟨m, hm⟩ := Nat.dvd_of_mod_eq_zero hm
      have e : t.base + (Reg.row q).stride * (k * i) = (Reg.row q).base + (Reg.row q).stride * m := by
        rw [← Nat.mul_assoc, ← hk]; omega
      have := congrArg (· % (Reg.row q).stride) e
      simpa [Nat.add_mul_mod_self_left] using this
    · left; omega

/-- The registers of the one block that holds every address from lo to hi. -/
def Reg.blockOf (lo hi : Nat) : List (Nat × Nat × List RegName) → Option (List RegName)
  | [] => none
  | (b, e, l) :: t =>
    if decide (b ≤ lo) && decide (hi < e) then some l
    else if decide (e ≤ lo) || decide (hi < b) then Reg.blockOf lo hi t else none

theorem blockOf_sound (lo hi : Nat) (l : List (Nat × Nat × List RegName)) (ns : List RegName)
    (h : Reg.blockOf lo hi l = some ns) (a : Nat) (h1 : lo ≤ a) (h2 : a ≤ hi) : Reg.blockIn a l = ns := by
  induction l with
  | nil => simp [Reg.blockOf] at h
  | cons x t ih =>
    obtain ⟨b, e, m⟩ := x
    unfold Reg.blockOf at h
    unfold Reg.blockIn
    split at h
    · rename_i hc
      simp only [Bool.and_eq_true, decide_eq_true_eq] at hc
      have : (decide (b ≤ a) && decide (a < e)) = true := by simp; omega
      rw [if_pos this]; exact Option.some.inj h
    · split at h
      · rename_i _ hc
        simp only [Bool.or_eq_true, decide_eq_true_eq] at hc
        have : ¬ (decide (b ≤ a) && decide (a < e)) = true := by simp; omega
        rw [if_neg this]; exact ih h
      · exact absurd h (by simp)

/-- The registers before r in its block miss r's addresses. -/
def Reg.firstIn (r : RegName) : List RegName → Bool
  | [] => false
  | q :: t => if q = r then true else (Reg.row q).misses (Reg.row r) && Reg.firstIn r t

theorem firstIn_sound (r : RegName) (l : List RegName) (h : Reg.firstIn r l = true) (i : Nat) (hi : i < (Reg.row r).count)
    (hs : 0 < (Reg.row r).stride) :
    l.find? (fun q => Reg.covers q (Reg.addr r i)) = some r := by
  have own : Reg.covers r (Reg.addr r i) = true := by
    have e : Reg.addr r i - (Reg.row r).base = (Reg.row r).stride * i := by unfold Reg.addr; omega
    have e' : (Reg.row r).base ≤ Reg.addr r i := by unfold Reg.addr; omega
    simp only [Reg.covers, e, e', decide_true, Bool.true_and, Bool.and_eq_true, decide_eq_true_eq]
    exact ⟨Nat.mul_mod_right _ _, by rw [Nat.mul_div_cancel_left _ hs]; exact hi⟩
  induction l with
  | nil => simp [Reg.firstIn] at h
  | cons q t ih =>
    unfold Reg.firstIn at h
    split at h
    · rename_i e; subst e; simp [own]
    · simp only [Bool.and_eq_true] at h
      have := misses_sound q (Reg.row r) h.1 i hi
      rw [List.find?_cons, show Reg.covers q (Reg.addr r i) = false from this]
      exact ih h.2

/-- Registers stand at words of register space or of the always-on registers, and not in the alternate route table (R6, R366). -/
def Reg.placed (t : RegRow) : Bool :=
  let last := t.base + t.stride * (t.count - 1)
  decide (t.base % 4 = 0) && decide (t.stride % 4 = 0) &&
    ((decide (0x40000000 ≤ t.base) && decide (last < 0x43081000)) || (decide (0xF0000000 ≤ t.base) && decide (last < 0xF0001000)))

/-- What the table has to satisfy at r. -/
def Reg.mapOk (r : RegName) : Bool :=
  Reg.placed (Reg.row r) && decide (0 < (Reg.row r).stride) &&
    match Reg.blockOf (Reg.row r).base ((Reg.row r).base + (Reg.row r).stride * ((Reg.row r).count - 1)) Reg.blocks with
    | some l => Reg.firstIn r l
    | none => false

set_option maxRecDepth 100000 in
theorem mapOk_all : ∀ k : Fin 256, Reg.mapOk (RegName.ofNat k.val) = true := by decide +kernel

theorem mapOk_every (r : RegName) : Reg.mapOk r = true := by
  have hlt : r.ctorIdx < 256 := by cases r <;> decide
  have := mapOk_all ⟨r.ctorIdx, hlt⟩
  simpa [RegName.ofNat_ctorIdx] using this

/-- The address of an instance is found to be that instance. -/
theorem lookup_addr (r : RegName) (i : Nat) (hi : i < (Reg.row r).count) : Reg.lookup (Reg.addr r i) = some (r, i) := by
  have ok := mapOk_every r
  unfold Reg.mapOk at ok
  simp only [Bool.and_eq_true, decide_eq_true_eq] at ok
  obtain ⟨⟨_, hs⟩, hb⟩ := ok
  split at hb
  · rename_i l hl
    have hle : (Reg.row r).stride * i ≤ (Reg.row r).stride * ((Reg.row r).count - 1) := Nat.mul_le_mul_left _ (by omega)
    have hbl : Reg.block (Reg.addr r i) = l := blockOf_sound _ _ _ _ hl _ (by unfold Reg.addr; omega) (by unfold Reg.addr; omega)
    unfold Reg.lookup
    rw [hbl, firstIn_sound r l hb i hi hs]
    simp only [Option.map_some, Reg.addr]
    have e : (Reg.row r).base + (Reg.row r).stride * i - (Reg.row r).base = (Reg.row r).stride * i := by omega
    rw [e, Nat.mul_div_cancel_left _ hs]
  · exact absurd hb (by simp)

/-- Where an instance stands. -/
theorem addr_place (r : RegName) (i : Nat) (hi : i < (Reg.row r).count) :
    Reg.addr r i % 4 = 0 ∧
      ((0x40000000 ≤ Reg.addr r i ∧ Reg.addr r i < 0x43081000) ∨ (0xF0000000 ≤ Reg.addr r i ∧ Reg.addr r i < 0xF0001000)) := by
  have ok := mapOk_every r
  unfold Reg.mapOk Reg.placed at ok
  simp only [Bool.and_eq_true, Bool.or_eq_true, decide_eq_true_eq] at ok
  obtain ⟨⟨⟨⟨h1, h2⟩, h3⟩, _⟩, _⟩ := ok
  have hle : (Reg.row r).stride * i ≤ (Reg.row r).stride * ((Reg.row r).count - 1) := Nat.mul_le_mul_left _ (by omega)
  have hm : (Reg.row r).stride * i % 4 = 0 := by rw [Nat.mul_mod, h2]; simp
  unfold Reg.addr
  omega

end Sys2Proof.Machine
end

