-- ==== Sys2Proof/Laws/Bits.lean ====
section
/-! SUPPORT. The laws of bit fields: what a field reads after a field has been replaced. -/

namespace Sys2Proof.Machine

theorem fld_testBit (v : Word) (hi lo k : Nat) :
    (fld v hi lo).testBit k = (decide (k < hi + 1 - lo) && v.toNat.testBit (lo + k)) := by
  simp [fld, Nat.testBit_mod_two_pow, Nat.testBit_div_two_pow, Nat.add_comm]

theorem fld_lt (v : Word) (hi lo : Nat) : fld v hi lo < 2 ^ (hi + 1 - lo) := Nat.mod_lt _ (Nat.two_pow_pos _)

/-- A replaced field: bits lo to hi come from n, the others stay. -/
theorem setFld_testBit (v : Word) (hi lo n i : Nat) (hl : lo ≤ hi) (hh : hi < 32) :
    bitOf (setFld v hi lo n) i = if lo ≤ i ∧ i ≤ hi then n.testBit (i - lo) else bitOf v i := by
  unfold bitOf setFld
  simp only [BitVec.toNat_ofNat]
  have hv : v.toNat < 2 ^ 32 := v.isLt
  have e : v.toNat % 2 ^ lo + n % 2 ^ (hi + 1 - lo) * 2 ^ lo + v.toNat / 2 ^ (hi + 1) * 2 ^ (hi + 1)
      = 2 ^ (hi + 1) * (v.toNat / 2 ^ (hi + 1)) + (2 ^ lo * (n % 2 ^ (hi + 1 - lo)) + v.toNat % 2 ^ lo) := by ring
  rw [e]
  have hlow : v.toNat % 2 ^ lo < 2 ^ lo := Nat.mod_lt _ (Nat.two_pow_pos _)
  have hmid : 2 ^ lo * (n % 2 ^ (hi + 1 - lo)) + v.toNat % 2 ^ lo < 2 ^ (hi + 1) := by
    have h1 : n % 2 ^ (hi + 1 - lo) + 1 ≤ 2 ^ (hi + 1 - lo) := Nat.mod_lt _ (Nat.two_pow_pos _)
    have h2 : 2 ^ (hi + 1) = 2 ^ lo * 2 ^ (hi + 1 - lo) := by rw [← pow_add]; congr 1; omega
    rw [h2]
    calc 2 ^ lo * (n % 2 ^ (hi + 1 - lo)) + v.toNat % 2 ^ lo
        < 2 ^ lo * (n % 2 ^ (hi + 1 - lo)) + 2 ^ lo := by omega
      _ = 2 ^ lo * (n % 2 ^ (hi + 1 - lo) + 1) := by ring
      _ ≤ 2 ^ lo * 2 ^ (hi + 1 - lo) := Nat.mul_le_mul_left _ h1
  rw [Nat.testBit_mod_two_pow, Nat.testBit_two_pow_mul_add _ hmid, Nat.testBit_two_pow_mul_add _ hlow]
  by_cases h32 : i < 32
  · simp only [h32, decide_true, Bool.true_and]
    by_cases h1 : i < hi + 1
    · simp only [h1, if_true]
      by_cases h2 : i < lo
      · have : ¬ (lo ≤ i ∧ i ≤ hi) := by omega
        simp only [h2, if_true, this, if_false, Nat.testBit_mod_two_pow, decide_true, Bool.true_and]
      · have : lo ≤ i ∧ i ≤ hi := by omega
        have h3 : i - lo < hi + 1 - lo := by omega
        simp only [h2, if_false, this, and_self, if_true, Nat.testBit_mod_two_pow, h3, decide_true, Bool.true_and]
    · have : ¬ (lo ≤ i ∧ i ≤ hi) := by omega
      simp only [h1, if_false, this, Nat.testBit_div_two_pow]
      congr 1; omega
  · have : ¬ (lo ≤ i ∧ i ≤ hi) := by omega
    have h3 : v.toNat.testBit i = false := Nat.testBit_lt_two_pow (Nat.lt_of_lt_of_le hv (Nat.pow_le_pow_right (by omega) (by omega)))
    simp [h32, this, h3]

@[simp] theorem fld_setFld_same (v : Word) (hi lo n : Nat) (hl : lo ≤ hi) (hh : hi < 32) :
    fld (setFld v hi lo n) hi lo = n % 2 ^ (hi + 1 - lo) := by
  apply Nat.eq_of_testBit_eq; intro k
  have := setFld_testBit v hi lo n (lo + k) hl hh
  rw [bitOf] at this
  rw [fld_testBit, this, Nat.testBit_mod_two_pow]
  by_cases hk : k < hi + 1 - lo
  · have : lo ≤ lo + k ∧ lo + k ≤ hi := by omega
    simp [hk, this]
  · simp [hk]

theorem fld_setFld_ne (v : Word) (hi lo n hi' lo' : Nat) (hl : lo ≤ hi) (hh : hi < 32) (hd : hi' < lo ∨ hi < lo') :
    fld (setFld v hi lo n) hi' lo' = fld v hi' lo' := by
  apply Nat.eq_of_testBit_eq; intro k
  have := setFld_testBit v hi lo n (lo' + k) hl hh
  rw [bitOf, bitOf] at this
  rw [fld_testBit, fld_testBit, this]
  by_cases hk : k < hi' + 1 - lo'
  · have : ¬ (lo ≤ lo' + k ∧ lo' + k ≤ hi) := by omega
    simp [this]
  · simp [hk]

theorem bitOf_setFld_ne (v : Word) (hi lo n i : Nat) (hl : lo ≤ hi) (hh : hi < 32) (hd : i < lo ∨ hi < i) :
    bitOf (setFld v hi lo n) i = bitOf v i := by
  rw [setFld_testBit v hi lo n i hl hh, if_neg (by omega)]

theorem bitOf_putBit (v : Word) (i j : Nat) (b : Bool) (h : i < 32) :
    bitOf (putBit v i b) j = if j = i then b else bitOf v j := by
  rw [putBit, setFld_testBit v i i (b2n b) j (by omega) h]
  by_cases hj : j = i
  · subst hj; cases b <;> simp [b2n]
  · rw [if_neg (by omega), if_neg hj]

@[simp] theorem bitOf_putBit_same (v : Word) (i : Nat) (b : Bool) (h : i < 32) : bitOf (putBit v i b) i = b := by
  rw [bitOf_putBit v i i b h, if_pos rfl]

theorem bitOf_putBit_ne (v : Word) (i j : Nat) (b : Bool) (h : i < 32) (hj : j ≠ i) :
    bitOf (putBit v i b) j = bitOf v j := by
  rw [bitOf_putBit v i j b h, if_neg hj]

theorem fld_putBit_ne (v : Word) (i hi lo : Nat) (b : Bool) (h : i < 32) (hd : hi < i ∨ i < lo) :
    fld (putBit v i b) hi lo = fld v hi lo := fld_setFld_ne v i i (b2n b) hi lo (by omega) h hd

/-- A word is its bits. -/
theorem word_ext (v w : Word) (h : ∀ i < 32, bitOf v i = bitOf w i) : v = w := by
  apply BitVec.eq_of_toNat_eq
  apply Nat.eq_of_testBit_eq; intro i
  by_cases hi : i < 32
  · exact h i hi
  · have p : ∀ x : Word, x.toNat.testBit i = false := fun x =>
      Nat.testBit_lt_two_pow (Nat.lt_of_lt_of_le x.isLt (Nat.pow_le_pow_right (by omega) (by omega)))
    rw [p, p]

theorem setFld_setFld (v : Word) (hi lo m n : Nat) (hl : lo ≤ hi) (hh : hi < 32) :
    setFld (setFld v hi lo m) hi lo n = setFld v hi lo n := by
  apply word_ext; intro i _
  rw [setFld_testBit _ hi lo n i hl hh, setFld_testBit _ hi lo n i hl hh, setFld_testBit _ hi lo m i hl hh]
  split <;> rfl

/-- Sign extension lands in the signed range. -/
theorem sxN_range (n v : Nat) (h : 0 < n) : minS n ≤ sxN n v ∧ sxN n v ≤ maxS n := by
  have e : (2 : Nat) ^ n = 2 * 2 ^ (n - 1) := by rw [← pow_succ']; congr 1; omega
  have hm : v % 2 ^ n < 2 ^ n := Nat.mod_lt _ (Nat.two_pow_pos _)
  unfold sxN minS maxS
  simp only
  split <;> constructor <;> omega

/-- An unsigned number reduced modulo 2^n is below it. -/
theorem toU_lt (n : Nat) (x : Int) : toU n x < 2 ^ n := by
  have hp : (0 : Int) < ((2 ^ n : Nat) : Int) := by exact_mod_cast Nat.two_pow_pos n
  have h1 := Int.emod_nonneg x (Int.ne_of_gt hp)
  have h2 := Int.emod_lt_of_pos x hp
  unfold toU; omega

end Sys2Proof.Machine
end

