-- ==== Sys2Proof/Laws/State.lean ====
section
/-! SUPPORT. What each update of the state leaves unchanged: for every update, one equation for every field it does not write,
and the field it writes where it writes it whole. -/

namespace Sys2Proof.Machine

@[simp] theorem setReg_frame (s : State) (r : RegName) (i : Nat) (v : Word) :
    (s.setReg r i v).mem = s.mem ∧ (s.setReg r i v).wmem = s.wmem ∧ (s.setReg r i v).upset = s.upset ∧
    (s.setReg r i v).hart = s.hart ∧ (s.setReg r i v).core = s.core ∧ (s.setReg r i v).eng = s.eng ∧
    (s.setReg r i v).sched = s.sched ∧ (s.setReg r i v).time = s.time ∧ (s.setReg r i v).dev = s.dev ∧
    (s.setReg r i v).safe = s.safe ∧ (s.setReg r i v).fab = s.fab ∧ (s.setReg r i v).sect = s.sect ∧
    (s.setReg r i v).port = s.port ∧ (s.setReg r i v).asrc = s.asrc ∧ (s.setReg r i v).guard = s.guard ∧
    (s.setReg r i v).link = s.link ∧ (s.setReg r i v).dma = s.dma ∧ (s.setReg r i v).timer = s.timer ∧
    (s.setReg r i v).synth = s.synth ∧ (s.setReg r i v).pwr = s.pwr ∧ (s.setReg r i v).boot = s.boot ∧
    (s.setReg r i v).host = s.host ∧ (s.setReg r i v).pins = s.pins ∧ (s.setReg r i v).free = s.free ∧
    (s.setReg r i v).pending = s.pending := by
  and_intros <;> rfl

@[simp] theorem setF_frame (s : State) (r : RegName) (i hi lo n : Nat) :
    (s.setF r i hi lo n).mem = s.mem ∧ (s.setF r i hi lo n).wmem = s.wmem ∧ (s.setF r i hi lo n).upset = s.upset ∧
    (s.setF r i hi lo n).hart = s.hart ∧ (s.setF r i hi lo n).core = s.core ∧ (s.setF r i hi lo n).eng = s.eng ∧
    (s.setF r i hi lo n).sched = s.sched ∧ (s.setF r i hi lo n).time = s.time ∧ (s.setF r i hi lo n).dev = s.dev ∧
    (s.setF r i hi lo n).safe = s.safe ∧ (s.setF r i hi lo n).fab = s.fab ∧ (s.setF r i hi lo n).sect = s.sect ∧
    (s.setF r i hi lo n).port = s.port ∧ (s.setF r i hi lo n).asrc = s.asrc ∧
    (s.setF r i hi lo n).guard = s.guard ∧ (s.setF r i hi lo n).link = s.link ∧ (s.setF r i hi lo n).dma = s.dma ∧
    (s.setF r i hi lo n).timer = s.timer ∧ (s.setF r i hi lo n).synth = s.synth ∧
    (s.setF r i hi lo n).pwr = s.pwr ∧ (s.setF r i hi lo n).boot = s.boot ∧ (s.setF r i hi lo n).host = s.host ∧
    (s.setF r i hi lo n).pins = s.pins ∧ (s.setF r i hi lo n).free = s.free ∧
    (s.setF r i hi lo n).pending = s.pending := by
  and_intros <;> rfl

@[simp] theorem setBit_frame (s : State) (r : RegName) (i b : Nat) (x : Bool) :
    (s.setBit r i b x).mem = s.mem ∧ (s.setBit r i b x).wmem = s.wmem ∧ (s.setBit r i b x).upset = s.upset ∧
    (s.setBit r i b x).hart = s.hart ∧ (s.setBit r i b x).core = s.core ∧ (s.setBit r i b x).eng = s.eng ∧
    (s.setBit r i b x).sched = s.sched ∧ (s.setBit r i b x).time = s.time ∧ (s.setBit r i b x).dev = s.dev ∧
    (s.setBit r i b x).safe = s.safe ∧ (s.setBit r i b x).fab = s.fab ∧ (s.setBit r i b x).sect = s.sect ∧
    (s.setBit r i b x).port = s.port ∧ (s.setBit r i b x).asrc = s.asrc ∧ (s.setBit r i b x).guard = s.guard ∧
    (s.setBit r i b x).link = s.link ∧ (s.setBit r i b x).dma = s.dma ∧ (s.setBit r i b x).timer = s.timer ∧
    (s.setBit r i b x).synth = s.synth ∧ (s.setBit r i b x).pwr = s.pwr ∧ (s.setBit r i b x).boot = s.boot ∧
    (s.setBit r i b x).host = s.host ∧ (s.setBit r i b x).pins = s.pins ∧ (s.setBit r i b x).free = s.free ∧
    (s.setBit r i b x).pending = s.pending := by
  and_intros <;> rfl

@[simp] theorem raise_frame (e : Nat) (s : State) :
    (raise e s).mem = s.mem ∧ (raise e s).wmem = s.wmem ∧ (raise e s).upset = s.upset ∧ (raise e s).hart = s.hart ∧
    (raise e s).core = s.core ∧ (raise e s).eng = s.eng ∧ (raise e s).sched = s.sched ∧ (raise e s).time = s.time ∧
    (raise e s).dev = s.dev ∧ (raise e s).safe = s.safe ∧ (raise e s).fab = s.fab ∧ (raise e s).sect = s.sect ∧
    (raise e s).port = s.port ∧ (raise e s).asrc = s.asrc ∧ (raise e s).guard = s.guard ∧
    (raise e s).link = s.link ∧ (raise e s).dma = s.dma ∧ (raise e s).timer = s.timer ∧
    (raise e s).synth = s.synth ∧ (raise e s).pwr = s.pwr ∧ (raise e s).boot = s.boot ∧ (raise e s).host = s.host ∧
    (raise e s).pins = s.pins ∧ (raise e s).free = s.free ∧ (raise e s).pending = s.pending := by
  and_intros <;> rfl

@[simp] theorem setByte_frame (s : State) (a : Nat) (v : Byte) :
    (setByte s a v).regs = s.regs ∧ (setByte s a v).wmem = s.wmem ∧ (setByte s a v).upset = s.upset ∧
    (setByte s a v).hart = s.hart ∧ (setByte s a v).core = s.core ∧ (setByte s a v).eng = s.eng ∧
    (setByte s a v).sched = s.sched ∧ (setByte s a v).time = s.time ∧ (setByte s a v).dev = s.dev ∧
    (setByte s a v).safe = s.safe ∧ (setByte s a v).fab = s.fab ∧ (setByte s a v).sect = s.sect ∧
    (setByte s a v).port = s.port ∧ (setByte s a v).asrc = s.asrc ∧ (setByte s a v).guard = s.guard ∧
    (setByte s a v).link = s.link ∧ (setByte s a v).dma = s.dma ∧ (setByte s a v).timer = s.timer ∧
    (setByte s a v).synth = s.synth ∧ (setByte s a v).pwr = s.pwr ∧ (setByte s a v).boot = s.boot ∧
    (setByte s a v).host = s.host ∧ (setByte s a v).pins = s.pins ∧ (setByte s a v).free = s.free ∧
    (setByte s a v).pending = s.pending := by
  and_intros <;> rfl

@[simp] theorem setSlot_frame (s : State) (a : Nat) (v : Word) :
    (setSlot s a v).regs = s.regs ∧ (setSlot s a v).mem = s.mem ∧ (setSlot s a v).hart = s.hart ∧
    (setSlot s a v).core = s.core ∧ (setSlot s a v).eng = s.eng ∧ (setSlot s a v).sched = s.sched ∧
    (setSlot s a v).time = s.time ∧ (setSlot s a v).dev = s.dev ∧ (setSlot s a v).safe = s.safe ∧
    (setSlot s a v).fab = s.fab ∧ (setSlot s a v).sect = s.sect ∧ (setSlot s a v).port = s.port ∧
    (setSlot s a v).asrc = s.asrc ∧ (setSlot s a v).guard = s.guard ∧ (setSlot s a v).link = s.link ∧
    (setSlot s a v).dma = s.dma ∧ (setSlot s a v).timer = s.timer ∧ (setSlot s a v).synth = s.synth ∧
    (setSlot s a v).pwr = s.pwr ∧ (setSlot s a v).boot = s.boot ∧ (setSlot s a v).host = s.host ∧
    (setSlot s a v).pins = s.pins ∧ (setSlot s a v).free = s.free ∧ (setSlot s a v).pending = s.pending := by
  and_intros <;> rfl

@[simp] theorem setUpset_frame (s : State) (a n : Nat) :
    (setUpset s a n).regs = s.regs ∧ (setUpset s a n).mem = s.mem ∧ (setUpset s a n).wmem = s.wmem ∧
    (setUpset s a n).hart = s.hart ∧ (setUpset s a n).core = s.core ∧ (setUpset s a n).eng = s.eng ∧
    (setUpset s a n).sched = s.sched ∧ (setUpset s a n).time = s.time ∧ (setUpset s a n).dev = s.dev ∧
    (setUpset s a n).safe = s.safe ∧ (setUpset s a n).fab = s.fab ∧ (setUpset s a n).sect = s.sect ∧
    (setUpset s a n).port = s.port ∧ (setUpset s a n).asrc = s.asrc ∧ (setUpset s a n).guard = s.guard ∧
    (setUpset s a n).link = s.link ∧ (setUpset s a n).dma = s.dma ∧ (setUpset s a n).timer = s.timer ∧
    (setUpset s a n).synth = s.synth ∧ (setUpset s a n).pwr = s.pwr ∧ (setUpset s a n).boot = s.boot ∧
    (setUpset s a n).host = s.host ∧ (setUpset s a n).pins = s.pins ∧ (setUpset s a n).free = s.free ∧
    (setUpset s a n).pending = s.pending := by
  and_intros <;> rfl

@[simp] theorem setPhys_frame (s : State) (h n : Nat) (v : Word) :
    (setPhys h n v s).regs = s.regs ∧ (setPhys h n v s).mem = s.mem ∧ (setPhys h n v s).wmem = s.wmem ∧
    (setPhys h n v s).upset = s.upset ∧ (setPhys h n v s).core = s.core ∧ (setPhys h n v s).eng = s.eng ∧
    (setPhys h n v s).sched = s.sched ∧ (setPhys h n v s).time = s.time ∧ (setPhys h n v s).dev = s.dev ∧
    (setPhys h n v s).safe = s.safe ∧ (setPhys h n v s).fab = s.fab ∧ (setPhys h n v s).sect = s.sect ∧
    (setPhys h n v s).port = s.port ∧ (setPhys h n v s).asrc = s.asrc ∧ (setPhys h n v s).guard = s.guard ∧
    (setPhys h n v s).link = s.link ∧ (setPhys h n v s).dma = s.dma ∧ (setPhys h n v s).timer = s.timer ∧
    (setPhys h n v s).synth = s.synth ∧ (setPhys h n v s).pwr = s.pwr ∧ (setPhys h n v s).boot = s.boot ∧
    (setPhys h n v s).host = s.host ∧ (setPhys h n v s).pins = s.pins ∧ (setPhys h n v s).free = s.free ∧
    (setPhys h n v s).pending = s.pending := by
  and_intros <;> rfl

@[simp] theorem setAcc_frame (s : State) (h x : Nat) (v : Int) :
    (setAcc h x v s).regs = s.regs ∧ (setAcc h x v s).mem = s.mem ∧ (setAcc h x v s).wmem = s.wmem ∧
    (setAcc h x v s).upset = s.upset ∧ (setAcc h x v s).core = s.core ∧ (setAcc h x v s).eng = s.eng ∧
    (setAcc h x v s).sched = s.sched ∧ (setAcc h x v s).time = s.time ∧ (setAcc h x v s).dev = s.dev ∧
    (setAcc h x v s).safe = s.safe ∧ (setAcc h x v s).fab = s.fab ∧ (setAcc h x v s).sect = s.sect ∧
    (setAcc h x v s).port = s.port ∧ (setAcc h x v s).asrc = s.asrc ∧ (setAcc h x v s).guard = s.guard ∧
    (setAcc h x v s).link = s.link ∧ (setAcc h x v s).dma = s.dma ∧ (setAcc h x v s).timer = s.timer ∧
    (setAcc h x v s).synth = s.synth ∧ (setAcc h x v s).pwr = s.pwr ∧ (setAcc h x v s).boot = s.boot ∧
    (setAcc h x v s).host = s.host ∧ (setAcc h x v s).pins = s.pins ∧ (setAcc h x v s).free = s.free ∧
    (setAcc h x v s).pending = s.pending := by
  and_intros <;> rfl

@[simp] theorem setStat_frame (s : State) (h : Nat) (v : Word) :
    (setStat h v s).regs = s.regs ∧ (setStat h v s).mem = s.mem ∧ (setStat h v s).wmem = s.wmem ∧
    (setStat h v s).upset = s.upset ∧ (setStat h v s).core = s.core ∧ (setStat h v s).eng = s.eng ∧
    (setStat h v s).sched = s.sched ∧ (setStat h v s).time = s.time ∧ (setStat h v s).dev = s.dev ∧
    (setStat h v s).safe = s.safe ∧ (setStat h v s).fab = s.fab ∧ (setStat h v s).sect = s.sect ∧
    (setStat h v s).port = s.port ∧ (setStat h v s).asrc = s.asrc ∧ (setStat h v s).guard = s.guard ∧
    (setStat h v s).link = s.link ∧ (setStat h v s).dma = s.dma ∧ (setStat h v s).timer = s.timer ∧
    (setStat h v s).synth = s.synth ∧ (setStat h v s).pwr = s.pwr ∧ (setStat h v s).boot = s.boot ∧
    (setStat h v s).host = s.host ∧ (setStat h v s).pins = s.pins ∧ (setStat h v s).free = s.free ∧
    (setStat h v s).pending = s.pending := by
  and_intros <;> rfl

@[simp] theorem setDice_frame (s : State) (h v : Nat) :
    (setDice h v s).regs = s.regs ∧ (setDice h v s).mem = s.mem ∧ (setDice h v s).wmem = s.wmem ∧
    (setDice h v s).upset = s.upset ∧ (setDice h v s).core = s.core ∧ (setDice h v s).eng = s.eng ∧
    (setDice h v s).sched = s.sched ∧ (setDice h v s).time = s.time ∧ (setDice h v s).dev = s.dev ∧
    (setDice h v s).safe = s.safe ∧ (setDice h v s).fab = s.fab ∧ (setDice h v s).sect = s.sect ∧
    (setDice h v s).port = s.port ∧ (setDice h v s).asrc = s.asrc ∧ (setDice h v s).guard = s.guard ∧
    (setDice h v s).link = s.link ∧ (setDice h v s).dma = s.dma ∧ (setDice h v s).timer = s.timer ∧
    (setDice h v s).synth = s.synth ∧ (setDice h v s).pwr = s.pwr ∧ (setDice h v s).boot = s.boot ∧
    (setDice h v s).host = s.host ∧ (setDice h v s).pins = s.pins ∧ (setDice h v s).free = s.free ∧
    (setDice h v s).pending = s.pending := by
  and_intros <;> rfl

@[simp] theorem putFlags_frame (s : State) (h : Nat) (f : Flg) :
    (putFlags h f s).regs = s.regs ∧ (putFlags h f s).mem = s.mem ∧ (putFlags h f s).wmem = s.wmem ∧
    (putFlags h f s).upset = s.upset ∧ (putFlags h f s).core = s.core ∧ (putFlags h f s).eng = s.eng ∧
    (putFlags h f s).sched = s.sched ∧ (putFlags h f s).time = s.time ∧ (putFlags h f s).dev = s.dev ∧
    (putFlags h f s).safe = s.safe ∧ (putFlags h f s).fab = s.fab ∧ (putFlags h f s).sect = s.sect ∧
    (putFlags h f s).port = s.port ∧ (putFlags h f s).asrc = s.asrc ∧ (putFlags h f s).guard = s.guard ∧
    (putFlags h f s).link = s.link ∧ (putFlags h f s).dma = s.dma ∧ (putFlags h f s).timer = s.timer ∧
    (putFlags h f s).synth = s.synth ∧ (putFlags h f s).pwr = s.pwr ∧ (putFlags h f s).boot = s.boot ∧
    (putFlags h f s).host = s.host ∧ (putFlags h f s).pins = s.pins ∧ (putFlags h f s).free = s.free ∧
    (putFlags h f s).pending = s.pending := by
  and_intros <;> rfl

@[simp] theorem setPc_frame (s : State) (c : Nat) (v : Word) :
    (setPc c v s).regs = s.regs ∧ (setPc c v s).mem = s.mem ∧ (setPc c v s).wmem = s.wmem ∧
    (setPc c v s).upset = s.upset ∧ (setPc c v s).hart = s.hart ∧ (setPc c v s).eng = s.eng ∧
    (setPc c v s).sched = s.sched ∧ (setPc c v s).time = s.time ∧ (setPc c v s).dev = s.dev ∧
    (setPc c v s).safe = s.safe ∧ (setPc c v s).fab = s.fab ∧ (setPc c v s).sect = s.sect ∧
    (setPc c v s).port = s.port ∧ (setPc c v s).asrc = s.asrc ∧ (setPc c v s).guard = s.guard ∧
    (setPc c v s).link = s.link ∧ (setPc c v s).dma = s.dma ∧ (setPc c v s).timer = s.timer ∧
    (setPc c v s).synth = s.synth ∧ (setPc c v s).pwr = s.pwr ∧ (setPc c v s).boot = s.boot ∧
    (setPc c v s).host = s.host ∧ (setPc c v s).pins = s.pins ∧ (setPc c v s).free = s.free ∧
    (setPc c v s).pending = s.pending := by
  and_intros <;> rfl

@[simp] theorem later_frame (s : State) (a : PendAct) :
    (later a s).regs = s.regs ∧ (later a s).mem = s.mem ∧ (later a s).wmem = s.wmem ∧ (later a s).upset = s.upset ∧
    (later a s).hart = s.hart ∧ (later a s).core = s.core ∧ (later a s).eng = s.eng ∧ (later a s).sched = s.sched ∧
    (later a s).time = s.time ∧ (later a s).safe = s.safe ∧ (later a s).fab = s.fab ∧ (later a s).sect = s.sect ∧
    (later a s).port = s.port ∧ (later a s).asrc = s.asrc ∧ (later a s).guard = s.guard ∧
    (later a s).link = s.link ∧ (later a s).dma = s.dma ∧ (later a s).timer = s.timer ∧
    (later a s).synth = s.synth ∧ (later a s).pwr = s.pwr ∧ (later a s).boot = s.boot ∧ (later a s).host = s.host ∧
    (later a s).pins = s.pins ∧ (later a s).free = s.free ∧ (later a s).pending = s.pending := by
  and_intros <;> rfl

@[simp] theorem setClk_frame (s : State) (n : Nat) :
    (setClk n s).regs = s.regs ∧ (setClk n s).mem = s.mem ∧ (setClk n s).wmem = s.wmem ∧
    (setClk n s).upset = s.upset ∧ (setClk n s).hart = s.hart ∧ (setClk n s).core = s.core ∧
    (setClk n s).eng = s.eng ∧ (setClk n s).sched = s.sched ∧ (setClk n s).dev = s.dev ∧
    (setClk n s).safe = s.safe ∧ (setClk n s).fab = s.fab ∧ (setClk n s).sect = s.sect ∧
    (setClk n s).port = s.port ∧ (setClk n s).asrc = s.asrc ∧ (setClk n s).guard = s.guard ∧
    (setClk n s).link = s.link ∧ (setClk n s).dma = s.dma ∧ (setClk n s).timer = s.timer ∧
    (setClk n s).synth = s.synth ∧ (setClk n s).pwr = s.pwr ∧ (setClk n s).boot = s.boot ∧
    (setClk n s).host = s.host ∧ (setClk n s).pins = s.pins ∧ (setClk n s).free = s.free ∧
    (setClk n s).pending = s.pending := by
  and_intros <;> rfl

@[simp] theorem nextGrid_frame (s : State) :
    (nextGrid s).regs = s.regs ∧ (nextGrid s).mem = s.mem ∧ (nextGrid s).wmem = s.wmem ∧
    (nextGrid s).upset = s.upset ∧ (nextGrid s).hart = s.hart ∧ (nextGrid s).core = s.core ∧
    (nextGrid s).eng = s.eng ∧ (nextGrid s).sched = s.sched ∧ (nextGrid s).dev = s.dev ∧
    (nextGrid s).safe = s.safe ∧ (nextGrid s).fab = s.fab ∧ (nextGrid s).sect = s.sect ∧
    (nextGrid s).port = s.port ∧ (nextGrid s).asrc = s.asrc ∧ (nextGrid s).guard = s.guard ∧
    (nextGrid s).link = s.link ∧ (nextGrid s).dma = s.dma ∧ (nextGrid s).timer = s.timer ∧
    (nextGrid s).synth = s.synth ∧ (nextGrid s).pwr = s.pwr ∧ (nextGrid s).boot = s.boot ∧
    (nextGrid s).host = s.host ∧ (nextGrid s).pins = s.pins ∧ (nextGrid s).free = s.free ∧
    (nextGrid s).pending = s.pending := by
  and_intros <;> rfl

@[simp] theorem muteOutputs_frame (s : State) :
    (muteOutputs s).mem = s.mem ∧ (muteOutputs s).wmem = s.wmem ∧ (muteOutputs s).upset = s.upset ∧
    (muteOutputs s).hart = s.hart ∧ (muteOutputs s).core = s.core ∧ (muteOutputs s).eng = s.eng ∧
    (muteOutputs s).sched = s.sched ∧ (muteOutputs s).time = s.time ∧ (muteOutputs s).dev = s.dev ∧
    (muteOutputs s).safe = s.safe ∧ (muteOutputs s).fab = s.fab ∧ (muteOutputs s).sect = s.sect ∧
    (muteOutputs s).asrc = s.asrc ∧ (muteOutputs s).dma = s.dma ∧ (muteOutputs s).timer = s.timer ∧
    (muteOutputs s).synth = s.synth ∧ (muteOutputs s).pwr = s.pwr ∧ (muteOutputs s).boot = s.boot ∧
    (muteOutputs s).host = s.host ∧ (muteOutputs s).pins = s.pins ∧ (muteOutputs s).free = s.free ∧
    (muteOutputs s).pending = s.pending := by
  and_intros <;> rfl

@[simp] theorem markWon_frame (s : State) (n : Nat) :
    (markWon n s).regs = s.regs ∧ (markWon n s).mem = s.mem ∧ (markWon n s).wmem = s.wmem ∧
    (markWon n s).upset = s.upset ∧ (markWon n s).hart = s.hart ∧ (markWon n s).core = s.core ∧
    (markWon n s).eng = s.eng ∧ (markWon n s).sched = s.sched ∧ (markWon n s).time = s.time ∧
    (markWon n s).safe = s.safe ∧ (markWon n s).fab = s.fab ∧ (markWon n s).sect = s.sect ∧
    (markWon n s).port = s.port ∧ (markWon n s).asrc = s.asrc ∧ (markWon n s).guard = s.guard ∧
    (markWon n s).link = s.link ∧ (markWon n s).dma = s.dma ∧ (markWon n s).timer = s.timer ∧
    (markWon n s).synth = s.synth ∧ (markWon n s).pwr = s.pwr ∧ (markWon n s).boot = s.boot ∧
    (markWon n s).host = s.host ∧ (markWon n s).pins = s.pins ∧ (markWon n s).free = s.free ∧
    (markWon n s).pending = s.pending := by
  and_intros <;> rfl

@[simp] theorem dropHeld_frame (s : State) (who : Initiator) :
    (dropHeld who s).regs = s.regs ∧ (dropHeld who s).mem = s.mem ∧ (dropHeld who s).wmem = s.wmem ∧
    (dropHeld who s).upset = s.upset ∧ (dropHeld who s).hart = s.hart ∧ (dropHeld who s).core = s.core ∧
    (dropHeld who s).eng = s.eng ∧ (dropHeld who s).sched = s.sched ∧ (dropHeld who s).time = s.time ∧
    (dropHeld who s).dev = s.dev ∧ (dropHeld who s).safe = s.safe ∧ (dropHeld who s).sect = s.sect ∧
    (dropHeld who s).port = s.port ∧ (dropHeld who s).asrc = s.asrc ∧ (dropHeld who s).guard = s.guard ∧
    (dropHeld who s).link = s.link ∧ (dropHeld who s).dma = s.dma ∧ (dropHeld who s).timer = s.timer ∧
    (dropHeld who s).synth = s.synth ∧ (dropHeld who s).pwr = s.pwr ∧ (dropHeld who s).boot = s.boot ∧
    (dropHeld who s).host = s.host ∧ (dropHeld who s).pins = s.pins ∧ (dropHeld who s).free = s.free ∧
    (dropHeld who s).pending = s.pending := by
  and_intros <;> rfl

@[simp] theorem setEng_eng (s : State) (x : EngState) : (setEng x s).eng = x := rfl
@[simp] theorem setEng_frame (s : State) (x : EngState) :
    (setEng x s).regs = s.regs ∧ (setEng x s).mem = s.mem ∧ (setEng x s).wmem = s.wmem ∧
    (setEng x s).upset = s.upset ∧ (setEng x s).hart = s.hart ∧ (setEng x s).core = s.core ∧
    (setEng x s).sched = s.sched ∧ (setEng x s).time = s.time ∧ (setEng x s).dev = s.dev ∧
    (setEng x s).safe = s.safe ∧ (setEng x s).fab = s.fab ∧ (setEng x s).sect = s.sect ∧
    (setEng x s).port = s.port ∧ (setEng x s).asrc = s.asrc ∧ (setEng x s).guard = s.guard ∧
    (setEng x s).link = s.link ∧ (setEng x s).dma = s.dma ∧ (setEng x s).timer = s.timer ∧
    (setEng x s).synth = s.synth ∧ (setEng x s).pwr = s.pwr ∧ (setEng x s).boot = s.boot ∧
    (setEng x s).host = s.host ∧ (setEng x s).pins = s.pins ∧ (setEng x s).free = s.free ∧
    (setEng x s).pending = s.pending := by
  and_intros <;> rfl

@[simp] theorem setSched_sched (s : State) (x : SchedState) : (setSched x s).sched = x := rfl
@[simp] theorem setSched_frame (s : State) (x : SchedState) :
    (setSched x s).regs = s.regs ∧ (setSched x s).mem = s.mem ∧ (setSched x s).wmem = s.wmem ∧
    (setSched x s).upset = s.upset ∧ (setSched x s).hart = s.hart ∧ (setSched x s).core = s.core ∧
    (setSched x s).eng = s.eng ∧ (setSched x s).time = s.time ∧ (setSched x s).dev = s.dev ∧
    (setSched x s).safe = s.safe ∧ (setSched x s).fab = s.fab ∧ (setSched x s).sect = s.sect ∧
    (setSched x s).port = s.port ∧ (setSched x s).asrc = s.asrc ∧ (setSched x s).guard = s.guard ∧
    (setSched x s).link = s.link ∧ (setSched x s).dma = s.dma ∧ (setSched x s).timer = s.timer ∧
    (setSched x s).synth = s.synth ∧ (setSched x s).pwr = s.pwr ∧ (setSched x s).boot = s.boot ∧
    (setSched x s).host = s.host ∧ (setSched x s).pins = s.pins ∧ (setSched x s).free = s.free ∧
    (setSched x s).pending = s.pending := by
  and_intros <;> rfl

@[simp] theorem setSafe_safe (s : State) (x : SafeState) : (setSafe x s).safe = x := rfl
@[simp] theorem setSafe_frame (s : State) (x : SafeState) :
    (setSafe x s).regs = s.regs ∧ (setSafe x s).mem = s.mem ∧ (setSafe x s).wmem = s.wmem ∧
    (setSafe x s).upset = s.upset ∧ (setSafe x s).hart = s.hart ∧ (setSafe x s).core = s.core ∧
    (setSafe x s).eng = s.eng ∧ (setSafe x s).sched = s.sched ∧ (setSafe x s).time = s.time ∧
    (setSafe x s).dev = s.dev ∧ (setSafe x s).fab = s.fab ∧ (setSafe x s).sect = s.sect ∧
    (setSafe x s).port = s.port ∧ (setSafe x s).asrc = s.asrc ∧ (setSafe x s).guard = s.guard ∧
    (setSafe x s).link = s.link ∧ (setSafe x s).dma = s.dma ∧ (setSafe x s).timer = s.timer ∧
    (setSafe x s).synth = s.synth ∧ (setSafe x s).pwr = s.pwr ∧ (setSafe x s).boot = s.boot ∧
    (setSafe x s).host = s.host ∧ (setSafe x s).pins = s.pins ∧ (setSafe x s).free = s.free ∧
    (setSafe x s).pending = s.pending := by
  and_intros <;> rfl

@[simp] theorem setFab_fab (s : State) (x : FabState) : (setFab x s).fab = x := rfl
@[simp] theorem setFab_frame (s : State) (x : FabState) :
    (setFab x s).regs = s.regs ∧ (setFab x s).mem = s.mem ∧ (setFab x s).wmem = s.wmem ∧
    (setFab x s).upset = s.upset ∧ (setFab x s).hart = s.hart ∧ (setFab x s).core = s.core ∧
    (setFab x s).eng = s.eng ∧ (setFab x s).sched = s.sched ∧ (setFab x s).time = s.time ∧
    (setFab x s).dev = s.dev ∧ (setFab x s).safe = s.safe ∧ (setFab x s).sect = s.sect ∧
    (setFab x s).port = s.port ∧ (setFab x s).asrc = s.asrc ∧ (setFab x s).guard = s.guard ∧
    (setFab x s).link = s.link ∧ (setFab x s).dma = s.dma ∧ (setFab x s).timer = s.timer ∧
    (setFab x s).synth = s.synth ∧ (setFab x s).pwr = s.pwr ∧ (setFab x s).boot = s.boot ∧
    (setFab x s).host = s.host ∧ (setFab x s).pins = s.pins ∧ (setFab x s).free = s.free ∧
    (setFab x s).pending = s.pending := by
  and_intros <;> rfl

@[simp] theorem setSect_sect (s : State) (x : SectState) : (setSect x s).sect = x := rfl
@[simp] theorem setSect_frame (s : State) (x : SectState) :
    (setSect x s).regs = s.regs ∧ (setSect x s).mem = s.mem ∧ (setSect x s).wmem = s.wmem ∧
    (setSect x s).upset = s.upset ∧ (setSect x s).hart = s.hart ∧ (setSect x s).core = s.core ∧
    (setSect x s).eng = s.eng ∧ (setSect x s).sched = s.sched ∧ (setSect x s).time = s.time ∧
    (setSect x s).dev = s.dev ∧ (setSect x s).safe = s.safe ∧ (setSect x s).fab = s.fab ∧
    (setSect x s).port = s.port ∧ (setSect x s).asrc = s.asrc ∧ (setSect x s).guard = s.guard ∧
    (setSect x s).link = s.link ∧ (setSect x s).dma = s.dma ∧ (setSect x s).timer = s.timer ∧
    (setSect x s).synth = s.synth ∧ (setSect x s).pwr = s.pwr ∧ (setSect x s).boot = s.boot ∧
    (setSect x s).host = s.host ∧ (setSect x s).pins = s.pins ∧ (setSect x s).free = s.free ∧
    (setSect x s).pending = s.pending := by
  and_intros <;> rfl

@[simp] theorem setPort_port (s : State) (x : PortState) : (setPort x s).port = x := rfl
@[simp] theorem setPort_frame (s : State) (x : PortState) :
    (setPort x s).regs = s.regs ∧ (setPort x s).mem = s.mem ∧ (setPort x s).wmem = s.wmem ∧
    (setPort x s).upset = s.upset ∧ (setPort x s).hart = s.hart ∧ (setPort x s).core = s.core ∧
    (setPort x s).eng = s.eng ∧ (setPort x s).sched = s.sched ∧ (setPort x s).time = s.time ∧
    (setPort x s).dev = s.dev ∧ (setPort x s).safe = s.safe ∧ (setPort x s).fab = s.fab ∧
    (setPort x s).sect = s.sect ∧ (setPort x s).asrc = s.asrc ∧ (setPort x s).guard = s.guard ∧
    (setPort x s).link = s.link ∧ (setPort x s).dma = s.dma ∧ (setPort x s).timer = s.timer ∧
    (setPort x s).synth = s.synth ∧ (setPort x s).pwr = s.pwr ∧ (setPort x s).boot = s.boot ∧
    (setPort x s).host = s.host ∧ (setPort x s).pins = s.pins ∧ (setPort x s).free = s.free ∧
    (setPort x s).pending = s.pending := by
  and_intros <;> rfl

@[simp] theorem setGuard_guard (s : State) (x : GuardState) : (setGuard x s).guard = x := rfl
@[simp] theorem setGuard_frame (s : State) (x : GuardState) :
    (setGuard x s).regs = s.regs ∧ (setGuard x s).mem = s.mem ∧ (setGuard x s).wmem = s.wmem ∧
    (setGuard x s).upset = s.upset ∧ (setGuard x s).hart = s.hart ∧ (setGuard x s).core = s.core ∧
    (setGuard x s).eng = s.eng ∧ (setGuard x s).sched = s.sched ∧ (setGuard x s).time = s.time ∧
    (setGuard x s).dev = s.dev ∧ (setGuard x s).safe = s.safe ∧ (setGuard x s).fab = s.fab ∧
    (setGuard x s).sect = s.sect ∧ (setGuard x s).port = s.port ∧ (setGuard x s).asrc = s.asrc ∧
    (setGuard x s).link = s.link ∧ (setGuard x s).dma = s.dma ∧ (setGuard x s).timer = s.timer ∧
    (setGuard x s).synth = s.synth ∧ (setGuard x s).pwr = s.pwr ∧ (setGuard x s).boot = s.boot ∧
    (setGuard x s).host = s.host ∧ (setGuard x s).pins = s.pins ∧ (setGuard x s).free = s.free ∧
    (setGuard x s).pending = s.pending := by
  and_intros <;> rfl

@[simp] theorem setLink_link (s : State) (x : LinkState) : (setLink x s).link = x := rfl
@[simp] theorem setLink_frame (s : State) (x : LinkState) :
    (setLink x s).regs = s.regs ∧ (setLink x s).mem = s.mem ∧ (setLink x s).wmem = s.wmem ∧
    (setLink x s).upset = s.upset ∧ (setLink x s).hart = s.hart ∧ (setLink x s).core = s.core ∧
    (setLink x s).eng = s.eng ∧ (setLink x s).sched = s.sched ∧ (setLink x s).time = s.time ∧
    (setLink x s).dev = s.dev ∧ (setLink x s).safe = s.safe ∧ (setLink x s).fab = s.fab ∧
    (setLink x s).sect = s.sect ∧ (setLink x s).port = s.port ∧ (setLink x s).asrc = s.asrc ∧
    (setLink x s).guard = s.guard ∧ (setLink x s).dma = s.dma ∧ (setLink x s).timer = s.timer ∧
    (setLink x s).synth = s.synth ∧ (setLink x s).pwr = s.pwr ∧ (setLink x s).boot = s.boot ∧
    (setLink x s).host = s.host ∧ (setLink x s).pins = s.pins ∧ (setLink x s).free = s.free ∧
    (setLink x s).pending = s.pending := by
  and_intros <;> rfl

@[simp] theorem setDma_dma (s : State) (x : DmaState) : (setDma x s).dma = x := rfl
@[simp] theorem setDma_frame (s : State) (x : DmaState) :
    (setDma x s).regs = s.regs ∧ (setDma x s).mem = s.mem ∧ (setDma x s).wmem = s.wmem ∧
    (setDma x s).upset = s.upset ∧ (setDma x s).hart = s.hart ∧ (setDma x s).core = s.core ∧
    (setDma x s).eng = s.eng ∧ (setDma x s).sched = s.sched ∧ (setDma x s).time = s.time ∧
    (setDma x s).dev = s.dev ∧ (setDma x s).safe = s.safe ∧ (setDma x s).fab = s.fab ∧ (setDma x s).sect = s.sect ∧
    (setDma x s).port = s.port ∧ (setDma x s).asrc = s.asrc ∧ (setDma x s).guard = s.guard ∧
    (setDma x s).link = s.link ∧ (setDma x s).timer = s.timer ∧ (setDma x s).synth = s.synth ∧
    (setDma x s).pwr = s.pwr ∧ (setDma x s).boot = s.boot ∧ (setDma x s).host = s.host ∧
    (setDma x s).pins = s.pins ∧ (setDma x s).free = s.free ∧ (setDma x s).pending = s.pending := by
  and_intros <;> rfl

@[simp] theorem setTimer_timer (s : State) (x : TimerState) : (setTimer x s).timer = x := rfl
@[simp] theorem setTimer_frame (s : State) (x : TimerState) :
    (setTimer x s).regs = s.regs ∧ (setTimer x s).mem = s.mem ∧ (setTimer x s).wmem = s.wmem ∧
    (setTimer x s).upset = s.upset ∧ (setTimer x s).hart = s.hart ∧ (setTimer x s).core = s.core ∧
    (setTimer x s).eng = s.eng ∧ (setTimer x s).sched = s.sched ∧ (setTimer x s).time = s.time ∧
    (setTimer x s).dev = s.dev ∧ (setTimer x s).safe = s.safe ∧ (setTimer x s).fab = s.fab ∧
    (setTimer x s).sect = s.sect ∧ (setTimer x s).port = s.port ∧ (setTimer x s).asrc = s.asrc ∧
    (setTimer x s).guard = s.guard ∧ (setTimer x s).link = s.link ∧ (setTimer x s).dma = s.dma ∧
    (setTimer x s).synth = s.synth ∧ (setTimer x s).pwr = s.pwr ∧ (setTimer x s).boot = s.boot ∧
    (setTimer x s).host = s.host ∧ (setTimer x s).pins = s.pins ∧ (setTimer x s).free = s.free ∧
    (setTimer x s).pending = s.pending := by
  and_intros <;> rfl

@[simp] theorem setSynth_synth (s : State) (x : SynthState) : (setSynth x s).synth = x := rfl
@[simp] theorem setSynth_frame (s : State) (x : SynthState) :
    (setSynth x s).regs = s.regs ∧ (setSynth x s).mem = s.mem ∧ (setSynth x s).wmem = s.wmem ∧
    (setSynth x s).upset = s.upset ∧ (setSynth x s).hart = s.hart ∧ (setSynth x s).core = s.core ∧
    (setSynth x s).eng = s.eng ∧ (setSynth x s).sched = s.sched ∧ (setSynth x s).time = s.time ∧
    (setSynth x s).dev = s.dev ∧ (setSynth x s).safe = s.safe ∧ (setSynth x s).fab = s.fab ∧
    (setSynth x s).sect = s.sect ∧ (setSynth x s).port = s.port ∧ (setSynth x s).asrc = s.asrc ∧
    (setSynth x s).guard = s.guard ∧ (setSynth x s).link = s.link ∧ (setSynth x s).dma = s.dma ∧
    (setSynth x s).timer = s.timer ∧ (setSynth x s).pwr = s.pwr ∧ (setSynth x s).boot = s.boot ∧
    (setSynth x s).host = s.host ∧ (setSynth x s).pins = s.pins ∧ (setSynth x s).free = s.free ∧
    (setSynth x s).pending = s.pending := by
  and_intros <;> rfl

@[simp] theorem setPwr_pwr (s : State) (x : PwrState) : (setPwr x s).pwr = x := rfl
@[simp] theorem setPwr_frame (s : State) (x : PwrState) :
    (setPwr x s).regs = s.regs ∧ (setPwr x s).mem = s.mem ∧ (setPwr x s).wmem = s.wmem ∧
    (setPwr x s).upset = s.upset ∧ (setPwr x s).hart = s.hart ∧ (setPwr x s).core = s.core ∧
    (setPwr x s).eng = s.eng ∧ (setPwr x s).sched = s.sched ∧ (setPwr x s).time = s.time ∧
    (setPwr x s).dev = s.dev ∧ (setPwr x s).safe = s.safe ∧ (setPwr x s).fab = s.fab ∧ (setPwr x s).sect = s.sect ∧
    (setPwr x s).port = s.port ∧ (setPwr x s).asrc = s.asrc ∧ (setPwr x s).guard = s.guard ∧
    (setPwr x s).link = s.link ∧ (setPwr x s).dma = s.dma ∧ (setPwr x s).timer = s.timer ∧
    (setPwr x s).synth = s.synth ∧ (setPwr x s).boot = s.boot ∧ (setPwr x s).host = s.host ∧
    (setPwr x s).pins = s.pins ∧ (setPwr x s).free = s.free ∧ (setPwr x s).pending = s.pending := by
  and_intros <;> rfl

@[simp] theorem setDev_dev (s : State) (x : DevState) : (setDev x s).dev = x := rfl
@[simp] theorem setDev_frame (s : State) (x : DevState) :
    (setDev x s).regs = s.regs ∧ (setDev x s).mem = s.mem ∧ (setDev x s).wmem = s.wmem ∧
    (setDev x s).upset = s.upset ∧ (setDev x s).hart = s.hart ∧ (setDev x s).core = s.core ∧
    (setDev x s).eng = s.eng ∧ (setDev x s).sched = s.sched ∧ (setDev x s).time = s.time ∧
    (setDev x s).safe = s.safe ∧ (setDev x s).fab = s.fab ∧ (setDev x s).sect = s.sect ∧
    (setDev x s).port = s.port ∧ (setDev x s).asrc = s.asrc ∧ (setDev x s).guard = s.guard ∧
    (setDev x s).link = s.link ∧ (setDev x s).dma = s.dma ∧ (setDev x s).timer = s.timer ∧
    (setDev x s).synth = s.synth ∧ (setDev x s).pwr = s.pwr ∧ (setDev x s).boot = s.boot ∧
    (setDev x s).host = s.host ∧ (setDev x s).pins = s.pins ∧ (setDev x s).free = s.free ∧
    (setDev x s).pending = s.pending := by
  and_intros <;> rfl

@[simp] theorem setHost_host (s : State) (x : HostState) : (setHost x s).host = x := rfl
@[simp] theorem setHost_frame (s : State) (x : HostState) :
    (setHost x s).regs = s.regs ∧ (setHost x s).mem = s.mem ∧ (setHost x s).wmem = s.wmem ∧
    (setHost x s).upset = s.upset ∧ (setHost x s).hart = s.hart ∧ (setHost x s).core = s.core ∧
    (setHost x s).eng = s.eng ∧ (setHost x s).sched = s.sched ∧ (setHost x s).time = s.time ∧
    (setHost x s).dev = s.dev ∧ (setHost x s).safe = s.safe ∧ (setHost x s).fab = s.fab ∧
    (setHost x s).sect = s.sect ∧ (setHost x s).port = s.port ∧ (setHost x s).asrc = s.asrc ∧
    (setHost x s).guard = s.guard ∧ (setHost x s).link = s.link ∧ (setHost x s).dma = s.dma ∧
    (setHost x s).timer = s.timer ∧ (setHost x s).synth = s.synth ∧ (setHost x s).pwr = s.pwr ∧
    (setHost x s).boot = s.boot ∧ (setHost x s).pins = s.pins ∧ (setHost x s).free = s.free ∧
    (setHost x s).pending = s.pending := by
  and_intros <;> rfl

@[simp] theorem setBoot_boot (s : State) (x : BootState) : (setBoot x s).boot = x := rfl
@[simp] theorem setBoot_frame (s : State) (x : BootState) :
    (setBoot x s).regs = s.regs ∧ (setBoot x s).mem = s.mem ∧ (setBoot x s).wmem = s.wmem ∧
    (setBoot x s).upset = s.upset ∧ (setBoot x s).hart = s.hart ∧ (setBoot x s).core = s.core ∧
    (setBoot x s).eng = s.eng ∧ (setBoot x s).sched = s.sched ∧ (setBoot x s).time = s.time ∧
    (setBoot x s).dev = s.dev ∧ (setBoot x s).safe = s.safe ∧ (setBoot x s).fab = s.fab ∧
    (setBoot x s).sect = s.sect ∧ (setBoot x s).port = s.port ∧ (setBoot x s).asrc = s.asrc ∧
    (setBoot x s).guard = s.guard ∧ (setBoot x s).link = s.link ∧ (setBoot x s).dma = s.dma ∧
    (setBoot x s).timer = s.timer ∧ (setBoot x s).synth = s.synth ∧ (setBoot x s).pwr = s.pwr ∧
    (setBoot x s).host = s.host ∧ (setBoot x s).pins = s.pins ∧ (setBoot x s).free = s.free ∧
    (setBoot x s).pending = s.pending := by
  and_intros <;> rfl

end Sys2Proof.Machine
end

