-- ==== Sys2Proof/Laws/Store.lean ====
section
/-! SUPPORT. The laws of a Store: read after write, other keys unchanged, the canonical form kept. -/

namespace Sys2Proof.Machine

theorem Store.get_erase_same {α : Type} (d : Nat → α) (m : Store α) (a : Nat) :
    Store.get d (m.erase a) a = d a := by
  induction m with
  | nil => rfl
  | cons e t ih =>
    obtain ⟨b, v⟩ := e
    by_cases h : b = a
    · subst h; simpa [Store.erase] using ih
    · have h' : ¬ a = b := fun hh => h hh.symm
      simp [Store.erase, h, Store.get, h'] at ih ⊢; exact ih

theorem Store.get_erase_ne {α : Type} (d : Nat → α) (m : Store α) (a b : Nat) (h : b ≠ a) :
    Store.get d (m.erase a) b = Store.get d m b := by
  induction m with
  | nil => rfl
  | cons e t ih =>
    obtain ⟨c, v⟩ := e
    by_cases hc : c = a
    · subst hc
      have : Store.get d ((c, v) :: t) b = Store.get d t b := by simp [Store.get, h]
      rw [this, ← ih]; simp [Store.erase]
    · simp only [Store.erase, List.filter] at ih ⊢
      have hcb : (c != a) = true := by simpa using hc
      simp only [hcb, Store.get]
      split <;> simp_all

theorem Store.get_insert_same {α : Type} (d : Nat → α) (m : Store α) (a : Nat) (v : α)
    (h : ∀ e ∈ m, e.1 ≠ a) : Store.get d (Store.insert a v m) a = v := by
  induction m with
  | nil => simp [Store.insert, Store.get]
  | cons e t ih =>
    obtain ⟨b, w⟩ := e
    have hb : ¬ a = b := fun hh => h (b, w) (by simp) hh.symm
    simp only [Store.insert]
    split
    · simp [Store.get]
    · simp only [Store.get, hb, if_false]
      exact ih (fun e he => h e (by simp [he]))

theorem Store.get_insert_ne {α : Type} (d : Nat → α) (m : Store α) (a b : Nat) (v : α) (h : b ≠ a) :
    Store.get d (Store.insert a v m) b = Store.get d m b := by
  induction m with
  | nil => simp [Store.insert, Store.get, h]
  | cons e t ih =>
    obtain ⟨c, w⟩ := e
    simp only [Store.insert]
    split
    · simp [Store.get, h]
    · simp [Store.get, ih]

theorem Store.erase_ne {α : Type} (m : Store α) (a : Nat) : ∀ e ∈ m.erase a, e.1 ≠ a := by
  intro e he
  simp [Store.erase] at he
  exact he.2

@[simp] theorem Store.get_set_same {α : Type} [DecidableEq α] (d : Nat → α) (m : Store α) (a : Nat) (v : α) :
    Store.get d (Store.set d m a v) a = v := by
  unfold Store.set
  split
  · rename_i h; rw [Store.get_erase_same, h]
  · exact Store.get_insert_same d _ a v (Store.erase_ne m a)

theorem Store.get_set_ne {α : Type} [DecidableEq α] (d : Nat → α) (m : Store α) (a b : Nat) (v : α) (h : b ≠ a) :
    Store.get d (Store.set d m a v) b = Store.get d m b := by
  unfold Store.set
  split
  · exact Store.get_erase_ne d m a b h
  · rw [Store.get_insert_ne d _ a b v h, Store.get_erase_ne d m a b h]

theorem Store.get_set {α : Type} [DecidableEq α] (d : Nat → α) (m : Store α) (a b : Nat) (v : α) :
    Store.get d (Store.set d m a v) b = if b = a then v else Store.get d m b := by
  by_cases h : b = a
  · subst h; simp
  · simp [h, Store.get_set_ne]

/-- The head's key is below every later key, and the head is no default. -/
theorem Store.wf_cons {α : Type} [DecidableEq α] (d : Nat → α) (a : Nat) (v : α) (t : Store α) :
    Store.wf d ((a, v) :: t) = true ↔ v ≠ d a ∧ (∀ e ∈ t, a < e.1) ∧ Store.wf d t = true := by
  induction t generalizing a v with
  | nil => simp [Store.wf]
  | cons e t ih =>
    obtain ⟨b, w⟩ := e
    rw [Store.wf]
    simp only [Bool.and_eq_true, Bool.not_eq_true', decide_eq_false_iff_not, decide_eq_true_eq, ih b w]
    constructor
    · rintro ⟨⟨h1, h2⟩, h3, h4, h5⟩
      refine ⟨h1, ?_, h3, h4, h5⟩
      intro e he
      rcases List.mem_cons.mp he with rfl | he
      · exact h2
      · exact Nat.lt_trans h2 (h4 e he)
    · rintro ⟨h1, h2, h3, h4, h5⟩
      exact ⟨⟨h1, h2 (b, w) (by simp)⟩, h3, h4, h5⟩

theorem Store.wf_erase {α : Type} [DecidableEq α] (d : Nat → α) (m : Store α) (a : Nat)
    (h : Store.wf d m = true) : Store.wf d (m.erase a) = true := by
  induction m with
  | nil => rfl
  | cons e t ih =>
    obtain ⟨b, w⟩ := e
    obtain ⟨h1, h2, h3⟩ := (Store.wf_cons d b w t).mp h
    by_cases hb : b = a
    · subst hb; simpa [Store.erase] using ih h3
    · have : Store.erase ((b, w) :: t) a = (b, w) :: Store.erase t a := by simp [Store.erase, hb]
      rw [this, Store.wf_cons]
      exact ⟨h1, fun e he => h2 e (by simp [Store.erase] at he; exact he.1), ih h3⟩

theorem Store.wf_insert {α : Type} [DecidableEq α] (d : Nat → α) (m : Store α) (a : Nat) (v : α)
    (h : Store.wf d m = true) (hv : v ≠ d a) (hm : ∀ e ∈ m, e.1 ≠ a) :
    Store.wf d (Store.insert a v m) = true := by
  induction m with
  | nil => simp [Store.insert, Store.wf, hv]
  | cons e t ih =>
    obtain ⟨b, w⟩ := e
    have hw := (Store.wf_cons d b w t).mp h
    simp only [Store.insert]
    split
    · rename_i hab
      rw [Store.wf_cons]
      refine ⟨hv, ?_, h⟩
      intro e he
      rcases List.mem_cons.mp he with rfl | he
      · exact hab
      · exact Nat.lt_trans hab (hw.2.1 e he)
    · rename_i hab
      rw [Store.wf_cons]
      refine ⟨hw.1, ?_, ih hw.2.2 (fun e he => hm e (by simp [he]))⟩
      have hne : b ≠ a := hm (b, w) (by simp)
      have hlt : b < a := by omega
      intro e he
      have : e = (a, v) ∨ e ∈ t := by
        clear ih hw h hm
        induction t with
        | nil => simpa [Store.insert] using he
        | cons f r ih2 =>
          obtain ⟨c, x⟩ := f
          simp only [Store.insert] at he
          split at he
          · simpa using he
          · rcases List.mem_cons.mp he with rfl | he
            · simp
            · rcases ih2 he with h | h <;> simp [h]
      rcases this with rfl | h
      · exact hlt
      · exact hw.2.1 e h

/-- Every write keeps the canonical form. -/
theorem Store.wf_set {α : Type} [DecidableEq α] (d : Nat → α) (m : Store α) (a : Nat) (v : α)
    (h : Store.wf d m = true) : Store.wf d (Store.set d m a v) = true := by
  unfold Store.set
  split
  · exact Store.wf_erase d m a h
  · rename_i hv
    exact Store.wf_insert d _ a v (Store.wf_erase d m a h) hv (Store.erase_ne m a)

end Sys2Proof.Machine
end

