-- ==== Sys2Proof/Laws/Regs.lean ====
section
/-! SUPPORT. Registers: the key of an instance is its own, a register reads what was last written to it, and every other instance
keeps its value. -/

namespace Sys2Proof.Machine

theorem RegName.ctorIdx_inj {r q : RegName} (h : r.ctorIdx = q.ctorIdx) : r = q := by
  rw [← RegName.ofNat_ctorIdx r, ← RegName.ofNat_ctorIdx q, h]

theorem RegName.ctorIdx_lt (r : RegName) : r.ctorIdx < 512 := by cases r <;> decide

@[simp] theorem Reg.key_inj (r q : RegName) (i j : Nat) : Reg.key r i = Reg.key q j ↔ r = q ∧ i = j := by
  unfold Reg.key
  constructor
  · intro h
    have h1 := r.ctorIdx_lt
    have h2 := q.ctorIdx_lt
    have e : r.ctorIdx = q.ctorIdx := by omega
    exact ⟨RegName.ctorIdx_inj e, by omega⟩
  · rintro ⟨rfl, rfl⟩; rfl

theorem reg_setReg (s : State) (r q : RegName) (i j : Nat) (v : Word) :
    (s.setReg r i v).reg q j = if q = r ∧ j = i then v else s.reg q j := by
  simp only [State.reg, State.setReg, Store.get_set, Reg.key_inj]

@[simp] theorem reg_setReg_same (s : State) (r : RegName) (i : Nat) (v : Word) : (s.setReg r i v).reg r i = v := by
  rw [reg_setReg, if_pos ⟨rfl, rfl⟩]

theorem reg_setReg_ne (s : State) (r q : RegName) (i j : Nat) (v : Word) (h : ¬ (q = r ∧ j = i)) :
    (s.setReg r i v).reg q j = s.reg q j := by rw [reg_setReg, if_neg h]

theorem reg_setF (s : State) (r q : RegName) (i j hi lo n : Nat) :
    (s.setF r i hi lo n).reg q j = if q = r ∧ j = i then setFld (s.reg r i) hi lo n else s.reg q j := reg_setReg ..

theorem reg_setBit (s : State) (r q : RegName) (i j b : Nat) (x : Bool) :
    (s.setBit r i b x).reg q j = if q = r ∧ j = i then putBit (s.reg r i) b x else s.reg q j := reg_setReg ..

theorem reg_raise (s : State) (e : Nat) (q : RegName) (j : Nat) :
    (raise e s).reg q j = if q = .EVT_RAW_w ∧ j = e / 32 then putBit (s.reg .EVT_RAW_w (e / 32)) (e % 32) true else s.reg q j :=
  reg_setBit ..

/-- A field of a register that has been written in that field. -/
@[simp] theorem f_setF_same (s : State) (r : RegName) (i hi lo n : Nat) (hl : lo ≤ hi) (hh : hi < 32) :
    (s.setF r i hi lo n).f r i hi lo = n % 2 ^ (hi + 1 - lo) := by
  rw [State.f, reg_setF, if_pos ⟨rfl, rfl⟩, fld_setFld_same _ _ _ _ hl hh]

/-- A bit of a register that has been written in that bit. -/
@[simp] theorem bit_setBit_same (s : State) (r : RegName) (i b : Nat) (x : Bool) (hb : b < 32) :
    (s.setBit r i b x).bit r i b = x := by
  rw [State.bit, reg_setBit, if_pos ⟨rfl, rfl⟩, bitOf_putBit_same _ _ _ hb]

/-- A raised event's bit is set (R456). -/
theorem raise_bit (s : State) (e : Nat) : (raise e s).bit .EVT_RAW_w (e / 32) (e % 32) = true :=
  bit_setBit_same s .EVT_RAW_w (e / 32) (e % 32) true (Nat.mod_lt _ (by decide))

/-- The registers alone decide what a register reads. -/
theorem reg_congr {s t : State} (h : t.regs = s.regs) (r : RegName) (i : Nat) : t.reg r i = s.reg r i := by
  unfold State.reg; rw [h]
theorem f_congr {s t : State} (h : t.regs = s.regs) (r : RegName) (i hi lo : Nat) : t.f r i hi lo = s.f r i hi lo := by
  unfold State.f; rw [reg_congr h]
theorem bit_congr {s t : State} (h : t.regs = s.regs) (r : RegName) (i b : Nat) : t.bit r i b = s.bit r i b := by
  unfold State.bit; rw [reg_congr h]

@[simp] theorem reg_setByte (s : State) (a : Nat) (v : Byte) (q : RegName) (j : Nat) : (setByte s a v).reg q j = s.reg q j := rfl
@[simp] theorem reg_setSlot (s : State) (a : Nat) (v : Word) (q : RegName) (j : Nat) : (setSlot s a v).reg q j = s.reg q j := rfl
@[simp] theorem reg_setUpset (s : State) (a n : Nat) (q : RegName) (j : Nat) : (setUpset s a n).reg q j = s.reg q j := rfl
@[simp] theorem reg_setPhys (s : State) (h n : Nat) (v : Word) (q : RegName) (j : Nat) : (setPhys h n v s).reg q j = s.reg q j := rfl
@[simp] theorem reg_setAcc (s : State) (h x : Nat) (v : Int) (q : RegName) (j : Nat) : (setAcc h x v s).reg q j = s.reg q j := rfl
@[simp] theorem reg_setStat (s : State) (h : Nat) (v : Word) (q : RegName) (j : Nat) : (setStat h v s).reg q j = s.reg q j := rfl
@[simp] theorem reg_setDice (s : State) (h v : Nat) (q : RegName) (j : Nat) : (setDice h v s).reg q j = s.reg q j := rfl
@[simp] theorem reg_putFlags (s : State) (h : Nat) (f : Flg) (q : RegName) (j : Nat) : (putFlags h f s).reg q j = s.reg q j := rfl
@[simp] theorem reg_setPc (s : State) (c : Nat) (v : Word) (q : RegName) (j : Nat) : (setPc c v s).reg q j = s.reg q j := rfl
@[simp] theorem reg_later (s : State) (a : PendAct) (q : RegName) (j : Nat) : (later a s).reg q j = s.reg q j := rfl
@[simp] theorem reg_setClk (s : State) (n : Nat) (q : RegName) (j : Nat) : (setClk n s).reg q j = s.reg q j := rfl
@[simp] theorem reg_nextGrid (s : State) (q : RegName) (j : Nat) : (nextGrid s).reg q j = s.reg q j := rfl
@[simp] theorem reg_markWon (s : State) (n : Nat) (q : RegName) (j : Nat) : (markWon n s).reg q j = s.reg q j := rfl
@[simp] theorem reg_dropHeld (s : State) (who : Initiator) (q : RegName) (j : Nat) : (dropHeld who s).reg q j = s.reg q j := rfl
@[simp] theorem reg_setEng (s : State) (x : EngState) (q : RegName) (j : Nat) : (setEng x s).reg q j = s.reg q j := rfl
@[simp] theorem reg_setSched (s : State) (x : SchedState) (q : RegName) (j : Nat) : (setSched x s).reg q j = s.reg q j := rfl
@[simp] theorem reg_setSafe (s : State) (x : SafeState) (q : RegName) (j : Nat) : (setSafe x s).reg q j = s.reg q j := rfl
@[simp] theorem reg_setFab (s : State) (x : FabState) (q : RegName) (j : Nat) : (setFab x s).reg q j = s.reg q j := rfl
@[simp] theorem reg_setSect (s : State) (x : SectState) (q : RegName) (j : Nat) : (setSect x s).reg q j = s.reg q j := rfl
@[simp] theorem reg_setPort (s : State) (x : PortState) (q : RegName) (j : Nat) : (setPort x s).reg q j = s.reg q j := rfl
@[simp] theorem reg_setGuard (s : State) (x : GuardState) (q : RegName) (j : Nat) : (setGuard x s).reg q j = s.reg q j := rfl
@[simp] theorem reg_setLink (s : State) (x : LinkState) (q : RegName) (j : Nat) : (setLink x s).reg q j = s.reg q j := rfl
@[simp] theorem reg_setDma (s : State) (x : DmaState) (q : RegName) (j : Nat) : (setDma x s).reg q j = s.reg q j := rfl
@[simp] theorem reg_setTimer (s : State) (x : TimerState) (q : RegName) (j : Nat) : (setTimer x s).reg q j = s.reg q j := rfl
@[simp] theorem reg_setSynth (s : State) (x : SynthState) (q : RegName) (j : Nat) : (setSynth x s).reg q j = s.reg q j := rfl
@[simp] theorem reg_setPwr (s : State) (x : PwrState) (q : RegName) (j : Nat) : (setPwr x s).reg q j = s.reg q j := rfl
@[simp] theorem reg_setDev (s : State) (x : DevState) (q : RegName) (j : Nat) : (setDev x s).reg q j = s.reg q j := rfl
@[simp] theorem reg_setHost (s : State) (x : HostState) (q : RegName) (j : Nat) : (setHost x s).reg q j = s.reg q j := rfl
@[simp] theorem reg_setBoot (s : State) (x : BootState) (q : RegName) (j : Nat) : (setBoot x s).reg q j = s.reg q j := rfl

/-- Two states that differ in registers alone. -/
def RegsOnly (s t : State) : Prop := t = { s with regs := t.regs }

theorem RegsOnly.refl (s : State) : RegsOnly s s := rfl
theorem RegsOnly.trans {s t u : State} (h : RegsOnly s t) (k : RegsOnly t u) : RegsOnly s u := by
  unfold RegsOnly at *; rw [k, h]
theorem RegsOnly.setReg (s : State) (r : RegName) (i : Nat) (v : Word) : RegsOnly s (s.setReg r i v) := rfl
theorem RegsOnly.setF (s : State) (r : RegName) (i hi lo n : Nat) : RegsOnly s (s.setF r i hi lo n) := rfl
theorem RegsOnly.setBit (s : State) (r : RegName) (i b : Nat) (x : Bool) : RegsOnly s (s.setBit r i b x) := rfl
theorem RegsOnly.raise (s : State) (e : Nat) : RegsOnly s (raise e s) := rfl
theorem RegsOnly.ite {s t u : State} (c : Prop) [Decidable c] (h : RegsOnly s t) (k : RegsOnly s u) :
    RegsOnly s (if c then t else u) := by split <;> assumption

/-- A counter, a flag and a CFG_ERR change registers alone. -/
theorem RegsOnly.count (r : RegName) (i ovf hi lo : Nat) (ev : Option Nat) (s : State) : RegsOnly s (count r i ovf hi lo ev s) := by
  unfold Machine.count
  have h1 : RegsOnly s (if s.f r i hi lo < 2 ^ (hi + 1 - lo) - 1 then s.setF r i hi lo (s.f r i hi lo + 1) else s) :=
    .ite _ (.setF ..) (.refl s)
  have h2 := RegsOnly.trans h1 (RegsOnly.ite (2 ^ (hi + 1 - lo) - 1 ≤ s.f r i hi lo + 1) (.setBit _ r i ovf true) (.refl _))
  cases ev with
  | none => exact h2
  | some e => exact .ite _ (.trans h2 (.raise _ e)) h2
theorem RegsOnly.flagEv (r : RegName) (i b e : Nat) (s : State) : RegsOnly s (flagEv r i b e s) :=
  .ite _ (.refl s) (.trans (.setBit ..) (.raise ..))
theorem RegsOnly.cfgErr (r : RegName) (i : Nat) (s : State) : RegsOnly s (cfgErr r i s) :=
  .ite _ (.setBit ..) (.trans (.setBit ..) (.raise ..))

/-- What a counter leaves as it was: every register but itself and the event's. -/
theorem reg_count (r q : RegName) (i j ovf hi lo : Nat) (ev : Option Nat) (s : State) (h : q ≠ r)
    (he : ev = none ∨ q ≠ .EVT_RAW_w) : (count r i ovf hi lo ev s).reg q j = s.reg q j := by
  unfold Machine.count
  have h1 : (if s.f r i hi lo < 2 ^ (hi + 1 - lo) - 1 then s.setF r i hi lo (s.f r i hi lo + 1) else s).reg q j = s.reg q j := by
    split
    · rw [reg_setF, if_neg (fun e => h e.1)]
    · rfl
  have h2 : ∀ t : State, (if 2 ^ (hi + 1 - lo) - 1 ≤ s.f r i hi lo + 1 then t.setBit r i ovf true else t).reg q j = t.reg q j := by
    intro t; split
    · rw [reg_setBit, if_neg (fun e => h e.1)]
    · rfl
  cases ev with
  | none => simp only [h2, h1]
  | some e =>
    have hq : q ≠ .EVT_RAW_w := by simpa using he
    simp only
    split
    · rw [reg_raise, if_neg (fun e => hq e.1), h2, h1]
    · rw [h2, h1]

end Sys2Proof.Machine
end

