-- ==== Sys2Proof/Laws/Access.lean ====
section
/-! SUPPORT. A write of a register that lands: what it does is the register's own action, in the state with the cluster's count of
quiet decisions restarted; a host master's answer and LAST follow. -/

namespace Sys2Proof.Machine

theorem wordOfBytes_bytesOfWord (v : Word) : wordOfBytes (bytesOfWord v) = v := by
  apply BitVec.eq_of_toNat_eq
  have h : v.toNat < 2 ^ 32 := v.isLt
  simp only [wordOfBytes, bytesOfWord, ofBytesLE, BitVec.toNat_ofNat]
  omega

theorem wholeWord_wordBytes (a : Nat) (v : Word) (h : a % 4 = 0) : wholeWord (wordBytes a v) = some (a, v) := by
  have e := wordOfBytes_bytesOfWord v
  unfold wordBytes bytesOfWord at *
  simp only [List.zipIdx_cons, List.zipIdx_nil, List.map_cons, List.map_nil, Nat.zero_add, Nat.add_zero, wholeWord] at *
  rw [if_pos (by simp [h]), e]

@[simp] theorem reg_touch (d : Nat) (s : State) (r : RegName) (i : Nat) : (touch d s).reg r i = s.reg r i := by
  unfold touch; split <;> rfl
@[simp] theorem f_touch (d : Nat) (s : State) (r : RegName) (i hi lo : Nat) : (touch d s).f r i hi lo = s.f r i hi lo := by
  unfold State.f; rw [reg_touch]
@[simp] theorem bit_touch (d : Nat) (s : State) (r : RegName) (i b : Nat) : (touch d s).bit r i b = s.bit r i b := by
  unfold State.bit; rw [reg_touch]

/-- A touched cluster's count restarts, and nothing else changes. -/
theorem touch_frame (d : Nat) (s : State) : ∃ q, touch d s = { s with pwr := { s.pwr with quiet := q } } := by
  unfold touch; split
  · exact ⟨_, rfl⟩
  · exact ⟨s.pwr.quiet, rfl⟩

theorem fenceClosed_touch (d : Nat) (s : State) : fenceClosed (touch d s) = fenceClosed s := by
  obtain ⟨q, h⟩ := touch_frame d s
  rw [h]; rfl

/-- A write that the fabric does not hold, and has not held, goes to its own address and leaves the held writes alone. -/
theorem unheld_parts (who : Initiator) (a : Nat) (v : Word) (d : Nat) (s : State) (h : unheld a s = true) :
    fabHolds (touch d s) a = false ∧ releasedAt (touch d s) (who, a, v) = a ∧ heldGone (who, a, v) (touch d s) = touch d s := by
  unfold unheld at h
  simp only [Bool.and_eq_true, Bool.not_eq_true'] at h
  obtain ⟨h1, h2⟩ := h
  have hn : (who, a, v) ∉ s.fab.held := fun hm => by
    have := List.any_eq_false.mp h2 _ hm
    simp at this
  obtain ⟨q, hq⟩ := touch_frame d s
  rw [hq]
  refine ⟨h1, ?_, ?_⟩
  · unfold releasedAt
    have : s.fab.held.contains (who, a, v) = false := by simpa using hn
    simp only [this, Bool.false_eq_true, if_false]
  · unfold heldGone
    simp only [List.erase_of_not_mem hn]; rfl

theorem region_addr (r : RegName) (i : Nat) (hi : i < (Reg.row r).count) :
    (regionOf (Reg.addr r i) = .regs ∨ regionOf (Reg.addr r i) = .aonRegs) ∧ inAltTable (Reg.addr r i) = false := by
  obtain ⟨_, h⟩ := addr_place r i hi
  unfold regionOf inAltTable
  rcases h with ⟨h1, h2⟩ | ⟨h1, h2⟩
  · refine ⟨.inl ?_, by simp; omega⟩
    simp only [show ¬ Reg.addr r i < 0x40000000 by omega, show Reg.addr r i < 0x44000000 by omega, if_true, if_false]
    iterate 19 rw [if_neg (by omega)]
  · refine ⟨.inr ?_, by simp; omega⟩
    iterate 24 rw [if_neg (by omega)]
    rw [if_pos (by omega)]

/-- A write of a register other than those of SEC_SVC is that register's own action (R438). -/
theorem regTake_plain (who : Initiator) (r : RegName) (i : Nat) (v : Word) (s : State) (h : svcReg r = false) :
    regTake who r i v s = regAct who r i v s := by
  unfold regTake; rw [h]; rfl

/-- With no write to make again, none is made. -/
theorem dmaReissues_none (s : State) (h : noneAgain s = true) : dmaReissues s = s := by
  unfold dmaReissues
  have e : s.dma.failed.filter (fun w => w.stage == .again || w.stage == .left) = [] := by
    apply List.filter_eq_nil_iff.mpr
    intro w hw hc
    have := List.all_eq_true.mp h w hw
    revert this hc
    cases w.stage <;> decide
  rw [e]; rfl

/-- What follows a write at an address: in the DMA block the writes that RESUME asks for (R356). -/
def settled (a : Nat) (t : State) : State := if 0x40070000 ≤ a ∧ a < 0x40080000 then dmaReissues t else t

theorem settled_none (a : Nat) (t : State) (h : noneAgain t = true) : settled a t = t := by
  unfold settled; split
  · exact dmaReissues_none t h
  · rfl

/-- Outside the DMA block a write is no more than what its target does. -/
theorem inDma_wordBytes (a : Nat) (v : Word) (h4 : a % 4 = 0) : inDma (wordBytes a v) = decide (0x40070000 ≤ a ∧ a < 0x40080000) := by
  unfold inDma wordBytes bytesOfWord
  simp only [List.zipIdx_cons, List.zipIdx_nil, List.map_cons, List.map_nil, Nat.zero_add, List.any_cons, List.any_nil, Bool.or_false]
  by_cases h : 0x40070000 ≤ a ∧ a < 0x40080000
  · simp [h]
  · simp only [h, decide_false, Bool.or_eq_false_iff, Bool.and_eq_false_iff, decide_eq_false_iff_not]
    omega

/-- An access that asks for no wake wakes nothing. -/
theorem accessWake_still (m : Initiator) (d : Nat) (s : State) (hd : domainOn s d = true) (h : still m d s = true) :
    accessWake m d s = s := by
  unfold still at h
  simp only [Bool.and_eq_true, Bool.not_eq_true', Bool.or_eq_true, Bool.and_eq_false_iff] at h
  obtain ⟨h1, h2⟩ := h
  have hw : hostWake m d s = s := by
    unfold hostWake
    rcases h2 with h2 | h2 | h2
    · have : (if d = 2 then [2] else [2, d]).filter (fun x => !domainOn s x) = [] := by
        split <;> simp [h2, hd]
      simp [this]
    · rw [if_neg (by rw [h2]; simp)]
    · rw [if_neg (by rw [h2]; simp)]
  unfold accessWake
  simp only [hw, h1, Bool.and_false, Bool.false_eq_true, if_false]

/-- A word written to a register whose domain is on, the boot fence open. -/
theorem busWriteWord_reg (who : Initiator) (r : RegName) (i : Nat) (v : Word) (s : State) (hi : i < (Reg.row r).count)
    (hd : domainOn s (domainAt (Reg.addr r i)) = true) (ht : tokFull who (Reg.addr r i) s = false)
    (hf : (fenceClosed s && fenced r i) = false) (hh : unheld (Reg.addr r i) s = true)
    (hs : still who (domainAt (Reg.addr r i)) s = true) :
    busWriteWord who (Reg.addr r i) v s =
      (.ok [], settled (Reg.addr r i) (regTake who r i v (touch (domainAt (Reg.addr r i)) s))) := by
  obtain ⟨h4, _⟩ := addr_place r i hi
  obtain ⟨hr, ha⟩ := region_addr r i hi
  have hl := lookup_addr r i hi
  have hw := wholeWord_wordBytes (Reg.addr r i) v h4
  have he : ∃ b t, wordBytes (Reg.addr r i) v = (Reg.addr r i, b) :: t := ⟨_, _, rfl⟩
  obtain ⟨b, t, he⟩ := he
  have tw : takesWrites (Reg.addr r i) = true := by
    unfold takesWrites regAt
    rcases hr with e | e <;> simp [e, hl]
  have wo : isWordOnly (regionOf (Reg.addr r i)) = true := by rcases hr with e | e <;> rw [e] <;> rfl
  have nb : (regionOf (Reg.addr r i) == Region.regs || regionOf (Reg.addr r i) == Region.aonRegs) = true := by
    rcases hr with e | e <;> rw [e] <;> rfl
  unfold busWriteWord busWrite
  rw [inDma_wordBytes _ _ h4]
  unfold busPut
  rw [he]
  simp only
  rw [← he]
  simp only [hw, tw, wo, nb, accessWake_still who _ s hd hs, hd, ht, Bool.not_true, Option.isNone_some, Bool.and_false, Bool.or_self, Bool.false_eq_true, if_false,
    if_true, Bool.false_and]
  have ww : ∀ t : State, (fenceClosed t && fenced r i) = false → wordWrite who (Reg.addr r i) v t = (true, regTake who r i v t) := by
    intro t ht
    have e : regsWrite who (Reg.addr r i) v t = regTake who r i v t := by
      unfold regsWrite
      simp only [ha, hl, Bool.false_eq_true, if_false]
      unfold fenced at ht
      unfold regWrite
      simp only [Bool.and_eq_false_iff, Bool.or_eq_false_iff, beq_eq_false_iff_ne, decide_eq_false_iff_not] at ht
      rcases ht with e | ⟨e1, e2⟩
      · simp [e]
      · have e3 : ¬ (r = .SYNTH_OUT_n_CFG ∧ i < 4) := by rintro ⟨a, b⟩; rcases e2 with e | e; exact e a; exact e b
        simp [e1, e3]
    unfold wordWrite
    rcases hr with e' | e' <;> simp only [e', e]
  obtain ⟨h1, h2, h3⟩ := unheld_parts who (Reg.addr r i) v (domainAt (Reg.addr r i)) s hh
  simp only [h1, h2, h3, Bool.false_eq_true, if_false]
  rw [ww _ (by rw [fenceClosed_touch]; exact hf)]
  unfold settled
  by_cases g : 0x40070000 ≤ Reg.addr r i ∧ Reg.addr r i < 0x40080000 <;> simp [g]

/-- What a host master is told: its response byte and LAST; the owner's lease starts anew (R453). -/
def answered (k : Fin 5) (code : Nat) (t : State) : State :=
  setAnswer k.val [(code, 0)] ((leaseRenew k.val t).setF .HOSTIF_MSTAT_m k.val 7 0 code)

/-- A host master is served: the next one in the round robin comes first (R21), and the owner's lease starts anew (R453). -/
def served (m : Initiator) (s : State) : State :=
  match m with
  | .host k => leaseRenew k.val (setHost { s.host with rr := (k.val + 1) % 5 } s)
  | _ => s

/-- A lease that starts anew is all that a renewal changes. -/
theorem leaseRenew_frame (m : Nat) (s : State) : ∃ e, leaseRenew m s = { s with host := { s.host with lease := e } } := by
  unfold leaseRenew; split
  · exact ⟨_, rfl⟩
  · exact ⟨s.host.lease, rfl⟩

theorem leaseRenew_setF (m k code : Nat) (s : State) :
    leaseRenew m (s.setF .HOSTIF_MSTAT_m k 7 0 code) = (leaseRenew m s).setF .HOSTIF_MSTAT_m k 7 0 code := by
  have e : ∀ r i, r ≠ .HOSTIF_MSTAT_m → (s.setF .HOSTIF_MSTAT_m k 7 0 code).reg r i = s.reg r i := fun r i h => by
    rw [reg_setF, if_neg (fun x => h x.1)]
  have o : isOwner (s.setF .HOSTIF_MSTAT_m k 7 0 code) m = isOwner s m := by
    unfold isOwner ownerValid ownerIdx State.bit State.f; rw [e _ _ (by decide)]
  unfold leaseRenew
  rw [o]
  unfold State.f
  rw [e _ _ (by decide)]
  split <;> rfl

def told (m : Initiator) (a : Nat) (v : Word) (s t : State) : State :=
  match m with
  | .host k => answered k (doneCode k.val a v s) t
  | _ => t

theorem doneCode_cases (m a : Nat) (v : Word) (s : State) : doneCode m a v s = 0x80 ∨ doneCode m a v s = 0x82 := by
  unfold doneCode; split
  · exact .inr rfl
  · split
    · exact .inr rfl
    · exact .inl rfl

theorem setLast_done (m code : Nat) (s : State) (h : code = 0x80 ∨ code = 0x82) :
    setLast m code s = s.setF .HOSTIF_MSTAT_m m 7 0 code := by
  unfold setLast; rcases h with rfl | rfl <;> rfl

/-- One write by a host master, when nothing stands in its way and its target takes it. -/
theorem hostTx_write (k : Fin 5) (a : Nat) (v : Word) (s t : State) (hu : up s = true) (hj : jtagOpen k.val a s = true) (h4 : a % 4 = 0)
    (hh : ¬ (sysState s = St.HALT ∧ a ≠ Reg.addr .AON_FAULT_CLR 0)) (ho : (!isOwner s k.val && !anyMaster k.val a) = false)
    (hx : credit k s = true) (bw : busWriteWord (.host k) a v (served (.host k) s) = (.ok [], t)) :
    hostTx k a true [v] 0 s = answered k (doneCode k.val a v s) t := by
  have hk : Fin.ofNat 5 k.val = k := by apply Fin.ext; simp [Fin.ofNat, Nat.mod_eq_of_lt k.isLt]
  obtain ⟨e0, he0⟩ : ∃ e, served (.host k) s = { s with host := { s.host with rr := (k.val + 1) % 5, lease := e } } := by
    obtain ⟨e, he⟩ := leaseRenew_frame k.val (setHost { s.host with rr := (k.val + 1) % 5 } s)
    exact ⟨e, he⟩
  have hw : hostWrite false k a v (served (.host k) s) = (some (doneCode k.val a v s), t) := by
    have hj' : jtagOpen k.val a (served (.host k) s) = true := by rw [he0]; exact hj
    have h1 : (!jtagOpen k.val a (served (.host k) s) || a % 4 != 0) = false := by rw [hj', h4]; rfl
    have h2 : ¬ (sysState (served (.host k) s) = St.HALT ∧ a ≠ Reg.addr .AON_FAULT_CLR 0 ∧
        (!(a == Reg.addr .SYS_STATE_REQ 0 && beaten (served (.host k) s) 6)) = true) := fun h => hh ⟨by rw [he0] at h; exact h.1, h.2.1⟩
    have h3 : (!false && !isOwner (served (.host k) s) k.val && !anyMaster k.val a) = false := by rw [he0]; exact ho
    unfold hostWrite
    rw [if_neg (by rw [h1]; exact Bool.false_ne_true), if_neg h2, if_neg (by rw [h3]; exact Bool.false_ne_true), bw]
    simp only
    rw [he0]; rfl
  unfold credit at hx
  simp only [Bool.and_eq_true, Bool.not_eq_true', decide_eq_true_eq] at hx
  obtain ⟨x1, x2⟩ := hx
  have hfull : ∀ x : HostTx, hostFull x s = false := by
    intro x; unfold hostFull
    rw [show decide (4 ≤ s.host.tx.countP (fun y => y.cred)) = false by simpa using x2]; rfl
  unfold hostTx
  simp only [hu, hj, Bool.and_self, if_true]
  unfold txSubmit
  have hlong : ∀ x : HostTx, x.data = [v] → txTooLong x = false := by intro x hx; unfold txTooLong; rw [hx]; simp
  simp only [x1, hfull, hlong, Bool.and_false, Bool.or_self, Bool.false_eq_true, if_false]
  unfold txRun
  simp only [if_true]
  have hw' : hostWrite false (Fin.ofNat 5 k.val) a v (leaseRenew k.val (setHost { s.host with rr := (k.val + 1) % 5 } s)) =
      (some (doneCode k.val a v s), t) := by
    rw [hk]; exact hw
  simp only [txWrites, hw', List.nil_append, answered]
  have hc := doneCode_cases k.val a v s
  generalize doneCode k.val a v s = code at hc
  have bc : burstCode [(code, (0 : Word))] = code := by rcases hc with rfl | rfl <;> rfl
  unfold txDone txNote
  by_cases h2 : k.val < 2
  · have n1 : ¬ (code = 129 ∨ code = 132) := by omega
    simp only [h2, decide_true, Bool.true_and, if_true, n1, if_false, bc, setLast_done _ _ _ hc]
  · simp only [h2, decide_false, Bool.false_and, Bool.false_eq_true, if_false, setLast_done _ _ _ hc, leaseRenew_setF]

/-- A write by an initiator that is no host master, when nothing stands in its way and its target takes it. -/
theorem plainAccess_lands (m : Initiator) (a : Nat) (v : Word) (s t : State) (hu : up s = true)
    (hm : (sysState s != St.HALT && !poolFull m s) = true) (bw : busWriteWord m a v s = (.ok [], t)) (hn : ∀ {k}, m ≠ .host k) :
    (if (!up s || !mayStart m s) = true then s else plainAccess ⟨m, a, some v⟩ s) = t := by
  simp only [Bool.and_eq_true, Bool.not_eq_true'] at hm
  have hs : mayStart m s = true := by
    cases m with
    | host k => exact absurd rfl hn
    | _ => exact hm.1
  simp only [hu, hs, Bool.not_true, Bool.or_self, Bool.false_eq_true, if_false, plainAccess, hm.2, bw]

/-- A write of a register that lands. -/
theorem rowWrite_lands (m : Initiator) (r : RegName) (i : Nat) (v : Word) (s : State) (h : lands m r i s = true) :
    rowWrite m r i v s =
      told m (Reg.addr r i) v s (settled (Reg.addr r i) (regTake m r i v (touch (domainAt (Reg.addr r i)) (served m s)))) := by
  unfold lands at h
  simp only [Bool.and_eq_true, Bool.not_eq_true', decide_eq_true_eq] at h
  obtain ⟨⟨⟨⟨⟨⟨⟨⟨hu, hf⟩, hi⟩, hd⟩, ht⟩, hq⟩, hs⟩, _⟩, hm⟩ := h
  have bw : busWriteWord m (Reg.addr r i) v (served m s) =
      (.ok [], settled (Reg.addr r i) (regTake m r i v (touch (domainAt (Reg.addr r i)) (served m s)))) := by
    cases m with
    | host k =>
      obtain ⟨e, he⟩ := leaseRenew_frame k.val (setHost { s.host with rr := (k.val + 1) % 5 } s)
      unfold served
      simp only
      rw [he]
      exact busWriteWord_reg (.host k) r i v _ hi hd ht hf hq hs
    | _ => exact busWriteWord_reg _ r i v s hi hd ht hf hq hs
  have hu' : up s = true := hu
  unfold rowWrite access
  cases m with
  | host k =>
    simp only [hu', mayStart, Bool.not_true, Bool.or_self, Bool.false_eq_true, if_false]
    simp only [Bool.and_eq_true, Bool.or_eq_true, bne_iff_ne, ne_eq, beq_iff_eq] at hm
    obtain ⟨⟨⟨hj, hh⟩, ho⟩, hx⟩ := hm
    exact hostTx_write k (Reg.addr r i) v s _ hu' hj (addr_place r i hi).1 (fun h => hh.elim (fun e => e h.1) h.2)
      (by rcases ho with e | e <;> simp [e]) hx bw
  | core c => exact plainAccess_lands _ _ _ _ _ hu' hm bw (fun e => nomatch e)
  | dma n => exact plainAccess_lands _ _ _ _ _ hu' hm bw (fun e => nomatch e)
  | stroke n => exact plainAccess_lands _ _ _ _ _ hu' hm bw (fun e => nomatch e)
  | sec => exact plainAccess_lands _ _ _ _ _ hu' hm bw (fun e => nomatch e)
  | rom => exact plainAccess_lands _ _ _ _ _ hu' hm bw (fun e => nomatch e)

/-- A write of a word of a memory that takes whole words. -/
theorem busWriteWord_word (who : Initiator) (a : Nat) (v : Word) (s : State) (tw : takesWrites a = true)
    (hw : isWordOnly (regionOf a) = true)
    (hr : (regionOf a == Region.regs || regionOf a == Region.aonRegs) = false) (h4 : a % 4 = 0) (hb : barred who a 4 s = false)
    (hd : domainOn s (domainAt a) = true) (hh : unheld a s = true) (hs : still who (domainAt a) s = true) :
    busWriteWord who a v s =
      (if (wordWrite who a v (touch (domainAt a) s)).1 then .ok [] else .err, (wordWrite who a v (touch (domainAt a) s)).2) := by
  have tf : tokFull who a s = false := by
    have h : Reg.addr .SCHED_HOST_TOK_PUSH 0 = 0x40060064 := by decide
    unfold tokFull
    rw [h]
    simp only [Bool.and_eq_false_iff, beq_eq_false_iff_ne]
    left; right
    rintro rfl
    exact absurd hr (by decide)
  have nd : ¬ (0x40070000 ≤ a ∧ a < 0x40080000) := by
    rintro ⟨h1, h2⟩
    have e : regionOf a = .regs := by
      unfold regionOf
      simp only [show ¬ a < 0x40000000 by omega, show a < 0x44000000 by omega, if_true, if_false]
      iterate 19 rw [if_neg (by omega)]
    rw [e] at hr; exact absurd hr (by decide)
  have ww := wholeWord_wordBytes a v h4
  obtain ⟨b, t, he, hlen⟩ : ∃ b t, wordBytes a v = (a, b) :: t ∧ (wordBytes a v).length = 4 := ⟨_, _, rfl, rfl⟩
  unfold busWriteWord busWrite
  rw [inDma_wordBytes _ _ h4, decide_eq_false nd]
  unfold busPut
  rw [he]
  simp only
  rw [← he]
  obtain ⟨h1, h2, h3⟩ := unheld_parts who a v (domainAt a) s hh
  simp only [accessWake_still who _ s hd hs, ww, tw, hw, hr, hlen, hb, hd, tf, Bool.not_true, Option.isNone_some, Bool.and_false, Bool.or_self, Bool.false_eq_true,
    if_false, if_true, Bool.not_false, h1, h2, h3]

/-- A write of a word of memory that lands, and that its memory takes. -/
theorem access_lands (m : Initiator) (a : Nat) (v : Word) (s : State) (h : landsAt m a s = true)
    (hg : (wordWrite m a v (touch (domainAt a) (served m s))).1 = true) :
    access m a v s = told m a v s (wordWrite m a v (touch (domainAt a) (served m s))).2 := by
  unfold landsAt at h
  simp only [Bool.and_eq_true, Bool.not_eq_true', decide_eq_true_eq] at h
  obtain ⟨⟨⟨⟨⟨⟨⟨⟨⟨hu, htw⟩, hwo⟩, hr⟩, h4⟩, hb⟩, hd⟩, hq⟩, hs⟩, hm⟩ := h
  have bw : busWriteWord m a v (served m s) = (.ok [], (wordWrite m a v (touch (domainAt a) (served m s))).2) := by
    have e : busWriteWord m a v (served m s) = (if (wordWrite m a v (touch (domainAt a) (served m s))).1 then .ok [] else .err,
        (wordWrite m a v (touch (domainAt a) (served m s))).2) := by
      cases m with
      | host k =>
        obtain ⟨e, he⟩ := leaseRenew_frame k.val (setHost { s.host with rr := (k.val + 1) % 5 } s)
        have hb' : barred (.host k) a 4 { s with host := { s.host with rr := (k.val + 1) % 5, lease := e } } = false := hb
        have hq' : unheld a { s with host := { s.host with rr := (k.val + 1) % 5, lease := e } } = true := hq
        have hs' : still (.host k) (domainAt a) { s with host := { s.host with rr := (k.val + 1) % 5, lease := e } } = true := hs
        have hd' : domainOn { s with host := { s.host with rr := (k.val + 1) % 5, lease := e } } (domainAt a) = true := hd
        have w := busWriteWord_word (.host k) a v _ htw hwo hr h4 hb' hd' hq' hs'
        simp only [setHost] at he
        rwa [← he] at w
      | _ => exact busWriteWord_word _ a v s htw hwo hr h4 hb hd hq hs
    rw [e, hg, if_pos rfl]
  have hu' : up s = true := hu
  unfold access
  cases m with
  | host k =>
    simp only [hu', mayStart, Bool.not_true, Bool.or_self, Bool.false_eq_true, if_false]
    simp only [Bool.and_eq_true, bne_iff_ne, ne_eq] at hm
    obtain ⟨⟨⟨hj, hh⟩, ho⟩, hx⟩ := hm
    exact hostTx_write k a v s _ hu' hj h4 (fun h => hh h.1) (by rw [ho]; rfl) hx bw
  | core c => exact plainAccess_lands _ _ _ _ _ hu' hm bw (fun e => nomatch e)
  | dma n => exact plainAccess_lands _ _ _ _ _ hu' hm bw (fun e => nomatch e)
  | stroke n => exact plainAccess_lands _ _ _ _ _ hu' hm bw (fun e => nomatch e)
  | sec => exact plainAccess_lands _ _ _ _ _ hu' hm bw (fun e => nomatch e)
  | rom => exact plainAccess_lands _ _ _ _ _ hu' hm bw (fun e => nomatch e)

/-- What the answer leaves unchanged: every register but HOSTIF_MSTAT of that master, and every field but the answers and the lease. -/
theorem told_frame (m : Initiator) (a : Nat) (v : Word) (s t : State) :
    ∃ A L R, told m a v s t = { t with regs := R, host := { t.host with answer := A, lease := L } } ∧
      ∀ r i, r ≠ .HOSTIF_MSTAT_m → (told m a v s t).reg r i = t.reg r i := by
  unfold told
  cases m with
  | host k =>
    obtain ⟨e, he⟩ := leaseRenew_frame k.val t
    unfold answered
    simp only
    rw [he]
    refine ⟨_, _, _, rfl, fun r i hr => ?_⟩
    change (State.setF { t with host := { t.host with lease := e } } .HOSTIF_MSTAT_m k.val 7 0 _).reg r i = _
    rw [reg_setF, if_neg (fun e => hr e.1)]; rfl
  | _ => exact ⟨t.host.answer, t.host.lease, t.regs, rfl, fun _ _ _ => rfl⟩

theorem reg_told (m : Initiator) (a : Nat) (v : Word) (s t : State) (r : RegName) (i : Nat) (h : r ≠ .HOSTIF_MSTAT_m) :
    (told m a v s t).reg r i = t.reg r i := by
  obtain ⟨_, _, _, _, e⟩ := told_frame m a v s t
  exact e r i h

theorem accessed_refl (u : State) : accessed u u := ⟨rfl, fun _ _ _ => rfl⟩

/-- The state of a register's action: s with the count of quiet decisions restarted, the next master of the host channel and the lease. -/
theorem touch_served (m : Initiator) (d : Nat) (s : State) :
    ∃ q n e, touch d (served m s) = { s with pwr := { s.pwr with quiet := q }, host := { s.host with rr := n, lease := e } } := by
  obtain ⟨q, hq⟩ := touch_frame d (served m s)
  rw [hq]
  cases m with
  | host k =>
    obtain ⟨e, he⟩ := leaseRenew_frame k.val (setHost { s.host with rr := (k.val + 1) % 5 } s)
    unfold served
    simp only
    rw [he]
    exact ⟨q, _, e, rfl⟩
  | _ => exact ⟨q, s.host.rr, s.host.lease, rfl⟩

/-- A command that writes a register does what the register's action does, whatever the counts of quiet decisions, the next master of
the host channel and the lease are. -/
theorem does_of (c : Instr) (m : Initiator) (r : RegName) (i : Nat) (v : Word) (s u : State)
    (hc : exec c s = .next (rowWrite m r i v s))
    (hu : ∀ q n e, accessed u (settled (Reg.addr r i)
      (regTake m r i v { s with pwr := { s.pwr with quiet := q }, host := { s.host with rr := n, lease := e } }))) :
    does c m r i s u := by
  intro hl
  refine ⟨_, hc, ?_⟩
  rw [rowWrite_lands m r i v s hl]
  obtain ⟨q, n, e, hq⟩ := touch_served m (domainAt (Reg.addr r i)) s
  obtain ⟨A, L, R, he, hr⟩ := told_frame m (Reg.addr r i) v s
    (settled (Reg.addr r i) (regTake m r i v (touch (domainAt (Reg.addr r i)) (served m s))))
  rw [hq] at he hr ⊢
  obtain ⟨h1, h2⟩ := hu q n e
  rw [he] at hr ⊢
  constructor
  · conv => lhs; rw [h1]
  · intro r' i' h'
    rw [hr r' i' h', h2 r' i' h']

end Sys2Proof.Machine
end

