-- ==== Sys2Proof/Laws/Hart.lean ====
section
/-! SUPPORT. Registers of the cores and lanes: what a read gives after a write of a data register, an accumulator, STAT, a
generator state, or a program counter. -/

namespace Sys2Proof.Machine

theorem getPhys_setPhys (s : State) (h n k m : Nat) (v : Word) (hn : n < 64) (hm : m < 64) :
    getPhys (setPhys h n v s) k m = if k = h ∧ m = n then v else getPhys s k m := by
  simp only [getPhys, setPhys, Store.get_set]
  by_cases e : k = h ∧ m = n
  · obtain ⟨rfl, rfl⟩ := e; simp
  · rw [if_neg (by omega), if_neg e]

@[simp] theorem getPhys_setStat (s : State) (h k m : Nat) (v : Word) : getPhys (setStat h v s) k m = getPhys s k m := rfl
@[simp] theorem getPhys_setAcc (s : State) (h x k m : Nat) (v : Int) : getPhys (setAcc h x v s) k m = getPhys s k m := rfl
@[simp] theorem getPhys_setDice (s : State) (h v k m : Nat) : getPhys (setDice h v s) k m = getPhys s k m := rfl
@[simp] theorem getPhys_putFlags (s : State) (h k m : Nat) (f : Flg) : getPhys (putFlags h f s) k m = getPhys s k m := rfl
@[simp] theorem getStat_setPhys (s : State) (h n k : Nat) (v : Word) : getStat (setPhys h n v s) k = getStat s k := rfl
@[simp] theorem getStat_setAcc (s : State) (h x k : Nat) (v : Int) : getStat (setAcc h x v s) k = getStat s k := rfl
@[simp] theorem getStat_setDice (s : State) (h v k : Nat) : getStat (setDice h v s) k = getStat s k := rfl
@[simp] theorem getAcc_setPhys (s : State) (h n k x : Nat) (v : Word) : getAcc (setPhys h n v s) k x = getAcc s k x := rfl
@[simp] theorem getAcc_setStat (s : State) (h k x : Nat) (v : Word) : getAcc (setStat h v s) k x = getAcc s k x := rfl
@[simp] theorem getAcc_setDice (s : State) (h v k x : Nat) : getAcc (setDice h v s) k x = getAcc s k x := rfl
@[simp] theorem getAcc_putFlags (s : State) (h k x : Nat) (f : Flg) : getAcc (putFlags h f s) k x = getAcc s k x := rfl
@[simp] theorem getDice_setPhys (s : State) (h n k : Nat) (v : Word) : getDice (setPhys h n v s) k = getDice s k := rfl
@[simp] theorem getDice_setStat (s : State) (h k : Nat) (v : Word) : getDice (setStat h v s) k = getDice s k := rfl
@[simp] theorem getDice_setAcc (s : State) (h x k : Nat) (v : Int) : getDice (setAcc h x v s) k = getDice s k := rfl
@[simp] theorem getDice_putFlags (s : State) (h k : Nat) (f : Flg) : getDice (putFlags h f s) k = getDice s k := rfl

theorem getStat_setStat (s : State) (h k : Nat) (v : Word) : getStat (setStat h v s) k = if k = h then v else getStat s k := by
  simp only [getStat, setStat, Store.get_set]

theorem getStat_putFlags (s : State) (h k : Nat) (f : Flg) :
    getStat (putFlags h f s) k = if k = h then statWith (getStat s h) f else getStat s k := getStat_setStat ..

theorem getAcc_setAcc (s : State) (h k x y : Nat) (v : Int) (hx : x < 4) (hy : y < 4) :
    getAcc (setAcc h x v s) k y = if k = h ∧ y = x then (BitVec.ofInt 56 v).toInt else getAcc s k y := by
  simp only [getAcc, setAcc, Store.get_set]
  by_cases e : k = h ∧ y = x
  · obtain ⟨rfl, rfl⟩ := e; simp
  · rw [if_neg (by omega), if_neg e]

theorem getDice_setDice (s : State) (h k v : Nat) :
    getDice (setDice h v s) k = if k = h then (if v % 2 ^ 24 = 0 then 1 else v % 2 ^ 24) else getDice s k := by
  simp only [getDice, setDice, Store.get_set]
  by_cases e : k = h
  · subst e; simp only [if_true]; split <;> simp
  · simp [e]

theorem getPc_setPc (s : State) (c k : Nat) (v : Word) : getPc (setPc c v s) k = if k = c then v else getPc s k := by
  simp only [getPc, setPc, Store.get_set]

@[simp] theorem getRrb_setPc (s : State) (c k : Nat) (v : Word) : getRrb (setPc c v s) k = getRrb s k := rfl

/-- A register's stored number stays below 64 for a register field. -/
theorem physIdx_lt (rrb g : Nat) : physIdx rrb g < 64 := by unfold physIdx; split <;> omega

/-- Two register fields of a core name one stored register only if they are the same field (R72). -/
theorem physIdx_inj (rrb g k : Nat) (hg : g < 32) (hk : k < 32) (h : physIdx rrb g = physIdx rrb k) : g = k := by
  unfold physIdx at h; split at h <;> split at h <;> omega

/-- A write is read back. -/
theorem readReg_writeReg_same (s : State) (h r v : Nat) (hr : r < 32) (hw : legalWrite h r = true) :
    readReg (writeReg h r v s) h r = heldIn h r v := by
  unfold legalWrite at hw
  unfold readReg writeReg heldIn
  by_cases hh : h < 16
  · simp only [hh, if_true]
    by_cases h0 : r = 0
    · simp [h0]
    · simp only [h0, if_false]
      have : ∀ t : State, getPhys { s with hart := t.hart, core := t.core } = getPhys t := fun _ => rfl
      change (getPhys (setPhys h (physIdx (getRrb s h) r) (BitVec.ofNat 32 v) s) h (physIdx (getRrb s h) r)).toNat = _
      rw [getPhys_setPhys _ _ _ _ _ _ (physIdx_lt _ _) (physIdx_lt _ _)]; simp
  · simp only [hh, if_false, decide_false, Bool.false_or, Bool.or_eq_true, decide_eq_true_eq, beq_iff_eq] at hw ⊢
    by_cases h7 : r ≤ 7
    · have h11 : r ≤ 11 := by omega
      simp only [h7, h11, if_true]
      rw [getPhys_setPhys _ _ _ _ _ _ (by omega) (by omega)]; simp; omega
    · by_cases h11 : r ≤ 11
      · simp only [h7, h11, if_true, if_false]
        rw [getPhys_setPhys _ _ _ _ _ _ (by omega) (by omega)]; simp; omega
      · have : r = 14 := by omega
        subst this; simp

/-- No other register of any hart is touched by a write. -/
theorem readReg_writeReg_ne (s : State) (h r v k q : Nat) (hr : r < 32) (hq : q < 32) (hne : ¬ (k = h ∧ q = r)) :
    readReg (writeReg h r v s) k q = readReg s k q := by
  have core : h < 16 → r ≠ 0 → ∀ n < 64, ¬ (k = h ∧ n = physIdx (getRrb s h) r) →
      getPhys (writeReg h r v s) k n = getPhys s k n := by
    intro hh h0 n hn e
    unfold writeReg
    simp only [hh, h0, if_true, if_false]
    change getPhys (setPhys h (physIdx (getRrb s h) r) (BitVec.ofNat 32 v) s) k n = _
    rw [getPhys_setPhys _ _ _ _ _ _ (physIdx_lt _ _) hn, if_neg e]
  have rr : getRrb (writeReg h r v s) = getRrb s := by unfold writeReg; split <;> (try split) <;> (try split) <;> rfl
  have ff : ∀ i hi lo, (writeReg h r v s).f .ENG_DB i hi lo = s.f .ENG_DB i hi lo := by
    intro i hi lo; unfold writeReg; split <;> (try split) <;> (try split) <;> rfl
  by_cases hh : h < 16
  · by_cases h0 : r = 0
    · unfold writeReg; simp [hh, h0]
    · unfold readReg
      by_cases hk : k < 16
      · simp only [hk, if_true, rr]
        split
        · rfl
        · rw [core hh h0 _ (physIdx_lt _ _)]
          rintro ⟨rfl, e⟩
          exact hne ⟨rfl, physIdx_inj _ _ _ hq hr e⟩
      · simp only [hk, if_false, ff]
        split
        · rw [core hh h0 _ (by omega)]; rintro ⟨rfl, _⟩; omega
        · rfl
  · have p : ∀ n < 64, ¬ (k = h ∧ n = r) → getPhys (writeReg h r v s) k n = getPhys s k n := by
      intro n hn e
      unfold writeReg
      simp only [hh, if_false]
      split
      · rw [getPhys_setPhys _ _ _ _ _ _ (by omega) hn, if_neg e]
      · split
        · rw [getPhys_setPhys _ _ _ _ _ _ (by omega) hn, if_neg e]
        · rfl
    unfold readReg
    by_cases hk : k < 16
    · simp only [hk, if_true, rr]
      split
      · rfl
      · rw [p _ (physIdx_lt _ _)]; rintro ⟨rfl, _⟩; omega
    · simp only [hk, if_false, ff]
      split
      · rw [p _ (by omega) hne]
      · rfl

/-- A register write touches data registers and pending loads alone. -/
theorem writeReg_frame (s : State) (h r v : Nat) :
    writeReg h r v s = { s with hart := { s.hart with r := (writeReg h r v s).hart.r },
                                core := { s.core with pend := (writeReg h r v s).core.pend } } := by
  unfold writeReg; split <;> (try split) <;> (try split) <;> rfl

@[simp] theorem getStat_writeReg (s : State) (h r v k : Nat) : getStat (writeReg h r v s) k = getStat s k := by
  rw [writeReg_frame]; rfl
@[simp] theorem getAcc_writeReg (s : State) (h r v k x : Nat) : getAcc (writeReg h r v s) k x = getAcc s k x := by
  rw [writeReg_frame]; rfl
@[simp] theorem getDice_writeReg (s : State) (h r v k : Nat) : getDice (writeReg h r v s) k = getDice s k := by
  rw [writeReg_frame]; rfl
@[simp] theorem getPc_writeReg (s : State) (h r v k : Nat) : getPc (writeReg h r v s) k = getPc s k := by
  rw [writeReg_frame]; rfl
@[simp] theorem reg_writeReg (s : State) (h r v : Nat) (q : RegName) (j : Nat) : (writeReg h r v s).reg q j = s.reg q j := by
  rw [writeReg_frame]; rfl

/-- STAT, the accumulators, the generators and the pc of a core stand outside its data registers. -/
@[simp] theorem readReg_setStat (s : State) (h k q : Nat) (v : Word) : readReg (setStat h v s) k q = readReg s k q := rfl
@[simp] theorem readReg_putFlags (s : State) (h k q : Nat) (f : Flg) : readReg (putFlags h f s) k q = readReg s k q := rfl
@[simp] theorem readReg_setAcc (s : State) (h x k q : Nat) (v : Int) : readReg (setAcc h x v s) k q = readReg s k q := rfl
@[simp] theorem readReg_setDice (s : State) (h v k q : Nat) : readReg (setDice h v s) k q = readReg s k q := rfl
@[simp] theorem readReg_setPc (s : State) (c k q : Nat) (v : Word) : readReg (setPc c v s) k q = readReg s k q := rfl
@[simp] theorem getStat_setPc (s : State) (c k : Nat) (v : Word) : getStat (setPc c v s) k = getStat s k := rfl
@[simp] theorem getAcc_setPc (s : State) (c k x : Nat) (v : Word) : getAcc (setPc c v s) k x = getAcc s k x := rfl
@[simp] theorem getDice_setPc (s : State) (c k : Nat) (v : Word) : getDice (setPc c v s) k = getDice s k := rfl

end Sys2Proof.Machine
end

