-- ==== Sys2Proof/Laws/Words.lean ====
section
/-! SUPPORT. Words on registers alone: what a core's or an engine's word does when it issues, from what its operation does to one
hart. -/

namespace Sys2Proof.Machine

/-- What an operation does to one hart: registers, then, where on, flags, then accumulator and generator. -/
def applyPut (h : Nat) (p : HartPut) (on : Bool) (t : State) : State :=
  let t := p.regs.foldl (fun t e => writeReg h e.1 e.2 t) t
  let t := if on then putFlags h p.flg t else t
  let t := match p.acc with | some (x, v) => setAcc h x v t | none => t
  match p.dice with | some v => setDice h v t | none => t

/-- A word with no new flag keeps STAT. -/
@[simp] theorem statWith_none (w : Word) : statWith w {} = w := rfl

/-- Two's complement at 56 bits, in both spellings. -/
theorem toInt_ofInt56 (v : Int) : (BitVec.ofInt 56 v).toInt = wrapI 56 v := by
  rw [BitVec.toInt_ofInt, Int.bmod_def, wrapI, sxN, toU]
  have hp : (0 : Int) < ((2 ^ 56 : Nat) : Int) := by norm_num
  have h0 := Int.emod_nonneg v (Int.ne_of_gt hp)
  have h1 := Int.emod_lt_of_pos v hp
  norm_num at h0 h1 ⊢
  split <;> split <;> omega

theorem writes_read (h : Nat) (l : List (Nat × Nat)) (s : State) (k : Nat) (r : Fin 32)
    (hl : ∀ e ∈ l, e.1 < 32 ∧ legalWrite h e.1 = true) :
    readReg (l.foldl (fun t e => writeReg h e.1 e.2 t) s) k r =
      if k = h then HartPut.regAfter { regs := l } h r (readReg s k r) else readReg s k r := by
  induction l using List.reverseRecOn with
  | nil => simp [HartPut.regAfter]
  | append_singleton t e ih =>
    have he := hl e (by simp)
    rw [List.foldl_append]
    simp only [HartPut.regAfter, List.foldl_cons, List.foldl_nil, List.reverse_append, List.reverse_cons, List.reverse_nil,
      List.nil_append, List.singleton_append, List.find?_cons] at ih ⊢
    by_cases hc : k = h ∧ r.val = e.1
    · obtain ⟨rfl, hr⟩ := hc
      have hb : (e.1 == r.val) = true := by simp [hr]
      rw [hb, if_pos rfl]
      simp only
      have := readReg_writeReg_same (t.foldl (fun t e => writeReg k e.1 e.2 t) s) k e.1 e.2 he.1 he.2
      rw [← hr] at this ⊢; exact this
    · rw [readReg_writeReg_ne _ _ _ _ _ _ he.1 r.isLt hc, ih (fun e he => hl e (by simp [he]))]
      by_cases hk : k = h
      · have : (e.1 == r.val) = false := by
          have : ¬ e.1 = r.val := fun q => hc ⟨hk, q.symm⟩
          simpa using this
        rw [this]
      · simp [hk]

theorem writes_frame (h : Nat) (l : List (Nat × Nat)) (s : State) :
    l.foldl (fun t e => writeReg h e.1 e.2 t) s =
      { s with hart := { s.hart with r := (l.foldl (fun t e => writeReg h e.1 e.2 t) s).hart.r },
               core := { s.core with pend := (l.foldl (fun t e => writeReg h e.1 e.2 t) s).core.pend } } := by
  induction l generalizing s with
  | nil => rfl
  | cons e t ih => rw [List.foldl_cons, ih, writeReg_frame]

theorem writes_stat (h : Nat) (l : List (Nat × Nat)) (s : State) (k : Nat) :
    getStat (l.foldl (fun t e => writeReg h e.1 e.2 t) s) k = getStat s k := by rw [writes_frame]; rfl
theorem writes_acc (h : Nat) (l : List (Nat × Nat)) (s : State) (k x : Nat) :
    getAcc (l.foldl (fun t e => writeReg h e.1 e.2 t) s) k x = getAcc s k x := by rw [writes_frame]; rfl
theorem writes_dice (h : Nat) (l : List (Nat × Nat)) (s : State) (k : Nat) :
    getDice (l.foldl (fun t e => writeReg h e.1 e.2 t) s) k = getDice s k := by rw [writes_frame]; rfl

/-- What one hart's part of a word leaves unchanged. -/
theorem applyPut_frame (h : Nat) (p : HartPut) (on : Bool) (s : State) :
    applyPut h p on s = { s with hart := (applyPut h p on s).hart, core := { s.core with pend := (applyPut h p on s).core.pend } } := by
  unfold applyPut
  simp only
  rw [writes_frame]
  cases on <;> rcases p with ⟨_, _, _ | ⟨x, v⟩, _ | d⟩ <;> rfl

/-- A put that changes no flag, or switches its flags on. -/
def putOk (h : Nat) (p : HartPut) (on : Bool) : Prop :=
  (∀ e ∈ p.regs, e.1 < 32 ∧ legalWrite h e.1 = true) ∧ (on = false → p.flg = {}) ∧ (∀ x v, p.acc = some (x, v) → x < 4)

theorem applyPut_reg (h : Nat) (p : HartPut) (on : Bool) (s : State) (ok : putOk h p on) (k : Nat) (r : Fin 32) :
    readReg (applyPut h p on s) k r = if k = h then p.regAfter h r (readReg s k r) else readReg s k r := by
  have e := writes_read h p.regs s k r ok.1
  have e' : HartPut.regAfter { regs := p.regs } h r (readReg s k r) = p.regAfter h r (readReg s k r) := rfl
  rw [← e', ← e]
  unfold applyPut
  cases on <;> rcases p with ⟨_, _, _ | ⟨x, v⟩, _ | d⟩ <;> simp

theorem applyPut_stat (h : Nat) (p : HartPut) (on : Bool) (s : State) (ok : putOk h p on) (k : Nat) :
    getStat (applyPut h p on s) k = if k = h then statWith (getStat s h) p.flg else getStat s k := by
  obtain ⟨_, h2, _⟩ := ok
  unfold applyPut
  cases on
  · rcases p with ⟨_, f, _ | ⟨x, v⟩, _ | d⟩ <;> simp only [Bool.false_eq_true, if_false] at h2 ⊢ <;>
      simp only [h2 trivial, getStat_setAcc, getStat_setDice, writes_stat, statWith_none] <;> split <;> simp_all
  · rcases p with ⟨_, f, _ | ⟨x, v⟩, _ | d⟩ <;>
      simp only [if_true, getStat_setAcc, getStat_setDice, getStat_putFlags, writes_stat]

theorem applyPut_acc (h : Nat) (p : HartPut) (on : Bool) (s : State) (ok : putOk h p on) (k : Nat) (x : Fin 4) :
    getAcc (applyPut h p on s) k x = if k = h then p.accAfter x (getAcc s k x) else getAcc s k x := by
  obtain ⟨_, _, h3⟩ := ok
  unfold applyPut HartPut.accAfter
  cases on <;> rcases p with ⟨_, f, _ | ⟨y, v⟩, _ | d⟩ <;>
    simp only [if_true, if_false, getAcc_setDice, getAcc_putFlags, writes_acc, Bool.false_eq_true, ite_self] <;>
    rw [getAcc_setAcc _ _ _ _ _ _ (h3 y v rfl) x.isLt, toInt_ofInt56] <;>
    by_cases e : k = h <;> by_cases e' : x.val = y <;> simp [e, e', writes_acc]

theorem applyPut_dice (h : Nat) (p : HartPut) (on : Bool) (s : State) (k : Nat) :
    getDice (applyPut h p on s) k = if k = h then p.diceAfter (getDice s k) else getDice s k := by
  unfold applyPut HartPut.diceAfter
  cases on <;> rcases p with ⟨_, f, _ | ⟨y, v⟩, _ | d⟩ <;>
    simp only [if_true, if_false, getDice_setDice, getDice_setAcc, getDice_putFlags, writes_dice, Bool.false_eq_true, ite_self]

/-- The puts of several harts, each by its own hart's put. -/
def putAll (hs : List Nat) (P : Nat → HartPut) (on : Nat → Bool) (s : State) : State :=
  hs.foldl (fun t h => applyPut h (P h) (on h) t) s

/-- Lanes' puts touch the registers of harts alone. -/
theorem putAll_lanes (hs : List Nat) (P : Nat → HartPut) (on : Nat → Bool) (s : State) (hl : ∀ h ∈ hs, 16 ≤ h) :
    ∃ H, putAll hs P on s = { s with hart := H } := by
  induction hs generalizing s with
  | nil => exact ⟨s.hart, rfl⟩
  | cons a l ih =>
    have ha : ¬ a < 16 := by have := hl a (by simp); omega
    have wr : ∀ (l : List (Nat × Nat)) (t : State), ∃ H, l.foldl (fun t e => writeReg a e.1 e.2 t) t = { t with hart := H } := by
      intro l
      induction l with
      | nil => exact fun t => ⟨t.hart, rfl⟩
      | cons e l ih2 =>
        intro t
        rw [List.foldl_cons]
        obtain ⟨H, hH⟩ := ih2 (writeReg a e.1 e.2 t)
        rw [hH]
        unfold writeReg
        simp only [ha, if_false]
        split
        · exact ⟨H, rfl⟩
        · split <;> exact ⟨H, rfl⟩
    have ap : ∃ H, applyPut a (P a) (on a) s = { s with hart := H } := by
      obtain ⟨H, hH⟩ := wr (P a).regs s
      unfold applyPut
      simp only [hH]
      rcases P a with ⟨_, f, _ | ⟨y, v⟩, _ | d⟩ <;> cases on a <;> exact ⟨_, rfl⟩
    obtain ⟨H, hH⟩ := ap
    have e : putAll (a :: l) P on s = putAll l P on (applyPut a (P a) (on a) s) := rfl
    rw [e, hH]
    obtain ⟨H', hH'⟩ := ih { s with hart := H } (fun h hm => hl h (by simp [hm]))
    exact ⟨H', hH'⟩

/-- The registers, STAT, accumulators and generators after the puts of distinct harts. -/
theorem putAll_parts (hs : List Nat) (nd : hs.Nodup) (P : Nat → HartPut) (on : Nat → Bool) (s : State)
    (ok : ∀ h ∈ hs, putOk h (P h) (on h)) :
    (∀ (h : Nat) (r : Fin 32), readReg (putAll hs P on s) h r =
      if h ∈ hs then (P h).regAfter h r (readReg s h r) else readReg s h r) ∧
    (∀ h, getStat (putAll hs P on s) h = if h ∈ hs then statWith (getStat s h) (P h).flg else getStat s h) ∧
    (∀ (h : Nat) (x : Fin 4), getAcc (putAll hs P on s) h x =
      if h ∈ hs then (P h).accAfter x (getAcc s h x) else getAcc s h x) ∧
    (∀ h, getDice (putAll hs P on s) h = if h ∈ hs then (P h).diceAfter (getDice s h) else getDice s h) := by
  induction hs generalizing s with
  | nil => simp [putAll]
  | cons a t ih =>
    have e : putAll (a :: t) P on s = putAll t P on (applyPut a (P a) (on a) s) := rfl
    obtain ⟨ha, ht⟩ := List.nodup_cons.mp nd
    obtain ⟨i1, i2, i3, i4⟩ := ih ht (applyPut a (P a) (on a) s) (fun h hh => ok h (by simp [hh]))
    have oa := ok a (by simp)
    rw [e]
    refine ⟨fun h r => ?_, fun h => ?_, fun h x => ?_, fun h => ?_⟩
    · rw [i1, applyPut_reg _ _ _ _ oa]
      by_cases hh : h = a
      · subst hh; simp [ha]
      · simp [hh]
    · rw [i2, applyPut_stat _ _ _ _ oa]
      by_cases hh : h = a
      · subst hh; simp [ha]
      · simp [hh]
    · rw [i3, applyPut_acc _ _ _ _ oa]
      by_cases hh : h = a
      · subst hh; simp [ha]
      · simp [hh]
    · rw [i4, applyPut_dice]
      by_cases hh : h = a
      · subst hh; simp [ha]
      · simp [hh]

/-! Words. -/

/-- A core's word on registers alone, when it issues. -/
theorem coreWord_plain (c : Fin 16) (op : Op) (s : State) (hr : coreReady c op.srcs s = true) (hl : op.legal c = true)
    (hc : op.cacc s c = none) : coreWord c [op] s = op.fx s c (setPc c (getPc s c + 4) s) := by
  simp only [coreReady, Bool.and_eq_true, Bool.not_eq_true', List.all_eq_true] at hr
  obtain ⟨⟨⟨h1, h2⟩, h3⟩, h4⟩ := hr
  have h5 : ([op].any fun o => o.srcs.any fun r => regPending s c r) = false := by
    simp only [List.any_cons, List.any_nil, Bool.or_false, List.any_eq_false]
    intro r hr; simpa using h4 r hr
  have h6 : ([op].all fun o => o.legal c) = true := by simp [hl]
  have ha : [op].filterMap (fun o => o.cacc s c) = [] := by simp [hc]
  have hw : accsWait s c [] = false := by simp [accsWait, newLoads]
  unfold coreWord
  simp only [h1, h2, h3, h5, h6, ha, hw, hc, Bool.not_true, Bool.or_self, Bool.false_eq_true, if_false, List.findSome?_nil, List.filter_nil,
    findLoads, wbufAfter, List.foldl_nil, coreOps]

/-- An engine's word on registers alone, when it stands in its run. -/
theorem engWord_plain (pe w : Nat) (op : Op) (s : State) (hw : runAt s pe = some w) (hr : engReady pe s = true)
    (hl : op.legal (laneHart pe 0) = true) (hn : op.count ≤ 2) (ha : op.lacc = fun _ _ => []) :
    engWord pe [op] s =
      runStep pe w (fetched pe s) ((liveLanes (fetched pe s) pe).foldl
        (fun t L => op.fx (fetched pe s) (laneHart pe L) t) (fetched pe s)) := by
  simp only [engReady, hw, Bool.and_eq_true, Bool.not_eq_true', bne_iff_ne, ne_eq] at hr
  obtain ⟨h1, h2⟩ := hr
  have hf : fetched pe s = correctProg pe (progAddr pe (progBase s pe (actProg s pe) + w)) (progBase s pe (actProg s pe) + w) s := by
    simp [fetched, hw]
  unfold engWord
  simp only [hw, h1, Bool.false_eq_true, if_false, h2]
  rw [← hf]
  by_cases hlive : (liveLanes (fetched pe s) pe).isEmpty = true
  · rw [if_pos hlive]
    rw [List.isEmpty_iff] at hlive
    rw [hlive]; rfl
  · rw [if_neg hlive]
    have : ¬ 2 < op.count := by omega
    have hnil : ∀ l : List Nat, l.flatMap (fun _ => ([] : List (Nat × Bool × Reach))) = [] := by intro l; simp
    simp [hl, ha, this, hnil]

/-- What a corrected program word leaves as it was. -/
theorem correctProg_frame (pe a w : Nat) (s : State) :
    RegsOnly { s with upset := (correctProg pe a w s).upset } (correctProg pe a w s) ∧
      ∀ r i, r ≠ .ENG_ECC_CORR → r ≠ .ENG_ECC_LAST → (correctProg pe a w s).reg r i = s.reg r i := by
  unfold correctProg
  split
  · have h : RegsOnly (setUpset s a 0) (count24 .ENG_ECC_CORR pe none (setUpset s a 0)) := RegsOnly.count ..
    have hr : ∀ r i, r ≠ .ENG_ECC_CORR → (count24 .ENG_ECC_CORR pe none (setUpset s a 0)).reg r i = s.reg r i :=
      fun r i h1 => reg_count _ _ _ _ _ _ _ _ _ h1 (.inl rfl)
    generalize count24 .ENG_ECC_CORR pe none (setUpset s a 0) = x at h hr
    have k : RegsOnly x ((x.setF .ENG_ECC_LAST pe 31 30 3).setF .ENG_ECC_LAST pe 13 0 w) := .trans (.setF ..) (.setF ..)
    have kr : ∀ r i, r ≠ .ENG_ECC_LAST →
        ((x.setF .ENG_ECC_LAST pe 31 30 3).setF .ENG_ECC_LAST pe 13 0 w).reg r i = x.reg r i := fun r i h2 => by
      simp only [reg_setF, if_neg (fun e : r = .ENG_ECC_LAST ∧ i = pe => h2 e.1)]
    simp only
    generalize (x.setF .ENG_ECC_LAST pe 31 30 3).setF .ENG_ECC_LAST pe 13 0 w = y at k kr ⊢
    refine ⟨?_, fun r i h1 h2 => (kr r i h2).trans (hr r i h1)⟩
    obtain ⟨R, rfl⟩ : ∃ R, x = { setUpset s a 0 with regs := R } := ⟨_, h⟩
    obtain ⟨Q, rfl⟩ : ∃ Q, y = { setUpset s a 0 with regs := Q } := ⟨_, k⟩
    rfl
  · exact ⟨rfl, fun _ _ _ _ => rfl⟩

theorem fetched_frame (pe : Nat) (s : State) :
    fetched pe s = { s with regs := (fetched pe s).regs, upset := (fetched pe s).upset } ∧
      ∀ r i, r ≠ .ENG_ECC_CORR → r ≠ .ENG_ECC_LAST → (fetched pe s).reg r i = s.reg r i := by
  unfold fetched
  split
  · exact ⟨rfl, fun _ _ _ _ => rfl⟩
  · exact correctProg_frame ..

theorem fetched_hart (pe : Nat) (s : State) : (fetched pe s).hart = s.hart := by rw [(fetched_frame pe s).1]
theorem fetched_eng (pe : Nat) (s : State) : (fetched pe s).eng = s.eng := by rw [(fetched_frame pe s).1]
theorem fetched_core (pe : Nat) (s : State) : (fetched pe s).core = s.core := by rw [(fetched_frame pe s).1]

@[simp] theorem getStat_fetched (pe : Nat) (s : State) (h : Nat) : getStat (fetched pe s) h = getStat s h := by
  unfold getStat; rw [fetched_hart]
@[simp] theorem getAcc_fetched (pe : Nat) (s : State) (h x : Nat) : getAcc (fetched pe s) h x = getAcc s h x := by
  unfold getAcc; rw [fetched_hart]
@[simp] theorem getDice_fetched (pe : Nat) (s : State) (h : Nat) : getDice (fetched pe s) h = getDice s h := by
  unfold getDice; rw [fetched_hart]
@[simp] theorem readReg_fetched (pe : Nat) (s : State) (h r : Nat) : readReg (fetched pe s) h r = readReg s h r := by
  have e : ∀ i, (fetched pe s).reg .ENG_DB i = s.reg .ENG_DB i :=
    fun i => (fetched_frame pe s).2 .ENG_DB i (by decide) (by decide)
  unfold readReg getPhys getRrb State.f
  rw [fetched_hart, fetched_core, e]
@[simp] theorem liveLanes_fetched (pe q : Nat) (s : State) : liveLanes (fetched pe s) q = liveLanes s q := by
  unfold liveLanes nullOf; rw [fetched_eng]
@[simp] theorem runAt_fetched (pe q : Nat) (s : State) : runAt (fetched pe s) q = runAt s q := by
  unfold runAt; rw [fetched_eng]
@[simp] theorem nullOf_fetched (pe h : Nat) (s : State) : nullOf (fetched pe s) h = nullOf s h := by
  unfold nullOf; rw [fetched_eng]

/-- The length of a program stands in registers that correction leaves alone. -/
theorem progLen_fetched (pe : Nat) (s : State) :
    progLen (fetched pe s) pe (actProg (fetched pe s) pe) = progLen s pe (actProg s pe) := by
  have e := (fetched_frame pe s).2
  unfold progLen progReg actProg State.f
  rw [e .ENG_STATUS pe (by decide) (by decide), e .ENG_PROG_A pe (by decide) (by decide),
    e .ENG_PROG_B pe (by decide) (by decide)]

/-! A run goes on. -/

theorem peOf_laneHart (pe L : Nat) (h : L < 4) : peOf (laneHart pe L) = pe := by unfold peOf laneHart; omega

theorem setNull_frame (h n : Nat) (s : State) : setNull h n s = { s with eng := { s.eng with null := (setNull h n s).eng.null } } := rfl

theorem nullOf_setNull (h n k : Nat) (s : State) : nullOf (setNull h n s) k = if k = h then n else nullOf s k := by
  simp only [nullOf, setNull, setEng, Store.get_set]

/-- The nullify windows of an engine's lanes step down, and nothing else changes. -/
theorem windows_step (pe : Nat) (s0 t : State) (l : List Nat) (nd : l.Nodup) :
    let u := l.foldl (fun t L => if nullOf s0 (laneHart pe L) = 0 then t
      else setNull (laneHart pe L) (nullOf s0 (laneHart pe L) - 1) t) t
    u = { t with eng := { t.eng with null := u.eng.null } } ∧
    ∀ h, nullOf u h = if ∃ L ∈ l, h = laneHart pe L ∧ nullOf s0 h ≠ 0 then nullOf s0 h - 1 else nullOf t h := by
  induction l generalizing t with
  | nil => exact ⟨rfl, fun h => by simp⟩
  | cons a l ih =>
    obtain ⟨ha, hl⟩ := List.nodup_cons.mp nd
    simp only [List.foldl_cons]
    by_cases z : nullOf s0 (laneHart pe a) = 0
    · simp only [z, if_true]
      obtain ⟨i1, i2⟩ := ih t hl
      refine ⟨i1, fun h => ?_⟩
      rw [i2 h]
      have : (∃ L ∈ a :: l, h = laneHart pe L ∧ nullOf s0 h ≠ 0) ↔ ∃ L ∈ l, h = laneHart pe L ∧ nullOf s0 h ≠ 0 := by
        constructor
        · rintro ⟨L, hL, rfl, hn⟩
          rcases List.mem_cons.mp hL with rfl | hL
          · exact absurd z hn
          · exact ⟨L, hL, rfl, hn⟩
        · rintro ⟨L, hL, e⟩; exact ⟨L, by simp [hL], e⟩
      simp only [this]
    · simp only [z, if_false]
      obtain ⟨i1, i2⟩ := ih (setNull (laneHart pe a) (nullOf s0 (laneHart pe a) - 1) t) hl
      refine ⟨by rw [i1]; rfl, fun h => ?_⟩
      rw [i2 h, nullOf_setNull]
      by_cases e : h = laneHart pe a
      · subst e
        have n1 : ¬ ∃ L ∈ l, laneHart pe a = laneHart pe L ∧ nullOf s0 (laneHart pe a) ≠ 0 := by
          rintro ⟨L, hL, e, _⟩
          have : a = L := by unfold laneHart at e; omega
          exact ha (this ▸ hL)
        rw [if_neg n1, if_pos rfl, if_pos ⟨a, by simp, rfl, z⟩]
      · have : (∃ L ∈ a :: l, h = laneHart pe L ∧ nullOf s0 h ≠ 0) ↔ ∃ L ∈ l, h = laneHart pe L ∧ nullOf s0 h ≠ 0 := by
          constructor
          · rintro ⟨L, hL, e', hn⟩
            rcases List.mem_cons.mp hL with rfl | hL
            · exact absurd e' e
            · exact ⟨L, hL, e', hn⟩
          · rintro ⟨L, hL, e⟩; exact ⟨L, by simp [hL], e⟩
        simp only [this, if_neg e]

theorem get_filter {α : Type} (d : Nat → α) (p : Nat → Bool) (m : Store α) (k : Nat) :
    Store.get d (m.filter (fun e => p e.1)) k = if p k then Store.get d m k else d k := by
  induction m with
  | nil => simp [Store.get]
  | cons e t ih =>
    obtain ⟨b, v⟩ := e
    by_cases hb : p b = true
    · simp only [List.filter_cons, hb, if_true, Store.get, ih]
      by_cases hk : k = b
      · subst hk; simp [hb]
      · simp [hk]
    · simp only [List.filter_cons, hb, Bool.false_eq_true, if_false, ih, Store.get]
      by_cases hk : k = b
      · subst hk; simp [hb]
      · simp [hk]

theorem find_map_run (l : List (Nat × Nat)) (pe q w : Nat) :
    ((l.map (fun r => if r.1 = pe then (pe, w) else r)).find? (fun r => r.1 == q)).map (fun r => r.2) =
      if q = pe then (if (l.find? (fun r => r.1 == pe)).isSome then some w else none)
      else (l.find? (fun r => r.1 == q)).map (fun r => r.2) := by
  induction l with
  | nil => simp
  | cons e t ih =>
    obtain ⟨a, b⟩ := e
    by_cases ha : a = pe
    · subst ha
      by_cases hq : q = a
      · subst hq; simp
      · have h1 : (a == q) = false := by simpa using fun h => hq h.symm
        simp only [List.map_cons, if_true, List.find?_cons, h1, hq, if_false] at ih ⊢
        exact ih
    · have h0 : (a == pe) = false := by simpa using ha
      by_cases hq : a = q
      · subst hq
        simp [ha]
      · have h1 : (a == q) = false := by simpa using hq
        simp only [List.map_cons, ha, if_false, List.find?_cons, h1, h0] at ih ⊢
        exact ih

theorem find_filter_run (l : List (Nat × Nat)) (pe q : Nat) :
    ((l.filter (fun r => r.1 != pe)).find? (fun r => r.1 == q)).map (fun r => r.2) =
      if q = pe then none else (l.find? (fun r => r.1 == q)).map (fun r => r.2) := by
  induction l with
  | nil => simp
  | cons e t ih =>
    obtain ⟨a, b⟩ := e
    by_cases ha : a = pe
    · subst ha
      by_cases hq : q = a
      · subst hq; simp
      · have h1 : (a == q) = false := by simpa using fun h => hq h.symm
        simp only [List.filter_cons, bne_self_eq_false, Bool.false_eq_true, if_false, List.find?_cons, h1, hq] at ih ⊢
        exact ih
    · have h0 : (a != pe) = true := by simpa using ha
      by_cases hq : a = q
      · subst hq
        simp [ha]
      · have h1 : (a == q) = false := by simpa using hq
        simp only [List.filter_cons, h0, if_true, List.find?_cons, h1] at ih ⊢
        exact ih

/-- Registers after load deliveries to an engine's lanes: the last one to a register stands. -/
theorem delivers_read (l : List Delivery) (pe : Nat) (s : State) (k : Nat) (r : Fin 32) :
    readReg (l.foldl (fun t d => writeReg (laneHart pe d.lane) d.rd d.value.toNat t) s) k r =
      match l.reverse.find? (fun d => laneHart pe d.lane == k && d.rd == r.val && decide (r.val ≤ 11)) with
      | some d => heldIn k r d.value.toNat
      | none => readReg s k r := by
  induction l using List.reverseRecOn with
  | nil => rfl
  | append_singleton t d ih =>
    rw [List.foldl_append, List.reverse_append]
    simp only [List.foldl_cons, List.foldl_nil, List.reverse_cons, List.reverse_nil, List.nil_append, List.singleton_append,
      List.find?_cons]
    by_cases hd : laneHart pe d.lane = k ∧ d.rd = r.val ∧ r.val ≤ 11
    · obtain ⟨h1, h2, h3⟩ := hd
      simp only [h1, h2, h3, beq_self_eq_true, decide_true, Bool.and_self]
      exact readReg_writeReg_same _ k r _ r.isLt (by unfold legalWrite; simp [h3])
    · have e : (laneHart pe d.lane == k && d.rd == r.val && decide (r.val ≤ 11)) = false := by
        simp only [Bool.and_eq_false_iff, beq_eq_false_iff_ne, decide_eq_false_iff_not]; tauto
      rw [e]
      simp only
      rw [← ih]
      by_cases h : d.rd ≤ 11
      · exact readReg_writeReg_ne _ _ _ _ _ _ (by omega) r.isLt (by rintro ⟨a, b⟩; exact hd ⟨a.symm, b.symm, by omega⟩)
      · have : ¬ laneHart pe d.lane < 16 := by unfold laneHart; omega
        unfold writeReg
        rw [if_neg this, if_neg (by omega), if_neg h]

theorem delivers_frame (l : List Delivery) (pe : Nat) (s : State) :
    ∃ H, l.foldl (fun t d => writeReg (laneHart pe d.lane) d.rd d.value.toNat t) s = { s with hart := { s.hart with r := H } } := by
  induction l generalizing s with
  | nil => exact ⟨s.hart.r, rfl⟩
  | cons d t ih =>
    rw [List.foldl_cons]
    obtain ⟨H, hH⟩ := ih (writeReg (laneHart pe d.lane) d.rd d.value.toNat s)
    rw [hH]
    have : ¬ laneHart pe d.lane < 16 := by unfold laneHart; omega
    unfold writeReg
    rw [if_neg this]
    split
    · exact ⟨H, rfl⟩
    · split <;> exact ⟨H, rfl⟩

/-- The deliveries that are due before word w. -/
theorem deliverDue_parts (pe w : Nat) (s : State) :
    let u := deliverDue pe w s
    (∃ H, u = { s with hart := { s.hart with r := H },
                       eng := { s.eng with deliver := s.eng.deliver.filter (fun d => !(d.pe == pe && decide (d.due < w))) } }) ∧
    ∀ (k : Nat) (r : Fin 32), readReg u k r =
      match s.eng.deliver.reverse.find? (fun d =>
          d.pe == pe && decide (d.due < w) && laneHart pe d.lane == k && d.rd == r.val && decide (r.val ≤ 11)) with
      | some d => heldIn k r d.value.toNat
      | none => readReg s k r := by
  constructor
  · obtain ⟨H, hH⟩ := delivers_frame (s.eng.deliver.filter (fun d => d.pe == pe && decide (d.due < w))) pe s
    refine ⟨H, ?_⟩
    unfold deliverDue
    simp only [hH]; rfl
  · intro k r
    have h := delivers_read (s.eng.deliver.filter (fun d => d.pe == pe && decide (d.due < w))) pe s k r
    rw [← List.filter_reverse, List.find?_filter] at h
    refine Eq.trans ?_ (h.trans ?_)
    · rfl
    · congr 2
      funext d
      simp only [Bool.decide_and, Bool.decide_eq_true, Bool.and_assoc]

/-- What the end of a word does to a run: the run goes on or ends, with the deliveries due at its end, windows step down, and nothing
else changes. -/
theorem runStep_parts (pe w : Nat) (s0 t : State) (hw : (runAt t pe).isSome) (hn : ∀ h, nullOf t h = nullOf s0 h) :
    let u := runStep pe w s0 t
    let goes := decide (w + 1 < progLen t pe (actProg t pe))
    (∃ H, u = { t with hart := { t.hart with r := H },
                       eng := { t.eng with run := u.eng.run, null := u.eng.null, deliver := u.eng.deliver } }) ∧
    (∀ (k : Nat) (r : Fin 32), readReg u k r = if goes then readReg t k r else
      match t.eng.deliver.reverse.find? (fun d =>
          d.pe == pe && decide (d.due ≤ w) && laneHart pe d.lane == k && d.rd == r.val && decide (r.val ≤ 11)) with
      | some d => heldIn k r d.value.toNat
      | none => readReg t k r) ∧
    (∀ q, runAt u q = if q = pe then (if goes then some (w + 1) else none) else runAt t q) ∧
    (∀ L : Fin 4, nullOf u (laneHart pe L) = if goes then nullOf s0 (laneHart pe L) - 1 else 0) ∧
    u.eng.deliver = if goes then t.eng.deliver else t.eng.deliver.filter (fun d => d.pe != pe) := by
  obtain ⟨w1, w2⟩ := windows_step pe s0 t (List.range 4) List.nodup_range
  unfold runStep
  simp only
  generalize hv : (List.range 4).foldl (fun t L => if nullOf s0 (laneHart pe L) = 0 then t
      else setNull (laneHart pe L) (nullOf s0 (laneHart pe L) - 1) t) t = v at w1 w2
  have er : v.eng.run = t.eng.run := by rw [w1]
  have ed : v.eng.deliver = t.eng.deliver := by rw [w1]
  have el : progLen v pe (actProg v pe) = progLen t pe (actProg t pe) := by rw [w1]; rfl
  have nl : ∀ L : Fin 4, nullOf v (laneHart pe L) = nullOf s0 (laneHart pe L) - 1 := by
    intro L
    rw [w2]
    by_cases z : nullOf s0 (laneHart pe L) = 0
    · rw [if_neg (by rintro ⟨_, _, _, h⟩; exact h z), hn, z]
    · rw [if_pos ⟨L, by simp, rfl, z⟩]
  have rv : ∀ (k : Nat) (r : Fin 32), readReg v k r = readReg t k r := by intro k r; rw [w1]; rfl
  simp only [el]
  by_cases g : w + 1 < progLen t pe (actProg t pe)
  · simp only [g, if_true, decide_true]
    refine ⟨⟨t.hart.r, ?_⟩, fun k r => ?_, ?_, ?_, ?_⟩
    · rw [w1]; rfl
    · rw [← rv]; rfl
    · intro q
      have hs : (t.eng.run.find? (fun r => r.1 == pe)).isSome = true := by
        unfold runAt at hw; simpa using hw
      change ((v.eng.run.map (fun r => if r.1 = pe then (pe, w + 1) else r)).find? (fun r => r.1 == q)).map (fun r => r.2) = _
      rw [er, find_map_run, hs]; rfl
    · intro L; exact nl L
    · exact ed
  · simp only [g, if_false, decide_false, Bool.false_eq_true]
    obtain ⟨⟨H, hH⟩, hr⟩ := deliverDue_parts pe (w + 1) v
    refine ⟨⟨H, ?_⟩, fun k r => ?_, ?_, ?_, ?_⟩
    · rw [hH]; unfold endRun; rw [w1]; rfl
    · have h := hr k r
      simp only [Nat.lt_succ_iff] at h
      rw [ed, rv] at h
      exact h
    · intro q
      rw [hH]
      change ((v.eng.run.filter (fun r => r.1 != pe)).find? (fun r => r.1 == q)).map (fun r => r.2) = _
      rw [er, find_filter_run]; rfl
    · intro L
      rw [hH]
      change Store.get natZero (v.eng.null.filter (fun e => peOf e.1 != pe)) (laneHart pe L) = 0
      rw [get_filter natZero (fun k => peOf k != pe), peOf_laneHart pe L L.isLt]; simp [natZero]
    · rw [hH]
      change (v.eng.deliver.filter (fun d => !(d.pe == pe && decide (d.due < w + 1)))).filter (fun d => d.pe != pe) = _
      rw [ed, List.filter_filter]
      congr 1
      funext d
      by_cases hd : d.pe = pe <;> simp [hd]

theorem liveLanes_nodup (s : State) (pe : Nat) : ((liveLanes s pe).map (laneHart pe)).Nodup := by
  unfold liveLanes
  refine List.Nodup.map (fun a b h => ?_) (List.Nodup.filter _ List.nodup_range)
  unfold laneHart at h; omega

theorem harts_lane (pe : Fin 72) (s : State) : ∀ h ∈ harts (.eng pe) s, 16 ≤ h := by
  intro h hm
  simp only [harts, List.mem_map] at hm
  obtain ⟨L, _, rfl⟩ := hm
  unfold laneHart; omega

/-- The hart whose profile a unit executes in. -/
def unitHart : Agent → Nat
  | .core c => c.val
  | .eng pe => laneHart pe.val 0

/-- A core's word whose operation puts P to it does P, and nothing else. -/
theorem coreWord_put (c : Fin 16) (op : Op) (P : State → Nat → HartPut) (on : State → Nat → Bool) (s : State)
    (hr : coreReady c op.srcs s = true) (hl : op.legal c = true) (hc : op.cacc = fun _ _ => none)
    (hfx : ∀ s0 h t, op.fx s0 h t = applyPut h (P s0 h) (on s0 h) t) (ok : putOk c (P s c) (on s c)) :
    wordDoes (.core c) (P s) s (coreWord c [op] s) := by
  rw [coreWord_plain c op s hr hl (by rw [hc]), hfx]
  refine ⟨fun h r => ?_, fun h => ?_, fun h x => ?_, fun h => ?_, ?_, fun k => ?_⟩
  · rw [applyPut_reg _ _ _ _ ok]; by_cases hh : h = c.val <;> simp [harts, hh, landed]
  · rw [applyPut_stat _ _ _ _ ok]; by_cases hh : h = c.val <;> simp [harts, hh]
  · rw [applyPut_acc _ _ _ _ ok]; by_cases hh : h = c.val <;> simp [harts, hh]
  · rw [applyPut_dice]; by_cases hh : h = c.val <;> simp [harts, hh]
  · rw [applyPut_frame]; rfl
  · rw [applyPut_frame]
    exact getPc_setPc s c k (getPc s c + 4)

/-- An engine's word whose operation puts P to each lane that executes it does P to those lanes, and nothing else. -/
theorem engWord_put (pe : Fin 72) (op : Op) (P : State → Nat → HartPut) (on : State → Nat → Bool) (s : State)
    (hr : engReady pe s = true) (hl : op.legal (laneHart pe 0) = true)
    (hn : op.count ≤ 2) (ha : op.lacc = fun _ _ => [])
    (hfx : ∀ s0 h t, op.fx s0 h t = applyPut h (P s0 h) (on s0 h) t)
    (hP : ∀ h, P (fetched pe s) h = P s h) (ho : ∀ h, on (fetched pe s) h = on s h)
    (ok : ∀ h ∈ harts (.eng pe) s, putOk h (P s h) (on s h)) :
    wordDoes (.eng pe) (P s) s (engWord pe [op] s) := by
  cases hw : runAt s pe with
  | none => simp [engReady, hw] at hr
  | some w =>
    have e : engWord pe [op] s = runStep pe w (fetched pe s) (putAll (harts (.eng pe) s) (P s) (on s) (fetched pe s)) := by
      rw [engWord_plain pe w op s hw hr hl hn ha, liveLanes_fetched]
      congr 1
      unfold putAll harts
      rw [List.foldl_map]
      congr 1
      funext t L
      rw [hfx, hP, ho]
    obtain ⟨p1, p2, p3, p4⟩ := putAll_parts (harts (.eng pe) s) (liveLanes_nodup s pe) (P s) (on s) (fetched pe s) ok
    obtain ⟨H, hH⟩ := putAll_lanes (harts (.eng pe) s) (P s) (on s) (fetched pe s) (harts_lane pe s)
    rw [hH] at p1 p2 p3 p4 e
    have ve := fetched_eng pe s
    have hwv : ∀ q, runAt { fetched pe s with hart := H } q = runAt s q := fun q => runAt_fetched pe q s
    have hl' : progLen { fetched pe s with hart := H } pe (actProg { fetched pe s with hart := H } pe) =
        progLen s pe (actProg s pe) := progLen_fetched pe s
    obtain ⟨⟨R, r1⟩, r5, r2, r3, r4⟩ := runStep_parts pe w (fetched pe s) { fetched pe s with hart := H }
      (by rw [hwv, hw]; rfl) (fun _ => rfl)
    rw [e]
    generalize runStep pe w (fetched pe s) { fetched pe s with hart := H } = z at r1 r2 r3 r4 r5
    obtain ⟨a, b, d, rfl⟩ : ∃ a b d, z =
        { fetched pe s with hart := { H with r := R }, eng := { (fetched pe s).eng with run := a, null := b, deliver := d } } :=
      ⟨_, _, _, r1⟩
    refine ⟨fun h r => ?_, fun h => ?_, fun h x => ?_, fun h => ?_, rfl, fun q => ?_, fun L => ?_, ?_⟩
    · rw [r5, p1, hl', readReg_fetched]
      unfold landed
      simp only [hw, Option.getD_some, ve, decide_eq_true_eq]
      all_goals (by_cases g : w + 1 < progLen s pe (actProg s pe) <;> simp only [g, if_true, if_false] <;> try rfl)
    · exact (p2 h).trans (by rw [getStat_fetched])
    · exact (p3 h x).trans (by rw [getAcc_fetched])
    · exact (p4 h).trans (by rw [getDice_fetched])
    · rw [r2, hwv, hl', hw]; rfl
    · rw [r3, hl', nullOf_fetched, hw]; rfl
    · rw [r4, hl', hw]
      simp only [ve, List.append_nil]; rfl

/-- A word of either profile. -/
theorem unitWord_put (u : Agent) (op : Op) (P : State → Nat → HartPut) (on : State → Nat → Bool) (s : State)
    (hr : ready u op.srcs s = true) (hl : op.legal (unitHart u) = true)
    (hn : op.count ≤ 2) (hc : op.cacc = fun _ _ => none) (ha : op.lacc = fun _ _ => [])
    (hfx : ∀ s0 h t, op.fx s0 h t = applyPut h (P s0 h) (on s0 h) t)
    (hP : ∀ pe h, P (fetched pe s) h = P s h) (ho : ∀ pe h, on (fetched pe s) h = on s h)
    (ok : ∀ h ∈ harts u s, putOk h (P s h) (on s h)) :
    wordDoes u (P s) s (unitWord u [op] s) := by
  cases u with
  | core c => exact coreWord_put c op P on s hr hl hc hfx (ok c.val (by simp [harts]))
  | eng pe => exact engWord_put pe op P on s hr hl hn ha hfx (hP pe) (ho pe) ok

end Sys2Proof.Machine
end

