-- ==== Sys2Proof/Laws/Alu.lean ====
section
/-! SUPPORT. The shapes of register words: a result with flags, flags alone, a value alone; each does what its function says to
the harts that execute it, and nothing else. -/

namespace Sys2Proof.Machine

theorem legalWrite_harts (u : Agent) (s : State) (r : Nat) (h : Nat) (hh : h ∈ harts u s) :
    legalWrite h r = legalWrite (unitHart u) r := by
  cases u with
  | core c => simp [harts] at hh; subst hh; rfl
  | eng pe =>
    have h1 := harts_lane pe s h hh
    have h2 : ¬ h < 16 := by omega
    have h3 : ¬ laneHart pe.val 0 < 16 := by unfold laneHart; omega
    simp [legalWrite, unitHart, h2, h3]

theorem legalRW_write (reads : List Nat) (rd : Nat) (h : Nat) (hl : legalRW reads [rd] h = true) : legalWrite h rd = true := by
  simp [legalRW] at hl; exact hl.2

/-- The fields of a well-formed command are legal in the profile of the unit that executes it. -/
theorem legalRead_of_ok (u : Agent) (r : Fin 32) (h : Ramtal.rd_ok u.isCore r = true) : legalRead (unitHart u) r = true := by
  cases u with
  | core c => simp [legalRead, unitHart, c.isLt]
  | eng pe =>
    have h3 : ¬ laneHart pe.val 0 < 16 := by unfold laneHart; omega
    simpa [legalRead, unitHart, h3, Ramtal.rd_ok, Agent.isCore] using h

theorem legalWrite_of_ok (u : Agent) (r : Fin 32) (h : u.writes r = true) : legalWrite (unitHart u) r = true := by
  cases u with
  | core c => simp [legalWrite, unitHart, c.isLt]
  | eng pe =>
    have h3 : ¬ laneHart pe.val 0 < 16 := by unfold laneHart; omega
    have h4 : (r = 14) ↔ (r.val = 14) := by rw [Fin.ext_iff]; rfl
    simpa [legalWrite, unitHart, h3, Agent.writes, Ramtal.wr_ok, Agent.isCore, h4] using h

theorem legalRW_of_ok (u : Agent) (reads : List (Fin 32)) (rd : Fin 32) (hr : u.reads reads = true) (hw : u.writes rd = true) :
    legalRW (reads.map (fun r => r.val)) [rd.val] (unitHart u) = true := by
  simp only [legalRW, List.all_map, List.all_cons, List.all_nil, Bool.and_true, Bool.and_eq_true, List.all_eq_true,
    Function.comp_apply, Agent.reads] at hr ⊢
  exact ⟨fun r hm => legalRead_of_ok u r (hr r hm), legalWrite_of_ok u rd hw⟩

theorem legalR_of_ok (u : Agent) (reads : List (Fin 32)) (hr : u.reads reads = true) :
    legalRW (reads.map (fun r => r.val)) [] (unitHart u) = true := by
  simp only [legalRW, List.all_map, List.all_nil, Bool.and_true, List.all_eq_true, Function.comp_apply, Agent.reads] at hr ⊢
  exact fun r hm => legalRead_of_ok u r (hr r hm)

/-- A word that writes a result and flags. -/
theorem resOp_word (u : Agent) (rd : Fin 32) (reads : List Nat) (f : Nat → List Nat → Res) (s : State)
    (hr : ready u reads s = true) (hl : legalRW reads [rd.val] (unitHart u) = true) :
    wordDoes u (fun h => { regs := [(rd.val, (f (widthOf h) (reads.map (fun x => readReg s h x))).val)],
                           flg := (f (widthOf h) (reads.map (fun x => readReg s h x))).flg }) s
      (unitWord u [resOp rd reads f] s) := by
  refine unitWord_put u (resOp rd reads f)
    (fun s0 h => { regs := [(rd.val, (f (widthOf h) (reads.map (fun x => readReg s0 h x))).val)],
                   flg := (f (widthOf h) (reads.map (fun x => readReg s0 h x))).flg }) (fun _ _ => true) s
    hr hl (by simp [resOp, Op.plain]) rfl rfl (fun s0 h t => rfl) (fun pe h => ?_) (fun _ _ => rfl) (fun h hh => ?_)
  · simp
  · refine ⟨?_, by simp, by simp⟩
    intro e he
    simp only [List.mem_singleton] at he
    subst he
    exact ⟨rd.isLt, by rw [legalWrite_harts u s _ h hh]; exact legalRW_write reads rd _ hl⟩

/-- A word that writes a value and no flag. -/
theorem valOp_word (u : Agent) (rd : Fin 32) (reads : List Nat) (f : Nat → List Nat → Nat) (s : State)
    (hr : ready u reads s = true) (hl : legalRW reads [rd.val] (unitHart u) = true) :
    wordDoes u (fun h => { regs := [(rd.val, f (widthOf h) (reads.map (fun x => readReg s h x)))] }) s
      (unitWord u [valOp rd reads f] s) := by
  refine unitWord_put u (valOp rd reads f)
    (fun s0 h => { regs := [(rd.val, f (widthOf h) (reads.map (fun x => readReg s0 h x)))] }) (fun _ _ => false) s
    hr hl (by simp [valOp, Op.plain]) rfl rfl (fun s0 h t => rfl) (fun pe h => ?_) (fun _ _ => rfl) (fun h hh => ?_)
  · simp
  · refine ⟨?_, by simp, by simp⟩
    intro e he
    simp only [List.mem_singleton] at he
    subst he
    exact ⟨rd.isLt, by rw [legalWrite_harts u s _ h hh]; exact legalRW_write reads rd _ hl⟩

/-- A word that writes flags alone. -/
theorem flagOp_word (u : Agent) (reads : List Nat) (f : Nat → List Nat → Res) (s : State)
    (hr : ready u reads s = true) (hl : legalRW reads [] (unitHart u) = true) :
    wordDoes u (fun h => { flg := (f (widthOf h) (reads.map (fun x => readReg s h x))).flg }) s
      (unitWord u [flagOp reads f] s) := by
  refine unitWord_put u (flagOp reads f)
    (fun s0 h => { flg := (f (widthOf h) (reads.map (fun x => readReg s0 h x))).flg }) (fun _ _ => true) s
    hr hl (by simp [flagOp, Op.plain]) rfl rfl (fun s0 h t => rfl) (fun pe h => ?_) (fun _ _ => rfl) (fun h hh => ?_)
  · simp
  · exact ⟨by simp, by simp, by simp⟩

end Sys2Proof.Machine
end

