-- ==== Sys2Proof/Laws/Memory.lean ====
section
/-! SUPPORT. The memories' canonical form: every operation that writes, copies, zeroes or loses memory keeps it, and memory after reset
has it. -/

namespace Sys2Proof.Machine

/-- The byte memories, the word memories and their check-bit conditions stand in canonical form. -/
def State.memoriesWf (s : State) : Prop := s.memWf = true ∧ s.wmemWf = true ∧ s.upsetWf = true

theorem reset_memoriesWf : State.reset.memoriesWf := ⟨rfl, rfl, rfl⟩

/-- The form depends on the memories alone. -/
theorem memoriesWf_of_eq {s t : State} (h : s.memoriesWf) (h1 : t.mem = s.mem) (h2 : t.wmem = s.wmem) (h3 : t.upset = s.upset) :
    t.memoriesWf := by
  unfold State.memoriesWf State.memWf State.wmemWf State.upsetWf at *
  rw [h1, h2, h3]; exact h

/-- Entries taken away leave the form. -/
theorem Store.wf_filter {α : Type} [DecidableEq α] (d : Nat → α) (p : Nat × α → Bool) (m : Store α) (h : Store.wf d m = true) :
    Store.wf d (m.filter p) = true := by
  induction m with
  | nil => rfl
  | cons e t ih =>
    obtain ⟨b, w⟩ := e
    obtain ⟨h1, h2, h3⟩ := (Store.wf_cons d b w t).mp h
    by_cases hp : p (b, w) = true
    · rw [List.filter_cons_of_pos hp]
      exact (Store.wf_cons d b w _).mpr ⟨h1, fun e he => h2 e (List.mem_filter.mp he).1, ih h3⟩
    · rw [List.filter_cons_of_neg hp]; exact ih h3

theorem Store.wf_drop {α : Type} [DecidableEq α] (d : Nat → α) (p : Nat → Bool) (m : Store α) (h : Store.wf d m = true) :
    Store.wf d (Store.drop p m) = true := Store.wf_filter d _ m h

/-- Many writes keep the form. -/
theorem Store.wf_foldl_set {α β : Type} [DecidableEq α] (d : Nat → α) (key : β → Nat) (val : β → α) (l : List β) (m : Store α)
    (h : Store.wf d m = true) : Store.wf d (l.foldl (fun m e => Store.set d m (key e) (val e)) m) = true := by
  induction l generalizing m with
  | nil => exact h
  | cons e t ih => exact ih _ (Store.wf_set d m (key e) (val e) h)

theorem setByte_memoriesWf {s : State} (a : Nat) (v : Byte) (h : s.memoriesWf) : (setByte s a v).memoriesWf :=
  ⟨Store.wf_set zeroOf s.mem a v h.1, h.2⟩

theorem setBytes_memoriesWf (l : List Byte) : ∀ {s : State} (a : Nat), s.memoriesWf → (setBytes s a l).memoriesWf := by
  induction l with
  | nil => exact fun _ h => h
  | cons b t ih => exact fun a h => ih (a + 1) (setByte_memoriesWf a b h)

theorem setWord_memoriesWf {s : State} (a : Nat) (v : Word) (h : s.memoriesWf) : (setWord s a v).memoriesWf := setBytes_memoriesWf _ a h

theorem putBytes_memoriesWf (l : List (Nat × Byte)) : ∀ {s : State}, s.memoriesWf → (putBytes l s).memoriesWf := by
  induction l with
  | nil => exact fun h => h
  | cons e t ih => exact fun h => ih (setByte_memoriesWf (primary e.1) e.2 h)

theorem setSlot_memoriesWf {s : State} (a : Nat) (v : Word) (h : s.memoriesWf) : (setSlot s a v).memoriesWf :=
  ⟨h.1, Store.wf_set zeroOf s.wmem a v h.2.1, Store.wf_set natZero s.upset a 0 h.2.2⟩

theorem setUpset_memoriesWf {s : State} (a n : Nat) (h : s.memoriesWf) : (setUpset s a n).memoriesWf :=
  ⟨h.1, h.2.1, Store.wf_set natZero s.upset a n h.2.2⟩

theorem copySlots_memoriesWf {s : State} (marks : Bool) (src dst len : Nat) (h : s.memoriesWf) :
    (copySlots marks src dst len s).memoriesWf :=
  ⟨h.1, Store.wf_foldl_set zeroOf (fun e : Nat × Word => e.1 - src + dst) (fun e => e.2) _ _ (Store.wf_filter zeroOf _ s.wmem h.2.1),
    Store.wf_foldl_set natZero (fun e : Nat × Nat => e.1 - src + dst) (fun e => e.2) _ _ (Store.wf_filter natZero _ s.upset h.2.2)⟩

theorem zeroSlots_memoriesWf {s : State} (a len : Nat) (h : s.memoriesWf) : (zeroSlots a len s).memoriesWf :=
  ⟨h.1, Store.wf_filter zeroOf _ s.wmem h.2.1, Store.wf_filter natZero _ s.upset h.2.2⟩

/-- A supply loss empties the memories; RESET_N keeps those of the always-on logic. -/
theorem resetAll_memoriesWf (s : State) : (resetAll s).memoriesWf := memoriesWf_of_eq reset_memoriesWf rfl rfl rfl

theorem resetAll_aon_memoriesWf {s : State} (p : Nat → Bool) (h : s.memoriesWf) :
    { resetAll s with wmem := s.wmem.filter (fun e => p e.1), upset := s.upset.filter (fun e => p e.1) }.memoriesWf :=
  ⟨(resetAll_memoriesWf s).1, Store.wf_filter zeroOf _ s.wmem h.2.1, Store.wf_filter natZero _ s.upset h.2.2⟩

/-- A domain that goes off loses its part of each memory. -/
theorem dropped_memoriesWf {s : State} (p : Nat → Bool) (r : Store Word) (h : s.memoriesWf) :
    { s with regs := r, mem := Store.drop p s.mem, wmem := Store.drop p s.wmem, upset := Store.drop p s.upset }.memoriesWf :=
  ⟨Store.wf_drop zeroOf p s.mem h.1, Store.wf_drop zeroOf p s.wmem h.2.1, Store.wf_drop natZero p s.upset h.2.2⟩

end Sys2Proof.Machine
end

