-- ==== Sys2Proof/Tests/Slice0.lean ====
section
/-! SUPPORT. The model's own tests: ill-formed terms, decoded words, single steps, and for every statement states that meet its
hypotheses. Expected words and values come from the spec. -/

namespace Sys2Proof.Tests

open Sys2Proof Sys2Proof.Machine

set_option Elab.async false

/-! Ill-formed commands: one for each check of WellFormed. -/

/-- Register fields 15 to 31 of an engine are undefined, and DB and LANEID are not written (R73, R92). -/
theorem test_illformed_engine_registers : [Instr.add (.eng 0) 15 0 0, .add (.eng 0) 12 0 0, .add (.eng 0) 0 13 31,
    .neg (.eng 0) 13 0, .cmp (.eng 0) 15 0, .accld (.eng 0) 0 16 0, .sta (.eng 0) 12 0 0, .pusht (.eng 0) 15 0,
    .stw (.eng 0) 15 0 0].all (fun i => !i.wellFormed) = true := by decide

/-- Words of core profile only, MAC modes of engine profile only, and an IMM16 above 8 bits of an engine (R78, R79, R92). -/
theorem test_illformed_profile : [Instr.div (.eng 0) 0 0 0 0, .bl (.eng 0) 0, .jr (.eng 0) 0 0, .rot (.eng 0) 1, .get (.eng 0),
    .doneItem (.eng 0), .clean (.eng 0) 0 0, .inval (.eng 0) 0 0, .trap (.eng 0) 0, .mac (.core 0) 0 (.tapPtr 0 0 .keep),
    .mpy (.core 0) 0 (.ptrCoef 0 .keep 0), .movhi (.eng 0) 0 0x100, .macs (.core 0) .a 0 (.ptrs 0 false 0 false) .nops,
    .ldxs (.eng 0) .a 0 (.base 0 0) .nops, .nops (.core 0) .a (.stxs 0 (.ptr false 0 0))].all (fun i => !i.wellFormed) = true := by decide

/-- Operand forms: the other profile's, a cross-path offset above 511, STX to a palette or the cross-path, NCNT 0 (R82, R85, R92). -/
theorem test_illformed_operands : [Instr.ldx (.eng 0) 0 (.base 0 0), .ldx (.core 0) 0 (.mem ⟨.delay, .imm 0⟩),
    .ldx (.eng 0) 0 (.mem ⟨.cross, .imm 512⟩), .stx (.eng 0) 0 (.mem ⟨.palette, .imm 0⟩), .stx (.eng 0) 0 (.mem ⟨.cross, .imm 0⟩),
    .bcond (.eng 0) .eq (.ncnt 0), .bcond (.eng 0) .eq (.off 0), .bcond (.core 0) .eq (.ncnt 1)].all (fun i => !i.wellFormed) = true := by
  decide

/-- System registers that the profile lacks, and writes of read-only ones (R90). -/
theorem test_illformed_sys : [Instr.sys (.eng 0) 0 false 1, .sys (.core 0) 0 false 7, .sys (.core 0) 0 true 2,
    .sys (.core 0) 0 true 3].all (fun i => !i.wellFormed) = true := by decide

/-- An undefinedWord that is defined, frames and ratios out of range, empty transfers, a known SPI command, and a write that is not
aligned or that no sender makes. -/
theorem test_illformed_commands : [Instr.undefinedWord (.core 0) 0, .portFrame 0 ⟨8192, 0, []⟩, .linkFrame 0 ⟨8192, 0, []⟩,
    .trackerLock 0 (2 ^ 28), .spiWrite 0 0 [], .spiRead 0 0 0, .spiDualRead 0 0 0, .spiQuadRead 0 0 0, .spiUnknownCommand 0 0x6B,
    .i2cWrite 0 [], .i2cRead none 0, .registerWrite (.core 0) 2 0, .registerWrite .rom 0 0].all (fun i => !i.wellFormed) = true := by
  decide +kernel

/-! Words, written out from the formats of R69 and R75 to R90. -/

/-- The spec's own examples (03_ramtal_encoding.md:366, :379, :388; 04_ramtal_reference.md:476; 05_engines.md:387). -/
theorem test_decode_examples :
    decodeRamtal (.core 0) 0x02321400 = some (.add (.core 0) 3 4 5) ∧ decodeRamtal (.eng 3) 0x02321400 = some (.add (.eng 3) 3 4 5) ∧
    decodeRamtal (.eng 3) 0x422012A8 = some (.mac (.eng 3) 0 (.tapPtr 37 1 .inc)) ∧ decodeRamtal (.core 0) 0x422012A8 = none ∧
    decodeRamtal (.eng 3) 0x42EA0050 = some (.mac (.eng 3) 1 (.ptrCoef 1 .inc 5)) ∧
    decodeRamtal (.eng 3) 0xB8A1EDA1 = some (Ramtal.pairOf (.eng 3) (.mpys 1 2 3) (.stxs 5 (.ptr true 1 1))) ∧
    decodeRamtal (.eng 3) 0xF8A1EDA1 = none ∧ decodeRamtal (.core 0) 0x66000001 = some (.rot (.core 0) 1) ∧
    decodeRamtal (.core 0) 0xA7F24C9F = some (Ramtal.pairOf (.core 0) (.addi5 7 7 4) (.addi5 4 4 0x1F)) ∧
    decodeRamtal (.core 0) 0 = some (.nop (.core 0)) := by decide +kernel

/-- One word of each other format: K, F, W, D, T, Q, I, X, B, U, Y, R, E, Z, J, H. -/
theorem test_decode_formats :
    decodeRamtal (.core 0) 0x2E21C700 = some (.shi (.core 0) .sar 2 3 7) ∧ decodeRamtal (.core 0) 0x3442C0E0 = some (.bfi (.core 0) 4 5 16 7) ∧
    decodeRamtal (.core 0) 0x2A6FFFFF = some (.movi (.core 0) 6 0xFFFFF) ∧ decodeRamtal (.core 0) 0x3E110C80 = some (.div (.core 0) 1 2 3 4) ∧
    decodeRamtal (.core 0) 0x4A597000 = some (.sta (.core 0) 5 2 23) ∧ decodeRamtal (.core 0) 0x4CD20000 = some (.sha (.core 0) 1 2 true 8) ∧
    decodeRamtal (.core 0) 0x5077FFFC = some (.ldw (.core 0) 7 15 0x7FFC) ∧
    decodeRamtal (.eng 0) 0x5C372000 = some (.ldx (.eng 0) 3 (.mem ⟨.palette, .ptr 2 .inc⟩)) ∧
    decodeRamtal (.core 0) 0x603FFFFE = some (.bcond (.core 0) .ne (.off 0x1FFFFE)) ∧
    decodeRamtal (.eng 0) 0x61C00005 = some (.bcond (.eng 0) .al (.ncnt 5)) ∧ decodeRamtal (.core 0) 0x74980200 = some (.sys (.core 0) 9 true 4) ∧
    decodeRamtal (.eng 0) 0x6C052C00 = some (.pusht (.eng 0) 10 11) ∧ decodeRamtal (.eng 0) 0x78240000 = some (.dice (.eng 0) 2 true) ∧
    decodeRamtal (.core 0) 0x760000AB = some (.trap (.core 0) 0xAB) ∧ decodeRamtal (.core 0) 0x63FFFFFF = some (.bl (.core 0) 0x1FFFFFF) ∧
    decodeRamtal (.core 0) 0x2C308001 = some (.movhi (.core 0) 3 0x8001) := by decide +kernel

/-- Undefined words of R92: P with bit 30, OP 0x27 and 0x3D, SOP 0xF, a reserved bit, COND 0xF. -/
theorem test_decode_undefined : [0xC0000000, 0x4E000000, 0x7A000000, 0x80007800, 0x02321401, 0x61E00000].all
    (fun w => decodeRamtal (.core 0) w == none) = true := by decide +kernel

theorem test_reset_queue_empty : State.reset.pending = [] := by decide

/-! States that meet the statements' hypotheses. Each witness gives one for every main clause of its statement. -/

/-- In ARMED, in RUN with turns, in TEST with turns, in HALT; host master k the owner; engine 0 at word 0 of a program of 4 words. -/
def armed : State := State.reset.setF .SYS_STATE 0 3 0 St.ARMED
def running : State := State.reset.setReg .SYS_STATE 0 0x26
def testing : State := State.reset.setReg .SYS_STATE 0 0x2A
def halt : State := State.reset.setReg .SYS_STATE 0 0x1B
def ownedBy (k : Nat) (s : State) : State := s.setReg .SYS_OWNER 0 (BitVec.ofNat 32 (0x80000000 + k * 2 ^ 28))
def engAt (s : State) : State :=
  let u := s.setReg .ENG_PROG_A 0 0x00040000
  { u with eng := { u.eng with on := [0], run := [(0, 0)] } }
def atWord : State := engAt running

/-- The unit issues a word that reads srcs, and the words are well formed. -/
def issues (u : Agent) (srcs : List Nat) (l : List Instr) (s : State) : Bool := ready u srcs s && l.all (fun i => i.wellFormed)

def units : List (Agent × State) := [(.core 0, State.reset), (.eng 0, atWord)]

theorem witness_AddAndSubtract : units.all (fun x => issues x.1 [4, 5] [.add x.1 3 4 5, .addi x.1 3 4 0x7FFF, .sub x.1 3 4 5,
    .neg x.1 3 4, .cmp x.1 4 5, .cmpi x.1 4 0x4000] x.2) = true := by decide +kernel

theorem witness_SaturateAndMagnitude : units.all (fun x => issues x.1 [4, 5] [.adds x.1 3 4 5, .subs x.1 3 4 5, .abs x.1 3 4] x.2) = true := by
  decide +kernel

theorem witness_LogicAndMoves : units.all (fun x => issues x.1 [3, 4, 5] [.andR x.1 3 4 5, .orR x.1 3 4 5, .xorR x.1 3 4 5, .andn x.1 3 4 5,
    .andi x.1 3 4 0x7FFF, .ori x.1 3 4 1, .xori x.1 3 4 1, .movi x.1 3 0x80000, .movhi x.1 3 0xFF] x.2) = true := by decide +kernel

theorem witness_Shifts : units.all (fun x => issues x.1 [4, 5] [.shl x.1 3 4 5, .shr x.1 3 4 5, .sar x.1 3 4 5, .ror x.1 3 4 5,
    .shi x.1 .ror 3 4 31] x.2) = true := by decide +kernel

theorem witness_FieldsAndCounts : units.all (fun x => issues x.1 [3, 4] [.bfx x.1 3 4 31 31, .bfxs x.1 3 4 0 31, .bfi x.1 3 4 16 7,
    .clz x.1 3 4, .cls x.1 3 4, .perm x.1 3 4 0xE4] x.2) = true := by decide +kernel

theorem witness_MultiplyAndDivide : units.all (fun x => issues x.1 [4, 5] [.mul x.1 3 4 5] x.2) = true ∧
    issues (.core 0) [4, 5] [.div (.core 0) 3 4 5 3, .divu (.core 0) 3 4 5 6] State.reset = true := by decide +kernel

theorem witness_AccumulatorWords : units.all (fun x => issues x.1 [4, 5] [.mac x.1 0 (.regs 4 5), .msu x.1 1 (.regs 4 5), .mpy x.1 2 (.regs 4 5),
    .accld x.1 3 4 63, .sha x.1 0 1 false 63, .sha x.1 0 0 true 0, .sta x.1 3 0 63] x.2) = true := by decide +kernel

theorem witness_DiceAndNop : units.all (fun x => issues x.1 [] [.dice x.1 3 false, .dice x.1 3 true, .nop x.1] x.2) = true := by decide +kernel

/-- Engine 0 at word 0, with a palette of 16 words. -/
def withPalette : State := atWord.setReg .ENG_LANE_MAP 0 0x00010000

theorem witness_MacMemoryModes :
    [MacArgs.tapPtr 16383 1 .inc, .regMem 7 ⟨.delay, .imm 16383⟩, .ptrCoef 1 .inc2 15].all (fun x =>
      (Instr.mac (.eng 0) 0 x).wellFormed && (Instr.msu (.eng 0) 0 x).wellFormed && (Instr.mpy (.eng 0) 0 x).wellFormed &&
        engReady 0 withPalette && cleanReach 0 (fun h => macReaches withPalette h x) withPalette) = true := by decide +kernel

theorem witness_LaneLoadsAndStores :
    issues (.eng 0) [] [.ldx (.eng 0) 3 (.mem ⟨.palette, .imm 15⟩), .stx (.eng 0) 3 (.mem ⟨.scratch, .imm 0⟩)] withPalette = true ∧
    cleanReach 0 (fun h => [opReach withPalette h ⟨.palette, .imm 15⟩]) withPalette = true ∧
    cleanReach 0 (fun h => match opReach withPalette h ⟨.scratch, .imm 0⟩ with | .none => [.none] | _ => []) withPalette = true := by
  decide +kernel

theorem witness_LaneRange : engReady 0 withPalette = true ∧ withPalette.f .ENG_LANE_MAP 0 25 16 * 16 ≤ 16 ∧
    liveLanes withPalette 0 ≠ [] := by decide +kernel

theorem witness_EngineSharedLoads : issues (.eng 0) [] [.ldw (.eng 0) 3 4 0x7FFF, .ldh (.eng 0) 3 4 1, .ldb (.eng 0) 3 4 0] atWord = true := by
  decide +kernel

theorem witness_EngineSharedStores : issues (.eng 0) [] [.stw (.eng 0) 3 4 0x7FFF, .sth (.eng 0) 3 4 1, .stb (.eng 0) 3 4 0] atWord = true := by
  decide +kernel

theorem witness_LoadDelivery : runAt atWord 0 = some 0 := by decide +kernel

/-- A clean line of hub memory at 0x18000000 in core 0's cache, and a load of core 0 from the line above that waits. -/
def line0 : Line := ⟨0, 0x18000000, List.replicate 64 0, false⟩
def cached : State := { State.reset with core := { State.reset.core with dcache := [line0] } }
def dirtied : State := { State.reset with core := { State.reset.core with dcache := [{ line0 with dirty := true }] } }
def waiting (a : Nat) (d : List (Nat × Byte)) (s : State) : State :=
  { s with core := { s.core with pend := [⟨0, 3, a, .word, true, d⟩] } }

/-- The load of each place: misaligned, unmapped, LDX of a register, local memory, a cached line, a line to fetch, hub memory's word memories,
and a domain that sleeps. -/
theorem witness_CoreLoads : issues (.core 0) [4] [.ldw (.core 0) 3 4 0, .ldh (.core 0) 3 4 0, .ldb (.core 0) 3 4 0,
      .ldx (.core 0) 3 (.base 4 0)] State.reset = true ∧
    ¬ (0x00040001 % 4 = 0) ∧ readable State.reset true 0x00040000 4 = false ∧ regionOf 0x40000000 = .regs ∧
    (seenNow State.reset 0 0x08000000 4).isSome = true ∧ readable State.reset true 0x08000000 4 = true ∧ domainOn State.reset 14 = true ∧
    (seenNow cached 0 0x1800003C 4).isSome = true ∧ isCached (regionOf 0x1800003C) = true ∧ lineAt cached 0 0x18000040 = none ∧
    coreRequests [waitLoad cached 0 0x18000040 .word 3 []] ≤ 8 ∧
    isCached (regionOf 0x3C000000) = false ∧ regionOf 0x3C000000 ≠ .localMem ∧ readable State.reset true 0x3C000000 4 = true ∧
    domainOn State.reset (domainAt 0x3C000000) = true ∧ (busRead (.core 0) 0x3C000000 4 State.reset).1 = .ok [0, 0, 0, 0] ∧
    (busRead (.core 0) 0x3C000000 4 { State.reset with upset := [(0x3C000000, 2)] }).1 = .err := by decide +kernel

theorem witness_CoreStores : issues (.core 0) [4, 3] [.stw (.core 0) 3 4 0, .sth (.core 0) 3 4 0, .stb (.core 0) 3 4 0,
    .stx (.core 0) 3 (.base 4 0)] State.reset = true ∧ (wbufOf State.reset 0).length + 1 ≤ 8 := by decide +kernel

theorem witness_Branches : issues (.core 0) [4] [.bcond (.core 0) .al (.off 0x1FFFFF), .bl (.core 0) 0x1FFFFFF, .jr (.core 0) 15 4,
    .rot (.core 0) 15] State.reset = true := by decide +kernel

theorem witness_NullifyWindows : engReady 0 atWord = true ∧ (63 : Fin 64).val ≠ 0 := by decide +kernel

theorem witness_SysReads : units.all (fun x => issues x.1 [] ([0, 2, 3, 0x10].map (fun n => .sys x.1 3 false n)) x.2) = true ∧
    issues (.core 0) [] ([1, 4, 5, 6].map (fun n => .sys (.core 0) 3 false n)) State.reset = true := by decide +kernel

theorem witness_SysWrites : units.all (fun x => issues x.1 [3] ([0, 0x10].map (fun n => .sys x.1 3 true n)) x.2) = true ∧
    coreReady 0 [3] State.reset = true := by decide +kernel

theorem witness_TrapsAndUndefined : coreReady 0 [] State.reset = true ∧ decodeRamtal (.core 0) 0x7A000000 = none ∧
    engReady 0 atWord = true ∧ decodeRamtal (.eng 0) 0x7A000000 = none := by decide +kernel

theorem witness_Interrupts : let s := (State.reset.setBit .SCHED_CORE_n_CTRL 0 2 true).setReg .EVT_RAW_w 3 1
    let s := s.setReg .EVT_CORE_n_EN_w 3 1
    alive s = true ∧ coreMode s 0 = 1 ∧ s.bit .SCHED_CORE_n_CTRL 0 2 = true ∧ s.reg .EVT_RAW_w 3 &&& s.reg .EVT_CORE_n_EN_w 3 ≠ 0 := by
  decide +kernel

theorem witness_ParityFaults : alive cached = true ∧ coreMode cached 0 = 1 ∧ lineAt cached 0 0x18000004 = some line0 ∧
    domainOn cached (domainAt 0x18000000) = true ∧ (setLines cached 0 0x18000000).length ≤ 4 ∧
    (lineAt dirtied 0 0x18000004).map (fun l => l.dirty) = some true ∧ cached.f .SCHED_CORE_n_STAT 0 26 24 < 3 ∧
    turnsOn (running.setF .SCHED_CORE_n_STAT 0 26 24 3) = true := by decide +kernel

/-- An item of class 1 on core 0, whose budget of 16 cycles is over. -/
def item1 : Item := ⟨5, 1, 1, 7, false, 1, 0xFFFF, [some 9, none, none, none], none, false, 0, 0, 0⟩
def holding : State :=
  let u := (State.reset.setBit .SCHED_CORE_n_STAT 0 28 true).setReg .SCHED_CLASS_BUDGET_c 1 16
  { u with sched := { u.sched with held := [⟨0, item1, 0⟩] }, time := { u.time with hub := 16 } }

theorem witness_BudgetKill : heldBy holding 0 = some ⟨0, item1, 0⟩ ∧ alive holding = true ∧
    holding.f .SCHED_CLASS_BUDGET_c 1 23 0 ≤ holding.time.hub - 0 ∧
    { holding with time := { holding.time with hub := 15 } }.time.hub - 0 < holding.f .SCHED_CLASS_BUDGET_c 1 23 0 := by decide +kernel

theorem witness_SchedulerWords : coreReady 0 [4, 5] holding = true ∧ (holding.sched.coreQ.filter (fun t => t.1 == 0)).length < 8 ∧
    issues (.eng 0) [] [.pusht (.eng 0) 4 5] atWord = true := by decide +kernel

/-- Eight stores of core 0 wait; a store of core 0 to hub memory waits. -/
def full : State := { State.reset with core := { State.reset.core with wbuf := List.replicate 8 ⟨0, 0x40000000, .bus, [(0x40000000, 0)]⟩ } }
def stored1 (a : Nat) (k : WKind) : State :=
  { armed with core := { armed.core with wbuf := [⟨0, a, k, wordBytes a 0x01020304⟩] } }

theorem witness_FencesAndCaches : coreReady 0 [4, 5] State.reset = true ∧ (wbufOf State.reset 0).length < 8 ∧ wbufOf State.reset 0 = [] ∧
    8 ≤ (wbufOf full 0).length ∧ coreReady 0 [4, 5] full = true ∧ issues (.eng 0) [] [.fence (.eng 0)] atWord = true := by decide +kernel

theorem witness_CacheTraffic :
    (let s := waiting 0x18000004 [] cached;
      s.core.pend.any (fun l => l.core == 0 && isCached (regionOf l.addr) && l.addr / 64 == 0x18000000 / 64) = true ∧
      lineAt s 0 0x18000000 = some line0) ∧
    (let s := waiting 0x18000044 [] cached;
      lineAt s 0 0x18000040 = none ∧ domainOn s (domainAt 0x18000040) = true ∧
      (s.core.dcache.filter (fun l => l.core == 0 && l.addr / 64 % 128 == 1)).length < 4) ∧
    (lineAt dirtied 0 0x18000000).isSome = true ∧ wbufRoom dirtied 0 0x18000000 .bus = true ∧
    (let s := waiting 0x3C000000 ((List.range 4).map (fun j => (0x3C000000 + j, 7))) State.reset;
      up s = true ∧ domainOn s (domCore 0) = true ∧
      (takeFirst (fun l : PendLoad => l.core == 0 && !isCached (regionOf l.addr)) s.core.pend).isSome = true ∧
      ∀ l ∈ s.core.pend, l.data.map (fun p => p.1) = (List.range (loadSize l.kind)).map (fun j => l.addr + j)) := by decide +kernel

/-- A load that found its domain asleep, with that domain on by now, in error, and asleep still. -/
theorem witness_CacheTraffic_unread : let s := waiting 0x3C000000 [] State.reset
    up s = true ∧ domainOn s (domCore 0) = true ∧ s.core.pend.all (fun l => l.data.isEmpty) = true ∧
    (busRead (.core 0) 0x3C000000 4 s).1 = .ok [0, 0, 0, 0] ∧
    (busRead (.core 0) 0x3C000000 4 { s with upset := [(0x3C000000, 2)] }).1 = .err ∧
    (busRead (.core 0) 0x3C000000 4 (s.setF .PWR_STATE_w 0 7 6 Dom.RET)).1 = .wait := by decide +kernel

/-- Four dirty lines of one set of core 0's cache, of which any can be displaced. -/
theorem witness_CacheTraffic_full : let d := (List.range 4).map (fun k => (⟨0, 0x18000000 + 0x2000 * k, List.replicate 64 1, true⟩ : Line))
    let s := waiting 0x18008000 [] { State.reset with core := { State.reset.core with dcache := d } }
    let set := s.core.dcache.filter (fun l => l.core == 0 && l.addr / 64 % 128 == 0)
    4 ≤ set.length ∧ (∀ v ∈ set, v.addr % 64 = 0) ∧ (∀ v ∈ set, v.dirty = true → wbufRoom s 0 v.addr .bus = true) ∧
    lineAt s 0 0x18008000 = none := by decide +kernel

theorem witness_WriteBuffer : [(0x08000000, WKind.bus), (0x18000000, .cache), (0x40000068, .bus), (0x40000000, .deny)].all (fun x =>
      let s := stored1 x.1 x.2
      up s && domainOn s (domCore 0) && (takeFirst (fun e : WEntry => e.core == 0) s.core.wbuf).isSome && domainOn s (domainAt x.1)) = true ∧
    isByteMem (regionOf 0x08000000) = true ∧ barred (.core 0) 0x08000000 4 (stored1 0x08000000 .bus) = false ∧
    isWordOnly (regionOf 0x40000068) = true ∧ (busWriteWord (.core 0) 0x40000068 0x01020304 (stored1 0x40000068 .bus)).1 = .ok [] ∧
    (∀ p ∈ wordBytes 0x18000000 0x01020304, lineOf p.1 = lineOf 0x18000000) ∧
    (setLines (stored1 0x18000000 .cache) 0 0x18000000).length < 4 ∧ takesWrites 0x00000000 = false ∧
    (let s := stored1 0x08000000 .bus
     inDma (wordBytes 0x08000000 0x01020304) = false ∧ inRequest s (domainAt 0x08000000) = false ∧
      behindLoad s 0 ⟨0, 0x08000000, .bus, wordBytes 0x08000000 0x01020304⟩ = false ∧
      behindLoad (waiting 0x08000000 [] s) 0 ⟨0, 0x08000000, .bus, wordBytes 0x08000000 0x01020304⟩ = true) := by decide +kernel

theorem witness_PairWords : issues (.core 0) [1, 2, 3, 4] [.shortAdd (.core 0) .a 1 1 2 (.sub 1 1 3), .mpys (.core 0) .b 3 1 2 (.cmp 3 4),
      .macs (.core 0) .a 0 (.regs 1 2) .nops] State.reset = true ∧
    (let o : ShortOp := .macs 0 (.ptrs 0 true 1 true);
      issues (.eng 0) [] [.shortAdd (.eng 0) .a 1 1 2 o] withPalette = true ∧ shortOnRegs o = true ∧
      cleanReach 0 (fun h => shortReaches withPalette h o) withPalette = true) := by decide +kernel

theorem witness_ShortLoadsAndStores : issues (.core 0) [4, 1, 5] [.ldxs (.core 0) .a 3 (.base 4 31) .nops,
      .stxs (.core 0) .b 3 (.base 4 0) .nops] cached = true ∧ (seenNow State.reset 0 0x08000000 4).isSome = true ∧
    issues (.eng 0) [] [.stxs (.eng 0) .a 3 (.ptr true 1 0x1F) .nops] withPalette = true ∧
    cleanReach 0 (fun h => match reach withPalette (peOf h) .scratch (getPtr withPalette h 1) with | .none => [.none] | _ => []) withPalette = true := by
  decide +kernel

theorem witness_StepRunsFront : { State.reset with pending := [.nop (.core 0)] }.pending = .nop (.core 0) :: [] := rfl

theorem witness_StepOutcomes : State.reset.pending = [] ∧ up (State.reset.setF .SYS_STATE 0 3 0 St.OFF) = false ∧ up armed = true ∧
    sysState armed ≠ St.ROM := by decide +kernel

theorem witness_CanonicalKept : State.reset.canonical = true ∧ armed.canonical = true := by decide +kernel

theorem witness_DecodeEncode : (Instr.add (.core 0) 3 4 5).wellFormed = true ∧ encodeRamtal (.add (.core 0) 3 4 5) = some 0x02321400 := by
  decide +kernel

/-! Turns, the fabric, sections and ports. -/

/-- In ARMED with the loop locked. -/
def ready0 : State := armed.setBit .SYNTH_STATUS 0 28 true

theorem witness_StateRequests : lands (.core 0) .SYS_STATE_REQ 0 ready0 = true ∧ lands (.core 0) .SYS_STATE_REQ 0 running = true ∧
    lands (.host 2) .SYS_STATE_REQ 0 (ownedBy 2 testing) = true ∧ effState ready0 = St.ARMED ∧ synLock ready0 = true ∧ holdCause ready0 = 0 ∧
    ready0.safe.reqs = [] ∧ ready0.dev.won = none ∧ effState running = St.RUN ∧ turnsOn running = true ∧ inTest testing = true := by
  decide +kernel

theorem witness_StateRequests_start : overBudget ready0 = false := by decide +kernel

theorem witness_StateRequests_beaten : let s := { running with dev := { running.dev with won := some (0, 1) } }
    s.dev.won = some (s.time.hub, 1) ∧ lands (.core 0) .SYS_STATE_REQ 0 s = true := by decide +kernel

theorem witness_Boundary : alive running = true ∧ turnsOn running = true ∧ running.dev.freeze = false ∧ running.dev.pendCut = [] ∧
    running.safe.flipFab ++ running.safe.flipEng = [] ∧ running.fab.held = [] ∧ running.pwr.wake = [] ∧ effState running = St.RUN ∧
    (let s := armed.setF .SYS_STATE 0 3 0 St.HOLD; alive s = true ∧ turnsOn s = false ∧ effState s = St.HOLD ∧ holdCause s = 0) ∧
    (let s := { running with dev := { running.dev with freeze := true, pendNew := [.disarm] } }; s.dev.exch = [] ∧ s.sect.held = []) ∧
    (let s := { armed with dev := { armed.dev with starting := true } }; turnsOn s = false ∧ s.dev.pendCut = []) := by decide +kernel

theorem witness_TurnMiddle : turnsOn running = true ∧ running.dev.exch = [] ∧ running.safe.flipEng = [] ∧ running.boxesWf = true ∧
    running.dev.cutPast = false ∧ running.dev.exchanged = [] ∧ domainOn running 6 = true ∧ quiescent running 0 = false ∧
    migOf running 0 = none ∧ (∀ k ∈ running.eng.outE, k.1 < 0x1000) ∧ running.eng.run = [] ∧
    (let s := { running with dev := { running.dev with exchanged := [0] } }; s.dev.exchanged.contains 0 = true ∧ s.dev.started.contains 0 = false) ∧
    (let s := { running with dev := { running.dev with late := [0] } }; s.dev.late.contains 0 = true ∧ domainOn s 6 = true) := by decide +kernel

/-- Bank A holds one word of pass A: port slot 0 to engine input 0x1400 by gain 0. -/
def routed : State := (running.setReg .FABRIC_BANK_A_LEN 0 1)

theorem witness_FabricPasses : turnsOn routed = true ∧ domainOn routed 3 = true ∧ (passWords routed false).length = 1 ∧ alive routed = true ∧
    (∀ x ∈ passWords routed false, ∀ a ∈ wordAddrs routed x.1 x.2, upsetOf routed a ≠ 2) ∧
    (let s := { routed with upset := [(0x3C000000, 2)] }; ¬ ∀ x ∈ passWords s false, ∀ a ∈ wordAddrs s x.1 x.2, upsetOf s a ≠ 2) := by
  decide +kernel

theorem witness_Quiescence : turnsOn running = true := by decide +kernel

theorem witness_FabricControl : routeAct armed = 0 ∧ gainAct armed = 0 ∧ landsAt (.core 0) (routeAddr 0 65535 + 4) armed = true ∧
    landsAt (.core 0) (routeAddr 1 65535 + 4) armed = true ∧ landsAt (.core 0) (gainAddr 1 4095) armed = true ∧
    lands (.core 0) .FABRIC_BANK_B_LEN 0 armed = true ∧ armed.safe.mirrors = [] ∧ armed.fab.hold = false ∧
    lands (.core 0) .FABRIC_SIL_THRESH_n 3 armed = true ∧ lands (.core 0) .FABRIC_SIL_HOLD_n 3 armed = true ∧
    lands (.core 0) .FABRIC_QUIET_n 7 armed = true ∧ lands (.core 0) .FABRIC_TONE_n_INC 7 armed = true ∧ domainOn armed 3 = true ∧
    (let s := { armed with fab := { armed.fab with chkRun := [1] } }; s.fab.chkRun.contains 1 = true ∧ up s = true) := by decide +kernel

theorem witness_FabricControl_detector : hasDetector 0 = true ∧ landsAt (.core 0) 0x3C110000 armed = true ∧ silent armed 0 = false := by
  decide +kernel

/-- In the commit window a write to the shadow bank waits. -/
theorem witness_FabricControl_waits : let s := { running with fab := { running.fab with hold := true } }
    s.fab.hold = true ∧ routeAct s ≠ 1 ∧ (Initiator.core 0, 0x3C080000, (5 : Word)) ∉ s.fab.held ∧
    landsAt (.core 0) 0x3C080000 { s with fab := { s.fab with hold := false, held := [] } } = true := by decide +kernel

theorem witness_RateAndProbe : lands (.core 0) .SYS_TURN_CFG 0 running = true ∧ lands (.core 0) .SYS_TURN_CFG 0 armed = true ∧
    turnsOn armed = false ∧ lands (.core 0) .AON_FAULT_CLR 0 armed = true ∧ lands (.core 0) .SYS_PROBE_CTRL 0 testing = true ∧
    sysState testing = St.TEST ∧ turnsOn testing = true ∧ testing.bit .SYS_PROBE_RESULT 0 29 = false ∧
    (let s := { testing with dev := { testing.dev with probe := .running 256 } }; s.dev.probe = .running 256 ∧ domainOn s 3 = true ∧
      s.bit .SYS_PROBE_WATCH 0 16 = false ∧ passWords s false = []) := by decide +kernel

theorem witness_SectionRun : turnsOn running = true ∧ domainOn running 4 = true ∧ (∀ c : Fin 512, nsecOf (activeW1 running c) ≤ 64) := by
  decide +kernel

theorem witness_SectionRun_clean : ∀ (c : Fin 512) (i : Fin 64) (j : Fin 5),
    upsetOf running (coefAddr (chainSide running c) c + 32 * i + 4 * j) = 0 ∧ upsetOf running (stateAddr c + 32 * i + 4 * j) = 0 :=
  fun _ _ _ => ⟨rfl, rfl⟩

theorem witness_SectionControl : landsAt (.core 0) (stagedAddr 511 17) armed = true ∧ landsAt (.core 0) (stagedAddr 511 0) armed = true ∧
    armed.sect.holdChains.contains 511 = false ∧ fld (getSlot armed (stagedAddr 511 0)) 7 4 = fld 0x00000001 7 4 ∧
    landsAt (.core 0) (coefAddr 1 511 + 32 * 63 + 4 * 4) armed = true ∧ landsAt (.core 0) (stateAddr 511 + 32 * 63 + 4 * 7) armed = true ∧
    chainSide armed 511 = 0 ∧ chainEn armed 511 = false ∧ chainEn (armed.setReg .SECTION_EN_w 15 0x80000000) 511 = true ∧
    lands (.core 0) .SECTION_CLR 0 armed = true ∧ lands (.core 0) .SECTION_CLR 0 running = true ∧ domainOn armed 4 = true ∧
    (let s := { armed with sect := { armed.sect with chkRun := [511] } }; s.sect.chkRun.contains 511 = true) := by decide +kernel

/-- Two periods of an I²S frame of 64 BCK periods, and the states of port 63 in LOCKED as a slave, and in SEARCH. -/
def i2s : PortFrame := ⟨0, 8192, (List.range 192).map (fun k => ⟨decide (32 ≤ k % 64), false, false, false⟩)⟩
def slave : State := armed.setReg .SAP_CFG 63 0x00022001
def sapIn (n : Nat) : State := slave.setF .SAP_STAT 63 31 29 n

theorem witness_Ports : lands (.core 0) .SAP_CTRL 63 armed = true ∧ lands (.core 0) .SAP_CFG 63 armed = true ∧
    lands (.core 0) .ASRC_CH_n_CFG 255 armed = true ∧ up armed = true ∧ domainOn armed (domPort 63) = true ∧ domainOn armed 5 = true ∧
    (readPins slave 63 i2s).isSome = true ∧ readPins slave 63 ⟨0, 0, []⟩ = none ∧
    (readPins slave 63 i2s).map (fun r => frameGood slave 63 r) = some true ∧
    sapState (sapIn Sap.LOCKED) 63 = Sap.LOCKED ∧ sapState (sapIn Sap.SEARCH) 63 = Sap.SEARCH ∧ sapMode slave 63 = 1 ∧
    sapMode (slave.setF .SAP_CFG 63 1 0 2) 63 = 2 ∧ slave.port.fails = [] := by decide +kernel

theorem witness_Guards : turnsOn running = true ∧ running.bit .SYS_STATE 0 4 = false ∧
    (let s := { running with port := { running.port with on := [0] } }
     guardPorts s ++ guardLinks s ≠ [] ∧ (guardPorts s ++ guardLinks s).Nodup ∧ faultChannels s = [] ∧ s.guard.muted = [] ∧
     s.guard.outMuted = [] ∧ ∀ a ∈ guardPorts s ++ guardLinks s,
      s.f .GUARD_PROF_n_DC (guardProf s a) 31 28 = 0 ∧ s.f .GUARD_PROF_n_HOLD (guardProf s a) 15 0 = 0) ∧
    (running.setBit .SYS_STATE 0 4 true).bit .SYS_STATE 0 4 = true ∧
    lands (.core 0) .GUARD_PFAULT_w 31 armed = true ∧ lands (.core 0) .GUARD_LFAULT_l 7 armed = true := by decide +kernel

/-- Members of every kind to flip at a running boundary, and in the turn it starts; and a start held by a relock. -/
theorem witness_Boundary_flips :
    let s := { running with safe := { running.safe with flipFab := [.route, .gain], flipNext := [.chain 511, .palette 63, .prog 7], decided := [⟨[15], []⟩] } }
    (∀ x ∈ s.safe.flipFab ++ s.safe.flipEng ++ s.safe.flipNext, domainOn s (memberDomain x) = true ∧ inRequest s (memberDomain x) = false) ∧
    s.safe.flipFab.Nodup ∧ (∀ x ∈ s.safe.flipFab, fabricSide x = true) ∧ s.safe.strokes = [] ∧ s.dev.relockEnd = false ∧
    (let t := { armed.setBit .SYS_STATE 0 21 true with dev := { armed.dev with starting := true } }
     t.dev.starting = true ∧ t.bit .SYS_STATE 0 21 = true ∧ holdCause t ≠ 0) := by decide +kernel

theorem witness_TurnMiddle_flips : let s := { running with safe := { running.safe with flipEng := [.chain 511, .palette 0, .prog 7], doneDue := [⟨[0, 15], []⟩] } }
    s.safe.flipEng.Nodup ∧ (∀ x ∈ s.safe.flipEng, (match x with | .chain k => decide (k < 512) | _ => true) = true) ∧
    (∀ e f : Fin 64, physOf s e = physOf s f → e = f) ∧ s.safe.doneDue = [⟨[0, 15], []⟩] ∧ [0, 15].Nodup ∧ (∀ g ∈ [0, 15], g < 16) ∧
    s.dev.late.contains 0 = false ∧ s.dev.swapped = [] ∧ s.sect.held = [] := by decide +kernel

theorem witness_Quiescence_detectors : running.wmemWf = true ∧ (∀ e ∈ running.wmem, e.1 % 4 = 0) ∧ domainOn running 3 = true ∧
    passWords running true = [] ∧ alive running = true ∧ running.dev.exch = [] ∧ running.sect.held = [] ∧ running.fab.held = [] ∧
    running.safe.decided = [] ∧ (let s := { running with wmem := [(0x3C11A000, 1)] }; bitOf (detCfg s 0x2800) 0 = true) := by decide +kernel

/-- Chain 0 runs one section, with a double-bit error in a coefficient and in a state word. -/
theorem witness_SectionRun_broken : let s := { running.setReg .SECTION_EN_w 0 1 with wmem := [(activeAddr 0 1, 1)] }
    chainEn s 0 = true ∧ chainMuted s 0 = false ∧ nsecOf (activeW1 s 0) = 1 ∧
    upsetOf { s with upset := [(coefAddr 0 0 + 4 * 4, 2)] } (coefAddr (chainSide s 0) 0 + 32 * 0 + 4 * 4) = 2 ∧
    upsetOf { s with upset := [(stateAddr 0, 2)] } (stateAddr 0 + 32 * 0 + 4 * 0) = 2 := by decide +kernel

/-- A channel whose sample clips, in its first evaluation past the limit. -/
theorem witness_Guards_fault :
    let s := ((running.setF .GUARD_PROF_n_HOLD 0 15 0 1).setF .GUARD_PROF_n_CEIL 0 22 0 16)
    let s := { s with port := { s.port with on := [0], stage := [(0, 17)] } }
    0 ∈ guardPorts s ∧ guardProf s 0 = 0 ∧ guardFaulty s 0 = false ∧ s.f .GUARD_PROF_n_HOLD 0 15 0 = 1 ∧
    s.f .GUARD_PROF_n_CEIL 0 22 0 = 16 ∧ ofSample (Store.get zeroOf s.port.stage 0) = 17 ∧ s.bit .GUARD_FIRST_0 0 31 = false := by decide +kernel

/-! Links and messages. -/

/-- Link 0 of a device in RUN, in a state, its domain and the synthesiser on. -/
def linkIn (st : Nat) : State := running.setF .LINK_STAT 0 31 28 st

/-- A frame at the highest rate, as symbols, and two that its receiver refuses. -/
def sent4 : TxFrame := ⟨true, false, false, false, 2, true, 2, false, 0x1234, 5, 6, 3, [(512 * 3 + 1, 0x123456)],
  [⟨.reroute, 1, 2, 3, 4, 5, 6⟩], false, false⟩
def goodFrame : LinkFrame := ⟨64, 0, sent4.symbols⟩
def shortFrame : LinkFrame := ⟨64, 0, sofSet ++ eofSet⟩
def commaFrame : LinkFrame := ⟨64, 0, .data 0 :: commaK28_5 :: []⟩

/-- The frame is read as it was sent (R280, R281, R294). -/
theorem test_frame_symbols : (readFrame goodFrame).map (fun r => (r.rxOk, r.stop, r.pos, r.posValid)) = some (true, false, 2, true) ∧
    (readFrame goodFrame).map (fun r => (r.rate, r.seq, r.hold, r.echo)) = some (2, 0x1234, 5, 6) ∧
    (readFrame goodFrame).map (fun r => (r.link, r.audio.getD 1 0, r.audio.length)) = some (3, 0x123456, 128) ∧
    (readFrame goodFrame).map (fun r => r.msgs) = some [⟨.reroute, 1, 2, 3, 4, 5, 6⟩] := by
  set_option maxRecDepth 200000 in decide +kernel

theorem witness_LinkStates : lands (.core 0) .LINK_CTRL 7 armed = true ∧ up (linkIn Lk.UP) = true ∧ domainOn (linkIn Lk.UP) (domLink 0) = true ∧
    (∀ st ∈ [Lk.IDLE, Lk.SIGNAL, Lk.ALIGN, Lk.TRAIN, Lk.UP, Lk.FAULT_RX, Lk.RETIRED], linkState (linkIn st) 0 = st) ∧
    readFrame shortFrame = none ∧ violations shortFrame.syms = 0 ∧ commaOut shortFrame.syms = false ∧
    readFrame commaFrame = none ∧ commaOut commaFrame.syms = true ∧ (linkIn Lk.UP).link.retiring = [] ∧ turnsOn (linkIn Lk.UP) = true ∧
    turnsOn (armed.setF .LINK_STAT 0 31 28 Lk.UP) = false ∧ (linkIn Lk.UP).synth.use.refSel ≠ 8 ∧
    bitOf 0x00000001 4 = false ∧ bitOf 0x00000001 5 = false ∧ bitOf 0x00000021 4 = false ∧ bitOf 0x00000011 5 = false := by decide +kernel

/-- Link 0 UP, position 3 known, no head of a ring. -/
def member3 : State := ((linkIn Lk.UP).setBit .LINK_POS 0 4 true).setF .LINK_POS 0 3 0 3
def toUs : Msg := ⟨.readReq, 3, 0, 1, 0, 0x18000000, 0⟩
def claimMsg : Msg := ⟨.owner, 3, 0, 1, 0, 0x40000040, 0x64000001⟩

theorem witness_LinkMessages : up member3 = true ∧ domainOn member3 (domLink 0) = true ∧ linkState member3 0 = Lk.UP ∧ isHead member3 = false ∧
    toUs.dst.val = member3.f .LINK_POS 0 3 0 ∧ toUs.src.val = 0 ∧ credit 3 member3 = true ∧ domainOn member3 2 = true ∧
    regionOf toUs.addr.toNat = .hub ∧ toUs.addr.toNat % 4 = 0 ∧ isOwner member3 3 = false ∧ ({ toUs with dst := 4 } : Msg).dst.val ≠ 3 ∧
    ({ toUs with src := 1 } : Msg).src.val ≠ 0 ∧ Reg.addr .LINK_CTRL 0 = 0x43000000 ∧
    lands (.host 3) .LINK_CTRL 0 (ownedBy 3 member3) = true ∧ lands (.host 3) .SYS_OWNER_CLAIM 0 member3 = true ∧
    ownerValid member3 = false ∧ ownerValid (ownedBy 1 member3) = true ∧ ownerIdx (ownedBy 1 member3) ≠ 3 ∧
    lands (.core 0) .LINK_TUN_CMD 0 member3 = true ∧ lands (.host 3) .SYS_OWNER_CLAIM 0 (ownedBy 1 member3) = true := by decide +kernel

theorem witness_LinkMessages_ring : let s := member3.setBit .LINK_RING_CFG 0 31 true
    s.bit .LINK_RING_CFG 0 31 = true ∧ s.bit .LINK_RING_STAT 0 31 = false ∧ s.link.reroute = [] ∧
    (let t := { s with link := { s.link with reroute := [⟨2, 1, 0⟩], tun := some (1, true, 256) } }
     t.link.reroute.filter (fun r => decide (r.left ≤ 1)) = [⟨2, 1, 0⟩] ∧ t.link.tun.isSome = true) ∧
    isHead (s.setF .SYNTH_STATUS 0 31 29 1) = true := by decide +kernel

/-! The engines and safe-load. -/

/-- Engine 71, its program in B, and one that is retired. -/
def gone71 : State := armed.setBit .ENGC_RETIRE 7 8 true

theorem witness_EngineControl : engRetired gone71 71 = true ∧ lands (.core 0) .ENG_CTRL 71 gone71 = true ∧ engRetired armed 71 = false ∧
    lands (.core 0) .ENG_CTRL 71 armed = true ∧ lands (.core 0) .ENG_LANE_MAP 71 armed = true ∧ lands (.core 0) .ENG_DB 71 armed = true ∧
    lands (.core 0) .ENG_PROG_B 71 armed = true ∧ engRunning armed 71 = false ∧ engRunning atWord 0 = true ∧
    lands (.core 0) .ENG_LANE_MAP 0 atWord = true ∧ actProg armed 71 = 0 ∧ progDecided armed 71 = false ∧
    landsAt (.core 0) (progAddr 71 8191) armed = true ∧ progBase atWord 0 0 ≤ 3 ∧ 3 < progBase atWord 0 0 + progLen atWord 0 0 ∧
    up armed = true ∧ domainOn armed (domCluster 71) = true ∧ onBackup armed = true ∧ onBackup (armed.setBit .SYNTH_STATUS 0 25 false) = false ∧
    (let s := { armed with eng := { armed.eng with chk := [(143, 0x40000000)] } }; fld (engProgChk s 71) 31 30 = 1) ∧
    barred (.core 0) (laneAddr 71 3 16383) 4 armed = false ∧ jtagOpen 4 (laneAddr 71 3 16383) armed = true ∧
    (let s := { armed with eng := { armed.eng with busq := [⟨71, 3, 16383, some 1, .core 0⟩], wback := [(71, 3, 16383)] } }
     s.eng.busq = ⟨71, 3, 16383, some 1, .core 0⟩ :: [] ∧ s.eng.wback = (71, 3, 16383) :: []) := by decide +kernel

/-- Cluster 0 migrates its engine 0 to the spare; the copy is to come, and has been made. -/
def migrating (copied : Bool) (k : MigKind) : State :=
  { running with eng := { running.eng with mig := [⟨0, 0, 0, k, copied, 0⟩] } }

theorem witness_Migration : spareFree running 7 = true ∧ engRetired running (physOf running 56) = false ∧
    slotOf running (physOf running 56) = some 0 ∧ lands (.core 0) .ENGC_MIG_CTRL 7 running = true ∧
    migOf (migrating false .request) 0 = some ⟨0, 0, 0, .request, false, 0⟩ ∧ (slotOf running 0).isSome = true ∧ domainOn running 6 = true ∧
    (migrating false .request).canonical = true ∧ migReady (migrating true .request) ⟨0, 0, 0, .request, true, 0⟩ = true ∧
    quiescent running 0 = false ∧ running.dev.exchanged = [] ∧ lands (.core 0) .ENGC_REMAP 7 armed = true ∧
    lands (.core 0) .ENGC_RETIRE 7 armed = true ∧ lands (.core 0) .ENGC_RETIRE 7 running = true ∧
    dWords running 0 + 2 * pWords running 0 ≤ 16384 ∧
    (let slot (j : Nat) : Nat := fld 0x76543210 (4 * j + 3) (4 * j)
     (∀ j : Fin 8, slot j ≤ 8) ∧ (∀ i j : Fin 8, slot i = slot j → i = j) ∧ ∀ j : Fin 8, slot j = remapSlot armed 7 j) ∧
    (∃ i j : Fin 8, i ≠ j ∧ fld 0x11111111 (4 * i + 3) (4 * i) = fld 0x11111111 (4 * j + 3) (4 * j)) := by decide +kernel

theorem witness_Migration_clean : ∀ a, upsetOf (migrating false .doubleBit) a ≤ 1 := fun _ => Nat.zero_le 1

/-- Group 1 holds the gain table alone, and a request names it. -/
def pendGain (s : State) : State :=
  { s.setF .SAFE_FABRIC_GROUP 0 7 4 1 with safe := { s.safe with reqs := [⟨[1], []⟩] } }

theorem witness_Commits : lands (.core 0) .SAFE_COMMIT 0 armed = true ∧
    [pendGain running, pendGain armed].all (fun s => reqMembers s ⟨[1], []⟩ == [.gain] && !(reqMembers s ⟨[1], []⟩).any (memberBusy s) &&
      !(reqMembers s ⟨[1], []⟩).any (memberRefused s) && memberChains (reqMembers s ⟨[1], []⟩) == []) = true ∧
    turnsOn running = true ∧ running.dev.cutPast = false ∧ turnsOn armed = false ∧ (∀ d : Fin 34, domainOn armed d = true) ∧
    (∀ e f : Fin 64, physOf armed e = physOf armed f → e = f) ∧
    (let s := { armed with safe := { armed.safe with flipEng := [.palette 63] }, eng := { armed.eng with run := [(70, 0)] } }
     s.safe.flipEng = [.palette 63] ∧ physOf s 63 = 70 ∧ (runAt s 70).isSome = true) := by decide +kernel

/-- The busy and the refused member: route bank B under check, and with a refusal. -/
theorem witness_Commits_busy : let s := (running.setF .SAFE_FABRIC_GROUP 0 3 0 1)
    memberBusy { s with fab := { s.fab with chkRun := [1] } } .route = true ∧
    memberRefused { s with fab := { s.fab with chk := [(1, 0xC1000000)] } } .route = true ∧ groupOf s .route = 1 := by decide +kernel

def stroke0 (base : Nat) : Stroke := ⟨0, 1, 0xFFFF, 256, 0, base, 0, 0, false, false, false, false, false, false, false, false, []⟩
/-- One step at the lowest address of hub memory: its header, of one write in group 1, and the write of a gain. -/
def stroking : State :=
  let s := { running with safe := { running.safe with strokes := [stroke0 0x18000000] } }
  setBytes s 0x18000000 ([0x00010002, 0, 0x3C100000, 0x00100000].flatMap (fun n => bytesLE 4 n))

theorem witness_MirrorsAndStrokes : up armed = true ∧ domainOn armed 2 = true ∧ armed.safe.mirrors.find? (fun x => x.group == 15) = none ∧
    (let s := { armed with safe := { armed.safe with mirrors := [⟨15, [.gain], false, []⟩, ⟨14, [.palette 63], true, []⟩] } }
     (s.safe.mirrors.find? (fun x => x.group == 15)).isSome = true ∧ (s.safe.mirrors.find? (fun x => x.group == 14)).isSome = true ∧
      dWords s (physOf s 63) + 2 * pWords s (physOf s 63) ≤ 16384 ∧ engRetired s (physOf s 63) = false ∧ s.eng.mig = []) ∧
    lands (.core 0) .SAFE_STROKE_n_CTRL 7 armed = true ∧ strokeOf armed 7 = none ∧ strokeBaseOk 0x18000000 = true ∧
    (armed.setReg .SAFE_STROKE_n_BASE 7 0x18000000).reg .SAFE_STROKE_n_BASE 7 = 0x18000000 ∧ strokeBaseOk 0x20000000 = false ∧
    strokeOf stroking 0 = some (stroke0 0x18000000) ∧ lands (.core 0) .SAFE_STROKE_n_CTRL 0 stroking = true := by decide +kernel

theorem witness_MirrorsAndStrokes_clean : ∀ a, upsetOf armed a = 0 := fun _ => rfl

theorem witness_MirrorsAndStrokes_step : turnsOn stroking = true ∧ getWord stroking 0x18000000 = 0x00010002 ∧
    headerBad (getWord stroking 0x18000000) (getWord stroking 0x18000004) = false ∧
    fld (getWord stroking 0x18000000) 23 16 = 1 ∧ bitOf (getWord stroking 0x18000008) 1 = false ∧
    fld (getWord stroking 0x18000000) 15 0 &&& (stroke0 0).groups = fld (getWord stroking 0x18000000) 15 0 ∧
    headerBad 0xFF000000 0 = true ∧ fenceClosed stroking = false ∧ domainOn stroking 3 = true ∧
    ((getWord stroking 0x18000008).toNat / 4 * 4) / 0x4000 = 0xF040 := by decide +kernel

/-! DMA, timers, the scheduler. -/

/-- Channel 31 in a state; and one that moves 64 bytes from one hub area to another. -/
def dmaIn (k : Nat) : State := armed.setReg .DMA_CH_n_STAT 31 (BitVec.ofNat 32 (k * 2 ^ 29))
def move64 : DmaJob := ⟨31, .move, [0x18000000, 0x18001000, 64, 0, 0, 0, 0, 0], 0, 0, []⟩
def moving : State := { dmaIn Dma.RUN with dma := { armed.dma with jobs := [move64] } }

theorem witness_DmaControl : lands (.core 0) .DMA_CH_n_CTRL 31 armed = true ∧
    (∀ k ∈ [Dma.OFF, Dma.IDLE, Dma.RUN, Dma.PAUSED, Dma.HALTED], dmaState (dmaIn k) 31 = k ∧ lands (.core 0) .DMA_CH_n_CTRL 31 (dmaIn k) = true) ∧
    sysState armed ≠ St.HALT ∧ sysState halt = St.HALT ∧ dmaState halt 31 = Dma.OFF ∧ dmaPend (dmaIn Dma.IDLE) 31 = false ∧
    Store.get natZero armed.dma.trig 31 ≠ armed.time.hub + 1 ∧ bitOf 0x00000005 0 = true ∧ bitOf 0x00000005 2 = true ∧
    dmaErr ((dmaIn Dma.HALTED).setF .DMA_CH_n_STAT 31 28 26 2) 31 = 2 ∧ (dmaIn Dma.HALTED).bit .DMA_CH_n_ERRDIR 31 3 = false ∧
    ((dmaIn Dma.HALTED).setBit .DMA_CH_n_ERRDIR 31 3 true).bit .DMA_CH_n_ERRDIR 31 3 = true := by decide +kernel

theorem witness_DmaAndTimers : up moving = true ∧ domainOn moving 2 = true ∧ sysState moving ≠ St.HALT ∧ dmaState moving 31 = Dma.RUN ∧
    jobOf moving 31 = some move64 ∧ move64.len = 64 ∧ move64.src % 4 = 0 ∧ move64.dst % 4 = 0 ∧ move64.srcFix = false ∧ move64.dstFix = false ∧
    move64.trigout = false ∧ move64.tok = false ∧ moving.dma.failed = [] ∧ fenceClosed moving = false ∧ moving.boot.load = none ∧
    readable moving false 0x00040000 4 = false ∧ jobOf (dmaIn Dma.IDLE) 31 = none ∧ lands (.core 0) .TIMER_n_CTRL 7 armed = true ∧
    armed.timer.on.contains 7 = false ∧
    (let s := { armed with timer := { armed.timer with on := [7], period := [(7, 8)] }, time := { armed.time with hub := 8 } }
     s.timer.on.contains 7 = true ∧ timerMode s 7 = false ∧
      Store.get natZero s.timer.start 7 + Store.get natZero s.timer.period 7 ≤ s.time.hub) := by decide +kernel

/-- A descriptor at 0x18000000 that is fetched: counted, and at the limit of one descriptor. -/
theorem witness_DmaAndTimers_fetch : let s := (dmaIn Dma.RUN).setReg .DMA_CH_n_CUR 31 0x18000000
    let s := { s with dma := { s.dma with jobs := [⟨31, .fetch true, [], 0, 0, []⟩] } }
    (jobOf s 31).map (fun j => j.stage) = some (.fetch true) ∧ (s.reg .DMA_CH_n_CUR 31).toNat % 32 = 0 ∧ s.f .DMA_CH_n_CFG 31 31 16 = 0 ∧
    (let t := (s.setF .DMA_CH_n_CFG 31 31 16 1).setF .DMA_CH_n_STAT 31 15 0 1
     t.f .DMA_CH_n_CFG 31 31 16 ≠ 0 ∧ t.f .DMA_CH_n_CFG 31 31 16 ≤ t.f .DMA_CH_n_STAT 31 15 0) := by decide +kernel

/-- A write of channel 31 to hub memory, where it stands and whether its descriptor has completed; a channel with one such write. -/
def write31 (k : WriteStage) (done : Bool) : DmaWrite := ⟨31, 0x18001000, wordBytes 0x18001000 7, k, done⟩
def written (n : Nat) (l : List DmaWrite) (halt : Bool) : State :=
  let u := (dmaIn n).setBit .DMA_CH_n_ERRDIR 31 3 halt
  { u with dma := { u.dma with failed := l.filter (fun w => w.stage != .sent), sent := l.filter (fun w => w.stage == .sent) } }

theorem witness_DmaControl_writes :
    (let s := written Dma.HALTED [write31 .told true] true
     s.dma.failed.filter (fun w => w.ch == 31 && w.stage == .told) = [write31 .told true] ∧ s.bit .DMA_CH_n_ERRDIR 31 3 = true ∧
      (∀ x ∈ (write31 .told true).bytes, 0x18000000 ≤ x.1 ∧ x.1 < 0x18400000) ∧ barred (.dma 31) 0x18001000 4 s = false) ∧
    (let j := { move64 with rd := 1, buf := [1, 2, 3, 4] }
     let s := { dmaIn Dma.RUN with dma := { armed.dma with jobs := [j] } }
     jobOf s 31 = some j ∧ j.dir = 1 ∧ (∀ x ∈ j.writeBytes, j.open_ x = false) ∧
      (j.writeBytes.zip j.buf).map (fun x => x.1) = [0x18001000, 0x18001001, 0x18001002, 0x18001003]) ∧
    (dmaInFlight 31 (dmaIn Dma.IDLE)).1 = [] := by decide +kernel

/-- Writes in error of a channel in IDLE, of one in HALTED and of one whose FENCE descriptor is in hand; one issued again whose domain
sleeps; one that gets no answer; and a next access to a domain that sleeps. -/
theorem witness_DmaAndTimers_late :
    (let s := written Dma.IDLE [write31 .failed true] false
     s.dma.failed.find? (fun w => w.ch == 31 && w.addr == 0x18001000 && w.stage == .failed) = some (write31 .failed true) ∧
      dmaTakes s 31 = true ∧ dmaTakes (written Dma.HALTED [write31 .failed true] false) 31 = false) ∧
    (let j : DmaJob := ⟨31, .move, [0x18000000, 0x18001000, 0, 0x40, 0, 0, 0, 0], 0, 0, []⟩
     let s := written Dma.RUN [write31 .failed true] false
     let s := { s with dma := { s.dma with jobs := [j] } }
     jobOf s 31 = some j ∧ j.dir = 3 ∧ j.fence = true ∧ dmaFailed s 31 = [write31 .failed true] ∧ noneAgain s = true) ∧
    (let w : DmaWrite := ⟨31, 0x3C000000, wordBytes 0x3C000000 7, .again, true⟩
     let s := (written Dma.RUN [w] false).setF .PWR_STATE_w 0 7 6 Dom.RET
     s.dma.failed = [w] ∧ takesWrites 0x3C000000 = true ∧ barred (.dma 31) 0x3C000000 4 s = false ∧ domainOn s (domainAt 0x3C000000) = false) ∧
    (let s := written Dma.PAUSED [write31 .sent true] false
     s.dma.sent.find? (fun w => w.ch == 31 && w.addr == 0x18001000) = some (write31 .sent true) ∧ dmaTakes s 31 = true) ∧
    (let s := moving.setF .PWR_STATE_w 0 13 12 Dom.RET
     domainAt 0x10000000 = 6 ∧ domainDown s 6 = true ∧ inRequest s 6 = false) := by decide +kernel

/-- A host token of tag 5, slot 1, for a descriptor of two operands in class 1. -/
def tok5 : Tok := ⟨5, 1, 9⟩
def tokens (opens : List Item) : State :=
  let s := armed.setReg .SCHED_DESC0_t 5 0x94000000
  { s with sched := { s.sched with hostQ := [tok5], opens := opens } }
def open5 (k : Nat) : Item := ⟨5, 1, 1, 0, false, 2, 0xFFFF, (List.range 4).map (fun j => if j = k then some 7 else none), none, false, 0, 0, 0⟩

theorem witness_TokensAndDispatch : lands (.core 0) .SCHED_HOST_TOK_PUSH 0 armed = true ∧ (tokens []).sched.hostQ = tok5 :: [] ∧
    (tokens []).sched.coreQ = [] ∧ (tokens []).eng.tokq = [] ∧ bitOf ((tokens []).reg .SCHED_DESC0_t 5) 31 = true ∧
    fld ((tokens []).reg .SCHED_DESC0_t 5) 27 26 + 1 = 2 ∧ entryFree (tokens []) 1 = true ∧
    (tokens [open5 0]).sched.opens.find? (fun i => i.tag == 5 && (i.ops.getD 1 none).isNone && decide (1 < i.nops)) = some (open5 0) ∧
    filled { open5 0 with ops := (open5 0).ops.set 1 (some 9) } = true ∧ filled (open5 0) = false ∧
    ((open5 0).pool.testBit 1 = true ∧ 1 ∉ resCores (tokens [open5 0]) ∧ coreGone (tokens [open5 0]) 1 = false) ∧
    (onChip (tokens []) 1).length < 64 ∧ bitOf (armed.reg .SCHED_DESC0_t 6) 31 = false := by decide +kernel

/-- Core 1 waits in GET; an item of class 0, and one of class 2, is ready. -/
def dispatching (c : Nat) : State :=
  let s := (armed.setBit .SCHED_CTRL 0 0 true).setF .SCHED_CORE_n_STAT 1 31 29 2
  let it : Item := { item1 with own := c, lst := c }
  { s with sched := { s.sched with ready := [it] } }

theorem witness_TokensAndDispatch_sent : (dispatching 0).bit .SCHED_CTRL 0 0 = true ∧ sysState (dispatching 0) ≠ St.HALT ∧
    (choose (dispatching 0) (pickC0 (dispatching 0) (idleCores (dispatching 0))) 0).isSome = true ∧
    choose (dispatching 1) (pickC0 (dispatching 1) (idleCores (dispatching 1))) 0 = none ∧
    ((dispatching 1).sched.rr - 1) % 3 + 1 = 1 ∧ creditOf (dispatching 1) 1 ≠ 0 ∧
    (choose (dispatching 1) (pickC (dispatching 1) (idleCores (dispatching 1))) 1).isSome = true ∧
    (∀ c : Fin 4, onChip armed c = []) := by decide +kernel

theorem witness_ItemsAndCores : up armed = true ∧ domainOn armed 2 = true ∧ armed.bit .SCHED_TRACE_CTRL 0 0 = false ∧
    (let a : Await := ⟨{ item1 with seq := some 0 }, 0, some .finished, false, false⟩
     ({ armed with sched := { armed.sched with await := [a] } }).sched.await.find? (fun x => x.item.flow == 7 && x.item.seq == some 0) = some a) ∧
    lands (.core 0) .SCHED_CANCEL 0 armed = true ∧ inStore armed ++ armed.sched.spilled = [] ∧ item1.tag = fld 0x00000005 11 0 ∧
    (let s := { (armed.setF .SCHED_CLASS_CFG_c 3 27 8 0).setF .SCHED_CLASS_CFG_c 2 27 8 1 with sched := { armed.sched with ready := [{ item1 with lst := 2 }] }, time := { armed.time with hub := 17 } }
     s.f .SCHED_CLASS_CFG_c 3 27 8 = 0 ∧ (onChip s 2).head? = some { item1 with lst := 2 } ∧ s.f .SCHED_CLASS_CFG_c 2 27 8 ≠ 0 ∧
      16 * s.f .SCHED_CLASS_CFG_c 2 27 8 < s.time.hub - 0) ∧
    lands (.core 0) .SCHED_C0_RATE 0 armed = true ∧ lands (.core 0) .SCHED_FLOW_f 1023 armed = true ∧
    lands (.core 0) .SCHED_SPILL_BASE 0 armed = true ∧ lands (.core 0) .SCHED_SPILL_SIZE 0 armed = true ∧
    lands (.core 0) .SCHED_CORE_n_CTRL 15 armed = true ∧ coreMode armed 15 = 0 ∧ coreMode State.reset 0 = 1 ∧
    armed.sched.refill + armed.f .SCHED_C0_RATE 0 15 0 ≤ 0x10000 := by decide +kernel

/-- A spill: one item waits while 64 stand on chip; an unspill: one item stands in the ring of class 1. -/
theorem witness_ItemsAndCores_spill :
    (let s := { armed.setReg .SCHED_SPILL_BASE 0 0x18000000 with sched := { armed.sched with waiting := [{ item1 with born := 64 }], ready := (List.range 64).map (fun k => { item1 with born := k }) } }
     waitingOf s 1 = { item1 with born := 64 } :: [] ∧ 64 ≤ (onChip s 1).length ∧ (ringOf s 1).length < ringSize s ∧ 64 ∉ s.sched.bad) ∧
    (let s := { armed.setReg .SCHED_SPILL_BASE 0 0x18000000 with sched := { armed.sched with spilled := [item1] } }
     let u := setBytes s (ringAddr s 1 0) ((spillWords item1).flatMap bytesOfWord)
     ringOf u 1 = item1 :: [] ∧ u.sched.cancels = [] ∧ (onChip u 1).length ≤ 48 ∧ entryFree u 1 = true ∧
      fld (getWord u (ringAddr u 1 0 + 12)) 15 0 = 0xFFFF ∧ 1 ∉ resCores u ∧ coreGone u 1 = false) := by decide +kernel

/-- One lane of engine 0 executes, at a word of its delay memory with a single-bit error, or with a double-bit one; and that word with
three corrections before. -/
theorem witness_EngineControl_checkBits :
    let s := { atWord with eng := { atWord.eng with null := [(laneHart 0 1, 5), (laneHart 0 2, 5), (laneHart 0 3, 5)] } }
    let op : MemOp := ⟨.delay, .imm 0⟩
    liveLanes s 0 = [0] ∧ engReady 0 s = true ∧ fetched 0 s = s ∧ slotOf s 0 = some 0 ∧ engRetired s 0 = false ∧
    (Instr.ldx (.eng 0) 3 (.mem op)).wellFormed = true ∧ opReach s (laneHart 0 0) op = .word 0 ∧ spareFree s 0 = true ∧
    upsetOf { s with upset := [(laneAddr 0 0 0, 1)] } (laneAddr 0 0 0) = 1 ∧ (0, 0, 0) ∉ s.eng.corrected ∧
    s.eng.faultTab = [] ∧ (let t := { s with eng := { s.eng with faultTab := [⟨0, 0, 0, 3, 0⟩] } }
      (t.eng.faultTab.find? (fun x => x.pe == 0 && x.lane == 0 && x.word == 0)).map (fun x => x.count) = some 3) := by decide +kernel

/-- A STOP beside a step that has begun, and beside one whose commit is still to be recorded. -/
theorem witness_MirrorsAndStrokes_stop : let k := stroke0 0x18000000
    strokeOf { running with safe := { running.safe with strokes := [{ k with begun := true }] } } 0 = some { k with begun := true } ∧
    strokeOf { running with safe := { running.safe with strokes := [{ k with comm := true, fin := true }] } } 0 =
      some { k with comm := true, fin := true } ∧ stroking.safe.flipEng = [] ∧ stroking.fab.held = [] ∧ stroking.safe.strokes = [stroke0 0x18000000] ∧
    armed.safe.flipEng = [] := by decide +kernel

theorem witness_ItemsAndCores_gone : armed.sched.gone = [] ∧ sysState halt = St.HALT ∧ fenceClosed armed = false ∧ armed.boot.load = none ∧
    armed.sched.cancels = [] ∧
    (let s := { armed.setReg .SCHED_SPILL_BASE 0 0x18000000 with sched := { armed.sched with spilled := [item1] }, upset := [(ringAddr armed 1 0 + 28, 2)] }
     ringOf s 1 = item1 :: []) ∧
    (let s := { armed with sched := { armed.sched with ready := [{ item1 with seq := some 32767 }] } }
     s.sched.await = [] ∧ item1.readyAt = s.time.hub) := by decide +kernel

/-! The synthesiser and power. -/

/-- A loop of 48 kHz times 65,536, in band 3, in a state and enabled or not. -/
def loop48 : LoopCfg := ⟨0x80000000, 48000, 1, 65536, 0, 1⟩
def syn (st : Nat) (en : Bool) (s : State) : State :=
  let u := ((s.setReg .SYNTH_STATUS 0 (BitVec.ofNat 32 (st * 2 ^ 29 + 3 * 2 ^ 16))).setReg .SYNTH_BAND_n 3 0x00CE4BB8).setBit .SYNTH_CTRL 0 0 en
  { (u.setReg .SYNTH_REF_FREQ 0 48000) with synth := { u.synth with use := loop48 } }
def locked : State := syn Syn.LOCKED true armed

theorem witness_Synthesiser : lands (.core 0) .SYNTH_CTRL 0 locked = true ∧ up locked = true ∧ domainOn locked 1 = true ∧
    (∀ k ∈ [Syn.OFF, Syn.CAL, Syn.ACQUIRE, Syn.LOCKED, Syn.COAST], synState (syn k true armed) = k) ∧ synEn (syn Syn.OFF false armed) = false ∧
    (stagedCfg locked).cfg = 0x80000000 ∧ (stagedCfg locked).num.toNat < (stagedCfg locked).den.toNat ∧ fld (stagedCfg locked).cfg 3 0 < 8 ∧
    inBand loop48 0 (locked.reg .SYNTH_BAND_n 3) = true ∧ (∀ j : Fin 32, j < 3 → inBand loop48 0 (locked.reg .SYNTH_BAND_n j) = false) ∧
    (∀ j : Fin 32, inBand loop48 0 ((locked.setReg .SYNTH_BAND_n 3 0).reg .SYNTH_BAND_n j) = false) ∧
    locked.synth.use.refSel < 8 ∧ rampRun locked = false ∧ inBand loop48 10000000 (locked.reg .SYNTH_BAND_n 3) = true ∧
    turnsOn locked = false ∧ turnsOn (syn Syn.LOCKED true running) = true ∧ onBackup locked = false ∧
    (locked.setBit .SYS_STATE 0 23 true).bit .SYS_STATE 0 23 = true ∧ (locked.setBit .SYNTH_STATUS 0 24 true).bit .SYNTH_STATUS 0 24 = true ∧
    (0 : Int).natAbs ≤ 2 := by decide +kernel

theorem witness_Synthesiser_writes : lands (.core 0) .SYNTH_OUT_n_CFG 11 locked = true ∧ locked.bit .SYNTH_OUT_n_CFG 11 31 = false ∧
    (locked.setBit .SYNTH_OUT_n_CFG 11 31 true).bit .SYNTH_OUT_n_CFG 11 31 = true ∧ 3145728000 ≤ locked.f .SYNTH_CEIL_n 11 20 0 * 1000 * 4096 ∧
    ¬ (3145728000 ≤ locked.f .SYNTH_CEIL_n 11 20 0 * 1000 * 1) ∧ Store.get natZero locked.synth.trips 11 ≠ locked.time.hub + 1 ∧
    lands (.core 0) .SYNTH_BAND_n 31 (syn Syn.OFF false armed) = true ∧ lands (.core 0) .SYNTH_CEIL_n 11 locked = true ∧
    locked.bit .SYNTH_LOCK 0 0 = false ∧ (locked.setBit .SYNTH_LOCK 0 0 true).bit .SYNTH_LOCK 0 0 = true ∧ lands (.core 0) .SYNTH_RAMP_CTRL 0 locked = true ∧
    fld 0x8000D6D8 20 0 = 55000 ∧ fld 0x8000D6D9 20 0 = 55001 ∧ alive locked = true := by decide +kernel

/-- A request that names cluster 0 and core group 3, its vote, and its entries. -/
def asking : State := armed.setReg .PWR_REQ_MASK_LO 0 0x00020040
def voting (busy : List Nat) : State :=
  { (asking.setF .PWR_REQ_STAT 0 31 30 1) with pwr := { asking.pwr with vote := some ⟨Dom.RET, [6, 17], [], some 14, busy, []⟩ } }
def entering (code : Nat) : State := { armed with pwr := { armed.pwr with enter := [(6, code)] } }
def waking (off : Bool) : State := { armed.setF .PWR_STATE_w 0 13 12 Dom.MOVING with pwr := { armed.pwr with wake := [(6, off)] } }

theorem witness_Power : lands (.core 0) .PWR_REQ_CTRL 0 asking = true ∧ asking.f .PWR_REQ_STAT 0 31 30 ≠ 1 ∧ sysState asking ≠ St.HALT ∧
    bitOf (asking.reg .PWR_REQ_MASK_LO 0) 6 = true ∧ domainOn asking 6 = true ∧ domainOn asking 17 = true ∧
    (voting []).f .PWR_REQ_STAT 0 31 30 = 1 ∧ (voting []).pwr.rising = [] ∧ lands (.core 0) .PWR_REQ_CTRL 0 (voting []) = true ∧
    (voting []).pwr.vote = some ⟨Dom.RET, [6, 17], [], some 14, [], []⟩ ∧ turnsOn (voting []) = false ∧
    (voting []).eng.mig.any (fun y => y.cl + 6 == 6) = false ∧ inFlight (voting []) 6 = false ∧ up (voting []) = true ∧
    (turnsOn (voting [6] |>.setReg .SYS_STATE 0 0x26) && !(voting [6] |>.setReg .SYS_STATE 0 0x26).bit .FABRIC_QUIET_STAT 0 0) = true ∧
    (∀ c ∈ [Dom.RET, Dom.OFF], (entering c).pwr.enter.find? (fun e => e.1 == 6) = some (6, c)) ∧
    (entering Dom.OFF).bit .AON_REG 0 8 = true ∧
    (∀ b : Bool, (waking b).pwr.wake.find? (fun w => w.1 == 6) = some (6, b) ∧ domainOn (waking b) 6 = false ∧ saveBroken (waking b) 6 = false) ∧
    saveBroken { waking true with upset := [(saveBase 6, 2)] } 6 = true ∧ alive (waking true) = true := by decide +kernel

theorem witness_Power_wakes : (armed.setReg .PWR_WAKE_EN 0 0x17000001).bit .PWR_WAKE_EN 0 28 = true ∧
    (armed.setReg .PWR_WAKE_EN 0 0x17000001).bit .PWR_WAKE_EN 0 24 = true ∧ armed.bit .PWR_WAKE_EN 0 0 = false ∧
    (armed.setBit .PWR_AON_TIMER_CTRL 0 0 true).bit .PWR_AON_TIMER_CTRL 0 0 = true ∧
    (let s := { ((armed.setReg .PWR_AUTO_RET 0 1).setBit .FABRIC_QUIET_STAT 0 0 true).setF .PWR_AUTO_RET_DELAY 0 15 0 3 with
        pwr := { armed.pwr with quiet := [(0, 4)] } }
     s.bit .PWR_AUTO_RET 0 0 = true ∧ domainOn s 6 = true ∧ s.bit .FABRIC_QUIET_STAT 0 0 = true ∧ inFlight s 6 = false ∧
      s.f .PWR_AUTO_RET_DELAY 0 15 0 < Store.get natZero s.pwr.quiet 0) ∧
    lands (.core 0) .PWR_AUTO_RET 0 armed = true ∧ { armed with pwr := { armed.pwr with stepping := true } }.pwr.stepping = true ∧
    (let s := armed
     s.bit .AON_REG 0 31 = true ∧ s.bit .AON_REG 0 8 = true ∧ s.pwr.stepping = false) ∧
    (let s := armed.setBit .AON_REG 0 8 false
     s.bit .AON_REG 0 31 = true ∧ s.bit .AON_REG 0 8 = false) ∧
    (let s := { armed.setF .PWR_STATE_w 0 13 12 Dom.RET with pwr := { armed.pwr with rising := [6] } }
     domainDown s 6 = true ∧ inRequest s 6 = false ∧ 6 ∈ s.pwr.rising) ∧ inRequest (voting []) 6 = true := by decide +kernel

theorem witness_Ports_pins : let s := { locked with port := { locked.port with on := [63], touched := [63] } }
    63 ∈ s.port.touched ∧ s.port.on.contains 63 = true ∧ sapState s 63 ≠ Sap.RETIRED ∧ sapMode s 63 = 0 ∧ rootRuns s = true ∧
    armed.port.on.contains 63 = false := by decide +kernel

theorem witness_LinkStates_line : let s := linkIn Lk.UP
    let c := { (syn Syn.LOCKED true s) with link := { s.link with crc := List.replicate 16 (0, 0), farStop := [1] } }
    synState c = Syn.LOCKED ∧ onBackup c = false ∧ sysState c ≠ St.HALT ∧ linkState c 0 = Lk.UP ∧ turnsOn c = true ∧
    (c.link.crc.filter (fun x => x.1 == 0 && decide (c.time.grid - x.2 ≤ 65535))).length = 16 ∧ c.link.retiring = [] ∧
    c.link.farStop.contains 0 = false ∧ c.link.farStop.contains 1 = true := by decide +kernel

/-! The SEC block. -/

/-- An image with the key ladder's seal rights, blank, version 3. -/
def sealer : State := (armed.setBit .SEC_STATUS 0 4 true).setF .SEC_BOOT_INFO 0 27 16 3
def sealing (isOpen : Bool) : State :=
  { sealer with boot := { sealer.boot with sealJob := some ⟨isOpen, 0x18000000, 0x18001000, 4, 3, 0⟩ } }

theorem witness_Security : lands (.core 0) .SEC_SEAL_CTRL 0 sealer = true ∧ sysState sealer = St.ARMED ∧ sysState halt = St.HALT ∧
    sealer.bit .SEC_SEAL_CTRL 0 30 = false ∧ (sealer.setF .SEC_SEAL_LEN 0 14 0 16384).f .SEC_SEAL_LEN 0 14 0 = 16384 ∧
    (sealer.setF .SEC_STATUS 0 17 16 2).f .SEC_STATUS 0 17 16 ≠ 0 ∧ sealer.f .SEC_STATUS 0 17 16 = 0 ∧ sealer.boot.sealJob = none ∧
    (∀ b, sealAsleep ⟨b, 0x18000000, 0x18001000, 4, 3, 0⟩ (sealing b) = []) ∧ (secRead (sealing false) 0x18000000 4).isSome = true ∧
    secTakes (sealing false) 0x18001000 52 = true ∧ secTakes (sealing false) 0x40000000 52 = false ∧ secRead (sealing false) 0x40000000 4 = none ∧
    (secRead (sealing true) 0x18000000 32).isSome = true ∧
    (let s := setBytes (sealing true) 0x18000000 ([0xA1, 0x5E, 0x00, 0x64, 3, 0, 0, 0, 4, 0, 0, 0])
     secRead s 0x18000000 32 = some ([0xA1, 0x5E, 0x00, 0x64, 3, 0, 0, 0, 4, 0, 0, 0] ++ List.replicate 20 0) ∧
      (secRead s 0x18000020 20).isSome = true) ∧
    lands (.core 0) .SEC_SEALED_LOAD_CTRL 0 sealer = true ∧ sealer.boot.load = none ∧ lands (.host 0) .SEC_FLOOR 0 (ownedBy 0 sealer) = true ∧
    lands (.host 0) .SEC_OTP_CTRL 0 (ownedBy 0 sealer) = true ∧ sealer.boot.otpBusy = none ∧
    (let s := sealer.setF .SEC_BOOT_INFO 0 27 16 64
     ((List.range 64).filter (fun i => bitOf (otpWord s (2 + i / 32)) (i % 32))).length < 1 ∧ 64 * 1 ≤ s.f .SEC_BOOT_INFO 0 27 16) ∧
    fld 0x64000010 31 16 = 0x6400 ∧ { sealer with boot := { sealer.boot with otpBusy := some (16, 1) } }.boot.otpBusy = some (16, 1) := by
  decide +kernel

theorem witness_Security_service : let s := { ownedBy 0 (armed.setF .SEC_STATUS 0 17 16 2) with boot := { armed.boot with otp := [(1, 0x60)] } }
    lands (.host 0) .SEC_SVC_CTRL 0 s = true ∧ s.bit .SEC_SVC_STAT 0 30 = false ∧ s.f .SEC_STATUS 0 17 16 = 2 ∧ fld (otpWord s 1) 6 5 = 3 ∧
    (s.setBit .SEC_SVC_STAT 0 29 true).bit .SEC_SVC_STAT 0 29 = true ∧ s.boot.svcAt ≠ s.time.hub + 1 ∧
    sysState (s.setF .SYS_STATE 0 3 0 St.SERVICE) = St.SERVICE := by decide +kernel

/-- A sealed load of one block at 0x18000000: a segment of one word for 0x18100000. -/
def blobAt : State :=
  { armed with
    mem := [(0x18000000, 0x5A), (0x18000001, 0x5A), (0x18000003, 0x64), (0x18000004, 1), (0x18000011, 0x10), (0x18000019, 1),
      (0x1800001C, 1), (0x18000102, 0x10), (0x18000103, 0x18), (0x18000105, 2), (0x18000108, 4), (0x18000200, 0x78)],
    boot := { armed.boot with load := some (0x18000000, 4100) } }

theorem witness_Security_load : up blobAt = true ∧ (∀ d : Fin 34, domainOn blobAt d = true) ∧
    headReason true blobAt.boot.floor (fun o => getByte blobAt (0x18000000 + o)) = 0 ∧ fenceClosed blobAt = false ∧
    (imgSegs (fun o => getByte blobAt (0x18000000 + o))).map (fun g => (g.dest, g.off, g.len)) = [(0x18100000, 512, 4)] ∧ isByteMem (regionOf 0x18100000) = true ∧
    headReason true armed.boot.floor (fun o => getByte armed (0x18000000 + o)) ≠ 0 := by decide +kernel

theorem witness_Security_load_format : formatBad true (some (0x18000000, 4100)) (fun o => getByte blobAt (0x18000000 + o)) = false := by
  set_option maxRecDepth 200000 in decide +kernel

/-! Host interfaces, ownership, events. -/

/-- Master 0 owns; one transaction of master 0 waits, with an entry of the pool. -/
def owner0 : State := ownedBy 0 armed
def waitsHost (cred : Bool) : State := { owner0 with host := { owner0.host with tx := [⟨0, 0x18000000, true, [7], 0, [], none, cred, true, 1⟩] } }

theorem witness_HostTransactions : up owner0 = true ∧ owner0.host.tx = [] ∧ (∀ k : Fin 5, jtagOpen k 0x18000000 owner0 = true ∨ k = 4) ∧
    isOwner owner0 0 = true ∧ isOwner owner0 1 = false ∧ domainOn owner0 2 = true ∧ fenceClosed owner0 = false ∧ owner0.boot.load = none ∧
    sysState owner0 ≠ St.HALT ∧ isOwner (ownedBy 0 halt) 0 = true ∧ jtagOpen 4 0x18000000 owner0 = true ∧
    (let s := owner0.setF .PWR_STATE_w 0 5 4 Dom.RET; domainOn s 2 = false) ∧
    (waitsHost true).host.tx = ⟨0, 0x18000000, true, [7], 0, [], none, true, true, 1⟩ :: [] ∧
    (waitsHost true).pwr.wake.any (fun y => y.1 == domainAt 0x18000000) = false ∧
    (let s := { owner0 with host := { owner0.host with tx := List.replicate 4 ⟨1, 0x18000000, true, [7], 0, [], none, true, true, 1⟩ } }
     s.host.tx.countP (fun y => y.cred) = 4 ∧ s.host.tx.any (fun y => y.m == 0) = false) ∧
    (List.replicate 17 (7 : Word)).length = 17 := by decide +kernel

theorem witness_HostTransactions_shut : jtagOpen 4 0x18000000 (owner0.setF .SEC_STATUS 0 17 16 2) = false := by decide +kernel

theorem witness_Ownership : lands (.host 4) .SYS_OWNER_CLAIM 0 armed = true ∧ fld 0x64000003 31 16 = 0x6400 ∧ armed.bit .SYS_OWNER 0 31 = false ∧
    owner0.bit .SYS_OWNER 0 31 = true ∧ owner0.f .SYS_OWNER 0 30 28 = 0 ∧ lands (.host 0) .SYS_HANDOVER 0 owner0 = true ∧
    lands (.host 4) .SYS_OWNER_CLAIM 0 (owner0.setF .SYS_STATE 0 3 0 St.SERVICE) = true ∧
    sysState (owner0.setF .SYS_STATE 0 3 0 St.SERVICE) = St.SERVICE ∧ owner0.host.seized = false ∧ fld 0x64000003 2 0 = 3 ∧
    (let s := owner0.setReg .SYS_OWNER 0 0x8B000000
     lands (.host 3) .SYS_ACCEPT 0 s = true ∧ s.bit .SYS_OWNER 0 27 = true ∧ s.f .SYS_OWNER 0 26 24 = 3) ∧
    (owner0.setF .SYS_LEASE 0 15 0 5).f .SYS_LEASE 0 15 0 ≠ 0 ∧ lands (.core 0) .SYS_LEASE 0 owner0 = true ∧ lands (.core 0) .EVT_SET_w 3 owner0 = true ∧
    (let s := owner0.setF .SYS_GPIO_CFG_i 15 3 2 3
     s.pins.gpio.toNat.testBit 15 = false ∧ s.f .SYS_GPIO_CFG_i 15 5 4 = 0 ∧ s.bit .PWR_WAKE_EN 0 15 = false) := by decide +kernel

/-! Supplies, reset and boot. -/

/-- Flash with two slots' headers where no directory stands: both candidates, slot 1 the newer. -/
def flashed : State :=
  let w (a : Nat) (x : Word) (f : Store Byte) : Store Byte :=
    (bytesOfWord x).zipIdx.foldl (fun f p => Store.set flashReset f (a + p.2) p.1) f
  let f := w 0x1000 0x6400A55A (w 0x1004 1 (w 0x1008 1 (w 0x801000 0x6400A55A (w 0x801004 1 (w 0x801008 2 [])))))
  { State.reset.setBit .SEC_STRAP 0 2 true with boot := { State.reset.boot with sfdp := true, flash := f } }

theorem witness_SuppliesAndReset : sysState (State.reset.setF .SYS_STATE 0 3 0 St.OFF) = St.OFF ∧
    sysState (State.reset.setF .SYS_STATE 0 3 0 St.POR) = St.POR ∧ sysState armed ≠ St.OFF ∧ sysState armed ≠ St.POR ∧
    armed.boot.otpBusy = none := by decide +kernel

theorem witness_BootSelect : State.reset.pending = [] ∧ sysState State.reset = St.ROM ∧
    (∀ k : Fin 4, bootMode (State.reset.setF .SEC_STRAP 0 1 0 k) = k) ∧ { State.reset with boot := { State.reset.boot with sfdp := false } }.boot.sfdp = false ∧ flashed.boot.sfdp = true ∧
    flashed.bit .SEC_STRAP 0 2 = true ∧ bitOf (otpWord flashed 1) 0 = false ∧
    (let s := { (ownedBy 0 State.reset).setF .SYS_STATE 0 3 0 St.RECOVERY with boot := { State.reset.boot with window := true } }
     s.boot.window = true ∧ sysState s = St.RECOVERY ∧ isOwner s 0 = true ∧ lands (.host 0) .SEC_BOOT_CTRL 0 s = true) ∧
    lands (.core 0) .SEC_BOOT_CTRL 0 armed = true := by decide +kernel

theorem witness_BootSelect_slots : let u := readDirectory flashed
    ∀ k : Fin 2, headReason false flashed.boot.floor (slotRd u k) = 0 ∧ flashed.f .SEC_SLOT_FAIL_n k 31 28 = 0 := by decide +kernel

/-- A run of listed bytes, read: the list's function inside the run, what an unlisted key reads as outside it. -/
theorem get_run {α : Type} (d f : Nat → α) : ∀ (n a o : Nat),
    Store.get d ((List.range' a n).map (fun k => (k, f k))) o = if a ≤ o ∧ o < a + n then f o else d o := by
  intro n
  induction n with
  | zero => intro a o; simp [Store.get]
  | succ n ih =>
    intro a o
    simp only [List.range'_succ, List.map_cons, Store.get, ih]
    by_cases h : o = a
    · subst h; simp
    · simp only [h, if_false]
      exact if_congr (by omega) rfl rfl

/-- A stream of one block, whose segment of one word goes to 0x18000000, where the image starts; and slot 0 in FETCH with it. -/
def imgByte : Nat → Byte := Store.get zeroOf [(0, 0x5A), (1, 0xA5), (3, 0x64), (4, 1), (0x11, 0x10), (0x17, 0x18), (0x19, 1), (0x1C, 1),
  (0x21, 4), (0x103, 0x18), (0x105, 2), (0x108, 4), (0x200, 0x78)]
def fetching : State :=
  { State.reset.setF .SYS_STATE 0 3 0 St.FETCH with
    boot := { State.reset.boot with
      sfdp := true, slotOff := [], flash := (List.range' 0 4096).map (fun k => (k, imgByte k)) } }

theorem fetching_slot : slotRd fetching 0 = fun o => if o < 4096 then imgByte o else 0xFF := by
  funext o
  have : slotRd fetching 0 o = Store.get flashReset ((List.range' 0 4096).map (fun k => (k, imgByte k))) (0 + o) := rfl
  rw [this, get_run]
  simp only [Nat.zero_le, Nat.zero_add, true_and]
  rfl

theorem witness_FetchComplete : sysState fetching = St.FETCH ∧ fetching.boot.window = false ∧ fetching.boot.load = none ∧
    (∀ d : Fin 34, domainOn fetching d = true) ∧ isByteMem (regionOf 0x18000000) = true ∧
    formatBad false none (slotRd { fetching with boot := { fetching.boot with flash := [] } } 0) = true := by decide +kernel

theorem witness_FetchComplete_format : formatBad false none (slotRd fetching 0) = false ∧
    (imgSegs (slotRd fetching 0)).map (fun g => (g.dest, g.off, g.len)) = [(0x18000000, 512, 4)] := by
  rw [fetching_slot]
  set_option maxRecDepth 200000 in decide +kernel

/-- An image of no blocks passes a blank device; one of a wrong block fails it. -/
theorem witness_VerifyComplete : (let s := State.reset.setF .SYS_STATE 0 3 0 St.VERIFY
     sysState s = St.VERIFY ∧ s.boot.place = false ∧ s.boot.slot < 2 ∧ lifecycle s = Life.BLANK ∧
      (badBlocks (copyByte s (imgSegs (stagedRd s)))).isEmpty = true) ∧
    (let s := (State.reset.setF .SYS_STATE 0 3 0 St.VERIFY).setF .SEC_STATUS 0 17 16 1
     tagOk s (copyByte s (imgSegs (stagedRd s))) = false) := by
  set_option maxRecDepth 200000 in decide +kernel

theorem witness_Synthesiser_holds : let s := (locked.setBit .SYS_STATE 0 23 true).setF .SYS_STATE 0 3 0 St.HOLD
    s.bit .SYS_STATE 0 23 = true ∧ turnsOn s = false ∧ alive s = true ∧ s.dev.pendCut = [] ∧ s.dev.starting = false ∧ effState s = St.HOLD ∧
    holdCause (s.setBit .SYS_STATE 0 23 false) = 0 ∧
    ((locked.setBit .SYNTH_RAMP_STAT 0 31 true).bit .SYNTH_RAMP_STAT 0 31 = true) ∧
    (let t := { locked with synth := { locked.synth with switched := locked.time.hub + 1 } }; t.synth.switched = t.time.hub + 1) ∧
    turnsDue { locked with dev := { locked.dev with starting := true } } = true := by decide +kernel

/-- A refused vote with a latched wake of a voter; a step of the regulator for a wake enable that a level meets; wakes met in this
HUBCLK cycle. -/
theorem witness_Power_vote : let w : Vote := ⟨Dom.RET, [6, 17], [], some 14, [], [17]⟩
    let s := { voting [] with pwr := { asking.pwr with vote := some w, latch := [(5, 6)], wokeAt := 1, firedAt := 1, fired := [(5, 6)] } }
    (∀ x ∈ w.voters ++ w.others ++ w.keeps, x < 34) ∧ s.pwr.vote = some w ∧ s.pwr.latch = [(5, 6)] ∧ s.pwr.stalled = [] ∧ s.host.tx = [] ∧
    s.dma.failed = [] ∧ s.safe.strokes = [] ∧ s.pwr.wokeAt = s.time.hub + 1 ∧ s.pwr.firedAt = s.time.hub + 1 ∧
    coreMode (s.setF .SCHED_CORE_n_STAT 15 31 29 1) 15 = 1 ∧
    (let t := { (armed.setF .SYS_GPIO_CFG_i 0 3 2 1) with pwr := { armed.pwr with stepping := true, waitEn := some 1 } }
     t.pwr.stepping = true ∧ t.pwr.waitEn = some 1) ∧
    slavePort { ((slave.setBit .SAP_CTRL 0 0 true).setF .SAP_CFG 0 1 0 1) with port := { slave.port with on := [0] } } 0 = true := by decide +kernel

/-- A segment for ROM, and one for the shadow route bank in the commit window. -/
theorem witness_Security_load_bars : takesWrites 0x00000000 = false ∧ takesWrites 0x3C080000 = true ∧ barred .sec 0x3C080000 4 armed = false ∧
    fabHolds { armed with fab := { armed.fab with hold := true } } 0x3C080000 = true ∧
    (let s := { sealer with boot := { sealer.boot with svcAt := sealer.time.hub + 1, svcPort := 1 } }
     s.boot.svcAt = s.time.hub + 1 ∧ ¬ (2 ≤ s.boot.svcPort)) ∧ sysState halt = St.HALT := by decide +kernel

theorem witness_HostTransactions_waits : inRequest owner0 2 = false ∧
    (let s := { waitsHost true with time := { owner0.time with hub := 4096 } }
     s.host.tx.map (fun x => x.since + 4096 ≤ s.time.hub + 1) = [true] ∧ domainOn s (domainAt 0x18000000) = true) ∧
    (owner0.setF .SYS_LEASE 0 15 0 5).f .SYS_LEASE 0 15 0 = 5 ∧ isOwner (owner0.setF .SYS_LEASE 0 15 0 5) 0 = true ∧
    lands (.core 0) .SYS_PART 0 owner0 = true ∧ lands (.core 0) .SYS_GPIO_EDGE 0 owner0 = true ∧
    lands (.core 0) .PWR_AUTO_RET_DELAY 0 owner0 = true ∧ lands (.core 0) .SYS_TURN_COUNT_LO 0 owner0 = true ∧
    lands (.core 0) .SYS_TURN_COUNT_HI 0 owner0 = true ∧ lands (.core 0) .SYS_TURN_COUNT_HI 0 running = true ∧ domainOn owner0 0 = true := by
  decide +kernel

/-- The owner's lease of 5 ms is over. -/
theorem witness_Ownership_lease : let s := { owner0.setF .SYS_LEASE 0 15 0 5 with host := { owner0.host with lease := 1 }, time := { owner0.time with hub := 160 } }
    s.f .SYS_LEASE 0 15 0 ≠ 0 ∧ s.bit .SYS_OWNER 0 31 = true ∧ s.host.lease ≠ 0 ∧ s.host.lease + 32 * 5 ≤ s.time.hub + 1 := by decide +kernel

theorem witness_FetchComplete_asleep : segsAsleep [⟨0x18000000, 512, 4⟩] (fetching.setF .PWR_STATE_w 0 5 4 Dom.RET) ≠ [] := by decide +kernel

/-- A host's image that is none at all, which is refused. -/
theorem witness_VerifyComplete_refused : let s := { State.reset.setF .SYS_STATE 0 3 0 St.VERIFY with boot := { State.reset.boot with place := true } }
    sysState s = St.VERIFY ∧ s.boot.place = true ∧ headReason false s.boot.floor (fun o => getByte s (0x18000000 + o)) ≠ 0 := by decide +kernel

/-- An image of one block that a host has loaded, its one segment for 0x18100000. -/
def hostImage : State :=
  { State.reset.setF .SYS_STATE 0 3 0 St.VERIFY with
    mem := [(0x18000000, 0x5A), (0x18000001, 0xA5), (0x18000003, 0x64), (0x18000004, 1), (0x18000011, 0x10), (0x18000016, 0x10),
      (0x18000017, 0x18), (0x18000019, 1), (0x1800001C, 1), (0x18000021, 4), (0x18000102, 0x10), (0x18000103, 0x18), (0x18000105, 2),
      (0x18000108, 4), (0x18000200, 0x78), (0x18001000, 0x58), (0x18001001, 0x19), (0x18001002, 0x60), (0x18001003, 1)],
    boot := { State.reset.boot with place := true } }
def window (o : Nat) : Byte := getByte hostImage (0x18000000 + o)

theorem witness_VerifyComplete_host : sysState hostImage = St.VERIFY ∧ hostImage.boot.place = true ∧
    headReason false hostImage.boot.floor window = 0 ∧ segsAsleep (imgSegs window) hostImage = [] ∧
    lifecycle (copyImage window hostImage) = Life.BLANK := by
  set_option maxRecDepth 200000 in decide +kernel

theorem witness_VerifyComplete_format : formatBad false (some (0x18000000, 4100)) window = false ∧
    imgLen window + 4 * imgBlocks window = 4100 := by
  set_option maxRecDepth 200000 in decide +kernel

end Sys2Proof.Tests
end

section
/-! SUPPORT. The state after reset, accesses that land, writes by a register's table alone, and wakes. -/

namespace Sys2Proof.Machine

/-! Right after reset. -/

theorem reg_reset (r : RegName) (i : Nat) : State.reset.reg r i = Reg.resetOf (Reg.key r i) := rfl

/-- Settles O57: no register has been stored yet, so each reads the reset value of its table. -/
theorem resetRegisters : Obligations.ResetRegisters := by
  have stat : ∀ c : Fin 16, c ≠ 0 → Reg.resetOf (Reg.key .SCHED_CORE_n_STAT c) = 0 := by decide
  have ctrl : ∀ pe : Fin 72, Reg.resetOf (Reg.key .ENG_CTRL pe) = 0 := by decide
  unfold Obligations.ResetRegisters
  simp only [reg_reset]
  exact ⟨by decide, by decide, by decide, stat, ctrl, trivial, by decide, trivial, rfl, by decide, by decide, by decide, rfl⟩

/-! Accesses that land: the state their action runs in, and what is left of it once the initiator has been told. -/

/-- The state in which the action of an access runs: its cluster's count of quiet decisions, the next master of the host channel and the
lease may be new. -/
def reached (q : Store Nat) (n e : Nat) (s : State) : State :=
  { s with pwr := { s.pwr with quiet := q }, host := { s.host with rr := n, lease := e } }

@[simp] theorem reg_reached (q : Store Nat) (n e : Nat) (s : State) (r : RegName) (i : Nat) :
    (reached q n e s).reg r i = s.reg r i := rfl

theorem accessed_reached (q : Store Nat) (n e : Nat) (u : State) : accessed u (reached q n e u) := ⟨rfl, fun _ _ _ => rfl⟩

theorem accessed_of_reached (q : Store Nat) (n e : Nat) (u : State) : accessed (reached q n e u) u := ⟨rfl, fun _ _ _ => rfl⟩

theorem accessed_trans {s t u : State} (h : accessed s t) (k : accessed t u) : accessed s u := by
  obtain ⟨h1, h2⟩ := h
  obtain ⟨k1, k2⟩ := k
  refine ⟨?_, fun r i hr => (k2 r i hr).trans (h2 r i hr)⟩
  rw [k1, h1]

/-- What the initiator is told belongs to the access. -/
theorem accessed_told (m : Initiator) (a : Nat) (v : Word) (s t : State) : accessed t (told m a v s t) := by
  obtain ⟨A, L, R, he, hr⟩ := told_frame m a v s t
  refine ⟨?_, hr⟩
  rw [he]

/-- A write of a register outside the DMA block that lands is the register's own action. -/
theorem rowWrite_accessed (m : Initiator) (r : RegName) (i : Nat) (v : Word) (s : State) (hl : lands m r i s = true)
    (hd : ¬ (0x40070000 ≤ Reg.addr r i ∧ Reg.addr r i < 0x40080000)) :
    ∃ q n e, accessed (regTake m r i v (reached q n e s)) (rowWrite m r i v s) := by
  obtain ⟨q, n, e, hq⟩ := touch_served m (domainAt (Reg.addr r i)) s
  refine ⟨q, n, e, ?_⟩
  rw [rowWrite_lands m r i v s hl, hq, settled, if_neg hd]
  exact accessed_told ..

/-- A write of a memory word that lands is the action of its memory. -/
theorem access_accessed (m : Initiator) (a : Nat) (v : Word) (s : State) (hl : landsAt m a s = true)
    (hg : ∀ t, (wordWrite m a v t).1 = true) :
    ∃ q n e, accessed (wordWrite m a v (reached q n e s)).2 (access m a v s) := by
  obtain ⟨q, n, e, hq⟩ := touch_served m (domainAt a) s
  refine ⟨q, n, e, ?_⟩
  rw [access_lands m a v s hl (hg _), hq]
  exact accessed_told ..

/-- A command that writes a register does what the register's action does, but for what the access keeps. -/
theorem doesSome_of (c : Instr) (m : Initiator) (r : RegName) (i : Nat) (v : Word) (s : State) (p : State → Prop)
    (hc : exec c s = .next (rowWrite m r i v s)) (hd : ¬ (0x40070000 ≤ Reg.addr r i ∧ Reg.addr r i < 0x40080000))
    (hp : ∀ q n e, p (reached s.pwr.quiet s.host.rr s.host.lease (regTake m r i v (reached q n e s)))) :
    doesSome c m r i s p := by
  intro hl
  obtain ⟨q, n, e, h⟩ := rowWrite_accessed m r i v s hl hd
  exact ⟨_, _, hc, accessed_trans (accessed_of_reached ..) h, hp q n e⟩

/-- A command that writes a memory word whose action does not heed what the access keeps. -/
theorem doesAt_of (c : Instr) (m : Initiator) (a : Nat) (v : Word) (s : State) (f : State → State)
    (hc : exec c s = .next (access m a v s))
    (hf : landsAt m a s = true → ∀ q n e, wordWrite m a v (reached q n e s) = (true, reached q n e (f s)))
    (hg : landsAt m a s = true → ∀ t, (wordWrite m a v t).1 = true) : doesAt c m a s (f s) := by
  intro hl
  obtain ⟨q, n, e, h⟩ := access_accessed m a v s hl (hg hl)
  rw [hf hl] at h
  exact ⟨_, hc, accessed_trans (accessed_reached ..) h⟩

/-! Writes by a register's table alone (R8, R10). -/

/-- The word a write leaves in a register, and whether a written field held a reserved encoding. -/
def writtenWord (r : RegName) (i : Nat) (v : Word) (s : State) : Word :=
  let m := writable s r i
  let x := (fixEnc (Reg.resetOf (Reg.key r i)) m (Reg.row r).enc v).1
  let stored := (s.reg r i &&& ~~~(BitVec.ofNat 32 m)) ||| (x &&& BitVec.ofNat 32 m)
  let cleared := stored &&& ~~~(v &&& BitVec.ofNat 32 (Reg.row r).w1c)
  clearCounts v.toNat (Reg.row r).cnt (cleared ||| (v &&& BitVec.ofNat 32 (Reg.row r).w1s))
def reservedEnc (r : RegName) (i : Nat) (v : Word) (s : State) : Bool :=
  (fixEnc (Reg.resetOf (Reg.key r i)) (writable s r i) (Reg.row r).enc v).2

theorem plainWrite_eq (r : RegName) (i : Nat) (v : Word) (s : State) :
    plainWrite r i v s = if reservedEnc r i v s then cfgErr r i (s.setReg r i (writtenWord r i v s))
      else s.setReg r i (writtenWord r i v s) := rfl

theorem RegsOnly.plainWrite (r : RegName) (i : Nat) (v : Word) (s : State) : RegsOnly s (plainWrite r i v s) := by
  rw [plainWrite_eq]
  exact .ite _ (.trans (.setReg ..) (.cfgErr ..)) (.setReg ..)

/-- A CFG_ERR leaves every register but the flag's and the events'. -/
theorem reg_cfgErr (r q : RegName) (i j : Nat) (s : State) (h : q ≠ (Reg.cfgErr r i).1) (he : q ≠ .EVT_RAW_w) :
    (cfgErr r i s).reg q j = s.reg q j := by
  unfold cfgErr
  simp only
  have flag : (s.setBit (Reg.cfgErr r i).1 (Reg.cfgErr r i).2.1 (Reg.cfgErr r i).2.2 true).reg q j = s.reg q j := by
    rw [reg_setBit, if_neg (fun e => h e.1)]
  split
  · exact flag
  · rw [reg_raise, if_neg (fun e => he e.1), flag]

theorem reg_plainWrite_same (r : RegName) (i : Nat) (v : Word) (s : State) (h : r ≠ (Reg.cfgErr r i).1) (he : r ≠ .EVT_RAW_w) :
    (plainWrite r i v s).reg r i = writtenWord r i v s := by
  rw [plainWrite_eq]
  split
  · rw [reg_cfgErr r r i i _ h he, reg_setReg_same]
  · exact reg_setReg_same ..

theorem reg_plainWrite_ne (r q : RegName) (i j : Nat) (v : Word) (s : State) (hq : ¬ (q = r ∧ j = i)) (h : q ≠ (Reg.cfgErr r i).1)
    (he : q ≠ .EVT_RAW_w) : (plainWrite r i v s).reg q j = s.reg q j := by
  rw [plainWrite_eq]
  split
  · rw [reg_cfgErr r q i j _ h he, reg_setReg_ne _ _ _ _ _ _ hq]
  · exact reg_setReg_ne _ _ _ _ _ _ hq

/-- Without a reserved encoding nothing but the register is written. -/
theorem reg_plainWrite_ok (r q : RegName) (i j : Nat) (v : Word) (s : State) (hq : ¬ (q = r ∧ j = i))
    (h : reservedEnc r i v s = false) : (plainWrite r i v s).reg q j = s.reg q j := by
  rw [plainWrite_eq, h]
  exact reg_setReg_ne _ _ _ _ _ _ hq

/-- A register of RW fields alone, with the encodings its table reserves. -/
structure RwRow (r : RegName) (rw : Nat) (enc : List Enc) : Prop where
  rw_eq : (Reg.row r).rw = rw
  rwl_eq : (Reg.row r).rwl = 0
  w1c_eq : (Reg.row r).w1c = 0
  w1s_eq : (Reg.row r).w1s = 0
  cnt_eq : (Reg.row r).cnt = []
  enc_eq : (Reg.row r).enc = enc

theorem RwRow.writable {r : RegName} {rw : Nat} {enc : List Enc} (h : RwRow r rw enc) (i : Nat) (s : State) : writable s r i = rw := by
  unfold Machine.writable
  simp [h.rwl_eq, h.rw_eq]

theorem RwRow.writtenWord {r : RegName} {rw : Nat} {enc : List Enc} (h : RwRow r rw enc) (i : Nat) (v : Word) (s : State) :
    writtenWord r i v s = (s.reg r i &&& ~~~(BitVec.ofNat 32 rw)) |||
      ((fixEnc (Reg.resetOf (Reg.key r i)) rw enc v).1 &&& BitVec.ofNat 32 rw) := by
  unfold Machine.writtenWord
  have all : ~~~(0#32 : Word) = BitVec.allOnes 32 := rfl
  simp only [h.writable, h.w1c_eq, h.w1s_eq, h.cnt_eq, h.enc_eq, clearCounts, BitVec.and_zero, BitVec.or_zero,
    all, BitVec.and_allOnes]

/-- A field that the write stores whole. -/
theorem fld_merge (old x : Word) (rw hi lo : Nat) (hh : hi < 32) (hm : ∀ b < 32, lo ≤ b → b ≤ hi → rw.testBit b = true) :
    fld ((old &&& ~~~(BitVec.ofNat 32 rw)) ||| (x &&& BitVec.ofNat 32 rw)) hi lo = fld x hi lo := by
  apply Nat.eq_of_testBit_eq; intro k
  simp only [fld_testBit]
  by_cases hk : k < hi + 1 - lo
  · have hb := hm (lo + k) (by omega) (by omega) (by omega)
    have h32 : lo + k < 32 := by omega
    simp only [BitVec.testBit_toNat, BitVec.getLsbD_or, BitVec.getLsbD_and, BitVec.getLsbD_not, BitVec.getLsbD_ofNat, hb, h32,
      decide_true, Bool.not_true, Bool.and_false, Bool.false_or, Bool.and_true]
  · simp [hk]

/-- A bit that the write stores. -/
theorem bitOf_merge (old x : Word) (rw b : Nat) (hb : b < 32) (hm : rw.testBit b = true) :
    bitOf ((old &&& ~~~(BitVec.ofNat 32 rw)) ||| (x &&& BitVec.ofNat 32 rw)) b = bitOf x b := by
  simp only [bitOf, BitVec.testBit_toNat, BitVec.getLsbD_or, BitVec.getLsbD_and, BitVec.getLsbD_not, BitVec.getLsbD_ofNat, hb, hm,
    decide_true, Bool.not_true, Bool.and_false, Bool.false_or, Bool.and_true]

/-- With one field of reserved encodings, that field takes its reset value where its encoding is reserved, and the other bits are stored. -/
theorem fixEnc_one (reset : Word) (rw hi lo : Nat) (ok : Nat → Bool) (v : Word) (hm : rw.testBit lo = true) :
    fixEnc reset rw [⟨hi, lo, ok⟩] v =
      if ok (fld v hi lo) then (v, false) else (setFld v hi lo (fld reset hi lo), true) := by
  unfold fixEnc fixEnc
  simp only [hm, Bool.true_and]
  cases ok (fld v hi lo) <;> rfl

section
variable {r : RegName} {rw : Nat} {i : Nat} {v : Word} {s : State} {hi lo : Nat}

/-- A field of a register that reserves no encoding reads as written. -/
theorem f_plainWrite_free (h : RwRow r rw []) (hc : r ≠ (Reg.cfgErr r i).1) (he : r ≠ .EVT_RAW_w) (hh : hi < 32)
    (hm : ∀ b < 32, lo ≤ b → b ≤ hi → rw.testBit b = true) : (plainWrite r i v s).f r i hi lo = fld v hi lo := by
  rw [State.f, reg_plainWrite_same r i v s hc he, h.writtenWord, fld_merge _ _ _ _ _ hh hm]
  rfl

variable {eh el : Nat} {ok : Nat → Bool}

/-- The field with reserved encodings reads as written, or as after reset. -/
theorem f_plainWrite_enc (h : RwRow r rw [⟨hi, lo, ok⟩]) (hc : r ≠ (Reg.cfgErr r i).1) (he : r ≠ .EVT_RAW_w) (hl : lo ≤ hi)
    (hh : hi < 32) (hm : ∀ b < 32, lo ≤ b → b ≤ hi → rw.testBit b = true) :
    (plainWrite r i v s).f r i hi lo = if ok (fld v hi lo) then fld v hi lo else fld (Reg.resetOf (Reg.key r i)) hi lo := by
  rw [State.f, reg_plainWrite_same r i v s hc he, h.writtenWord, fld_merge _ _ _ _ _ hh hm,
    fixEnc_one _ _ _ _ _ _ (hm lo (by omega) (by omega) hl)]
  split
  · rfl
  · simp only
    rw [fld_setFld_same _ _ _ _ hl hh, Nat.mod_eq_of_lt (fld_lt ..)]

/-- A field beside the one with reserved encodings reads as written. -/
theorem f_plainWrite_beside (h : RwRow r rw [⟨eh, el, ok⟩]) (hc : r ≠ (Reg.cfgErr r i).1) (he : r ≠ .EVT_RAW_w) (hel : el ≤ eh)
    (heh : eh < 32) (hre : rw.testBit el = true) (hd : hi < el ∨ eh < lo) (hh : hi < 32)
    (hm : ∀ b < 32, lo ≤ b → b ≤ hi → rw.testBit b = true) : (plainWrite r i v s).f r i hi lo = fld v hi lo := by
  rw [State.f, reg_plainWrite_same r i v s hc he, h.writtenWord, fld_merge _ _ _ _ _ hh hm, fixEnc_one _ _ _ _ _ _ hre]
  split
  · rfl
  · exact fld_setFld_ne _ _ _ _ _ _ hel heh hd

theorem bit_plainWrite_beside {b : Nat} (h : RwRow r rw [⟨eh, el, ok⟩]) (hc : r ≠ (Reg.cfgErr r i).1) (he : r ≠ .EVT_RAW_w)
    (hel : el ≤ eh) (heh : eh < 32) (hre : rw.testBit el = true) (hd : b < el ∨ eh < b) (hb : b < 32) (hm : rw.testBit b = true) :
    (plainWrite r i v s).bit r i b = bitOf v b := by
  rw [State.bit, reg_plainWrite_same r i v s hc he, h.writtenWord, bitOf_merge _ _ _ _ hb hm, fixEnc_one _ _ _ _ _ _ hre]
  split
  · rfl
  · exact bitOf_setFld_ne _ _ _ _ _ hel heh hd

theorem reservedEnc_one (h : RwRow r rw [⟨eh, el, ok⟩]) (hre : rw.testBit el = true) :
    reservedEnc r i v s = !ok (fld v eh el) := by
  rw [reservedEnc, h.writable, h.enc_eq, fixEnc_one _ _ _ _ _ _ hre]
  cases ok (fld v eh el) <;> rfl

end

/-! Wakes (R401 to R406): what they change, and that they switch no domain on at once. -/

/-- t differs from s by what wakes change: the power controller, PWR_STATE, the wake record, and the events. -/
def wokeOnly (s t : State) : Prop :=
  t = { s with regs := t.regs, pwr := t.pwr } ∧
  ∀ r i, r ≠ .PWR_STATE_w → r ≠ .PWR_LAST_WAKE → r ≠ .PWR_LAST_WAKE_TURN → r ≠ .EVT_RAW_w → t.reg r i = s.reg r i

theorem wokeOnly.refl (s : State) : wokeOnly s s := ⟨rfl, fun _ _ _ _ _ _ => rfl⟩

theorem wokeOnly.trans {s t u : State} (h : wokeOnly s t) (k : wokeOnly t u) : wokeOnly s u := by
  obtain ⟨h1, h2⟩ := h
  obtain ⟨k1, k2⟩ := k
  refine ⟨?_, fun r i a b c d => (k2 r i a b c d).trans (h2 r i a b c d)⟩
  rw [k1, h1]

theorem wokeOnly.setPwr (s : State) (x : PwrState) : wokeOnly s (setPwr x s) := ⟨rfl, fun _ _ _ _ _ _ => rfl⟩

theorem wokeOnly.foldl {α : Type} (f : State → α → State) (h : ∀ t x, wokeOnly t (f t x)) (l : List α) (s : State) :
    wokeOnly s (l.foldl f s) := by
  induction l generalizing s with
  | nil => exact .refl s
  | cons x l ih => exact .trans (h s x) (ih (f s x))

theorem wokeOnly.startWake (d : Nat) (s : State) : wokeOnly s (startWake d s) := by
  refine ⟨rfl, fun r i h _ _ _ => ?_⟩
  unfold Machine.startWake setDomainCode
  rw [reg_setF, if_neg (fun e => h e.1)]; rfl

/-- The registers of the wake record and the events. -/
theorem wokeOnly.setReg (s : State) (r : RegName) (i : Nat) (v : Word)
    (hr : r = .PWR_STATE_w ∨ r = .PWR_LAST_WAKE ∨ r = .PWR_LAST_WAKE_TURN ∨ r = .EVT_RAW_w) : wokeOnly s (s.setReg r i v) := by
  refine ⟨rfl, fun q j h1 h2 h3 h4 => reg_setReg_ne _ _ _ _ _ _ (fun e => ?_)⟩
  rw [e.1] at h1 h2 h3 h4
  rcases hr with h | h | h | h <;> contradiction

theorem wokeOnly.recordWake (src d : Nat) (b : Bool) (s : State) : wokeOnly s (recordWake src d b s) := by
  unfold Machine.recordWake
  split
  · exact .refl s
  · exact (wokeOnly.setPwr ..).trans ((wokeOnly.setReg _ .PWR_LAST_WAKE _ _ (by simp)).trans
      ((wokeOnly.setReg _ .PWR_LAST_WAKE_TURN _ _ (by simp)).trans (wokeOnly.setReg _ .EVT_RAW_w _ _ (by simp))))

theorem wokeOnly.wakeDomains (src : Nat) (ds : List Nat) (s : State) : wokeOnly s (wakeDomains src ds s) := by
  unfold Machine.wakeDomains
  simp only
  have started := fun l x => wokeOnly.trans (.setPwr s x) (.foldl (fun t d => Machine.startWake d t) (fun t d => .startWake d t) l _)
  split
  · exact .trans (started _ _) (.recordWake ..)
  · exact started _ _

theorem wokeOnly.fireSource (k : Nat) (s : State) : wokeOnly s (fireSource k s) := by
  unfold Machine.fireSource
  split
  · exact .wakeDomains ..
  · exact .refl s

theorem domainCode_startWake (e d : Nat) (s : State) :
    domainCode (startWake e s) d = if d = e then Dom.MOVING else domainCode s d := by
  unfold domainCode startWake setDomainCode
  by_cases h : d = e
  · subst h
    rw [if_pos rfl, f_setF_same _ _ _ _ _ _ (by omega) (by omega)]
    have : 2 * (d % 16) + 1 + 1 - 2 * (d % 16) = 2 := by omega
    rw [this]; rfl
  · rw [if_neg h, State.f, State.f, reg_setF]
    split
    · next w => rw [fld_setFld_ne _ _ _ _ _ _ (by omega) (by omega) (by omega), w.2]; rfl
    · rfl

theorem domainOn_startWake (e : Nat) (t : State) (he : domainOn t e = false) (d : Nat) :
    domainOn (startWake e t) d = domainOn t d := by
  by_cases h : d = e
  · rw [h, he, domainOn, domainCode_startWake, if_pos rfl]; rfl
  · rw [domainOn, domainCode_startWake, if_neg h]; rfl

theorem domainOn_startWakes (d : Nat) (l : List Nat) (t : State) (ht : ∀ e ∈ l, domainOn t e = false) :
    domainOn (l.foldl (fun t d => startWake d t) t) d = domainOn t d := by
  induction l generalizing t with
  | nil => rfl
  | cons e l ih =>
    have one := domainOn_startWake e t (ht e (by simp))
    rw [List.foldl_cons, ih _ (fun x hx => (one x).trans (ht x (by simp [hx]))), one]

theorem domainOn_of_state {s t : State} (d : Nat) (h : t.reg .PWR_STATE_w (d / 16) = s.reg .PWR_STATE_w (d / 16)) :
    domainOn t d = domainOn s d := by
  unfold domainOn domainCode State.f
  rw [h]

theorem domainOn_recordWake (src e d : Nat) (b : Bool) (t : State) : domainOn (recordWake src e b t) d = domainOn t d := by
  apply domainOn_of_state
  unfold recordWake
  split
  · rfl
  · rw [reg_raise, if_neg (by simp), reg_setReg_ne _ _ _ _ _ _ (by simp), reg_setReg_ne _ _ _ _ _ _ (by simp), reg_setPwr]

theorem domainOn_of_domainDown (t : State) (e : Nat) (h : domainDown t e = true) : domainOn t e = false := by
  unfold domainDown at h
  unfold domainOn
  simp only [Bool.or_eq_true, beq_iff_eq] at h
  rcases h with h | h <;> rw [h] <;> rfl

/-- A wake leaves the domains that are on as they are, and switches none on at once. -/
theorem domainOn_wakeDomains (src : Nat) (ds : List Nat) (s : State) (d : Nat) :
    domainOn (wakeDomains src ds s) d = domainOn s d := by
  unfold wakeDomains
  extract_lets late on latched t down u
  have started : domainOn u d = domainOn s d := by
    refine (domainOn_startWakes d down t (fun e he => ?_)).trans (domainOn_of_state d rfl)
    exact domainOn_of_domainDown t e (Bool.and_eq_true_iff.mp (List.mem_filter.mp he).2).1
  split
  · rw [domainOn_recordWake, started]
  · exact started

end Sys2Proof.Machine
end

section
/-! SUPPORT. Host transactions: when one runs at once, when it is queued, and what its words do. -/

namespace Sys2Proof.Machine

/-- The transaction of host master k that an access begins. -/
def newTx (k : Fin 5) (a : Nat) (write : Bool) (data : List Word) (n : Nat) : HostTx :=
  ⟨k.val, a, write, data, n, [], none, false, false, 0⟩

@[simp] theorem ofNat_val5 (k : Fin 5) : Fin.ofNat 5 k.val = k := by
  apply Fin.ext; simp [Fin.ofNat, Nat.mod_eq_of_lt k.isLt]

/-- What serving a host master keeps of the state. -/
theorem served_reached (k : Fin 5) (s : State) : ∃ e, served (.host k) s = reached s.pwr.quiet ((k.val + 1) % 5) e s := by
  obtain ⟨e, he⟩ := leaseRenew_frame k.val (setHost { s.host with rr := (k.val + 1) % 5 } s)
  exact ⟨e, he⟩

section
variable {k : Fin 5} {a : Nat} {write : Bool} {data : List Word} {n : Nat} {s : State}

/-- A transaction of a master that has none in progress runs at once, if the channel has a credit for it (R21, R446). -/
theorem hostTx_runs (hu : up s = true) (hj : jtagOpen k.val a s = true) (hi : s.host.tx.any (fun y => y.m == k.val) = false)
    (hl : txTooLong (newTx k a write data n) = false) (hf : hostFull (newTx k a write data n) s = false) :
    hostTx k a write data n s = txRun (newTx k a write data n) (served (.host k) s) := by
  unfold newTx at *
  unfold hostTx txSubmit
  simp [hu, hj, hi, hl, hf, served]

/-- A transaction waits behind the one its master has in progress, or for a credit (R21, R446). -/
theorem hostTx_queued (hu : up s = true) (hj : jtagOpen k.val a s = true)
    (h : s.host.tx.any (fun y => y.m == k.val) = true ∨
      (txTooLong (newTx k a write data n) = false ∧ hostFull (newTx k a write data n) s = true)) :
    hostTx k a write data n s = { s with host := { s.host with tx := s.host.tx ++ [newTx k a write data n] } } := by
  have full : (s.host.tx.any (fun y => y.m == k.val) ||
      (!txTooLong (newTx k a write data n) && hostFull (newTx k a write data n) s)) = true := by
    rcases h with h | ⟨h1, h2⟩
    · simp [h]
    · simp [h1, h2]
  unfold newTx at *
  unfold hostTx txSubmit
  simp only [hu, hj, Bool.and_self, if_true, full]
  rfl

/-- With a credit free, the pool is not full. -/
theorem hostFull_room (x : HostTx) (h : s.host.tx.countP (fun y => y.cred) < 4) : hostFull x s = false := by
  unfold hostFull
  rw [decide_eq_false (by omega)]; rfl

end

/-! One word of a write transaction. -/

/-- A write that its master may make goes to its target. -/
theorem hostWrite_bus (k : Fin 5) (a : Nat) (v : Word) (s : State) (hj : jtagOpen k.val a s = true) (h4 : a % 4 = 0)
    (hh : sysState s ≠ St.HALT) (ho : isOwner s k.val = true) :
    hostWrite false k a v s = match busWriteWord (.host k) a v s with
      | (.ok _, t) => (some (doneCode k.val a v s), t)
      | (.err, t) => (some 0x81, t)
      | (.wait, t) => (none, t) := by
  unfold hostWrite
  simp only [hj, h4, hh, ho, Bool.not_true, Bool.false_and, bne_self_eq_false, Bool.or_self, Bool.false_eq_true, if_false, false_and,
    Bool.not_false, Bool.and_false] <;> rfl

/-- The first word that has no answer stops a transaction. -/
theorem txWrites_waits (x : HostTx) (v : Word) (l : List Word) (a : Nat) (out : List (Nat × Word)) (s t : State)
    (h : hostWrite x.own (Fin.ofNat 5 x.m) a v s = (none, t)) (hf : l = [] ∨ fabHolds t a = false) :
    txWrites x (v :: l) a out s = txWaits { x with addr := a, data := v :: l, out := out } t := by
  unfold txWrites
  simp only [h]
  rcases hf with rfl | hf
  · simp [holdRest]
  · simp [hf]

end Sys2Proof.Machine
end

section
/-! SUPPORT. The fabric's memory and registers: what each write does, the commit window, and the check of a route bank. -/

namespace Sys2Proof.Machine

/-! What an access leaves as its action left it. -/

section
variable {u t : State} (h : accessed u t)
include h

theorem accessed_getSlot (a : Nat) : getSlot t a = getSlot u a := by rw [h.1]; rfl
theorem accessed_upsetOf (a : Nat) : upsetOf t a = upsetOf u a := by rw [h.1]; rfl
theorem accessed_mem : t.mem = u.mem := by rw [h.1]
theorem accessed_hart : t.hart = u.hart := by rw [h.1]
theorem accessed_fab : t.fab = u.fab := by rw [h.1]
theorem accessed_bit (r : RegName) (i b : Nat) (hr : r ≠ .HOSTIF_MSTAT_m) : t.bit r i b = u.bit r i b := by
  unfold State.bit; rw [h.2 r i hr]

end

/-! Addresses. -/

theorem regionOf_fabric (a : Nat) (h1 : 0x3C000000 ≤ a) (h2 : a < 0x3C120400) : regionOf a = .fabric := by
  unfold regionOf
  simp only [show a < 0x40000000 by omega]
  iterate 18 rw [if_neg (by omega)]
  rw [if_pos h2]

theorem wordWrite_fabric (m : Initiator) (a : Nat) (v : Word) (s : State) (h1 : 0x3C000000 ≤ a) (h2 : a < 0x3C120400) :
    wordWrite m a v s = fabBusWrite a v s := by
  unfold wordWrite
  rw [regionOf_fabric a h1 h2]

/-- A route word half of a bank. -/
theorem wordWrite_route (m : Initiator) (bank : Fin 2) (k : Fin 65536) (up : Bool) (v : Word) (s : State) :
    wordWrite m (routeAddr bank k + 4 * b2n up) v s =
      (true, if bank.val = routeAct s then fabAwr s else routeLand (routeAddr bank k + 4 * b2n up) v s) := by
  have hb : b2n up ≤ 1 := by cases up <;> decide
  have e : (routeAddr bank k + 4 * b2n up - 0x3C000000) / 0x80000 = bank.val := by unfold routeAddr; omega
  rw [wordWrite_fabric _ _ _ _ (by unfold routeAddr; omega) (by unfold routeAddr; omega)]
  unfold fabBusWrite routeWrite
  rw [if_pos (by unfold routeAddr; omega), e]

/-- A gain entry of a table. -/
theorem wordWrite_gain (m : Initiator) (tab : Fin 2) (j : Fin 4096) (v : Word) (s : State) :
    wordWrite m (gainAddr tab j) v s = (true, if tab.val = gainAct s then fabAwr s
      else shadowWritten (groupOf s .gain) (gainAddr tab j) (setSlot s (gainAddr tab j) (slot24 v.toNat))) := by
  have e : (gainAddr tab j - 0x3C100000) / 0x4000 = tab.val := by unfold gainAddr; omega
  rw [wordWrite_fabric _ _ _ _ (by unfold gainAddr; omega) (by unfold gainAddr; omega)]
  unfold fabBusWrite gainWrite
  rw [if_neg (by unfold gainAddr; omega), if_pos (by unfold gainAddr; omega), e]

/-- The configuration word of a detector. -/
theorem wordWrite_detector (m : Initiator) (a : Fin 12288) (v : Word) (s : State) (h : hasDetector a = true) :
    wordWrite m (0x3C110000 + 4 * a.val) v s = (true, detClear a (setSlot s (0x3C110000 + 4 * a.val) (v &&& 7))) := by
  have e : (0x3C110000 + 4 * a.val - 0x3C110000) / 4 = a.val := by omega
  have g : (fabGap (0x3C110000 + 4 * a.val) || fabReadOnly (0x3C110000 + 4 * a.val)) = false := by
    unfold fabGap fabReadOnly; simp; omega
  rw [wordWrite_fabric _ _ _ _ (by omega) (by omega)]
  unfold fabBusWrite detCfgWrite
  rw [if_neg (by omega), if_neg (by omega), if_neg (by rw [g]; exact Bool.false_ne_true), e, if_pos h]

theorem regTake_bankLen (m : Initiator) (bank : Fin 2) (v : Word) (s : State) :
    regTake m (bankLenReg bank) 0 v s = lenWrite bank v s := by
  match bank with
  | 0 => rfl
  | 1 => rfl

theorem bankLenReg_addr (bank : Fin 2) : Reg.addr (bankLenReg bank) 0 = 0x400A0000 + 4 * bank.val := by
  match bank with
  | 0 => rfl
  | 1 => rfl

/-- LEN is a register of RW fields, its values above 65536 reserved. -/
theorem bankLenReg_row (bank : Fin 2) : RwRow (bankLenReg bank) 0x1FFFF [⟨16, 0, fun v => v ≤ 65536⟩] := by
  match bank with
  | 0 => exact ⟨rfl, rfl, rfl, rfl, rfl, rfl⟩
  | 1 => exact ⟨rfl, rfl, rfl, rfl, rfl, rfl⟩

/-! Writes of the active side (R214). -/

theorem setBit_reached (q : Store Nat) (n e : Nat) (s : State) (r : RegName) (i b : Nat) (x : Bool) :
    (reached q n e s).setBit r i b x = reached q n e (s.setBit r i b x) := rfl

theorem bit_reached (q : Store Nat) (n e : Nat) (s : State) (r : RegName) (i b : Nat) :
    (reached q n e s).bit r i b = s.bit r i b := rfl
theorem raise_reached (q : Store Nat) (n e : Nat) (s : State) (x : Nat) :
    raise x (reached q n e s) = reached q n e (raise x s) := rfl

/-- A flag is raised whatever the access keeps. -/
theorem flagEv_reached (q : Store Nat) (n e : Nat) (s : State) (r : RegName) (i b x : Nat) :
    flagEv r i b x (reached q n e s) = reached q n e (flagEv r i b x s) := by
  unfold flagEv
  rw [bit_reached, setBit_reached, raise_reached]
  split <;> rfl

theorem fabAwr_reached (q : Store Nat) (n e : Nat) (s : State) : fabAwr (reached q n e s) = reached q n e (fabAwr s) :=
  flagEv_reached ..

/-! Writes of the shadow side while no mirror runs (R189, R215). -/

section
variable (g a : Nat) (s : State) (h : s.safe.mirrors = [])
include h

theorem shadowWritten_still : shadowWritten g a s = s.setBit .SAFE_MIRROR_VALID 0 g false := by
  unfold shadowWritten
  simp [h]

omit a in
theorem unvalid_still : unvalid g s = s.setBit .SAFE_MIRROR_VALID 0 g false := by
  unfold unvalid setSafe
  have e : { s.safe with mirrors := s.safe.mirrors.map (fun m => if m.group = g then { m with dirty := true } else m) } = s.safe := by
    rw [h, List.map_nil, ← h]
  exact congrArg (fun x => { s.setBit .SAFE_MIRROR_VALID 0 g false with safe := x }) e

end

theorem groupOf_lt (s : State) : groupOf s .route < 32 ∧ groupOf s .gain < 32 := by
  exact ⟨Nat.lt_of_lt_of_le (fld_lt (s.reg .SAFE_FABRIC_GROUP 0) 3 0) (by decide),
    Nat.lt_of_lt_of_le (fld_lt (s.reg .SAFE_FABRIC_GROUP 0) 7 4) (by decide)⟩

theorem rejudgeRoute_eq (bank : Nat) (s : State) :
    rejudgeRoute bank s = setRouteChk bank (routeResult s bank).1 (routeResult s bank).2 s := rfl

theorem RegsOnly.fabSded (s : State) : RegsOnly s (fabSded s) := .setBit ..

theorem reg_fabSded (s : State) (r : RegName) (i : Nat) (h : r ≠ .FABRIC_FAULT) : (fabSded s).reg r i = s.reg r i := by
  unfold fabSded
  rw [reg_setBit, if_neg (fun e => h e.1)]

/-- What the check of a bank changes: FABRIC_FAULT, its result and its split. -/
theorem judgeRoute_parts (bank : Nat) (s : State) :
    (∃ R C P, judgeRoute bank s = { s with regs := R, fab := { s.fab with chk := C, split := P } }) ∧
    ∀ r i, r ≠ .FABRIC_FAULT → (judgeRoute bank s).reg r i = s.reg r i := by
  unfold judgeRoute
  rw [rejudgeRoute_eq]
  split
  · exact ⟨⟨_, _, _, rfl⟩, fun r i h => reg_fabSded s r i h⟩
  · exact ⟨⟨s.regs, _, _, rfl⟩, fun _ _ _ => rfl⟩

theorem getSlot_setSlot (s : State) (a b : Nat) (v : Word) : getSlot (setSlot s a v) b = if b = a then v else getSlot s b :=
  Store.get_set ..
theorem upsetOf_setSlot (s : State) (a b : Nat) (v : Word) : upsetOf (setSlot s a v) b = if b = a then 0 else upsetOf s b :=
  Store.get_set natZero s.upset a b 0
theorem upsetOf_setUpset (s : State) (a b n : Nat) : upsetOf (setUpset s a n) b = if b = a then n else upsetOf s b :=
  Store.get_set ..
@[simp] theorem getSlot_setUpset (s : State) (a b n : Nat) : getSlot (setUpset s a n) b = getSlot s b := rfl
@[simp] theorem getSlot_setBit (s : State) (r : RegName) (i n b : Nat) (x : Bool) : getSlot (s.setBit r i n x) b = getSlot s b := rfl
@[simp] theorem upsetOf_setBit (s : State) (r : RegName) (i n b : Nat) (x : Bool) : upsetOf (s.setBit r i n x) b = upsetOf s b := rfl

/-- A half of a route word stored, both halves with valid check bits, and the mirror's copy no longer valid. -/
def routeStored (bank k ra : Nat) (v : Word) (s : State) : State :=
  (setUpset (setUpset (setSlot s ra v) (routeAddr bank k) 0) (routeAddr bank k + 4) 0).setBit .SAFE_MIRROR_VALID 0
    (groupOf s .route) false

theorem getSlot_routeStored (bank k ra : Nat) (v : Word) (s : State) (x : Nat) :
    getSlot (routeStored bank k ra v s) x = if x = ra then v else getSlot s x := by
  rw [routeStored, getSlot_setBit, getSlot_setUpset, getSlot_setUpset, getSlot_setSlot]

theorem upsetOf_routeStored (bank k ra : Nat) (v : Word) (s : State) (h : ra = routeAddr bank k ∨ ra = routeAddr bank k + 4) (x : Nat) :
    upsetOf (routeStored bank k ra v s) x = if x = routeAddr bank k ∨ x = routeAddr bank k + 4 then 0 else upsetOf s x := by
  rw [routeStored, upsetOf_setBit, upsetOf_setUpset, upsetOf_setUpset, upsetOf_setSlot]
  grind

theorem valid_routeStored (bank k ra : Nat) (v : Word) (s : State) :
    (routeStored bank k ra v s).bit .SAFE_MIRROR_VALID 0 (groupOf s .route) = false := by
  rw [routeStored, bit_setBit_same _ _ _ _ _ (groupOf_lt s).1]

/-- A half of a route word lands: it is stored, and where its bank holds a result the bank is judged again. -/
theorem routeLand_still (bank : Fin 2) (k : Fin 65536) (ra : Nat) (v : Word) (s : State) (h : s.safe.mirrors = [])
    (hra : ra = routeAddr bank k ∨ ra = routeAddr bank k + 4) :
    routeLand ra v s = routeStored bank k ra v s ∨ routeLand ra v s = judgeRoute bank (routeStored bank k ra v s) := by
  have e1 : (ra - 0x3C000000) / 0x80000 = bank.val := by unfold routeAddr at hra; omega
  have e2 : (ra - 0x3C000000) % 0x80000 / 8 = k.val := by unfold routeAddr at hra; omega
  unfold routeLand
  simp only [e1, e2]
  rw [shadowWritten_still _ _ (setUpset (setUpset (setSlot s ra v) (routeAddr bank k) 0) (routeAddr bank k + 4) 0) h]
  split
  · exact .inr rfl
  · exact .inl rfl

/-- What a half of a route word that lands leaves in the bank. -/
theorem routeLand_parts (bank : Fin 2) (k : Fin 65536) (ra : Nat) (v : Word) (s : State) (h : s.safe.mirrors = [])
    (hra : ra = routeAddr bank k ∨ ra = routeAddr bank k + 4) :
    (∀ x, getSlot (routeLand ra v s) x = if x = ra then v else getSlot s x) ∧
    (∀ x, upsetOf (routeLand ra v s) x = if x = routeAddr bank k ∨ x = routeAddr bank k + 4 then 0 else upsetOf s x) ∧
    (routeLand ra v s).bit .SAFE_MIRROR_VALID 0 (groupOf s .route) = false := by
  have slots := getSlot_routeStored bank k ra v s
  have marks := upsetOf_routeStored bank k ra v s hra
  have valid := valid_routeStored bank k ra v s
  rcases routeLand_still bank k ra v s h hra with e | e
  · rw [e]; exact ⟨slots, marks, valid⟩
  · obtain ⟨⟨R, C, P, hj⟩, hr⟩ := judgeRoute_parts bank (routeStored bank k ra v s)
    rw [e]
    refine ⟨fun x => ?_, fun x => ?_, ?_⟩
    · rw [← slots, hj]; rfl
    · rw [← marks, hj]; rfl
    · rw [State.bit, hr _ _ (by decide)]; exact valid

/-- LEN of a shadow bank: stored, the mirror's copy no longer valid, and a check started. -/
theorem lenLand_still (bank : Nat) (v : Word) (s : State) (h : s.safe.mirrors = []) :
    lenLand bank v s =
      setFab { s.fab with chk := Store.set chkReset s.fab.chk bank 0x40000000, split := Store.set natZero s.fab.split bank 0,
                          chkRun := bank :: s.fab.chkRun.filter (fun b => b != bank) }
        ((plainWrite (bankLenReg bank) 0 v s).setBit .SAFE_MIRROR_VALID 0 (groupOf s .route) false) := by
  have hp : (plainWrite (bankLenReg bank) 0 v s).safe = s.safe := by rw [RegsOnly.plainWrite (bankLenReg bank) 0 v s]
  have hf : (plainWrite (bankLenReg bank) 0 v s).fab = s.fab := by rw [RegsOnly.plainWrite (bankLenReg bank) 0 v s]
  unfold lenLand
  rw [unvalid_still _ _ (by rw [hp]; exact h)]
  unfold startRouteCheck setRouteChk setFab
  simp only [setBit_frame, hf]

/-! The check of a route bank (R215 to R217). -/

/-- The result of a check depends on the bank's words, their check bits, its LEN and the rate. -/
theorem routeResult_congr (s t : State) (bank : Nat) (h1 : t.wmem = s.wmem) (h2 : t.upset = s.upset)
    (h3 : bankLen t bank = bankLen s bank) (h4 : turnLen t = turnLen s) : routeResult t bank = routeResult s bank := by
  have word : ∀ i, routeWord t bank i = routeWord s bank i := fun i => by unfold routeWord getSlot; rw [h1]
  have reason : ∀ i seenB, routeReason t bank i seenB = routeReason s bank i seenB := fun i seenB => by
    unfold routeReason upsetOf; rw [word, h2]
  have scan : ∀ n i seenB na nb, scanRoute t bank n i seenB na nb = scanRoute s bank n i seenB na nb := by
    intro n
    induction n with
    | zero => exact fun _ _ _ _ => rfl
    | succ n ih => intro i seenB na nb; unfold scanRoute; simp only [reason, word, ih]
  unfold routeResult
  rw [scan, h3, h4]

/-- Corrections of a read change the counter of corrections and the check bits; a word in double-bit error sets SDED. -/
theorem routeRead_parts (bank : Nat) (s : State) :
    (∃ R U, routeRead bank s = { s with regs := R, upset := U }) ∧
    (s.bit .FABRIC_FAULT 0 3 = true → (routeRead bank s).bit .FABRIC_FAULT 0 3 = true) := by
  have correct : ∀ a t, (∃ R U, fabCorrect a t = { t with regs := R, upset := U }) ∧
      (t.bit .FABRIC_FAULT 0 3 = true → (fabCorrect a t).bit .FABRIC_FAULT 0 3 = true) := by
    intro a t
    unfold fabCorrect
    split
    · refine ⟨⟨_, _, RegsOnly.count ..⟩, fun h => ?_⟩
      unfold State.bit count24
      rw [reg_count _ _ _ _ _ _ _ _ _ (by decide) (.inl rfl)]; exact h
    · exact ⟨⟨t.regs, t.upset, rfl⟩, id⟩
  unfold routeRead
  generalize s.upset.filter _ = l
  induction l generalizing s with
  | nil => exact ⟨⟨s.regs, s.upset, rfl⟩, id⟩
  | cons x l ih =>
    rw [List.foldl_cons]
    split
    · obtain ⟨⟨R, U, h1⟩, h2⟩ := ih (fabSded s)
      exact ⟨⟨R, U, h1⟩, fun _ => h2 (bit_setBit_same _ _ _ _ _ (by decide))⟩
    · obtain ⟨⟨R, U, h1⟩, h2⟩ := ih (fabCorrect x.1 s)
      obtain ⟨⟨R', U', h3⟩, h4⟩ := correct x.1 s
      refine ⟨⟨R, U, ?_⟩, fun h => h2 (h4 h)⟩
      rw [h1, h3]

theorem bankLenReg_ne_fault (bank : Nat) : bankLenReg bank ≠ .FABRIC_FAULT := by
  unfold bankLenReg; split <;> decide

/-- A check that runs ends with its verdict. -/
theorem routeCheckDone_parts (bank : Nat) (s : State) (h : s.fab.chkRun.contains bank = true) :
    let t := routeCheckDone bank s
    (∃ R U, t = { s with regs := R, upset := U, fab := { s.fab with
      chk := Store.set chkReset s.fab.chk bank (routeResult s bank).1, split := Store.set natZero s.fab.split bank (routeResult s bank).2,
      chkRun := s.fab.chkRun.filter (fun b => b != bank) } }) ∧
    (fld (routeResult s bank).1 29 24 = 6 → t.bit .FABRIC_FAULT 0 3 = true) := by
  intro t
  let run := setFab { s.fab with chkRun := s.fab.chkRun.filter (fun b => b != bank) } s
  have same : ∀ R : Store Word, (∀ r i, r ≠ .FABRIC_FAULT → State.reg { run with regs := R } r i = s.reg r i) →
      routeResult { run with regs := R } bank = routeResult s bank := by
    intro R hR
    refine routeResult_congr s { run with regs := R } bank rfl rfl ?_ ?_
    · unfold bankLen State.f; rw [hR _ _ (bankLenReg_ne_fault bank)]
    · unfold turnLen State.f; rw [hR _ _ (by decide)]
  have hrun : routeResult run bank = routeResult s bank := same s.regs (fun _ _ _ => rfl)
  have hsded : routeResult (fabSded run) bank = routeResult s bank :=
    same (fabSded run).regs (fun r i hr => reg_fabSded run r i hr)
  have ht : t = routeRead bank (judgeRoute bank run) := by
    change routeCheckDone bank s = _
    unfold routeCheckDone
    rw [if_pos h]
  have judged : judgeRoute bank run = setRouteChk bank (routeResult s bank).1 (routeResult s bank).2
      (if fld (routeResult s bank).1 29 24 = 6 then fabSded run else run) := by
    unfold judgeRoute
    rw [rejudgeRoute_eq, hrun]
    split
    · rw [hsded]
    · rw [hrun]
  obtain ⟨⟨R, U, h1⟩, h2⟩ := routeRead_parts bank (judgeRoute bank run)
  rw [← ht, judged] at h1 h2
  refine ⟨⟨R, U, ?_⟩, fun h6 => h2 ?_⟩
  · rw [h1]
    split <;> rfl
  · rw [if_pos h6]
    exact bit_setBit_same _ _ _ _ _ (by decide)

/-! Silence detectors (R220 to R223). -/

theorem silent_setSilent (a d : Nat) (b : Bool) (s : State) : silent (setSilent a b s) d = if d = a then b else silent s d := by
  unfold silent setSilent
  by_cases h : d = a
  · subst h; rw [if_pos rfl, bit_setBit_same _ _ _ _ _ (by omega)]
  · rw [if_neg h, State.bit, State.bit, reg_setBit]
    split
    · next w => rw [bitOf_putBit_ne _ _ _ _ (by omega) (by omega), w.2]
    · rfl

/-- A detector that is cleared changes its own count and state, and what a wake changes. -/
theorem detClear_woke (a : Nat) (s : State) : wokeOnly (setSilent a false (setDetCnt a 0 s)) (detClear a s) := by
  unfold detClear
  simp only
  split
  · exact .fireSource ..
  · exact .refl _

theorem silent_detClear (a d : Nat) (s : State) : silent (detClear a s) d = if d = a then false else silent s d := by
  have h : silent (detClear a s) d = silent (setSilent a false (setDetCnt a 0 s)) d := by
    unfold silent State.bit
    rw [(detClear_woke a s).2 _ _ (by decide) (by decide) (by decide) (by decide)]
  rw [h, silent_setSilent]; rfl

theorem fab_detClear (a : Nat) (s : State) : (detClear a s).fab = { s.fab with detCnt := Store.set natZero s.fab.detCnt a 0 } := by
  rw [(detClear_woke a s).1]; rfl

/-- No wake follows where the detector was not silent, or its wake source is off. -/
theorem detClear_quiet (a : Nat) (s : State) (h : silent s a = false ∨ s.bit .PWR_WAKE_EN 0 25 = false) :
    detClear a s = setSilent a false (setDetCnt a 0 s) := by
  unfold detClear
  simp only
  split
  · next hs =>
    have off : (setSilent a false (setDetCnt a 0 s)).bit .PWR_WAKE_EN 0 25 = false := by
      rcases h with h | h
      · rw [h] at hs; exact absurd hs Bool.false_ne_true
      · rw [State.bit, setSilent, reg_setBit, if_neg (by simp)]; exact h
    unfold fireSource
    rw [off]; rfl
  · rfl

/-- t differs from s by detectors that have been cleared, and what their wakes change. -/
theorem detClears_parts (l : List Nat) (s : State) :
    let t := l.foldl (fun t a => detClear a t) s
    (∀ d, silent t d = if d ∈ l then false else silent s d) ∧
    (∀ d, Store.get natZero t.fab.detCnt d = if d ∈ l then 0 else Store.get natZero s.fab.detCnt d) ∧
    t.fab.quietCnt = s.fab.quietCnt ∧
    ∀ r i, r ≠ .FABRIC_SIL_STAT_w → r ≠ .PWR_STATE_w → r ≠ .PWR_LAST_WAKE → r ≠ .PWR_LAST_WAKE_TURN → r ≠ .EVT_RAW_w →
      t.reg r i = s.reg r i := by
  induction l generalizing s with
  | nil => simp
  | cons a l ih =>
    obtain ⟨h1, h2, h3, h4⟩ := ih (detClear a s)
    simp only [List.foldl_cons, List.mem_cons]
    refine ⟨fun d => ?_, fun d => ?_, ?_, fun r i n1 n2 n3 n4 n5 => ?_⟩
    · rw [h1, silent_detClear]
      by_cases e : d = a <;> simp [e]
    · rw [h2, fab_detClear, Store.get_set]
      by_cases e : d = a <;> simp [e]
    · rw [h3, fab_detClear]
    · rw [h4 r i n1 n2 n3 n4 n5, (detClear_woke a s).2 r i n2 n3 n4 n5]
      unfold setSilent
      rw [reg_setBit, if_neg (fun e => n1 e.1)]; rfl

/-- Clusters whose counts have been restarted. -/
theorem quietCnts_parts (l : List Nat) (s : State) :
    let t := l.foldl (fun t c => setQuietCnt c 0 t) s
    (∃ Q, t = { s with fab := { s.fab with quietCnt := Q } }) ∧
    ∀ c, Store.get natZero t.fab.quietCnt c = if c ∈ l then 0 else Store.get natZero s.fab.quietCnt c := by
  induction l generalizing s with
  | nil => exact ⟨⟨s.fab.quietCnt, rfl⟩, fun c => by simp⟩
  | cons a l ih =>
    obtain ⟨⟨Q, h1⟩, h2⟩ := ih (setQuietCnt a 0 s)
    simp only [List.foldl_cons, List.mem_cons]
    refine ⟨⟨Q, h1⟩, fun c => ?_⟩
    rw [h2]
    change (if c ∈ l then 0 else Store.get natZero (Store.set natZero s.fab.quietCnt a 0) c) = _
    rw [Store.get_set]
    by_cases e : c = a <;> simp [e]

/-- A key that reads as something else than the default is listed. -/
theorem Store.mem_of_get {α : Type} (d : Nat → α) (m : Store α) (a : Nat) (h : Store.get d m a ≠ d a) : (a, Store.get d m a) ∈ m := by
  induction m with
  | nil => exact absurd rfl h
  | cons e t ih =>
    obtain ⟨b, v⟩ := e
    by_cases hb : a = b
    · subst hb; simp [Store.get]
    · simp only [Store.get, if_neg hb] at h ⊢
      exact List.mem_cons_of_mem _ (ih h)

/-- An enabled detector is among the detectors of its range. -/
theorem mem_detectors (s : State) (lo hi d : Nat) (hd : hasDetector d = true) (hen : bitOf (detCfg s d) 0 = true) (h1 : lo ≤ d)
    (h2 : d < hi) : d ∈ detectors s lo hi := by
  have listed : (0x3C110000 + 4 * d, detCfg s d) ∈ s.wmem := by
    apply Store.mem_of_get
    intro h
    have : detCfg s d = 0 := h
    rw [this] at hen
    exact absurd hen (by decide)
  unfold detectors
  refine List.mem_filter.mpr ⟨List.mem_map.mpr ⟨_, List.mem_filter.mpr ⟨listed, ?_⟩, ?_⟩, hd⟩
  · simp [hen]; omega
  · simp

/-- A write of a profile clears its detectors, and one of a threshold restarts its clusters (R222, R225). -/
theorem profileWritten_parts (n : Nat) (thresh : Bool) (s : State) :
    let t := profileWritten n thresh s
    (∀ d < 0x3000, hasDetector d = true → bitOf (detCfg s d) 0 = true → detProfile s d = n →
      silent t d = false ∧ Store.get natZero t.fab.detCnt d = 0) ∧
    (thresh = true → ∀ c < 8, s.f .FABRIC_QUIET_n c 25 24 = n → Store.get natZero t.fab.quietCnt c = 0) ∧
    (thresh = false → t.fab.quietCnt = s.fab.quietCnt) ∧
    ∀ r i, r ≠ .FABRIC_SIL_STAT_w → r ≠ .PWR_STATE_w → r ≠ .PWR_LAST_WAKE → r ≠ .PWR_LAST_WAKE_TURN → r ≠ .EVT_RAW_w →
      t.reg r i = s.reg r i := by
  intro t
  let l := (detectors s 0 0x3000).filter (fun a => detProfile s a == n)
  obtain ⟨h1, h2, h3, h4⟩ := detClears_parts l s
  have mine : ∀ d < 0x3000, hasDetector d = true → bitOf (detCfg s d) 0 = true → detProfile s d = n → d ∈ l := fun d hd hh hen hp =>
    List.mem_filter.mpr ⟨mem_detectors s 0 0x3000 d hh hen (Nat.zero_le d) hd, by simpa using hp⟩
  generalize hu : l.foldl (fun t a => detClear a t) s = u at h1 h2 h3 h4
  have ht : t = if thresh then ((List.range 8).filter (fun c => u.f .FABRIC_QUIET_n c 25 24 == n)).foldl (fun t c => setQuietCnt c 0 t) u
      else u := by
    rw [← hu]; rfl
  have cleared : ∀ d < 0x3000, hasDetector d = true → bitOf (detCfg s d) 0 = true → detProfile s d = n →
      silent u d = false ∧ Store.get natZero u.fab.detCnt d = 0 := fun d hd hh hen hp => by
    rw [h1, h2, if_pos (mine d hd hh hen hp), if_pos (mine d hd hh hen hp)]
    exact ⟨rfl, rfl⟩
  cases thresh with
  | false =>
    rw [ht]
    exact ⟨cleared, fun h => absurd h Bool.false_ne_true, fun _ => h3, h4⟩
  | true =>
    rw [if_pos rfl] at ht
    obtain ⟨⟨Q, k1⟩, k2⟩ := quietCnts_parts ((List.range 8).filter (fun c => u.f .FABRIC_QUIET_n c 25 24 == n)) u
    rw [← ht] at k1 k2
    refine ⟨fun d hd hh hen hp => ?_, fun _ c hc hq => ?_, fun h => absurd h.symm Bool.false_ne_true, fun r i n1 n2 n3 n4 n5 => ?_⟩
    · rw [k1]; exact cleared d hd hh hen hp
    · rw [k2, if_pos]
      refine List.mem_filter.mpr ⟨List.mem_range.mpr hc, ?_⟩
      unfold State.f
      rw [h4 _ _ (by decide) (by decide) (by decide) (by decide) (by decide)]
      simpa [State.f] using hq
    · rw [k1]; exact h4 r i n1 n2 n3 n4 n5

end Sys2Proof.Machine
end

section
/-! The fabric's control: writes that the commit window holds (R218), and FabricControl. -/

namespace Sys2Proof.Machine

/-! The commit window (R218). -/

/-- The state with the commit window open and no write held. -/
def windowOpen (s : State) : State := { s with fab := { s.fab with hold := false, held := [] } }

/-- A write of the word at a by m reaches its target, but for the commit window and the credits of m. -/
structure Arrives (m : Initiator) (a : Nat) (s : State) : Prop where
  up_eq : up s = true
  aligned : a % 4 = 0
  takes : takesWrites a = true
  words : isWordOnly (regionOf a) = true
  admitted : (!(regionOf a == .regs || regionOf a == .aonRegs) && barred m a 4 s) = false
  on : domainOn s (domainAt a) = true
  token : tokFull m a s = false
  calm : still m (domainAt a) s = true
  running : sysState s ≠ St.HALT

/-- What the access keeps does not matter for its way. -/
theorem Arrives.reached {m : Initiator} {a : Nat} {s : State} (h : Arrives m a s) (q : Store Nat) (n e : Nat) :
    Arrives m a (reached q n e s) :=
  ⟨h.up_eq, h.aligned, h.takes, h.words, h.admitted, h.on, h.token, h.calm, h.running⟩

/-- A host master that may make a write now. -/
def hostMay (k : Fin 5) (a : Nat) (s : State) : Prop := jtagOpen k.val a s = true ∧ isOwner s k.val = true ∧ credit k s = true

/-- A write of a word of the fabric that would land with the window open. -/
theorem arrives_of_landsAt (m : Initiator) (a : Nat) (s : State) (h : landsAt m a (windowOpen s) = true)
    (h1 : 0x3C000000 ≤ a) (h2 : a < 0x3C120400) : Arrives m a s ∧ ∀ k, m = .host k → hostMay k a s := by
  unfold landsAt at h
  simp only [Bool.and_eq_true, Bool.not_eq_true', decide_eq_true_eq] at h
  obtain ⟨⟨⟨⟨⟨⟨⟨⟨⟨hu, htw⟩, hwo⟩, _⟩, h4⟩, hb⟩, hd⟩, _⟩, hs⟩, hm⟩ := h
  have ha : Reg.addr .SCHED_HOST_TOK_PUSH 0 = 0x40060064 := by decide
  have tok : tokFull m a s = false := by
    unfold tokFull
    rw [ha, beq_eq_false_iff_ne.mpr (by omega), Bool.and_false, Bool.false_and]
  have bar : (!(regionOf a == .regs || regionOf a == .aonRegs) && barred m a 4 s) = false := by
    rw [show barred m a 4 s = false from hb, Bool.and_false]
  have start : sysState s ≠ St.HALT := by
    cases m with
    | host k => simp only [Bool.and_eq_true, bne_iff_ne] at hm; exact hm.1.1.2
    | _ => simp only [Bool.and_eq_true, bne_iff_ne] at hm; exact hm.1
  refine ⟨⟨hu, h4, htw, hwo, bar, hd, tok, hs, start⟩, fun k hk => ?_⟩
  subst hk
  simp only [Bool.and_eq_true] at hm
  obtain ⟨⟨⟨hj, _⟩, ho⟩, hc⟩ := hm
  exact ⟨hj, ho, hc⟩

/-- No master but the owner writes LEN, in no state but those with an image (R367, R451). -/
theorem bankLen_ownerOnly (k : Nat) (bank : Fin 2) (h : k < 5) : anyMaster k (Reg.addr (bankLenReg bank) 0) = false := by
  have h1 : Reg.addr .SYS_OWNER_CLAIM 0 = 0x40000040 := by decide
  have h2 : Reg.addr .SYS_ACCEPT 0 = 0x4000004C := by decide
  have h3 : Reg.addr .HOSTIF_MSTAT_m k = 0x40040000 + 0x10 * k := rfl
  unfold anyMaster
  rw [bankLenReg_addr, h1, h2, h3]
  simp; omega

/-- A write of LEN that would land with the window open. -/
theorem arrives_of_lands (m : Initiator) (bank : Fin 2) (s : State) (h : lands m (bankLenReg bank) 0 (windowOpen s) = true) :
    Arrives m (Reg.addr (bankLenReg bank) 0) s ∧ ∀ k, m = .host k → hostMay k (Reg.addr (bankLenReg bank) 0) s := by
  have hi : 0 < (Reg.row (bankLenReg bank)).count := by
    match bank with
    | 0 => decide
    | 1 => decide
  have hreg : regionOf (Reg.addr (bankLenReg bank) 0) = .regs := by
    match bank with
    | 0 => decide
    | 1 => decide
  have htw : takesWrites (Reg.addr (bankLenReg bank) 0) = true := by
    unfold takesWrites regAt
    rw [hreg, lookup_addr _ _ hi]; rfl
  have hclr : Reg.addr (bankLenReg bank) 0 ≠ Reg.addr .AON_FAULT_CLR 0 := by
    have hc : Reg.addr .AON_FAULT_CLR 0 = 0xF0000014 := by decide
    rw [bankLenReg_addr, hc]; omega
  unfold lands at h
  simp only [Bool.and_eq_true, Bool.not_eq_true', decide_eq_true_eq] at h
  obtain ⟨⟨⟨⟨⟨⟨⟨⟨hu, _⟩, _⟩, hd⟩, ht⟩, _⟩, hs⟩, _⟩, hm⟩ := h
  have start : sysState s ≠ St.HALT := by
    cases m with
    | host k =>
      simp only [Bool.and_eq_true, Bool.or_eq_true, bne_iff_ne, beq_iff_eq] at hm
      exact hm.1.1.2.resolve_right hclr
    | _ => simp only [Bool.and_eq_true, bne_iff_ne] at hm; exact hm.1
  refine ⟨⟨hu, (addr_place _ _ hi).1, htw, by rw [hreg]; rfl, by rw [hreg]; rfl, hd, ht, hs, start⟩, fun k hk => ?_⟩
  subst hk
  simp only [bankLen_ownerOnly k.val bank k.isLt, Bool.or_false, Bool.and_eq_true] at hm
  obtain ⟨⟨⟨hj, _⟩, ho⟩, hc⟩ := hm
  exact ⟨hj, ho, hc⟩

/-- The state in which the fabric holds one write more. -/
def withHeld (m : Initiator) (a : Nat) (v : Word) (s : State) : State :=
  setFab { s.fab with held := s.fab.held ++ [(m, a, v)] } s

section
variable {m : Initiator} {a : Nat} {s : State} (v : Word)

/-- A write that the commit window holds waits. -/
theorem busWriteWord_held (h : Arrives m a s) (hf : fabHolds s a = true) (hn : (m, a, v) ∉ s.fab.held)
    (hd : ¬ (0x40070000 ≤ a ∧ a < 0x40080000)) :
    busWriteWord m a v s = (.wait, withHeld m a v (touch (domainAt a) s)) := by
  have ww := wholeWord_wordBytes a v h.aligned
  obtain ⟨b, l, he, hlen⟩ : ∃ b l, wordBytes a v = (a, b) :: l ∧ (wordBytes a v).length = 4 := ⟨_, _, rfl, rfl⟩
  obtain ⟨q, hq⟩ := touch_frame (domainAt a) s
  have hf' : fabHolds (touch (domainAt a) s) a = true := by rw [hq]; exact hf
  have hw : holdWrite (m, a, v) (touch (domainAt a) s) = withHeld m a v (touch (domainAt a) s) := by
    unfold holdWrite withHeld
    rw [hq, if_neg (by simpa using hn)]
  unfold busWriteWord busWrite
  rw [inDma_wordBytes _ _ h.aligned, decide_eq_false hd]
  unfold busPut
  rw [he]
  simp only
  rw [← he]
  simp only [accessWake_still m _ s h.on h.calm, ww, h.takes, h.words, hlen, h.admitted, h.on, h.token, hf', hw, Bool.not_true,
    Option.isNone_some, Bool.and_false, Bool.or_self, Bool.false_eq_true, if_false, if_true]

/-- A write of an initiator that is no host master, held by the commit window; only the stroke engine's is not made again (R218). -/
theorem plainAccess_held (h : Arrives m a s) (hf : fabHolds s a = true) (hn : (m, a, v) ∉ s.fab.held)
    (hd : ¬ (0x40070000 ≤ a ∧ a < 0x40080000)) (hp : poolFull m s = false) :
    let t := withHeld m a v (touch (domainAt a) s)
    plainAccess ⟨m, a, some v⟩ s = if isStroke m then t else setPwr { t.pwr with stalled := t.pwr.stalled ++ [⟨m, a, some v⟩] } t := by
  have mine : (withHeld m a v (touch (domainAt a) s)).fab.held.any (fun e => e.1 == m) = true := by
    simp [withHeld]
  unfold plainAccess
  simp only [hp, Bool.false_eq_true, if_false, busWriteWord_held v h hf hn hd, mine, Bool.and_true]

/-- A host master's write, held by the commit window: its transaction waits (R218, R446). -/
theorem hostTx_held {k : Fin 5} (h : Arrives (.host k) a s) (hk : hostMay k a s) (hf : fabHolds s a = true)
    (hn : (Initiator.host k, a, v) ∉ s.fab.held) (hd : ¬ (0x40070000 ≤ a ∧ a < 0x40080000)) :
    let t := withHeld (.host k) a v (touch (domainAt a) (served (.host k) s))
    hostTx k a true [v] 0 s =
      setHost { t.host with tx := t.host.tx ++ [⟨k, a, true, [v], 0, [], none, true, true, s.time.hub + 1⟩] } t := by
  obtain ⟨hj, ho, hc⟩ := hk
  unfold credit at hc
  simp only [Bool.and_eq_true, Bool.not_eq_true', decide_eq_true_eq] at hc
  obtain ⟨idle, room⟩ := hc
  obtain ⟨e, he⟩ := served_reached k s
  have bus : busWriteWord (.host k) a v (served (.host k) s) =
      (.wait, withHeld (.host k) a v (touch (domainAt a) (served (.host k) s))) := by
    rw [he]; exact busWriteWord_held v (h.reached ..) hf hn hd
  have hw : hostWrite false k a v (served (.host k) s) =
      (none, withHeld (.host k) a v (touch (domainAt a) (served (.host k) s))) := by
    rw [hostWrite_bus k a v _ (by rw [he]; exact hj) h.aligned (by rw [he]; exact h.running) (by rw [he]; exact ho), bus]
  rw [hostTx_runs h.up_eq hj idle (by simp [txTooLong, newTx]) (hostFull_room _ room)]
  unfold txRun newTx
  simp only [if_true]
  rw [txWrites_waits _ _ _ _ _ _ _ (by rw [ofNat_val5]; exact hw) (.inl rfl)]
  obtain ⟨q, hq⟩ := touch_frame (domainAt a) (served (.host k) s)
  have on : domainOn (withHeld (.host k) a v (touch (domainAt a) (served (.host k) s))) (domainAt a) = true := by
    rw [hq, he]; exact h.on
  have hub : (withHeld (.host k) a v (touch (domainAt a) (served (.host k) s))).time = s.time := by rw [hq, he]; rfl
  unfold txWaits
  simp only [on, hub, Bool.not_true, Bool.false_eq_true, if_false, if_true]

/-- What a write of m that the commit window holds leaves: the fabric has it, and its initiator waits. -/
def heldLeaves (m : Initiator) (a : Nat) (v : Word) (s t : State) : Prop :=
  t.fab = { s.fab with held := s.fab.held ++ [(m, a, v)] } ∧
  (match m with
    | .host h => t.host.tx = s.host.tx ++ [⟨h, a, true, [v], 0, [], none, true, true, s.time.hub + 1⟩] ∧ t.pwr.stalled = s.pwr.stalled
    | .stroke _ => t.host = s.host ∧ t.pwr.stalled = s.pwr.stalled
    | _ => t.host = s.host ∧ t.pwr.stalled = s.pwr.stalled ++ [⟨m, a, some v⟩]) ∧
  t = { s with fab := t.fab, pwr := { s.pwr with quiet := t.pwr.quiet, stalled := t.pwr.stalled },
               host := { s.host with tx := t.host.tx, rr := t.host.rr, lease := t.host.lease } }

theorem access_held (h : Arrives m a s ∧ ∀ k, m = .host k → hostMay k a s) (hf : fabHolds s a = true)
    (hn : (m, a, v) ∉ s.fab.held) (hd : ¬ (0x40070000 ≤ a ∧ a < 0x40080000)) (hp : poolFull m s = false) :
    heldLeaves m a v s (access m a v s) := by
  obtain ⟨ha, hm⟩ := h
  obtain ⟨q, n, e, hq⟩ := touch_served m (domainAt a) s
  have starts : ∀ x, x = m → (∀ k, x ≠ .host k) → access m a v s = plainAccess ⟨m, a, some v⟩ s := by
    rintro x rfl hx
    have hs : mayStart x s = true := by
      cases x with
      | host k => exact absurd rfl (hx k)
      | _ => simpa [mayStart] using ha.running
    unfold access
    rw [ha.up_eq, hs]
    cases x with
    | host k => exact absurd rfl (hx k)
    | _ => rfl
  cases m with
  | host k =>
    have e1 : access (.host k) a v s = hostTx k a true [v] 0 s := by
      unfold access; rw [ha.up_eq]; rfl
    rw [e1, hostTx_held v ha (hm k rfl) hf hn hd, hq]
    exact ⟨rfl, ⟨rfl, rfl⟩, rfl⟩
  | stroke c =>
    rw [starts _ rfl (fun _ => by simp), plainAccess_held v ha hf hn hd hp]
    obtain ⟨q, hq⟩ := touch_frame (domainAt a) s
    rw [hq]
    exact ⟨rfl, ⟨rfl, rfl⟩, rfl⟩
  | core c | dma c =>
    rw [starts _ rfl (fun _ => by simp), plainAccess_held v ha hf hn hd hp]
    obtain ⟨q, hq⟩ := touch_frame (domainAt a) s
    rw [hq]
    exact ⟨rfl, ⟨rfl, rfl⟩, rfl⟩
  | sec | rom =>
    rw [starts _ rfl (fun _ => by simp), plainAccess_held v ha hf hn hd hp]
    obtain ⟨q, hq⟩ := touch_frame (domainAt a) s
    rw [hq]
    exact ⟨rfl, ⟨rfl, rfl⟩, rfl⟩

end

end Sys2Proof.Machine
end

section
/-! FabricControl: one lemma for each kind of write, then the obligation. -/

namespace Sys2Proof.Machine

theorem bankLen_outside_dma (bank : Fin 2) :
    ¬ (0x40070000 ≤ Reg.addr (bankLenReg bank) 0 ∧ Reg.addr (bankLenReg bank) 0 < 0x40080000) := by
  rw [bankLenReg_addr]; omega

theorem bankAt_bankLen (bank : Fin 2) : bankAt (Reg.addr (bankLenReg bank) 0) = some bank.val := by
  match bank with
  | 0 => decide
  | 1 => decide

theorem bankAt_route (bank : Fin 2) (k : Fin 65536) (up : Bool) : bankAt (routeAddr bank k + 4 * b2n up) = some bank.val := by
  have hb : b2n up ≤ 1 := by cases up <;> decide
  unfold bankAt routeAddr
  rw [if_pos (by omega)]
  congr 1; omega

/-- In the window the fabric holds the writes of the bank that is not active (R218). -/
theorem fabHolds_shadow (bank : Fin 2) (s : State) (a : Nat) (hb : bankAt a = some bank.val) (hs : bank.val ≠ routeAct s)
    (hh : s.fab.hold = true) : fabHolds s a = true := by
  have : routeAct s ≤ 1 := by unfold routeAct b2n; split <;> omega
  unfold fabHolds
  rw [hh, hb, show bank.val = 1 - routeAct s by omega]
  simp

section
variable (m : Initiator) (bank : Fin 2) (v : Word) (s : State)

/-- The block's CFG_ERR stands in FABRIC_FAULT (R8). -/
theorem ne_cfgErr_fabric (r q : RegName) (i : Nat) (h : 0x400A0000 ≤ (Reg.row r).base ∧ (Reg.row r).base < 0x400B0000)
    (hq : q ≠ .FABRIC_FAULT) : q ≠ (Reg.cfgErr r i).1 := by
  unfold Reg.cfgErr
  simp only
  iterate 10 rw [if_neg (by omega)]
  rw [if_pos h.2]
  exact hq

/-! The active side (R214). -/

theorem routeWordWrite_active (k : Fin 65536) (up : Bool) (h : bank.val = routeAct s) :
    doesAt (.routeWordWrite m bank k up v) m (routeAddr bank k + 4 * b2n up) s (fabAwr s) := by
  refine doesAt_of _ m _ v s fabAwr rfl (fun _ q n e => ?_) (fun _ t => by rw [wordWrite_route])
  rw [wordWrite_route, if_pos (by exact h), fabAwr_reached]

theorem gainWrite_active (j : Fin 4096) (h : bank.val = gainAct s) :
    doesAt (.gainWrite m bank j v) m (gainAddr bank j) s (fabAwr s) := by
  refine doesAt_of _ m _ v s fabAwr rfl (fun _ q n e => ?_) (fun _ t => by rw [wordWrite_gain])
  rw [wordWrite_gain, if_pos (by exact h), fabAwr_reached]

theorem bankLenWrite_active (h : bank.val = routeAct s) :
    does (.fabricBankLenWrite m bank v) m (bankLenReg bank) 0 s (fabAwr s) := by
  intro hl
  obtain ⟨q, n, e, hr⟩ := rowWrite_accessed m (bankLenReg bank) 0 v s hl (bankLen_outside_dma bank)
  rw [regTake_bankLen, lenWrite, if_pos (by exact h), fabAwr_reached] at hr
  exact ⟨_, rfl, accessed_trans (accessed_reached ..) hr⟩

/-! The shadow side (R209, R214, R215). -/

theorem routeWordWrite_shadow (k : Fin 65536) (up : Bool) (h : bank.val ≠ routeAct s) (hs : s.safe.mirrors = [])
    (hl : landsAt m (routeAddr bank k + 4 * b2n up) s = true) :
    gives (.routeWordWrite m bank k up v) s (fun t =>
      (∀ x, getSlot t x = if x = routeAddr bank k + 4 * b2n up then v else getSlot s x) ∧
      (∀ x, upsetOf t x = if x = routeAddr bank k ∨ x = routeAddr bank k + 4 then 0 else upsetOf s x) ∧
      t.bit .SAFE_MIRROR_VALID 0 (groupOf s .route) = false) := by
  have hb : b2n up ≤ 1 := by cases up <;> decide
  obtain ⟨q, n, e, ha⟩ := access_accessed m _ v s hl (fun t => by rw [wordWrite_route])
  rw [wordWrite_route, if_neg (by exact h)] at ha
  obtain ⟨h1, h2, h3⟩ := routeLand_parts bank k (routeAddr bank k + 4 * b2n up) v (reached q n e s) hs (by omega)
  refine ⟨_, rfl, fun x => ?_, fun x => ?_, ?_⟩
  · rw [accessed_getSlot ha, h1]; rfl
  · rw [accessed_upsetOf ha, h2]; rfl
  · rw [accessed_bit ha _ _ _ (by decide)]; exact h3

theorem gainWrite_shadow (j : Fin 4096) (h : bank.val ≠ gainAct s) (hs : s.safe.mirrors = []) :
    doesAt (.gainWrite m bank j v) m (gainAddr bank j) s
      ((setSlot s (gainAddr bank j) (slot24 v.toNat)).setBit .SAFE_MIRROR_VALID 0 (groupOf s .gain) false) := by
  refine doesAt_of _ m _ v s
    (fun s => (setSlot s (gainAddr bank j) (slot24 v.toNat)).setBit .SAFE_MIRROR_VALID 0 (groupOf s .gain) false)
    rfl (fun _ q n e => ?_) (fun _ t => by rw [wordWrite_gain])
  rw [wordWrite_gain, if_neg (by exact h),
    shadowWritten_still _ _ (setSlot (reached q n e s) (gainAddr bank j) (slot24 v.toNat)) hs]
  rfl

theorem bankLenReg_facts : ∀ bank : Fin 2, bankLenReg bank ≠ (Reg.cfgErr (bankLenReg bank) 0).1 ∧ bankLenReg bank ≠ .EVT_RAW_w ∧
    bankLenReg bank ≠ .SAFE_MIRROR_VALID ∧ fld (Reg.resetOf (Reg.key (bankLenReg bank) 0)) 16 0 = 0 := by
  decide

/-- What a write of LEN leaves of the shadow bank. -/
theorem lenLand_parts (hs : s.safe.mirrors = []) :
    let len := bankLenReg bank
    let u := lenLand bank v s
    u.f len 0 16 0 = (if fld v 16 0 ≤ 65536 then fld v 16 0 else 0) ∧
    u.fab.chkRun = bank.val :: s.fab.chkRun.filter (fun b => b != bank.val) ∧
    Store.get chkReset u.fab.chk bank = 0x40000000 ∧ Store.get natZero u.fab.split bank = 0 ∧
    u.bit .SAFE_MIRROR_VALID 0 (groupOf s .route) = false ∧
    (fld v 16 0 ≤ 65536 → regsKept [(len, 0), (.SAFE_MIRROR_VALID, 0)] s u) ∧
    u = { s with regs := u.regs, fab := { s.fab with chk := u.fab.chk, split := u.fab.split, chkRun := u.fab.chkRun } } := by
  intro len u
  obtain ⟨hc, he, hv, h0⟩ := bankLenReg_facts bank
  have row := bankLenReg_row bank
  have kept := RegsOnly.plainWrite len 0 v s
  have hu : u = setFab { s.fab with
      chk := Store.set chkReset s.fab.chk bank 0x40000000, split := Store.set natZero s.fab.split bank 0,
      chkRun := bank.val :: s.fab.chkRun.filter (fun b => b != bank.val) }
    ((plainWrite len 0 v s).setBit .SAFE_MIRROR_VALID 0 (groupOf s .route) false) := lenLand_still bank v s hs
  generalize hw : plainWrite len 0 v s = w at hu kept
  have reg : ∀ r i, u.reg r i = (w.setBit .SAFE_MIRROR_VALID 0 (groupOf s .route) false).reg r i := fun r i => by rw [hu, reg_setFab]
  have fab : u.fab = { s.fab with
      chk := Store.set chkReset s.fab.chk bank 0x40000000, split := Store.set natZero s.fab.split bank 0,
      chkRun := bank.val :: s.fab.chkRun.filter (fun b => b != bank.val) } := by rw [hu, setFab_fab]
  refine ⟨?_, by rw [fab], by rw [fab]; exact Store.get_set_same chkReset s.fab.chk bank.val 0x40000000,
    by rw [fab]; exact Store.get_set_same natZero s.fab.split bank.val 0, ?_, fun hle r i hr => ?_, ?_⟩
  · rw [State.f, reg, reg_setBit, if_neg (fun x => hv x.1), ← hw]
    have stored := f_plainWrite_enc (i := 0) (v := v) (s := s) row hc he (by decide) (by decide) (by decide)
    rw [h0, State.f] at stored
    rw [stored]; simp
  · rw [State.bit, reg]
    exact bit_setBit_same _ _ _ _ _ (groupOf_lt s).1
  · simp only [List.mem_cons, Prod.mk.injEq, List.not_mem_nil, or_false, not_or] at hr
    rw [reg, reg_setBit, if_neg hr.2, ← hw, reg_plainWrite_ok _ _ _ _ _ _ hr.1]
    rw [reservedEnc_one row (by decide)]; simpa using hle
  · rw [fab]
    conv => lhs; rw [hu, kept]
    rw [hu]; rfl

theorem bankLenWrite_shadow (h : bank.val ≠ routeAct s) (hs : s.safe.mirrors = []) :
    let len := bankLenReg bank
    doesSome (.fabricBankLenWrite m bank v) m len 0 s (fun u =>
      u.f len 0 16 0 = (if fld v 16 0 ≤ 65536 then fld v 16 0 else 0) ∧
      u.fab.chkRun = bank.val :: s.fab.chkRun.filter (fun b => b != bank.val) ∧
      Store.get chkReset u.fab.chk bank = 0x40000000 ∧ Store.get natZero u.fab.split bank = 0 ∧
      u.bit .SAFE_MIRROR_VALID 0 (groupOf s .route) = false ∧
      (fld v 16 0 ≤ 65536 → regsKept [(len, 0), (.SAFE_MIRROR_VALID, 0)] s u) ∧
      u = { s with regs := u.regs, fab := { s.fab with chk := u.fab.chk, split := u.fab.split, chkRun := u.fab.chkRun } }) := by
  intro len
  refine doesSome_of _ m len 0 v s _ rfl (bankLen_outside_dma bank) (fun q n e => ?_)
  rw [regTake_bankLen, lenWrite, if_neg (by exact h)]
  obtain ⟨h1, h2, h3, h4, h5, h6, h7⟩ := lenLand_parts bank v (reached q n e s) hs
  generalize lenLand bank v (reached q n e s) = t at *
  refine ⟨h1, h2, h3, h4, h5, h6, ?_⟩
  rw [h7]; rfl

/-! The commit window (R218). -/

variable (hb : bank.val ≠ routeAct s) (hh : s.fab.hold = true) (hp : poolFull m s = false)
include hb hh hp

theorem routeWordWrite_held (k : Fin 65536) (up : Bool) (hl : landsAt m (routeAddr bank k + 4 * b2n up) (windowOpen s) = true) :
    let a := routeAddr bank k + 4 * b2n up
    (m, a, v) ∉ s.fab.held → gives (.routeWordWrite m bank k up v) s (heldLeaves m a v s) := by
  intro a hn
  have hb2 : b2n up ≤ 1 := by cases up <;> decide
  have range : 0x3C000000 ≤ routeAddr bank k + 4 * b2n up ∧ routeAddr bank k + 4 * b2n up < 0x3C100000 := by unfold routeAddr; omega
  exact ⟨_, rfl, access_held v (arrives_of_landsAt m a s hl range.1 (by omega))
    (fabHolds_shadow bank s _ (bankAt_route bank k up) hb hh) hn (by omega) hp⟩

theorem bankLenWrite_held (hl : lands m (bankLenReg bank) 0 (windowOpen s) = true) :
    let a := Reg.addr (bankLenReg bank) 0
    (m, a, v) ∉ s.fab.held → gives (.fabricBankLenWrite m bank v) s (heldLeaves m a v s) := fun hn =>
  ⟨_, rfl, access_held v (arrives_of_lands m bank s hl) (fabHolds_shadow bank s _ (bankAt_bankLen bank) hb hh) hn
    (bankLen_outside_dma bank) hp⟩

omit hb hh hp

/-! The check of a route bank (R215). -/

theorem routeCheckDone_gives (hd : domainOn s 3 = true) (hu : Machine.up s = true) (hc : s.fab.chkRun.contains bank.val = true) :
    gives (.routeCheckDone bank) s (fun t =>
      Store.get chkReset t.fab.chk bank = (routeResult s bank).1 ∧ Store.get natZero t.fab.split bank = (routeResult s bank).2 ∧
      t.fab.chkRun = s.fab.chkRun.filter (fun b => b != bank.val) ∧ t.wmem = s.wmem ∧
      (fld (routeResult s bank).1 29 24 = 6 → t.bit .FABRIC_FAULT 0 3 = true) ∧
      t = { s with
        regs := t.regs, upset := t.upset,
        fab := { s.fab with chk := t.fab.chk, split := t.fab.split, chkRun := t.fab.chkRun } }) := by
  obtain ⟨⟨R, U, ht⟩, h6⟩ := routeCheckDone_parts bank s hc
  have run : exec (.routeCheckDone bank) s = .next (Machine.routeCheckDone bank s) := by
    change Host.Outcome.next (whenOn 3 _ s) = _
    unfold whenOn
    rw [hu, hd]; rfl
  refine ⟨_, run, ?_, ?_, ?_, ?_, h6, ?_⟩
  · rw [ht]; exact Store.get_set_same ..
  · rw [ht]; exact Store.get_set_same ..
  · rw [ht]
  · rw [ht]
  · rw [ht]

/-! The actions of the detectors' and clusters' registers. -/

theorem regTake_thresh (n : Nat) : regTake m .FABRIC_SIL_THRESH_n n v s = profileWritten n true (plainWrite .FABRIC_SIL_THRESH_n n v s) := rfl
theorem regTake_hold (n : Nat) : regTake m .FABRIC_SIL_HOLD_n n v s = profileWritten n false (plainWrite .FABRIC_SIL_HOLD_n n v s) := rfl
theorem regTake_quiet (c : Nat) : regTake m .FABRIC_QUIET_n c v s = setQuietCnt c 0 (plainWrite .FABRIC_QUIET_n c v s) := rfl

/-! Silence detectors (R220, R222). -/

theorem detectorWord_gives (a : Fin 12288) (ha : hasDetector a = true) (hl : landsAt m (0x3C110000 + 4 * a.val) s = true) :
    gives (.detectorConfigWrite m (.word a) v) s (fun t =>
      (∀ x, getSlot t x = if x = 0x3C110000 + 4 * a.val then v &&& 7 else getSlot s x) ∧ silent t a = false ∧
      Store.get natZero t.fab.detCnt a = 0 ∧ t.mem = s.mem ∧ t.hart = s.hart) := by
  obtain ⟨q, n, e, h⟩ := access_accessed m _ v s hl (fun t => by rw [wordWrite_detector _ _ _ _ ha])
  rw [wordWrite_detector _ _ _ _ ha] at h
  obtain ⟨u, hu⟩ : ∃ u, u = detClear a (setSlot (reached q n e s) (0x3C110000 + 4 * a.val) (v &&& 7)) := ⟨_, rfl⟩
  have woke := (detClear_woke a (setSlot (reached q n e s) (0x3C110000 + 4 * a.val) (v &&& 7))).1
  have quiet := silent_detClear a a (setSlot (reached q n e s) (0x3C110000 + 4 * a.val) (v &&& 7))
  have fab := fab_detClear a (setSlot (reached q n e s) (0x3C110000 + 4 * a.val) (v &&& 7))
  rw [← hu] at woke quiet fab
  simp only [← hu] at h
  refine ⟨access m (0x3C110000 + 4 * a.val) v s, rfl, fun x => ?_, ?_, ?_, ?_, ?_⟩
  · rw [accessed_getSlot h, woke]
    exact getSlot_setSlot ..
  · rw [silent, accessed_bit h _ _ _ (by decide)]
    exact quiet.trans (if_pos rfl)
  · rw [accessed_fab h, fab]
    exact Store.get_set_same natZero s.fab.detCnt a.val 0
  · rw [accessed_mem h, woke]; rfl
  · rw [accessed_hart h, woke]; rfl

theorem detectorWord_does (a : Fin 12288) (ha : hasDetector a = true) (hq : silent s a = false ∨ s.bit .PWR_WAKE_EN 0 25 = false) :
    doesAt (.detectorConfigWrite m (.word a) v) m (0x3C110000 + 4 * a.val) s
      (setSilent a false (setDetCnt a 0 (setSlot s (0x3C110000 + 4 * a.val) (v &&& 7)))) := by
  refine doesAt_of _ m _ v s (fun s => setSilent a false (setDetCnt a 0 (setSlot s (0x3C110000 + 4 * a.val) (v &&& 7)))) rfl
    (fun _ q n e => ?_) (fun _ t => by rw [wordWrite_detector _ _ _ _ ha])
  rw [wordWrite_detector _ _ _ _ ha, detClear_quiet a (setSlot (reached q n e s) _ _) hq]
  rfl

theorem threshWrite_does (n : Fin 4) :
    doesSome (.detectorConfigWrite m (.thresh n) v) m .FABRIC_SIL_THRESH_n n s (fun u =>
      u.f .FABRIC_SIL_THRESH_n n 23 0 = fld v 23 0 ∧ (∀ d : Fin 0x3000, hasDetector d = true → bitOf (detCfg s d) 0 = true →
        detProfile s d = n → silent u d = false ∧ Store.get natZero u.fab.detCnt d = 0) ∧
      ∀ q : Fin 8, s.f .FABRIC_QUIET_n q 25 24 = n → Store.get natZero u.fab.quietCnt q = 0) := by
  have ha : Reg.addr .FABRIC_SIL_THRESH_n n = 0x400A0020 + 4 * n.val := rfl
  have row : RwRow .FABRIC_SIL_THRESH_n 0xFFFFFF [] := ⟨rfl, rfl, rfl, rfl, rfl, rfl⟩
  refine doesSome_of _ m .FABRIC_SIL_THRESH_n n v s _ rfl (by rw [ha]; omega) (fun q l e => ?_)
  rw [regTake_thresh]
  have flag : ∀ r, r ≠ .FABRIC_FAULT → r ≠ (Reg.cfgErr .FABRIC_SIL_THRESH_n n).1 := fun r => ne_cfgErr_fabric _ r n (by decide)
  have kept := RegsOnly.plainWrite .FABRIC_SIL_THRESH_n n v (reached q l e s)
  have stored := f_plainWrite_free (i := n) (v := v) (s := reached q l e s) (hi := 23) (lo := 0) row (flag _ (by decide)) (by decide)
    (by decide) (by decide)
  have others : ∀ c, (plainWrite .FABRIC_SIL_THRESH_n n v (reached q l e s)).reg .FABRIC_QUIET_n c = s.reg .FABRIC_QUIET_n c := fun c =>
    reg_plainWrite_ne _ _ _ _ _ _ (by simp) (flag _ (by decide)) (by decide)
  generalize plainWrite .FABRIC_SIL_THRESH_n n v (reached q l e s) = w at *
  have cfg : ∀ d, detCfg w d = detCfg s d := fun d => by rw [kept]; rfl
  obtain ⟨h1, h2, _, h4⟩ := profileWritten_parts n true w
  generalize profileWritten n true w = u at *
  refine ⟨?_, fun d hd hen hp => h1 d d.isLt hd (by rw [cfg]; exact hen) (by unfold detProfile; rw [cfg]; exact hp),
    fun c hc => h2 rfl c c.isLt ?_⟩
  · rw [State.f, reg_reached, h4 _ _ (by decide) (by decide) (by decide) (by decide) (by decide)]
    exact stored
  · rw [State.f, others]; exact hc

theorem holdWrite_does (n : Fin 4) :
    doesSome (.detectorConfigWrite m (.hold n) v) m .FABRIC_SIL_HOLD_n n s (fun u =>
      u.f .FABRIC_SIL_HOLD_n n 20 0 = (if fld v 20 0 ≤ 2 ^ 20 then fld v 20 0 else 48000) ∧ u.fab.quietCnt = s.fab.quietCnt) := by
  have ha : Reg.addr .FABRIC_SIL_HOLD_n n = 0x400A0030 + 4 * n.val := rfl
  have row : RwRow .FABRIC_SIL_HOLD_n 0x1FFFFF [⟨20, 0, fun v => v ≤ 1048576⟩] := ⟨rfl, rfl, rfl, rfl, rfl, rfl⟩
  have h0 : ∀ n : Fin 4, fld (Reg.resetOf (Reg.key .FABRIC_SIL_HOLD_n n)) 20 0 = 48000 := by decide
  refine doesSome_of _ m .FABRIC_SIL_HOLD_n n v s _ rfl (by rw [ha]; omega) (fun q l e => ?_)
  rw [regTake_hold]
  have kept := RegsOnly.plainWrite .FABRIC_SIL_HOLD_n n v (reached q l e s)
  have stored := f_plainWrite_enc (i := n) (v := v) (s := reached q l e s) row (ne_cfgErr_fabric _ _ _ (by decide) (by decide))
    (by decide) (by decide) (by decide) (by decide)
  rw [h0] at stored
  generalize plainWrite .FABRIC_SIL_HOLD_n n v (reached q l e s) = w at *
  obtain ⟨_, _, h3, h4⟩ := profileWritten_parts n false w
  generalize profileWritten n false w = u at *
  refine ⟨?_, ?_⟩
  · rw [State.f, reg_reached, h4 _ _ (by decide) (by decide) (by decide) (by decide) (by decide)]
    exact stored.trans (by simp)
  · exact (h3 rfl).trans (by rw [kept]; rfl)

/-! Quiet and tone registers (R206, R225). -/

theorem quietWrite_does (c : Fin 8) :
    doesSome (.fabricQuietWrite m c v) m .FABRIC_QUIET_n c s (fun u => u.bit .FABRIC_QUIET_n c 31 = bitOf v 31 ∧
      u.f .FABRIC_QUIET_n c 25 24 = fld v 25 24 ∧
      u.f .FABRIC_QUIET_n c 20 0 = (if 1 ≤ fld v 20 0 ∧ fld v 20 0 ≤ 2 ^ 20 then fld v 20 0 else 48000) ∧
      Store.get natZero u.fab.quietCnt c = 0) := by
  have ha : Reg.addr .FABRIC_QUIET_n c = 0x400A0040 + 4 * c.val := rfl
  have row : RwRow .FABRIC_QUIET_n 0x831FFFFF [⟨20, 0, fun v => 1 ≤ v && v ≤ 1048576⟩] := ⟨rfl, rfl, rfl, rfl, rfl, rfl⟩
  have h0 : ∀ c : Fin 8, fld (Reg.resetOf (Reg.key .FABRIC_QUIET_n c)) 20 0 = 48000 := by decide
  have flag := ne_cfgErr_fabric .FABRIC_QUIET_n .FABRIC_QUIET_n c (by decide) (by decide)
  refine doesSome_of _ m .FABRIC_QUIET_n c v s _ rfl (by rw [ha]; omega) (fun q l e => ?_)
  rw [regTake_quiet]
  have b31 := bit_plainWrite_beside (i := c) (v := v) (s := reached q l e s) (b := 31) row flag (by decide) (by decide) (by decide)
    (by decide) (by decide) (by decide) (by decide)
  have f25 := f_plainWrite_beside (i := c) (v := v) (s := reached q l e s) (hi := 25) (lo := 24) row flag (by decide) (by decide)
    (by decide) (by decide) (by decide) (by decide) (by decide)
  have f20 := f_plainWrite_enc (i := c) (v := v) (s := reached q l e s) row flag (by decide) (by decide) (by decide) (by decide)
  rw [h0] at f20
  generalize plainWrite .FABRIC_QUIET_n c v (reached q l e s) = w at *
  exact ⟨b31, f25, f20.trans (by simp), Store.get_set_same natZero w.fab.quietCnt c.val 0⟩

/-- A write of INC with PHASE_CLR: the phase is cleared at the next boundary, or at once while no turn runs. -/
theorem toneIncWrite_parts (c : Fin 8) (hv : bitOf v 31 = true) :
    let u := toneIncWrite c v s
    u.f .FABRIC_TONE_n_INC c 23 0 = fld v 23 0 ∧
    (turnsOn s = true → u.fab = { s.fab with clr := c.val :: s.fab.clr.filter (fun k => k != c.val) }) ∧
    (turnsOn s = false → Store.get natZero u.fab.phase c = 0) ∧ u.dev = s.dev := by
  have row : RwRow .FABRIC_TONE_n_INC 0xFFFFFF [] := ⟨rfl, rfl, rfl, rfl, rfl, rfl⟩
  have flag := ne_cfgErr_fabric .FABRIC_TONE_n_INC .FABRIC_TONE_n_INC c (by decide) (by decide)
  have kept := RegsOnly.plainWrite .FABRIC_TONE_n_INC c v s
  have stored : (plainWrite .FABRIC_TONE_n_INC c v s).f .FABRIC_TONE_n_INC c 23 0 = fld v 23 0 :=
    f_plainWrite_free row flag (by decide) (by decide) (by decide)
  have turns : turnsOn (plainWrite .FABRIC_TONE_n_INC c v s) = turnsOn s := by
    unfold turnsOn State.bit
    rw [reg_plainWrite_ne _ _ _ _ _ _ (by simp) (ne_cfgErr_fabric _ _ _ (by decide) (by decide)) (by decide)]
  unfold toneIncWrite
  generalize plainWrite .FABRIC_TONE_n_INC c v s = w at *
  have fab : w.fab = s.fab := by rw [kept]
  have dev : w.dev = s.dev := by rw [kept]
  simp only [hv, if_true, turns]
  cases ht : turnsOn s with
  | true => exact ⟨stored, fun _ => by rw [if_pos rfl, setFab_fab, fab], nofun, dev⟩
  | false => exact ⟨stored, nofun, fun _ => Store.get_set_same natZero w.fab.phase c.val 0, dev⟩

theorem toneInc_reached (c : Fin 8) (hv : bitOf v 31 = true) (q : Store Nat) (n e : Nat) :
    let u := reached s.pwr.quiet s.host.rr s.host.lease (regTake m .FABRIC_TONE_n_INC c v (reached q n e s))
    u.f .FABRIC_TONE_n_INC c 23 0 = fld v 23 0 ∧
    (turnsOn s = true → u.fab = { s.fab with clr := c.val :: s.fab.clr.filter (fun k => k != c.val) }) ∧
    (turnsOn s = false → Store.get natZero u.fab.phase c = 0) ∧ u.dev = s.dev :=
  toneIncWrite_parts v (reached q n e s) c hv

theorem phaseClr_does (c : Fin 8) :
    doesSome (.phaseClr m c v) m .FABRIC_TONE_n_INC c s (fun u => u.f .FABRIC_TONE_n_INC c 23 0 = fld v 23 0 ∧
      (turnsOn s = true → u.fab = { s.fab with clr := c.val :: s.fab.clr.filter (fun k => k != c.val) }) ∧
      (turnsOn s = false → Store.get natZero u.fab.phase c = 0) ∧ u.dev = s.dev) := by
  have ha : Reg.addr .FABRIC_TONE_n_INC c = 0x400A0180 + 8 * c.val := rfl
  refine doesSome_of _ m .FABRIC_TONE_n_INC c (putBit v 31 true) s _ rfl (by rw [ha]; omega) (fun q l e => ?_)
  obtain ⟨h1, h2⟩ := toneInc_reached m (putBit v 31 true) s c (bitOf_putBit_same _ _ _ (by decide)) q l e
  exact ⟨h1.trans (fld_putBit_ne _ _ _ _ _ (by decide) (by decide)), h2⟩

end

/-- Settles O30, by the lemmas on each kind of write: a write of the active side is the one flag AWR, a shadow write or a check goes through
what lands or what the window holds, and the detectors' writes end in clears. -/
theorem fabricControl : Obligations.FabricControl := by
  unfold Obligations.FabricControl
  intro m bank k up j c n a v s act ra ga stored awr len still open_ waits
  have hlen : len = bankLenReg bank := by
    change (if bank = 0 then RegName.FABRIC_BANK_A_LEN else .FABRIC_BANK_B_LEN) = bankLenReg bank
    match bank with
    | 0 => rfl
    | 1 => rfl
  have hwaits : ∀ i x, ((m, x, v) ∉ s.fab.held → gives i s (heldLeaves m x v s)) → waits i x := fun i x h hn => by
    obtain ⟨t, ht, hp⟩ := h hn
    refine ⟨t, ht, hp.1, ?_, hp.2.2⟩
    have := hp.2.1
    cases m <;> exact this
  clear_value len
  subst hlen
  refine ⟨routeWordWrite_active m bank v s k up, gainWrite_active m bank v s j, bankLenWrite_active m bank v s,
    fun hb hh hp => ⟨fun hl => hwaits _ _ (routeWordWrite_held m bank v s hb hh hp k up hl),
      fun hl => hwaits _ _ (bankLenWrite_held m bank v s hb hh hp hl)⟩,
    fun hb _ hs hl => routeWordWrite_shadow m bank v s k up hb hs hl, fun hb _ hs => bankLenWrite_shadow m bank v s hb hs,
    fun hb hs => gainWrite_shadow m bank v s j hb hs, fun hd hu hc => routeCheckDone_gives bank s hd hu hc,
    fun ha hl => detectorWord_gives m v s a ha hl, fun ha hq => detectorWord_does m v s a ha hq, threshWrite_does m v s n,
    holdWrite_does m v s n, quietWrite_does m v s c, phaseClr_does m v s c⟩

end Sys2Proof.Machine
end

section
/-! SUPPORT. How a host transaction runs: what noting an answer changes, the words of a write and of a read one by one, and hub memory
as the target. -/

namespace Sys2Proof.Machine

/-! HOSTIF_MSTAT: the last answer and its flags (R466). -/

/-- t differs from s by the last answer of master m and by flags of its HOSTIF_MSTAT that have been set. -/
structure Noted (m : Nat) (s t : State) : Prop where
  regsOnly : RegsOnly s t
  kept : regsKept [(.HOSTIF_MSTAT_m, m)] s t
  flags : ∀ b, 8 ≤ b → b < 32 → s.bit .HOSTIF_MSTAT_m m b = true → t.bit .HOSTIF_MSTAT_m m b = true
  wign : t.bit .HOSTIF_MSTAT_m m 31 = s.bit .HOSTIF_MSTAT_m m 31

namespace Noted

theorem refl (m : Nat) (s : State) : Noted m s s := ⟨.refl s, fun _ _ _ => rfl, fun _ _ _ h => h, rfl⟩

theorem trans {m : Nat} {s t u : State} (h : Noted m s t) (k : Noted m t u) : Noted m s u :=
  ⟨h.regsOnly.trans k.regsOnly, fun r i hr => (k.kept r i hr).trans (h.kept r i hr),
    fun b h8 h32 hb => k.flags b h8 h32 (h.flags b h8 h32 hb), k.wign.trans h.wign⟩

theorem reg {m : Nat} {s t : State} (h : Noted m s t) (r : RegName) (i : Nat) (hr : r ≠ .HOSTIF_MSTAT_m) : t.reg r i = s.reg r i :=
  h.kept r i (by simp [hr])

theorem setFlag (m b : Nat) (s : State) (hb : b < 31) : Noted m s (s.setBit .HOSTIF_MSTAT_m m b true) := by
  refine ⟨.setBit .., fun r i hr => ?_, fun c _ _ hc => ?_, ?_⟩
  · rw [reg_setBit, if_neg (by simpa using hr)]
  · rw [State.bit, reg_setBit, if_pos ⟨rfl, rfl⟩, bitOf_putBit _ _ _ _ (by omega)]
    split
    · rfl
    · exact hc
  · rw [State.bit, reg_setBit, if_pos ⟨rfl, rfl⟩, bitOf_putBit_ne _ _ _ _ (by omega) (by omega)]; rfl

theorem setCode (m n : Nat) (s : State) : Noted m s (s.setF .HOSTIF_MSTAT_m m 7 0 n) := by
  have above : ∀ c, 8 ≤ c → (s.setF .HOSTIF_MSTAT_m m 7 0 n).bit .HOSTIF_MSTAT_m m c = s.bit .HOSTIF_MSTAT_m m c := fun c h => by
    rw [State.bit, reg_setF, if_pos ⟨rfl, rfl⟩, bitOf_setFld_ne _ _ _ _ _ (by decide) (by decide) (by omega)]; rfl
  refine ⟨.setF .., fun r i hr => ?_, fun c h8 _ hc => (above c h8).trans hc, above 31 (by decide)⟩
  rw [reg_setF, if_neg (by simpa using hr)]

theorem setLast (m code : Nat) (s : State) : Noted m s (setLast m code s) := by
  unfold Machine.setLast
  split
  · exact (setCode ..).trans (setFlag _ _ _ (by decide))
  · exact (setCode ..).trans (setFlag _ _ _ (by decide))
  · exact (setCode ..).trans (setFlag _ _ _ (by decide))
  · exact setCode ..

theorem txNote (x : HostTx) (code : Nat) (s : State) : Noted x.m s (txNote x code s) := by
  unfold Machine.txNote
  split
  · split
    · exact setFlag _ _ _ (by split <;> decide)
    · exact refl ..
  · exact setLast ..

end Noted

theorem f_setFlag (m b : Nat) (s : State) (h8 : 8 ≤ b) (hb : b < 32) :
    (s.setBit .HOSTIF_MSTAT_m m b true).f .HOSTIF_MSTAT_m m 7 0 = s.f .HOSTIF_MSTAT_m m 7 0 := by
  rw [State.f, reg_setBit, if_pos ⟨rfl, rfl⟩, fld_putBit_ne _ _ _ _ _ hb (by omega)]; rfl

/-- LAST holds the code of the answer. -/
theorem f_setLast (m code : Nat) (s : State) (h : code < 256) : (setLast m code s).f .HOSTIF_MSTAT_m m 7 0 = code := by
  have stored : (s.setF .HOSTIF_MSTAT_m m 7 0 code).f .HOSTIF_MSTAT_m m 7 0 = code := by
    rw [f_setF_same _ _ _ _ _ _ (by decide) (by decide)]; exact Nat.mod_eq_of_lt h
  unfold setLast
  split
  · rw [f_setFlag _ _ _ (by decide) (by decide), stored]
  · rw [f_setFlag _ _ _ (by decide) (by decide), stored]
  · rw [f_setFlag _ _ _ (by decide) (by decide), stored]
  · exact stored

/-- An answer 0x81 sets BUSERR, and 0x84 TIMEOUT, in the access they end. -/
theorem bit_txNote_81 (x : HostTx) (s : State) : (txNote x 0x81 s).bit .HOSTIF_MSTAT_m x.m 30 = true := by
  unfold txNote
  split
  · exact bit_setBit_same _ _ _ _ _ (by decide)
  · exact bit_setBit_same _ _ _ _ _ (by decide)
theorem bit_txNote_84 (x : HostTx) (s : State) : (txNote x 0x84 s).bit .HOSTIF_MSTAT_m x.m 29 = true := by
  unfold txNote
  split
  · exact bit_setBit_same _ _ _ _ _ (by decide)
  · exact bit_setBit_same _ _ _ _ _ (by decide)

/-- Where the answers are not told in one code of a burst, the answer is LAST at once. -/
theorem f_txNote (x : HostTx) (code : Nat) (s : State) (hx : (decide (x.m < 2) && x.write) = false) (h : code < 256) :
    (txNote x code s).f .HOSTIF_MSTAT_m x.m 7 0 = code := by
  unfold txNote
  rw [hx]
  exact f_setLast x.m code s h

/-! The lease and the end of a transaction (R453). -/

/-- When the owner's lease was last restarted, once master m has been served. -/
def leasedAt (m : Nat) (s : State) : Nat := if isOwner s m = true ∧ s.f .SYS_LEASE 0 15 0 ≠ 0 then s.time.hub + 1 else s.host.lease

theorem leaseRenew_eq (m : Nat) (s : State) : leaseRenew m s = setHost { s.host with lease := leasedAt m s } s := by
  unfold leaseRenew leasedAt
  by_cases h : isOwner s m = true ∧ s.f .SYS_LEASE 0 15 0 ≠ 0
  · rw [if_pos (by rw [Bool.and_eq_true, bne_iff_ne]; exact h), if_pos h]
  · rw [if_neg (by rw [Bool.and_eq_true, bne_iff_ne]; exact h), if_neg h]; rfl

theorem served_eq (k : Fin 5) (s : State) :
    served (.host k) s = setHost { s.host with rr := (k.val + 1) % 5, lease := leasedAt k.val s } s := by
  change leaseRenew k.val (setHost { s.host with rr := (k.val + 1) % 5 } s) = _
  rw [leaseRenew_eq]; rfl

theorem setF_setHost (r : RegName) (i hi lo n : Nat) (h : HostState) (s : State) :
    (setHost h s).setF r i hi lo n = setHost h (s.setF r i hi lo n) := rfl

theorem setBit_setHost (r : RegName) (i b : Nat) (v : Bool) (h : HostState) (s : State) :
    (setHost h s).setBit r i b v = setHost h (s.setBit r i b v) := rfl

theorem setLast_setHost (m code : Nat) (h : HostState) (s : State) : setLast m code (setHost h s) = setHost h (setLast m code s) := by
  unfold setLast
  rw [setF_setHost]
  split
  · rw [setBit_setHost]
  · rw [setBit_setHost]
  · rw [setBit_setHost]
  · rfl

/-- A transaction that no message carried ends: its answers, LAST of a burst, and its lease. -/
theorem txDone_parts (x : HostTx) (s : State) (hx : x.msg = none) :
    ∃ u, Noted x.m s u ∧
      ((x.m < 2 ∧ x.write = true → u = setLast x.m (burstCode x.out) s) ∧ (¬ (x.m < 2 ∧ x.write = true) → u = s)) ∧
      txDone x s = setHost { s.host with
        answer := s.host.answer.filter (fun y => y.1 != x.m) ++ [(x.m, x.out)], lease := leasedAt x.m s } u := by
  unfold txDone
  rw [leaseRenew_eq]
  simp only [hx]
  by_cases h : x.m < 2 ∧ x.write = true
  · refine ⟨setLast x.m (burstCode x.out) s, .setLast .., ⟨fun _ => rfl, fun n => absurd h n⟩, ?_⟩
    rw [if_pos (by simpa using h), setLast_setHost]; rfl
  · refine ⟨s, .refl .., ⟨fun n => absurd n h, fun _ => rfl⟩, ?_⟩
    rw [if_neg (by simpa using h)]; rfl

/-- Words that are all answered alike give a burst that answer. -/
theorem burstCode_uniform (ws : List Word) (code : Nat) (h : ws ≠ []) : burstCode (ws.map (fun _ => (code, (0 : Word)))) = code := by
  obtain ⟨v, l, rfl⟩ := List.exists_cons_of_ne_nil h
  unfold burstCode
  by_cases hc : code = 0x80
  · have none : (List.map (fun _ => (code, (0 : Word))) (v :: l)).find? (fun x => x.1 != 0x80) = none := by
      rw [List.find?_eq_none]
      intro x hx
      obtain ⟨_, _, rfl⟩ := List.mem_map.mp hx
      simp [hc]
    rw [none, hc]; rfl
  · simp [hc]

/-! The words of a transaction, one by one. -/

/-- Writes whose words are all answered with one code: J follows them word by word. -/
theorem txWrites_each (x : HostTx) (code : Nat) (ho : x.own = false) (hs : x.since = 0) (ws : List Word) (a : Nat)
    (J : Nat → State → Prop) (out : List (Nat × Word)) (s : State) (h0 : J 0 s)
    (step : ∀ j v t, ws[j]? = some v → J j t →
      ∃ u, hostWrite false (Fin.ofNat 5 x.m) (a + 4 * j) v t = (some code, u) ∧ J (j + 1) (txNote x code u)) :
    ∃ t, txWrites x ws a out s = txDone { x with data := [], out := out ++ ws.map (fun _ => (code, 0)) } t ∧ J ws.length t := by
  induction ws generalizing a J out s with
  | nil => exact ⟨s, by simp [txWrites], h0⟩
  | cons v l ih =>
    obtain ⟨u, hu, hj⟩ := step 0 v s rfl h0
    have same : { x with own := false, since := 0 } = x := by cases x; simp_all
    obtain ⟨t, ht, hJ⟩ := ih (a + 4) (fun j => J (j + 1)) (out ++ [(code, 0)]) (txNote x code u) hj (fun j w t hw hjt => by
      have hstep := step (j + 1) w t (by simpa using hw) hjt
      rwa [show a + 4 * (j + 1) = a + 4 + 4 * j by omega] at hstep)
    refine ⟨t, ?_, hJ⟩
    unfold txWrites
    simp only [ho, Nat.mul_zero, Nat.add_zero] at hu ⊢
    rw [hu]
    simp only
    rw [same, ht, List.append_assoc]; rfl

/-- Reads whose words are all answered with data: J follows them word by word. -/
theorem txReads_each (x : HostTx) (hs : x.since = 0) (n a : Nat) (W : Nat → Word) (J : Nat → State → Prop) (out : List (Nat × Word))
    (s : State) (h0 : J 0 s)
    (step : ∀ j t, j < n → J j t →
      ∃ u, hostRead (Fin.ofNat 5 x.m) (a + 4 * j) t = (some (0x80, W j), u) ∧ J (j + 1) (txNote x 0x80 u)) :
    ∃ t, txReads x n a out s = txDone { x with left := 0, out := out ++ (List.range n).map (fun j => (0x80, W j)) } t ∧ J n t := by
  induction n generalizing a W J out s with
  | zero => exact ⟨s, by simp [txReads], h0⟩
  | succ n ih =>
    obtain ⟨u, hu, hj⟩ := step 0 s (by omega) h0
    have same : { x with since := 0 } = x := by cases x; simp_all
    obtain ⟨t, ht, hJ⟩ := ih (a + 4) (fun j => W (j + 1)) (fun j => J (j + 1)) (out ++ [(0x80, W 0)]) (txNote x 0x80 u) hj
      (fun j t hjn hjt => by
        have hstep := step (j + 1) t (by omega) hjt
        rwa [show a + 4 * (j + 1) = a + 4 + 4 * j by omega] at hstep)
    refine ⟨t, ?_, hJ⟩
    unfold txReads
    simp only [Nat.mul_zero, Nat.add_zero] at hu ⊢
    rw [hu]
    simp only
    rw [same, ht, List.append_assoc, List.range_succ_eq_map, List.map_cons, List.map_map]; rfl

section
variable (k : Fin 5) (a : Nat) (s : State) (hu : up s = true) (hj : jtagOpen k.val a s = true)
  (hi : s.host.tx.any (fun y => y.m == k.val) = false)
include hu hj hi

/-- A write transaction whose words are all answered alike: I follows the state word by word, and does not heed HOSTIF_MSTAT's notes. -/
theorem hostTx_writes (ws : List Word) (hne : ws ≠ []) (hl : txTooLong (newTx k a true ws 0) = false)
    (hf : hostFull (newTx k a true ws 0) s = false) (code : Nat) (hcode : code < 256) (I : Nat → State → Prop)
    (h0 : I 0 (served (.host k) s)) (noted : ∀ j t u, I j t → Noted k.val t u → I j u)
    (step : ∀ j v t, ws[j]? = some v → I j t → ∃ u, hostWrite false k (a + 4 * j) v t = (some code, u) ∧ I (j + 1) u) :
    ∃ u, I ws.length u ∧ u.f .HOSTIF_MSTAT_m k 7 0 = code ∧ (code = 0x81 → u.bit .HOSTIF_MSTAT_m k 30 = true) ∧
      hostTx k a true ws 0 s = setHost { u.host with
        answer := u.host.answer.filter (fun y => y.1 != k.val) ++ [(k.val, ws.map (fun _ => (code, 0)))], lease := leasedAt k.val u } u := by
  let J (j : Nat) (t : State) : Prop :=
    I j t ∧ (0 < j → (2 ≤ k.val → t.f .HOSTIF_MSTAT_m k 7 0 = code) ∧ (code = 0x81 → t.bit .HOSTIF_MSTAT_m k 30 = true))
  obtain ⟨t, ht, hI, hn⟩ := txWrites_each (newTx k a true ws 0) code rfl rfl ws a J [] (served (.host k) s)
    ⟨h0, fun h => absurd h (by decide)⟩ (fun j v t hv hJ => by
      obtain ⟨u, hw, hI⟩ := step j v t hv hJ.1
      refine ⟨u, by rw [newTx, ofNat_val5]; exact hw, noted _ _ _ hI (.txNote (newTx k a true ws 0) ..), fun _ => ⟨fun h2 => ?_, ?_⟩⟩
      · exact f_txNote (newTx k a true ws 0) code u (by simp [newTx]; omega) hcode
      · rintro rfl
        exact bit_txNote_81 (newTx k a true ws 0) u)
  obtain ⟨notedCode, noted81⟩ := hn (List.length_pos_iff.mpr hne)
  obtain ⟨u, hnoted, hcase, hdone⟩ := txDone_parts
    { newTx k a true ws 0 with data := [], out := [] ++ ws.map (fun _ => (code, 0)) } t rfl
  have code_u : u.f .HOSTIF_MSTAT_m k 7 0 = code := by
    by_cases h2 : k.val < 2
    · rw [hcase.1 ⟨h2, rfl⟩, List.nil_append, burstCode_uniform ws code hne]
      exact f_setLast k.val code t hcode
    · rw [hcase.2 (fun h => h2 h.1)]
      exact notedCode (by omega)
  have host : u.host = t.host := by rw [hnoted.regsOnly]
  have lease : leasedAt k.val u = leasedAt k.val t := by
    have time : u.time = t.time := by rw [hnoted.regsOnly]
    unfold leasedAt isOwner ownerValid ownerIdx State.bit State.f
    rw [hnoted.reg _ _ (by decide), hnoted.reg _ _ (by decide), host, time]
  refine ⟨u, noted _ _ _ hI hnoted, code_u, fun h => hnoted.flags 30 (by decide) (by decide) (noted81 h), ?_⟩
  rw [hostTx_runs hu hj hi hl hf, host, lease]
  exact ht.trans hdone

/-- A read transaction whose words are all answered with data. -/
theorem hostTx_reads (n : Nat) (hn : 0 < n) (hf : hostFull (newTx k a false [] n) s = false) (W : Nat → Word) (I : Nat → State → Prop)
    (h0 : I 0 (served (.host k) s)) (noted : ∀ j t u, I j t → Noted k.val t u → I j u)
    (step : ∀ j t, j < n → I j t → ∃ u, hostRead k (a + 4 * j) t = (some (0x80, W j), u) ∧ I (j + 1) u) :
    ∃ u, I n u ∧ u.f .HOSTIF_MSTAT_m k 7 0 = 0x80 ∧
      hostTx k a false [] n s = setHost { u.host with
        answer := u.host.answer.filter (fun y => y.1 != k.val) ++ [(k.val, (List.range n).map (fun j => (0x80, W j)))],
        lease := leasedAt k.val u } u := by
  let J (j : Nat) (t : State) : Prop := I j t ∧ (0 < j → t.f .HOSTIF_MSTAT_m k 7 0 = 0x80)
  obtain ⟨t, ht, hI, hcode⟩ := txReads_each (newTx k a false [] n) rfl n a W J [] (served (.host k) s)
    ⟨h0, fun h => absurd h (by decide)⟩ (fun j t hjn hJ => by
      obtain ⟨u, hw, hI⟩ := step j t hjn hJ.1
      exact ⟨u, by rw [newTx, ofNat_val5]; exact hw, noted _ _ _ hI (.txNote (newTx k a false [] n) ..), fun _ =>
        f_txNote (newTx k a false [] n) 0x80 u (by simp [newTx]) (by decide)⟩)
  obtain ⟨u, _, hcase, hdone⟩ := txDone_parts
    { newTx k a false [] n with left := 0, out := [] ++ (List.range n).map (fun j => (0x80, W j)) } t rfl
  obtain rfl := hcase.2 (by simp [newTx])
  refine ⟨u, hI, hcode hn, ?_⟩
  rw [hostTx_runs hu hj hi (by simp [txTooLong, newTx]) hf]
  exact ht.trans hdone

end

/-! Hub memory (R365). -/

/-- A word of hub memory. -/
structure InHub (a : Nat) : Prop where
  aligned : a % 4 = 0
  low : 0x18000000 ≤ a
  high : a + 4 ≤ 0x18400000

section
variable {a : Nat} (h : InHub a)
include h

theorem regionOf_hub (b : Nat) (h1 : a ≤ b) (h2 : b < a + 4) : regionOf b = .hub := by
  have := h.low
  have := h.high
  unfold regionOf
  iterate 8 rw [if_neg (by omega)]
  rw [if_pos (by omega)]

theorem primary_hub (b : Nat) (h1 : a ≤ b) (h2 : b < a + 4) : primary b = b := by
  unfold primary
  rw [regionOf_hub h b h1 h2]

theorem domainAt_hub : domainAt a = 2 := by
  unfold domainAt
  rw [primary_hub h a (by omega) (by omega)]
  simp only
  rw [regionOf_hub h a (by omega) (by omega)]

theorem takesWrites_hub : takesWrites a = true := by
  unfold takesWrites
  rw [regionOf_hub h a (by omega) (by omega)]

/-- Neither a register that every master writes, nor the route bank, the DMA block or a command that ends HALT. -/
theorem hub_elsewhere : (∀ k : Fin 5, anyMaster k a = false) ∧ bankAt a = none ∧ ¬ (0x40070000 ≤ a ∧ a < 0x40080000) ∧
    a ≠ Reg.addr .AON_FAULT_CLR 0 ∧ a ≠ Reg.addr .SYS_STATE_REQ 0 ∧ a ≠ Reg.addr .SEC_BOOT_CTRL 0 ∧ a ≠ Reg.addr .SYS_ACCEPT 0 ∧
    a ≠ Reg.addr .SCHED_HOST_TOK_PUSH 0 ∧ isOwnerReg a = false := by
  have h1 := h.low
  have h2 := h.high
  have e1 : Reg.addr .SYS_OWNER_CLAIM 0 = 0x40000040 := by decide
  have e2 : Reg.addr .SYS_ACCEPT 0 = 0x4000004C := by decide
  have e3 : Reg.addr .AON_FAULT_CLR 0 = 0xF0000014 := by decide
  have e4 : Reg.addr .SYS_STATE_REQ 0 = 0x4000000C := by decide
  have e5 : 0x40000000 ≤ Reg.addr .SEC_BOOT_CTRL 0 := by decide
  have e6 : Reg.addr .SCHED_HOST_TOK_PUSH 0 = 0x40060064 := by decide
  have e7 : Reg.addr .FABRIC_BANK_A_LEN 0 = 0x400A0000 := by decide
  have e8 : Reg.addr .FABRIC_BANK_B_LEN 0 = 0x400A0004 := by decide
  have e9 : ∀ k, Reg.addr .HOSTIF_MSTAT_m k = 0x40040000 + 0x10 * k := fun _ => rfl
  unfold anyMaster bankAt isOwnerReg
  rw [e1, e2, e3, e4, e6, e7, e8]
  refine ⟨fun k => ?_, ?_, by omega, by omega, by omega, by omega, by omega, by omega, ?_⟩
  · rw [e9]; simp; omega
  · rw [if_neg (by omega), if_neg (by omega), if_neg (by omega)]
  · simp; omega

end

end Sys2Proof.Machine
end

section
/-! SUPPORT. One word of hub memory, written or read by a host master: the bytes it leaves, and the answer by state and owner. -/

namespace Sys2Proof.Machine

/-! Bytes of memory. -/

theorem getByte_setByte (s : State) (a b : Nat) (v : Byte) : getByte (setByte s a v) b = if b = a then v else getByte s b := by
  unfold getByte setByte
  exact Store.get_set ..

theorem putBytes_frame (l : List (Nat × Byte)) (s : State) : putBytes l s = { s with mem := (putBytes l s).mem } := by
  induction l generalizing s with
  | nil => rfl
  | cons e l ih => exact ih (setByte s (primary e.1) e.2)

theorem getBytes_congr {s t : State} (n a : Nat) (h : ∀ b, a ≤ b → b < a + n → getByte t b = getByte s b) :
    getBytes t a n = getBytes s a n := by
  induction n generalizing a with
  | zero => rfl
  | succ n ih =>
    unfold getBytes
    rw [h a (by omega) (by omega), ih (a + 1) (fun b h1 h2 => h b (by omega) (by omega))]

theorem getBytes_add (s : State) (m n a : Nat) : getBytes s a (m + n) = getBytes s a m ++ getBytes s (a + m) n := by
  induction m generalizing a with
  | zero => simp [getBytes]
  | succ m ih =>
    rw [show m + 1 + n = m + n + 1 by omega, getBytes, ih, getBytes, show a + (m + 1) = a + 1 + m by omega]; rfl

section
variable {a : Nat} (h : InHub a) (v : Word) (s : State)
include h

/-- A word stored in hub memory: its four bytes, and every other byte as before. -/
theorem getBytes_putBytes : getBytes (putBytes (wordBytes a v) s) a 4 = bytesOfWord v := by
  have p0 := primary_hub h a (by omega) (by omega)
  have p := fun i (hi : i < 4) => primary_hub h (a + i) (by omega) (by omega)
  unfold putBytes wordBytes bytesOfWord getBytes getBytes getBytes getBytes getBytes
  simp only [List.zipIdx_cons, List.zipIdx_nil, List.map_cons, List.map_nil, List.foldl_cons, List.foldl_nil, Nat.zero_add,
    p0, p 1 (by decide), p 2 (by decide), p 3 (by decide), getByte_setByte, Nat.add_zero, Nat.add_assoc, Nat.reduceAdd,
    Nat.add_right_inj, Nat.left_eq_add, Nat.reduceEqDiff, if_true, if_false, one_ne_zero, reduceCtorEq]

theorem getByte_putBytes_ne (b : Nat) (hb : b < a ∨ a + 4 ≤ b) : getByte (putBytes (wordBytes a v) s) b = getByte s b := by
  have p := fun i (hi : i < 4) => primary_hub h (a + i) (by omega) (by omega)
  unfold putBytes wordBytes bytesOfWord
  simp only [List.zipIdx_cons, List.zipIdx_nil, List.map_cons, List.map_nil, List.foldl_cons, List.foldl_nil, Nat.zero_add,
    p 0 (by decide), p 1 (by decide), p 2 (by decide), p 3 (by decide), getByte_setByte]
  rw [if_neg (by omega), if_neg (by omega), if_neg (by omega), if_neg (by omega)]

end

/-! What the registers that a host master's notes change do not decide. -/

/-- t reads as s in every register but HOSTIF_MSTAT, HOSTIF_WIGN_CNT and EVT_RAW. -/
def noticesKept (s t : State) : Prop :=
  ∀ r i, r ≠ .HOSTIF_MSTAT_m → r ≠ .HOSTIF_WIGN_CNT_m → r ≠ .EVT_RAW_w → t.reg r i = s.reg r i

theorem noticesKept_of_mstat {k : Nat} {s t : State} (h : regsKept [(.HOSTIF_MSTAT_m, k)] s t) : noticesKept s t :=
  fun r i hr _ _ => h r i (by simp [hr])

section
variable {s t : State} (h : noticesKept s t)
include h

theorem noticesKept.sysState : sysState t = sysState s := by
  unfold Machine.sysState State.f
  rw [h _ _ (by simp) (by simp) (by simp)]
theorem noticesKept.isOwner (m : Nat) : isOwner t m = isOwner s m := by
  unfold Machine.isOwner ownerValid ownerIdx State.bit State.f
  rw [h _ _ (by simp) (by simp) (by simp)]
theorem noticesKept.jtagOpen (m a : Nat) : jtagOpen m a t = jtagOpen m a s := by
  unfold Machine.jtagOpen debugOpen lifecycle
  rw [h.sysState, State.f, State.f, h _ _ (by simp) (by simp) (by simp)]
theorem noticesKept.domainOn (d : Nat) : domainOn t d = domainOn s d := domainOn_of_state d (h _ _ (by simp) (by simp) (by simp))

end

/-! One word, by the state of the device and the rights of its master. -/

/-- JTAG reaches every word of hub memory or none. -/
theorem jtagOpen_hub {a b : Nat} (ha : InHub a) (hb : InHub b) (m : Nat) (s : State) : jtagOpen m b s = jtagOpen m a s := by
  have outside : ∀ {c}, InHub c → (decide (0x40030080 ≤ c) && decide (c < 0x400300C0)) = false := fun h => by
    have := h.high
    simp only [Bool.and_eq_false_iff, decide_eq_false_iff_not]; omega
  unfold jtagOpen
  rw [outside ha, outside hb]

section
variable {a : Nat} (h : InHub a) (k : Fin 5) (v : Word) (s : State)
include h

section
variable (hj : jtagOpen k.val a s = true)
include hj

/-- In HALT a write of memory is answered as a bus error (R451). -/
theorem hostWrite_halt (hs : sysState s = St.HALT) : hostWrite false k a v s = (some 0x81, s) := by
  obtain ⟨_, _, _, faultClr, stateReq, _⟩ := hub_elsewhere h
  unfold hostWrite
  rw [if_neg (by simp [hj, h.aligned]), if_pos ⟨hs, faultClr, by simp [stateReq]⟩]

/-- A write of a master that is not the owner is ignored and counted (R451). -/
theorem hostWrite_ignored (hs : sysState s ≠ St.HALT) (ho : isOwner s k.val = false) :
    hostWrite false k a v s = (some 0x82, wign k.val s) := by
  obtain ⟨shut, _, _, _, _, boot, _⟩ := hub_elsewhere h
  unfold hostWrite
  rw [if_neg (by simp [hj, h.aligned]), if_neg (fun e => hs e.1), if_pos (by simp [ho, shut k]), strayLoaded, if_neg (fun e => boot e.1)]

end

theorem doneCode_hub (m : Nat) : doneCode m a v s = 0x80 := by
  obtain ⟨_, _, _, _, _, _, accept, _, notOwnerReg⟩ := hub_elsewhere h
  unfold doneCode
  rw [if_neg (fun e => accept e.1), if_neg (by simp [notOwnerReg])]

/-- What the bus asks of a word of hub memory: neither the boot fence nor a sealed load stands before it. -/
theorem busWriteWord_hub (m : Initiator) (hf : fenceClosed s = false ∨ s.boot.window = true) (hl : s.boot.load = none) :
    busWriteWord m a v s = (let t := accessWake m 2 s
      if domainOn t 2 then (.ok [], putBytes (wordBytes a v) t) else (.wait, demandWake m 2 t)) := by
  obtain ⟨_, _, dma, _, _, _, _, push, _⟩ := hub_elsewhere h
  have region : regionOf a = .hub := regionOf_hub h a (by omega) (by omega)
  have open_ : barred m a (wordBytes a v).length s = false := by
    unfold barred fenceBars loadBars
    rcases hf with hf | hf <;> simp [hl, hf, region]
  have credit : ∀ u, tokFull m a u = false := fun u => by simp [tokFull, push]
  have quiet : ∀ u, touch 2 u = u := fun u => by unfold touch; rw [if_neg (by decide)]
  have bytes : ∃ b l, wordBytes a v = (a, b) :: l := ⟨_, _, rfl⟩
  unfold busWriteWord busWrite
  rw [inDma_wordBytes a v h.aligned, decide_eq_false dma]
  obtain ⟨b, l, hw⟩ := bytes
  unfold busPut
  rw [hw] at open_ ⊢
  simp only [takesWrites_hub h, region, domainAt_hub h, open_, credit, quiet]
  cases domainOn (accessWake m 2 s) 2 <;> rfl

end

end Sys2Proof.Machine
end

section
/-! SUPPORT. Write and read transactions of a host master on hub memory (R446 to R451). -/

namespace Sys2Proof.Machine

/-! Wakes that an access asks for. -/

theorem wokeOnly.hostWake (m : Initiator) (d : Nat) (s : State) : wokeOnly s (hostWake m d s) := by
  unfold Machine.hostWake
  extract_lets ds
  split
  · exact .wakeDomains ..
  · exact .refl s
theorem wokeOnly.demandWake (m : Initiator) (d : Nat) (s : State) : wokeOnly s (demandWake m d s) := by
  unfold Machine.demandWake
  split
  · exact .refl s
  · exact .wakeDomains ..
theorem wokeOnly.accessWake (m : Initiator) (d : Nat) (s : State) : wokeOnly s (accessWake m d s) := by
  unfold Machine.accessWake
  simp only
  split
  · exact (wokeOnly.hostWake ..).trans (.demandWake ..)
  · exact .hostWake ..

theorem domainOn_hostWake (m : Initiator) (d e : Nat) (s : State) : domainOn (hostWake m d s) e = domainOn s e := by
  unfold hostWake
  extract_lets ds
  split
  · exact domainOn_wakeDomains ..
  · rfl
theorem domainOn_demandWake (m : Initiator) (d e : Nat) (s : State) : domainOn (demandWake m d s) e = domainOn s e := by
  unfold demandWake
  split
  · rfl
  · exact domainOn_wakeDomains ..
theorem domainOn_accessWake (m : Initiator) (d e : Nat) (s : State) : domainOn (accessWake m d s) e = domainOn s e := by
  unfold accessWake
  simp only
  split
  · rw [domainOn_demandWake, domainOn_hostWake]
  · exact domainOn_hostWake ..

/-! A write that ownership ignores (R451). -/

theorem wign_eq (m : Nat) (s : State) : wign m s = flagEv .HOSTIF_MSTAT_m m 31 Ev.HOST_WIGN (count24 .HOSTIF_WIGN_CNT_m m none s) := rfl

/-- A counter without an event writes no register but its own. -/
theorem reg_count24_ne (r q : RegName) (i j : Nat) (s : State) (h : ¬ (q = r ∧ j = i)) : (count24 r i none s).reg q j = s.reg q j := by
  have stepped : ∀ (c : Prop) [Decidable c] (t u : State), t.reg q j = s.reg q j → u.reg q j = s.reg q j →
      (if c then t else u).reg q j = s.reg q j := fun c _ t u ht hu => by split <;> assumption
  have one := fun n => (reg_setF s r q i j 23 0 n).trans (if_neg h)
  unfold count24 count
  refine stepped _ _ _ ?_ (stepped _ _ _ (one _) rfl)
  rw [reg_setBit, if_neg h]
  exact stepped _ _ _ (one _) rfl

/-- What an ignored write keeps: all registers but the master's two and the events. -/
theorem reg_wign (m : Nat) (s : State) :
    regsKept [(.HOSTIF_MSTAT_m, m), (.HOSTIF_WIGN_CNT_m, m), (.EVT_RAW_w, 0)] s (wign m s) := by
  intro r i hr
  simp only [List.mem_cons, List.not_mem_nil, or_false, Prod.mk.injEq, not_or] at hr
  obtain ⟨h1, h2, h3⟩ := hr
  have counted := reg_count24_ne .HOSTIF_WIGN_CNT_m r m i s h2
  rw [wign_eq, flagEv]
  split
  · exact counted
  · have event : Ev.HOST_WIGN / 32 = 0 := rfl
    rw [reg_raise, event, if_neg h3, reg_setBit, if_neg h1, counted]

theorem wign_counts (m : Nat) (s : State) : (wign m s).f .HOSTIF_WIGN_CNT_m m 23 0 = min (s.f .HOSTIF_WIGN_CNT_m m 23 0 + 1) 0xFFFFFF := by
  have small : s.f .HOSTIF_WIGN_CNT_m m 23 0 < 2 ^ 24 := fld_lt ..
  have flagged : ∀ t : State, (flagEv .HOSTIF_MSTAT_m m 31 Ev.HOST_WIGN t).f .HOSTIF_WIGN_CNT_m m 23 0 = t.f .HOSTIF_WIGN_CNT_m m 23 0 := by
    intro t
    unfold flagEv
    split
    · rfl
    · rw [State.f, reg_raise, if_neg (by simp), reg_setBit, if_neg (by simp)]; rfl
  have beside : ∀ t : State, (t.setBit .HOSTIF_WIGN_CNT_m m 31 true).f .HOSTIF_WIGN_CNT_m m 23 0 = t.f .HOSTIF_WIGN_CNT_m m 23 0 := by
    intro t
    rw [State.f, reg_setBit, if_pos ⟨rfl, rfl⟩, fld_putBit_ne _ _ _ _ _ (by decide) (by decide)]; rfl
  have counted : (if s.f .HOSTIF_WIGN_CNT_m m 23 0 < 2 ^ 24 - 1 then s.setF .HOSTIF_WIGN_CNT_m m 23 0 (s.f .HOSTIF_WIGN_CNT_m m 23 0 + 1)
      else s).f .HOSTIF_WIGN_CNT_m m 23 0 = min (s.f .HOSTIF_WIGN_CNT_m m 23 0 + 1) 0xFFFFFF := by
    split
    · rw [f_setF_same _ _ _ _ _ _ (by decide) (by decide)]; omega
    · omega
  rw [wign_eq, flagged]
  unfold count24 count
  simp only
  split
  · rw [beside]; exact counted
  · exact counted

/-- The flag, and with its first setting the event. -/
theorem wign_flags (m : Nat) (s : State) : (wign m s).bit .HOSTIF_MSTAT_m m 31 = true ∧
    (s.bit .HOSTIF_MSTAT_m m 31 = false → (wign m s).bit .EVT_RAW_w 0 5 = true) ∧
    (s.bit .EVT_RAW_w 0 5 = true → (wign m s).bit .EVT_RAW_w 0 5 = true) := by
  have kept : ∀ r i, r ≠ .HOSTIF_WIGN_CNT_m → (count24 .HOSTIF_WIGN_CNT_m m none s).reg r i = s.reg r i := fun r i h =>
    reg_count _ _ _ _ _ _ _ _ _ h (.inl rfl)
  rw [wign_eq, flagEv]
  have flag : (count24 .HOSTIF_WIGN_CNT_m m none s).bit .HOSTIF_MSTAT_m m 31 = s.bit .HOSTIF_MSTAT_m m 31 := by
    rw [State.bit, kept _ _ (by simp)]; rfl
  have raised := fun t => raise_bit t Ev.HOST_WIGN
  split
  · next h => exact ⟨h, fun n => by rw [flag, n] at h; contradiction, fun n => by rw [State.bit, kept _ _ (by simp)]; exact n⟩
  · refine ⟨?_, fun _ => raised _, fun _ => raised _⟩
    rw [State.bit, reg_raise, if_neg (by simp)]
    exact bit_setBit_same _ _ _ _ _ (by decide)

theorem RegsOnly.wign (m : Nat) (s : State) : RegsOnly s (wign m s) := (RegsOnly.count ..).trans (.flagEv ..)

/-- The state of master m after j ignored writes. -/
structure Ignored (m : Nat) (s : State) (j : Nat) (t : State) : Prop where
  regsOnly : RegsOnly s t
  kept : regsKept [(.HOSTIF_MSTAT_m, m), (.HOSTIF_WIGN_CNT_m, m), (.EVT_RAW_w, 0)] s t
  counted : t.f .HOSTIF_WIGN_CNT_m m 23 0 = min (s.f .HOSTIF_WIGN_CNT_m m 23 0 + j) 0xFFFFFF
  flag : 0 < j → t.bit .HOSTIF_MSTAT_m m 31 = true
  event : t.bit .HOSTIF_MSTAT_m m 31 = true → s.bit .HOSTIF_MSTAT_m m 31 = false → t.bit .EVT_RAW_w 0 5 = true

namespace Ignored

theorem zero (m : Nat) (s : State) : Ignored m s 0 s := by
  have small : s.f .HOSTIF_WIGN_CNT_m m 23 0 < 2 ^ 24 := fld_lt ..
  exact ⟨.refl s, fun _ _ _ => rfl, by omega, fun h => absurd h (by decide), fun h n => by rw [n] at h; contradiction⟩

theorem noted {m j : Nat} {s t u : State} (h : Ignored m s j t) (n : Noted m t u) : Ignored m s j u := by
  refine ⟨h.regsOnly.trans n.regsOnly, fun r i hr => ?_, ?_, fun hj => n.wign.trans (h.flag hj), fun hb hs => ?_⟩
  · rw [n.kept r i (fun e => hr (by simp_all)), h.kept r i hr]
  · rw [State.f, n.reg _ _ (by simp)]; exact h.counted
  · rw [State.bit, n.reg _ _ (by simp)]; exact h.event (n.wign ▸ hb) hs

theorem step {m j : Nat} {s t : State} (h : Ignored m s j t) : Ignored m s (j + 1) (Machine.wign m t) := by
  obtain ⟨flag, raised, still⟩ := wign_flags m t
  refine ⟨h.regsOnly.trans (.wign m t), fun r i hr => (reg_wign m t r i hr).trans (h.kept r i hr), ?_, fun _ => flag, fun _ hs => ?_⟩
  · rw [wign_counts, h.counted]; omega
  · cases hb : t.bit .HOSTIF_MSTAT_m m 31 with
    | false => exact raised hb
    | true => exact still (h.event hb hs)

theorem noticesKept {m j : Nat} {s t : State} (h : Ignored m s j t) : noticesKept s t :=
  fun r i h1 h2 h3 => h.kept r i (by simp [h1, h2, h3])

end Ignored

/-! Write transactions. -/

/-- What is left of s once a transaction has noted its answers and ended. -/
theorem ended_of_noted {k : Fin 5} {s u : State} (h : Noted k.val (served (.host k) s) u) (x : HostState) :
    setHost x u = { s with regs := (setHost x u).regs, host := (setHost x u).host } ∧
    regsKept [(.HOSTIF_MSTAT_m, k.val)] s (setHost x u) := by
  have only := h.regsOnly
  have kept := h.kept
  rw [served_eq] at only kept
  exact ⟨by rw [show u = _ from only]; rfl, kept⟩

theorem noticesKept_served {k : Fin 5} {s t : State} (h : noticesKept (served (.host k) s) t) : noticesKept s t := by
  rw [served_eq] at h
  exact h

/-- A write that ownership ignores draws no credit (R21). -/
theorem hostFull_ignored {k : Fin 5} {a : Nat} {s : State} (h : InHub a) (ws : List Word) (ho : isOwner s k.val = false) :
    hostFull (newTx k a true ws 0) s = false := by
  have shut := (hub_elsewhere h).1 k
  unfold hostFull newTx
  simp [ho, shut]

section
variable {k : Fin 5} {a : Nat} {ws : List Word} {s : State} (hub : ∀ j < ws.length, InHub (a + 4 * j))
  (hj : jtagOpen k.val a s = true)
include hub hj

/-- JTAG that reaches the first word of a transaction reaches them all. -/
theorem jtagOpen_word {t : State} (h : noticesKept (served (.host k) s) t) {j : Nat} (hjn : j < ws.length) :
    jtagOpen k.val (a + 4 * j) t = true := by
  rw [(noticesKept_served h).jtagOpen, jtagOpen_hub (hub 0 (by omega)) (hub j hjn)]; exact hj

variable (hu : up s = true) (hi : s.host.tx.any (fun y => y.m == k.val) = false) (hne : ws ≠ [])
  (hl : txTooLong (newTx k a true ws 0) = false)
include hu hi hne hl

/-- In HALT every word of a write is a bus error. -/
theorem hostTx_halt (hs : sysState s = St.HALT) (hf : hostFull (newTx k a true ws 0) s = false) :
    let t := hostTx k a true ws 0 s
    t.f .HOSTIF_MSTAT_m k 7 0 = 0x81 ∧ t.bit .HOSTIF_MSTAT_m k 30 = true ∧ t = { s with regs := t.regs, host := t.host } ∧
    regsKept [(.HOSTIF_MSTAT_m, k.val)] s t := by
  obtain ⟨u, hnoted, hcode, hbit, ht⟩ := hostTx_writes k a s hu hj hi ws hne hl hf 0x81 (by decide)
    (fun _ t => Noted k.val (served (.host k) s) t) (.refl ..) (fun _ _ _ h n => h.trans n) (fun j v t hv h => ⟨t, by
      have hjn := (List.getElem?_eq_some_iff.mp hv).1
      have kept := noticesKept_of_mstat h.kept
      exact hostWrite_halt (hub j hjn) k v t (jtagOpen_word hub hj kept hjn) ((noticesKept_served kept).sysState.trans hs), h⟩)
  simp only
  rw [ht]
  exact ⟨hcode, hbit rfl, ended_of_noted hnoted _⟩

/-- A write of a master that is not the owner is ignored word by word, whether or not the channel has a credit. -/
theorem hostTx_ignored (hs : sysState s ≠ St.HALT) (ho : isOwner s k.val = false) :
    let t := hostTx k a true ws 0 s
    t.f .HOSTIF_MSTAT_m k 7 0 = 0x82 ∧ t.bit .HOSTIF_MSTAT_m k 31 = true ∧
    t.f .HOSTIF_WIGN_CNT_m k 23 0 = min (s.f .HOSTIF_WIGN_CNT_m k 23 0 + ws.length) 0xFFFFFF ∧
    (s.bit .HOSTIF_MSTAT_m k 31 = false → t.bit .EVT_RAW_w 0 5 = true) ∧ t = { s with regs := t.regs, host := t.host } ∧
    regsKept [(.HOSTIF_MSTAT_m, k.val), (.HOSTIF_WIGN_CNT_m, k.val), (.EVT_RAW_w, 0)] s t := by
  have words : 0 < ws.length := List.length_pos_iff.mpr hne
  have hf := hostFull_ignored (hub 0 words) ws ho
  obtain ⟨u, hI, hcode, _, ht⟩ := hostTx_writes k a s hu hj hi ws hne hl hf 0x82 (by decide) (Ignored k.val (served (.host k) s))
    (.zero ..) (fun _ _ _ h n => h.noted n) (fun j v t hv h => ⟨_, by
      have hjn := (List.getElem?_eq_some_iff.mp hv).1
      have kept := noticesKept_served h.noticesKept
      exact hostWrite_ignored (hub j hjn) k v t (jtagOpen_word hub hj h.noticesKept hjn) (by rw [kept.sysState]; exact hs)
        (by rw [kept.isOwner]; exact ho), h.step⟩)
  obtain ⟨only, kept, counted, flag, event⟩ := hI
  have hflag := flag words
  simp only
  rw [ht]
  rw [served_eq] at only kept counted event
  exact ⟨hcode, hflag, counted, event hflag, by rw [show u = _ from only]; rfl, kept⟩

omit hub hne hi in
/-- A write of the owner that finds no credit waits for one. -/
theorem hostTx_write_full (ho : isOwner s k.val = true) (hf : ¬ s.host.tx.countP (fun y => y.cred) < 4) :
    hostTx k a true ws 0 s = { s with host := { s.host with tx := s.host.tx ++ [newTx k a true ws 0] } } := by
  refine hostTx_queued hu hj (.inr ⟨hl, ?_⟩)
  unfold hostFull newTx
  simp [ho]; omega

end

end Sys2Proof.Machine
end

section
/-! SUPPORT. Write transactions that hub memory takes, those that wait for it to wake, and read transactions (R446 to R451). -/

namespace Sys2Proof.Machine

theorem noticesKept.fenceClosed {s t : State} (h : noticesKept s t) (hd : t.dev = s.dev) : fenceClosed t = fenceClosed s := by
  unfold Machine.fenceClosed bootState State.f
  rw [h.sysState, hd, h _ _ (by simp) (by simp) (by simp)]

/-! One word at its target. -/

section
variable {a : Nat} (h : InHub a) (k : Fin 5) (v : Word) (s : State)
include h

section
variable (hj : jtagOpen k.val a s = true) (hs : sysState s ≠ St.HALT) (ho : isOwner s k.val = true)
  (hf : fenceClosed s = false ∨ s.boot.window = true) (hl : s.boot.load = none)
include hj hs ho hf hl

/-- A write of the owner to hub memory that is on. -/
theorem hostWrite_stored (hd : domainOn s 2 = true) (hr : inRequest s 2 = false) :
    hostWrite false k a v s = (some 0x80, putBytes (wordBytes a v) s) := by
  have awake : accessWake (.host k) 2 s = s := accessWake_still _ _ _ hd (by simp [still, hd, hr])
  rw [hostWrite_bus k a v s hj h.aligned hs ho, busWriteWord_hub h v s _ hf hl, awake]
  simp only [hd, if_true]
  rw [doneCode_hub h]

/-- A write of the owner to hub memory that is asleep asks for its wake and has no answer yet. -/
theorem hostWrite_asleep (hd : domainOn s 2 = false) :
    ∃ t, hostWrite false k a v s = (none, t) ∧ wokeOnly s t ∧ domainOn t 2 = false := by
  have asleep : domainOn (accessWake (.host k) 2 s) 2 = false := (domainOn_accessWake ..).trans hd
  refine ⟨demandWake (.host k) 2 (accessWake (.host k) 2 s), ?_, (wokeOnly.accessWake ..).trans (.demandWake ..),
    (domainOn_demandWake ..).trans asleep⟩
  rw [hostWrite_bus k a v s hj h.aligned hs ho, busWriteWord_hub h v s _ hf hl]
  simp only [asleep, Bool.false_eq_true, if_false]

end

/-- A read of hub memory that is on, by a master whose accesses count as wake source 26. -/
theorem hostRead_hub (hj : jtagOpen k.val a s = true) (hk : accessSource (.host k) = 26) (hd : domainOn s 2 = true) :
    hostRead k a s = (some (0x80, wordOfBytes (getBytes s a 4)), s) := by
  have region : regionOf a = .hub := regionOf_hub h a (by omega) (by omega)
  have own : primary a = a := primary_hub h a (by omega) (by omega)
  have awake : accessWake (.host k) 2 s = s := by
    have hub : hostWake (.host k) 2 s = s := by simp [hostWake, hd]
    have demand : demandWake (.host k) 2 s = s := by rw [demandWake, if_pos hk]
    unfold accessWake
    simp only [hub, demand, ite_self]
  have quiet : touch 2 s = s := by unfold touch; rw [if_neg (by decide)]
  have read : busRead (.host k) a 4 s = (.ok (getBytes s a 4), s) := by
    unfold busRead readable
    simp only [region, domainAt_hub h, awake, hd, quiet, own]
    rfl
  unfold hostRead
  rw [if_neg (by simp [hj, h.aligned]), read]

end

/-! Whole transactions. -/

theorem getBytes_setHost (x : HostState) (s : State) (a n : Nat) : getBytes (setHost x s) a n = getBytes s a n :=
  getBytes_congr _ _ (fun _ _ _ => rfl)

theorem leasedAt_of {m : Nat} {s t : State} (h : noticesKept s t) (ht : t.time = s.time) (hl : t.host.lease = s.host.lease) :
    leasedAt m t = leasedAt m s := by
  unfold leasedAt State.f
  rw [h.isOwner, h _ _ (by simp) (by simp) (by simp), ht, hl]

/-- Serving a master has restarted its lease already. -/
theorem leasedAt_served (k : Fin 5) (s : State) : leasedAt k.val (served (.host k) s) = leasedAt k.val s := by
  rw [served_eq]
  by_cases h : isOwner s k.val = true ∧ s.f .SYS_LEASE 0 15 0 ≠ 0
  · rw [leasedAt, leasedAt, if_pos h]; exact if_pos h
  · rw [leasedAt, if_neg (by exact h)]; rfl

/-- The state after j words of ws have been stored from a up for master m. -/
structure HubStored (m a : Nat) (ws : List Word) (s : State) (j : Nat) (t : State) : Prop where
  only : t = { s with regs := t.regs, mem := t.mem }
  kept : regsKept [(.HOSTIF_MSTAT_m, m)] s t
  stored : getBytes t a (4 * j) = (ws.take j).flatMap bytesOfWord
  beside : ∀ b, b < a ∨ a + 4 * j ≤ b → getByte t b = getByte s b

namespace HubStored

theorem zero (m a : Nat) (ws : List Word) (s : State) : HubStored m a ws s 0 s :=
  ⟨rfl, fun _ _ _ => rfl, rfl, fun _ _ => rfl⟩

variable {m a j : Nat} {ws : List Word} {s t u : State}

theorem noted (h : HubStored m a ws s j t) (n : Noted m t u) : HubStored m a ws s j u := by
  have mem : u.mem = t.mem := by rw [n.regsOnly]
  have byte : ∀ b, getByte u b = getByte t b := fun b => by rw [getByte, mem]; rfl
  refine ⟨?_, fun r i hr => (n.kept r i hr).trans (h.kept r i hr), ?_, fun b hb => (byte b).trans (h.beside b hb)⟩
  · have n_only := n.regsOnly
    have h_only := h.only
    unfold RegsOnly at n_only
    rw [n_only, h_only]
  · exact (getBytes_congr _ _ (fun b _ _ => byte b)).trans h.stored

theorem step (h : HubStored m a ws s j t) {v : Word} (hv : ws[j]? = some v) (hub : InHub (a + 4 * j)) :
    HubStored m a ws s (j + 1) (putBytes (wordBytes (a + 4 * j) v) t) := by
  have put := putBytes_frame (wordBytes (a + 4 * j) v) t
  refine ⟨?_, fun r i hr => ?_, ?_, fun b hb => ?_⟩
  · have h_only := h.only
    rw [put, h_only]
  · rw [put]; exact h.kept r i hr
  · rw [show 4 * (j + 1) = 4 * j + 4 by omega, getBytes_add, getBytes_putBytes hub,
      getBytes_congr _ _ (fun b _ hb => getByte_putBytes_ne hub v t b (by omega)), h.stored, List.take_add_one, hv]
    simp
  · rw [getByte_putBytes_ne hub v t b (by omega)]
    exact h.beside b (by omega)

end HubStored

section
variable {k : Fin 5} {a : Nat} {ws : List Word} {s : State} (hub : ∀ j < ws.length, InHub (a + 4 * j))
  (hj : jtagOpen k.val a s = true) (hu : up s = true) (hi : s.host.tx.any (fun y => y.m == k.val) = false) (hne : ws ≠ [])
  (hl : txTooLong (newTx k a true ws 0) = false) (hs : sysState s ≠ St.HALT) (ho : isOwner s k.val = true)
  (room : s.host.tx.countP (fun y => y.cred) < 4) (hf : fenceClosed s = false ∨ s.boot.window = true) (hload : s.boot.load = none)
include hub hj hu hi hne hl hs ho room hf hload

/-- A write of the owner to hub memory that is on stores all its words. -/
theorem hostTx_stored (hd : domainOn s 2 = true) (hr : inRequest s 2 = false) :
    let t := hostTx k a true ws 0 s
    t.f .HOSTIF_MSTAT_m k 7 0 = 0x80 ∧
    t.host = { s.host with answer := s.host.answer.filter (fun x => x.1 != k.val) ++ [(k.val, ws.map (fun _ => (0x80, 0)))],
                           rr := (k.val + 1) % 5, lease := leasedAt k.val s } ∧
    regsKept [(.HOSTIF_MSTAT_m, k.val)] s t ∧ t = { s with regs := t.regs, mem := t.mem, host := t.host } ∧
    getBytes t a (4 * ws.length) = ws.flatMap bytesOfWord ∧ ∀ b, b < a ∨ a + 4 * ws.length ≤ b → getByte t b = getByte s b := by
  obtain ⟨u, hI, hcode, _, ht⟩ := hostTx_writes k a s hu hj hi ws hne hl (hostFull_room _ room) 0x80 (by decide)
    (HubStored k.val a ws (served (.host k) s)) (.zero ..) (fun _ _ _ h n => h.noted n) (fun j v t hv h => by
      have hjn := (List.getElem?_eq_some_iff.mp hv).1
      have only := h.only
      have kept := noticesKept_served (noticesKept_of_mstat h.kept)
      have dev : t.dev = s.dev := by rw [only, served_eq]; rfl
      have boot : t.boot = s.boot := by rw [only, served_eq]; rfl
      have pwr : t.pwr = s.pwr := by rw [only, served_eq]; rfl
      have stored := hostWrite_stored (hub j hjn) k v t (jtagOpen_word hub hj (noticesKept_of_mstat h.kept) hjn)
        (by rw [kept.sysState]; exact hs) (by rw [kept.isOwner]; exact ho) (by rw [kept.fenceClosed dev, boot]; exact hf)
        (by rw [boot]; exact hload) (by rw [kept.domainOn]; exact hd) (by unfold inRequest at *; rw [pwr]; exact hr)
      exact ⟨_, stored, h.step hv (hub j hjn)⟩)
  obtain ⟨only, kept, stored, beside⟩ := hI
  rw [List.take_length] at stored
  have host : u.host = (served (.host k) s).host := by rw [only]
  have lease : leasedAt k.val u = leasedAt k.val s := by
    rw [leasedAt_of (noticesKept_of_mstat kept) (by rw [only]) (by rw [host]), leasedAt_served]
  simp only
  rw [ht, host, lease]
  rw [served_eq] at only kept beside ⊢
  exact ⟨hcode, rfl, kept, by rw [show u = _ from only]; rfl,
    (getBytes_setHost ..).trans stored, beside⟩

/-- A write of the owner to hub memory that is asleep waits with its credit, its time-out not yet counting. -/
theorem hostTx_asleep (hd : domainOn s 2 = false) :
    let t := hostTx k a true ws 0 s
    t.mem = s.mem ∧ t.host.tx = s.host.tx ++ [⟨k.val, a, true, ws, 0, [], none, true, true, 0⟩] := by
  obtain ⟨v, l, rfl⟩ := List.exists_cons_of_ne_nil hne
  have first := hub 0 (by simp)
  simp only [Nat.mul_zero, Nat.add_zero] at first
  have kept : noticesKept s (served (.host k) s) := by rw [served_eq]; exact fun _ _ _ _ _ => rfl
  have dev : (served (.host k) s).dev = s.dev := by rw [served_eq]; rfl
  have boot : (served (.host k) s).boot = s.boot := by rw [served_eq]; rfl
  obtain ⟨t, hw, ⟨woke, _⟩, hoff⟩ := hostWrite_asleep first k v (served (.host k) s) (by rw [kept.jtagOpen]; exact hj)
    (by rw [kept.sysState]; exact hs) (by rw [kept.isOwner]; exact ho) (by rw [kept.fenceClosed dev, boot]; exact hf)
    (by rw [boot]; exact hload) (by rw [kept.domainOn]; exact hd)
  have unheld : fabHolds t a = false := by
    obtain ⟨_, bank, _⟩ := hub_elsewhere first
    simp [fabHolds, bank]
  have waits := txWrites_waits (newTx k a true (v :: l) 0) v l a [] (served (.host k) s) t (by rw [newTx, ofNat_val5]; exact hw) (.inr unheld)
  have runs : hostTx k a true (v :: l) 0 s = txWrites (newTx k a true (v :: l) 0) (v :: l) a [] (served (.host k) s) :=
    (hostTx_runs hu hj hi hl (hostFull_room _ room)).trans rfl
  simp only [newTx] at waits runs ⊢
  rw [runs, waits]
  unfold txWaits
  simp only [domainAt_hub first, hoff]
  rw [woke, served_eq]
  exact ⟨rfl, rfl⟩

end

/-! Reads. -/

section
variable {k : Fin 5} {a n : Nat} {s : State} (hu : up s = true) (hj : jtagOpen k.val a s = true)
include hu hj

/-- A read that finds no credit waits for one. -/
theorem hostTx_read_full (hf : ¬ s.host.tx.countP (fun y => y.cred) < 4) :
    hostTx k a false [] n s = { s with host := { s.host with tx := s.host.tx ++ [newTx k a false [] n] } } := by
  refine hostTx_queued hu hj (.inr ⟨by simp [txTooLong, newTx], ?_⟩)
  unfold hostFull newTx
  simp; omega

/-- A read of hub memory that is on answers its words and changes nothing. -/
theorem hostTx_read (hk : accessSource (.host k) = 26) (hi : s.host.tx.any (fun y => y.m == k.val) = false) (hn : 0 < n)
    (hub : ∀ j < n, InHub (a + 4 * j)) (room : s.host.tx.countP (fun y => y.cred) < 4) (hd : domainOn s 2 = true) :
    let t := hostTx k a false [] n s
    t.f .HOSTIF_MSTAT_m k 7 0 = 0x80 ∧
    t.host = { s.host with answer := s.host.answer.filter (fun x => x.1 != k.val) ++
                             [(k.val, (List.range n).map (fun j => (0x80, wordOfBytes (getBytes s (a + 4 * j) 4))))],
                           rr := (k.val + 1) % 5, lease := leasedAt k.val s } ∧
    regsKept [(.HOSTIF_MSTAT_m, k.val)] s t ∧ t = { s with regs := t.regs, host := t.host } := by
  obtain ⟨u, hI, hcode, ht⟩ := hostTx_reads k a s hu hj hi n hn (hostFull_room _ room)
    (fun j => wordOfBytes (getBytes s (a + 4 * j) 4)) (fun _ t => Noted k.val (served (.host k) s) t) (.refl ..)
    (fun _ _ _ h n => h.trans n) (fun j t hjn h => by
      have kept := noticesKept_served (noticesKept_of_mstat h.kept)
      have word : getBytes t (a + 4 * j) 4 = getBytes s (a + 4 * j) 4 := getBytes_congr _ _ (fun b _ _ => by
        unfold getByte; rw [h.regsOnly, served_eq]; rfl)
      have read := hostRead_hub (hub j hjn) k t (by rw [kept.jtagOpen, jtagOpen_hub (hub 0 (by omega)) (hub j hjn)]; exact hj) hk
        (by rw [kept.domainOn]; exact hd)
      exact ⟨t, by rw [read, word], h⟩)
  have host : u.host = (served (.host k) s).host := by rw [hI.regsOnly]
  have lease : leasedAt k.val u = leasedAt k.val s := by
    rw [leasedAt_of (noticesKept_of_mstat hI.kept) (by rw [hI.regsOnly]) (by rw [host]), leasedAt_served]
  obtain ⟨only, kept⟩ := ended_of_noted hI { u.host with
    answer := u.host.answer.filter (fun y => y.1 != k.val) ++
      [(k.val, (List.range n).map (fun j => (0x80, wordOfBytes (getBytes s (a + 4 * j) 4))))], lease := leasedAt k.val u }
  simp only
  rw [ht]
  refine ⟨hcode, ?_, kept, only⟩
  rw [lease, host, served_eq]; rfl

end

end Sys2Proof.Machine
end

section
/-! SUPPORT. Transactions that end at once or not at all: bursts over 16 words, unaligned I2C writes, JTAG kept out, time-outs (R446 to
R450). -/

namespace Sys2Proof.Machine

/-- The words of a transaction in hub memory. -/
theorem inHub_words {a n : Nat} (h4 : a % 4 = 0) (hlo : 0x18000000 ≤ a) (hhi : a + 4 * n ≤ 0x18400000) : ∀ j < n, InHub (a + 4 * j) :=
  fun j hj => ⟨by omega, by omega, by omega⟩

theorem jtagOpen_other {m : Nat} (h : m ≠ 4) (a : Nat) (s : State) : jtagOpen m a s = true := by
  unfold jtagOpen
  simp [h]

/-- A master may not write where JTAG is kept out. -/
theorem hostTx_shut (k : Fin 5) (a : Nat) (write : Bool) (data : List Word) (n : Nat) (s : State) (h : jtagOpen k.val a s = false) :
    hostTx k a write data n s = s := by
  unfold hostTx
  rw [h, Bool.and_false]; rfl

/-- A write of a host master that is up is a transaction of one word. -/
theorem access_host (k : Fin 5) (a : Nat) (v : Word) (s : State) (hu : up s = true) : access (.host k) a v s = hostTx k a true [v] 0 s := by
  unfold access
  rw [hu]; rfl

section
variable {k : Fin 5} {a : Nat} {ws : List Word} {s : State} (hu : up s = true) (hi : s.host.tx.any (fun y => y.m == k.val) = false)
include hu hi

/-- A write burst of SPI over 16 words writes nothing and answers 0x83 (R448). -/
theorem hostTx_tooLong (hk : k.val < 2) (hn : 16 < ws.length) :
    let t := hostTx k a true ws 0 s
    t.f .HOSTIF_MSTAT_m k 7 0 = 0x83 ∧ t.bit .HOSTIF_MSTAT_m k 28 = true ∧
    t.host = { s.host with answer := s.host.answer.filter (fun x => x.1 != k.val) ++ [(k.val, [(0x83, 0)])], lease := leasedAt k.val s } ∧
    regsKept [(.HOSTIF_MSTAT_m, k.val)] s t ∧ t = { s with regs := t.regs, host := t.host } := by
  have long : txTooLong (newTx k a true ws 0) = true := by simp [txTooLong, newTx, hk, hn]
  have ends : hostTx k a true ws 0 s = txDone { newTx k a true ws 0 with data := [], out := [(0x83, 0)] } s := by
    unfold newTx at *
    unfold hostTx txSubmit
    simp [hu, jtagOpen_other (show k.val ≠ 4 by omega), hi, long]
  obtain ⟨u, hn, hcase, hdone⟩ := txDone_parts { newTx k a true ws 0 with data := [], out := [(0x83, 0)] } s rfl
  have last : u = setLast k.val 0x83 s := hcase.1 ⟨hk, rfl⟩
  simp only
  rw [ends, hdone]
  refine ⟨?_, ?_, rfl, hn.kept, ?_⟩
  · rw [last]; exact f_setLast k.val 0x83 s (by decide)
  · rw [last]; exact bit_setBit_same _ _ _ _ _ (by decide)
  · rw [show u = _ from hn.regsOnly]; rfl

/-- An unaligned write is a bus error. -/
theorem hostTx_unaligned (v : Word) (hj : jtagOpen k.val a s = true) (h4 : a % 4 ≠ 0)
    (room : s.host.tx.countP (fun y => y.cred) < 4) :
    let t := hostTx k a true [v] 0 s
    t.f .HOSTIF_MSTAT_m k 7 0 = 0x81 ∧ t.bit .HOSTIF_MSTAT_m k 30 = true ∧ t = { s with regs := t.regs, host := t.host } := by
  obtain ⟨u, hn, hcode, hbit, ht⟩ := hostTx_writes k a s hu hj hi [v] (by simp) (by simp [txTooLong, newTx]) (hostFull_room _ room)
    0x81 (by decide) (fun _ t => Noted k.val (served (.host k) s) t) (.refl ..) (fun _ _ _ h n => h.trans n) (fun j w t hv h => ⟨t, by
      have hjn : j < 1 := (List.getElem?_eq_some_iff.mp hv).1
      unfold hostWrite
      rw [if_pos (by simp; omega)], h⟩)
  simp only
  rw [ht]
  exact ⟨hcode, hbit rfl, (ended_of_noted hn _).1⟩

end

/-! HOST_TIMEOUT (R446). -/

theorem hostServe_none {s : State} (h : s.host.tx = []) : hostServe s = s := by
  unfold hostServe
  simp only [h, List.filter_nil]
  have none : (List.range 5).flatMap (fun _ => ([] : List HostTx)) = [] := by decide
  rw [none, List.foldl_nil, ← h]; rfl

section
variable {k : Fin 5} {s : State}

theorem hostTimeout_none (h : s.host.tx.find? (fun y => y.m == k.val && y.cred) = none) : hostTimeout k s = s := by
  unfold hostTimeout
  rw [h]

variable {x : HostTx} (hx : s.host.tx = [x])
include hx

theorem hostTimeout_uncredited (hc : x.cred = false) : hostTimeout k s = s := hostTimeout_none (by simp [hx, hc])

variable (hm : x.m = k.val) (hc : x.cred = true)
include hm hc

/-- The time-out has not come, or does not count. -/
theorem hostTimeout_early (h : domainOn s (domainAt x.addr) = false ∨ x.since = 0 ∨ s.time.hub + 1 < x.since + 4096) :
    hostTimeout k s = s := by
  have found : s.host.tx.find? (fun y => y.m == k.val && y.cred) = some x := by simp [hx, hm, hc]
  unfold hostTimeout
  rw [found]
  simp only
  rw [if_pos]
  rcases h with h | h | h <;> simp [h]

/-- The time-out ends the access in hand, and with the last access the transaction. -/
theorem hostTimeout_ends (h : ¬ (domainOn s (domainAt x.addr) = false ∨ x.since = 0 ∨ s.time.hub + 1 < x.since + 4096))
    (hlast : (x.write = true ∧ x.data.length = 1) ∨ (x.write = false ∧ x.left = 1)) :
    ∃ y : HostTx, y.m = k.val ∧ y.msg = x.msg ∧ y.out = x.out ++ [(0x84, 0)] ∧
      hostTimeout k s = hostServe (txDone y (dropHeld (.host k) (txNote x 0x84 (setHost { s.host with tx := [] } s)))) := by
  have found : s.host.tx.find? (fun y => y.m == k.val && y.cred) = some x := by simp [hx, hm, hc]
  have late : ¬ (!domainOn s (domainAt x.addr) || x.since == 0 || decide (s.time.hub + 1 < x.since + 4096)) = true := by
    simpa [or_assoc] using h
  have rest : s.host.tx.erase x = [] := by simp [hx]
  unfold hostTimeout
  rw [found]
  simp only
  rw [if_neg late, rest]
  simp only [List.filter_nil, List.append_nil]
  rcases hlast with ⟨hw, hd⟩ | ⟨hw, hd⟩
  · have tail : x.data.tail = [] := List.eq_nil_of_length_eq_zero (by rw [List.length_tail, hd])
    refine ⟨{ x with own := false, since := 0, data := [], out := x.out ++ [(0x84, 0)] }, hm, rfl, rfl, ?_⟩
    rw [if_pos hw, tail]; rfl
  · refine ⟨{ x with since := 0, left := 0, out := x.out ++ [(0x84, 0)] }, hm, rfl, rfl, ?_⟩
    rw [hw, hd]; rfl

/-- A time-out that ends the one transaction: TIMEOUT, the answer 0x84, and nothing of it left in the fabric. -/
theorem hostTimeout_last (h : ¬ (domainOn s (domainAt x.addr) = false ∨ x.since = 0 ∨ s.time.hub + 1 < x.since + 4096))
    (hmsg : x.msg = none) (hlast : (x.write = true ∧ x.data.length = 1) ∨ (x.write = false ∧ x.left = 1)) :
    let t := hostTimeout k s
    t.host.tx = [] ∧ t.bit .HOSTIF_MSTAT_m k 29 = true ∧
    t.host.answer = s.host.answer.filter (fun y => y.1 != k.val) ++ [(k.val, x.out ++ [(0x84, 0)])] ∧
    regsKept [(.HOSTIF_MSTAT_m, k.val)] s t ∧
    t = { s with regs := t.regs, host := t.host, fab := { s.fab with held := s.fab.held.filter (fun e => e.1 != Initiator.host k) } } := by
  obtain ⟨y, ym, ymsg, yout, hy⟩ := hostTimeout_ends hx hm hc h hlast
  have noted := Noted.txNote x 0x84 (setHost { s.host with tx := [] } s)
  have timeout := bit_txNote_84 x (setHost { s.host with tx := [] } s)
  obtain ⟨u, ended, _, hdone⟩ := txDone_parts y (dropHeld (.host k) (txNote x 0x84 (setHost { s.host with tx := [] } s)))
    (ymsg.trans hmsg)
  rw [hm] at noted timeout
  rw [ym] at ended hdone
  have host : (txNote x 0x84 (setHost { s.host with tx := [] } s)).host = { s.host with tx := [] } := by rw [noted.regsOnly]; rfl
  have only := noted.regsOnly
  generalize txNote x 0x84 (setHost { s.host with tx := [] } s) = v at *
  have idle : (txDone y (dropHeld (.host k) v)).host.tx = [] := by rw [hdone]; exact congrArg HostState.tx host
  simp only
  rw [hy, hostServe_none idle, hdone]
  refine ⟨congrArg HostState.tx host, ended.flags 29 (by decide) (by decide) timeout, ?_,
    fun r i hr => (ended.kept r i hr).trans (noted.kept r i hr), ?_⟩
  · have answer : v.host.answer = s.host.answer := by rw [host]
    rw [yout, ← answer]; rfl
  · rw [show u = _ from ended.regsOnly, show v = _ from only]; rfl

end

end Sys2Proof.Machine
end

section
/-! SUPPORT. Register writes by the access codes of the table, and the turn counter written and read in two halves (R8, R10, R59, R462). -/

namespace Sys2Proof.Machine

/-! Writes of registers. -/

theorem exec_registerWrite (m : Initiator) (r : RegName) (w : Word) (s : State) (h : Reg.addr r 0 < 2 ^ 32) :
    exec (.registerWrite m (BitVec.ofNat 32 (Reg.addr r 0)) w) s = .next (rowWrite m r 0 w s) := by
  have e : (BitVec.ofNat 32 (Reg.addr r 0)).toNat = Reg.addr r 0 := by rw [BitVec.toNat_ofNat, Nat.mod_eq_of_lt h]
  have runs : exec (.registerWrite m (BitVec.ofNat 32 (Reg.addr r 0)) w) s =
      .next (access m (BitVec.ofNat 32 (Reg.addr r 0)).toNat w s) := rfl
  rw [runs, e]; rfl

/-- Once an action that changed registers alone is over, nothing is left of what the access keeps. -/
theorem reached_back (s u : State) (q : Store Nat) (n e : Nat) (h : RegsOnly s u) :
    reached s.pwr.quiet s.host.rr s.host.lease (reached q n e u) = u := by
  rw [show u = _ from h]; rfl

/-- A register that its table alone rules. -/
theorem registerWrite_plain (m : Initiator) (r : RegName) (w : Word) (s : State) (P : State → Prop) (ha : Reg.addr r 0 < 0x40070000)
    (hr : ∀ t, regTake m r 0 w t = plainWrite r 0 w t)
    (hp : ∀ u t, t.regs = s.regs → u.regs = (plainWrite r 0 w t).regs → u.time = s.time → P u) :
    doesSome (.registerWrite m (BitVec.ofNat 32 (Reg.addr r 0)) w) m r 0 s
      (fun u => P u ∧ u = { s with regs := u.regs, time := u.time }) := by
  refine doesSome_of _ m r 0 w s _ (exec_registerWrite m r w s (by omega)) (by omega) (fun q n e => ?_)
  rw [hr]
  have only := RegsOnly.plainWrite r 0 w (reached q n e s)
  refine ⟨hp _ (reached q n e s) rfl rfl ?_, ?_⟩
  · rw [show plainWrite r 0 w (reached q n e s) = _ from only]; rfl
  · rw [show plainWrite r 0 w (reached q n e s) = _ from only]; rfl

/-- CFG_ERR sets the flag of the register's block. -/
theorem bit_cfgErr (r q : RegName) (i j b : Nat) (s : State) (h : Reg.cfgErr r i = (q, j, b)) (hq : q ≠ .EVT_RAW_w) (hb : b < 32) :
    (cfgErr r i s).bit q j b = true := by
  unfold cfgErr
  rw [h]
  simp only
  split
  · exact bit_setBit_same _ _ _ _ _ hb
  · rw [State.bit, reg_raise, if_neg (fun e => hq e.1)]
    exact bit_setBit_same _ _ _ _ _ hb

section
variable (m : Initiator) (w : Word) (s : State)

/-- A register that only reads. -/
theorem registerWrite_readOnly : doesSome (.registerWrite m (BitVec.ofNat 32 (Reg.addr .SYS_PART 0)) w) m .SYS_PART 0 s
    (fun u => (regsKept [] s u ∧ u.time = s.time) ∧ u = { s with regs := u.regs, time := u.time }) := by
  have row : RwRow .SYS_PART 0 [] := ⟨rfl, rfl, rfl, rfl, rfl, rfl⟩
  refine registerWrite_plain m .SYS_PART w s _ (by decide) (fun _ => rfl) (fun u t same hu ht => ⟨fun r i _ => ?_, ht⟩)
  have fine : reservedEnc .SYS_PART 0 w t = false := by rw [reservedEnc, row.enc_eq]; rfl
  rw [reg_congr hu, ← reg_congr same]
  by_cases h : r = .SYS_PART ∧ i = 0
  · rw [h.1, h.2, reg_plainWrite_same _ _ _ _ (by decide) (by decide), row.writtenWord]
    have all : ~~~(BitVec.ofNat 32 0) = BitVec.allOnes 32 := rfl
    rw [all, BitVec.and_allOnes, BitVec.and_zero, BitVec.or_zero]
  · exact reg_plainWrite_ok _ _ _ _ _ _ h fine

/-- A register of flags that a write of 1 clears. -/
theorem registerWrite_clears : doesSome (.registerWrite m (BitVec.ofNat 32 (Reg.addr .SYS_GPIO_EDGE 0)) w) m .SYS_GPIO_EDGE 0 s
    (fun u => (u.reg .SYS_GPIO_EDGE 0 = s.reg .SYS_GPIO_EDGE 0 &&& ~~~ (w &&& 0xFFFF) ∧ regsKept [(.SYS_GPIO_EDGE, 0)] s u ∧
      u.time = s.time) ∧ u = { s with regs := u.regs, time := u.time }) := by
  refine registerWrite_plain m .SYS_GPIO_EDGE w s _ (by decide) (fun _ => rfl) (fun u t same hu ht =>
    ⟨?_, fun r i hr => ?_, ht⟩)
  · rw [reg_congr hu, ← reg_congr same, reg_plainWrite_same _ _ _ _ (by decide) (by decide)]
    have written : writtenWord .SYS_GPIO_EDGE 0 w t =
        ((t.reg .SYS_GPIO_EDGE 0 &&& ~~~(BitVec.ofNat 32 0)) ||| (w &&& BitVec.ofNat 32 0)) &&& ~~~(w &&& 0xFFFF) ||| (w &&& 0#32) := rfl
    have all : ~~~(BitVec.ofNat 32 0) = BitVec.allOnes 32 := rfl
    rw [written, all, BitVec.and_allOnes, BitVec.and_zero, BitVec.or_zero, BitVec.or_zero]
  · rw [reg_congr hu, ← reg_congr same]
    exact reg_plainWrite_ok _ _ _ _ _ _ (by simpa using hr) rfl

theorem delayRow : RwRow .PWR_AUTO_RET_DELAY 0xFFFF [⟨15, 0, fun v => v ≠ 0⟩] := ⟨rfl, rfl, rfl, rfl, rfl, rfl⟩

/-- A field of a register beside reserved bits. -/
theorem registerWrite_stores (hw : fld w 15 0 ≠ 0) :
    doesSome (.registerWrite m (BitVec.ofNat 32 (Reg.addr .PWR_AUTO_RET_DELAY 0)) w) m .PWR_AUTO_RET_DELAY 0 s
    (fun u => (u.reg .PWR_AUTO_RET_DELAY 0 = (s.reg .PWR_AUTO_RET_DELAY 0 &&& 0xFFFF0000) ||| (w &&& 0xFFFF) ∧
      regsKept [(.PWR_AUTO_RET_DELAY, 0)] s u ∧ u.time = s.time) ∧ u = { s with regs := u.regs, time := u.time }) := by
  refine registerWrite_plain m .PWR_AUTO_RET_DELAY w s _ (by decide) (fun _ => rfl) (fun u t same hu ht =>
    ⟨?_, fun r i hr => ?_, ht⟩)
  · rw [reg_congr hu, ← reg_congr same, reg_plainWrite_same _ _ _ _ (by decide) (by decide), delayRow.writtenWord,
      fixEnc_one _ _ _ _ _ _ (by decide), if_pos (by simpa using hw)]
    rfl
  · rw [reg_congr hu, ← reg_congr same]
    exact reg_plainWrite_ok _ _ _ _ _ _ (by simpa using hr) (by rw [reservedEnc_one delayRow (by decide)]; simpa using hw)

theorem and_field (x : Word) (n : Nat) (h : fld x 15 0 = n) : x &&& 0xFFFF = BitVec.ofNat 32 n := by
  apply BitVec.eq_of_toNat_eq
  have low : x.toNat % 2 ^ 16 = n := by simpa [fld] using h
  rw [BitVec.toNat_and, BitVec.toNat_ofNat]
  have mask : (0xFFFF : Word).toNat = 2 ^ 16 - 1 := rfl
  rw [mask, Nat.and_two_pow_sub_one_eq_mod, low, Nat.mod_eq_of_lt (by omega)]

/-- A reserved encoding is stored as the field's reset value, with CFG_ERR. -/
theorem registerWrite_reserved (hw : fld w 15 0 = 0) :
    doesSome (.registerWrite m (BitVec.ofNat 32 (Reg.addr .PWR_AUTO_RET_DELAY 0)) w) m .PWR_AUTO_RET_DELAY 0 s
    (fun u => (u.reg .PWR_AUTO_RET_DELAY 0 = (s.reg .PWR_AUTO_RET_DELAY 0 &&& 0xFFFF0000) ||| 16 ∧ u.bit .PWR_FAULT 0 31 = true ∧
      u.time = s.time) ∧ u = { s with regs := u.regs, time := u.time }) := by
  refine registerWrite_plain m .PWR_AUTO_RET_DELAY w s _ (by decide) (fun _ => rfl) (fun u t same hu ht => ⟨?_, ?_, ht⟩)
  · rw [reg_congr hu, ← reg_congr same, reg_plainWrite_same _ _ _ _ (by decide) (by decide), delayRow.writtenWord,
      fixEnc_one _ _ _ _ _ _ (by decide), if_neg (by simpa using hw)]
    have reset : fld (Reg.resetOf (Reg.key .PWR_AUTO_RET_DELAY 0)) 15 0 = 16 := by decide
    simp only
    rw [reset, show BitVec.ofNat 32 0xFFFF = (0xFFFF : Word) from rfl,
      and_field (setFld w 15 0 16) 16 (fld_setFld_same _ _ _ _ (by decide) (by decide))]
    rfl
  · rw [bit_congr hu, plainWrite_eq, reservedEnc_one delayRow (by decide), if_pos (by simpa using hw)]
    exact bit_cfgErr _ _ _ _ _ _ rfl (by decide) (by decide)

/-! The turn counter (R59). -/

theorem cfgSrcBit_reached (q : Store Nat) (n e : Nat) (k : Nat) : cfgSrcBit (reached q n e s) k = cfgSrcBit s k := rfl

theorem cfgErr_reached (q : Store Nat) (n e : Nat) (r : RegName) (i : Nat) :
    cfgErr r i (reached q n e s) = reached q n e (cfgErr r i s) := by
  unfold cfgErr
  simp only
  rw [cfgSrcBit_reached, setBit_reached, raise_reached]
  split <;> rfl

/-- While turns run a write of the turn counter is a CFG_ERR. -/
theorem turnCountWrite_on (ht : turnsOn s = true) (high : Bool) (q : Store Nat) (n e : Nat) :
    let u := reached s.pwr.quiet s.host.rr s.host.lease (turnCountWrite high w (reached q n e s))
    u = cfgErr .SYS_TURN_COUNT_LO 0 s ∧ u = { s with regs := u.regs, time := u.time } := by
  have on : turnsOn (reached q n e s) = true := ht
  have err := RegsOnly.cfgErr .SYS_TURN_COUNT_LO 0 s
  have same : reached s.pwr.quiet s.host.rr s.host.lease (turnCountWrite high w (reached q n e s)) = cfgErr .SYS_TURN_COUNT_LO 0 s := by
    rw [turnCountWrite, if_pos on, cfgErr_reached, reached_back s _ q n e err]
  simp only
  rw [same]
  generalize cfgErr .SYS_TURN_COUNT_LO 0 s = v at err
  exact ⟨rfl, by rw [show v = _ from err]⟩

/-- While turns stand a write of one half of the turn counter keeps the other. -/
theorem turnCountWrite_off (ht : turnsOn s = false) (high : Bool) (q : Store Nat) (n e : Nat) :
    let turn := s.time.turn.toNat
    let u := reached s.pwr.quiet s.host.rr s.host.lease (turnCountWrite high w (reached q n e s))
    (regsKept [] s u ∧ u.time = { s.time with turn := BitVec.ofNat 48 (if high then w.toNat % 2 ^ 16 * 2 ^ 32 + turn % 2 ^ 32
      else turn / 2 ^ 32 * 2 ^ 32 + w.toNat) }) ∧ u = { s with regs := u.regs, time := u.time } := by
  have off : ¬ turnsOn (reached q n e s) = true := by simpa [turnsOn, bit_reached] using ht
  simp only
  rw [turnCountWrite, if_neg off]
  exact ⟨⟨fun _ _ _ => rfl, rfl⟩, rfl⟩

end

end Sys2Proof.Machine
end

section
/-! SUPPORT. Writes of the turn counter by state, and its two halves read by a host master (R59, R462). -/

namespace Sys2Proof.Machine

section
variable (m : Initiator) (w : Word) (s : State)

/-- A write of a half of the turn counter. -/
theorem registerWrite_turn (r : RegName) (high : Bool) (ha : Reg.addr r 0 < 0x40070000)
    (hr : ∀ t, regTake m r 0 w t = turnCountWrite high w t) (P : State → Prop)
    (hp : ∀ q n e, P (reached s.pwr.quiet s.host.rr s.host.lease (turnCountWrite high w (reached q n e s)))) :
    doesSome (.registerWrite m (BitVec.ofNat 32 (Reg.addr r 0)) w) m r 0 s P :=
  doesSome_of _ m r 0 w s P (exec_registerWrite m r w s (by omega)) (by omega) (fun q n e => by rw [hr]; exact hp q n e)

theorem registerWrite_turn_lo (P : State → Prop)
    (hp : ∀ q n e, P (reached s.pwr.quiet s.host.rr s.host.lease (turnCountWrite false w (reached q n e s)))) :
    doesSome (.registerWrite m (BitVec.ofNat 32 (Reg.addr .SYS_TURN_COUNT_LO 0)) w) m .SYS_TURN_COUNT_LO 0 s P :=
  registerWrite_turn m w s .SYS_TURN_COUNT_LO false (by decide) (fun _ => rfl) P hp

theorem registerWrite_turn_hi (P : State → Prop)
    (hp : ∀ q n e, P (reached s.pwr.quiet s.host.rr s.host.lease (turnCountWrite true w (reached q n e s)))) :
    doesSome (.registerWrite m (BitVec.ofNat 32 (Reg.addr .SYS_TURN_COUNT_HI 0)) w) m .SYS_TURN_COUNT_HI 0 s P :=
  registerWrite_turn m w s .SYS_TURN_COUNT_HI true (by decide) (fun _ => rfl) P hp

end

/-! Registers read by a host master. -/

/-- A register's word read once its domain is on, a wake that the access asks for begun. -/
theorem busRead_reg (m : Initiator) (r : RegName) (i : Nat) (s : State) (hi : i < (Reg.row r).count)
    (ho : inOtp (Reg.addr r i) = false) (hd : domainOn s (domainAt (Reg.addr r i)) = true) :
    busRead m (Reg.addr r i) 4 s =
      (let x := regRead m r i (touch (domainAt (Reg.addr r i)) (accessWake m (domainAt (Reg.addr r i)) s))
       (.ok (bytesOfWord x.1), x.2)) := by
  obtain ⟨h4, _⟩ := addr_place r i hi
  obtain ⟨hr, ha⟩ := region_addr r i hi
  have hl := lookup_addr r i hi
  have known : regAt (Reg.addr r i) = true := by rw [regAt, hl]; rfl
  have on : domainOn (accessWake m (domainAt (Reg.addr r i)) s) (domainAt (Reg.addr r i)) = true := (domainOn_accessWake ..).trans hd
  have open_ : (!readable s (isCore m) (Reg.addr r i) 4 || (isWordOnly (regionOf (Reg.addr r i)) && Reg.addr r i % 4 != 0)) = false := by
    rw [h4]
    unfold readable
    rcases hr with e | e <;> simp [e, known, isWordOnly]
  have read : ∀ u, wordRead m (Reg.addr r i) u = (some (regRead m r i u).1, (regRead m r i u).2) := fun u => by
    unfold wordRead regsRead
    rw [ho, ha, hl]
    rcases hr with e | e <;> rw [e] <;> rfl
  unfold busRead
  simp only [open_, on, Bool.not_true, Bool.false_eq_true, if_false]
  rcases hr with e | e <;> simp only [e, read, isByteMem] <;> rfl

/-- A register of a domain without a count of quiet decisions read by a host master. -/
theorem hostRead_reg (k : Fin 5) (r : RegName) (s : State) (hi : 0 < (Reg.row r).count) (hj : jtagOpen k.val (Reg.addr r 0) s = true)
    (ho : inOtp (Reg.addr r 0) = false) (hz : domainAt (Reg.addr r 0) = 0) (hd : domainOn s 0 = true) :
    hostRead k (Reg.addr r 0) s = (some (0x80, (regRead (.host k) r 0 (accessWake (.host k) 0 s)).1),
      (regRead (.host k) r 0 (accessWake (.host k) 0 s)).2) := by
  have read := busRead_reg (.host k) r 0 s hi ho (by rw [hz]; exact hd)
  have quiet : ∀ u, touch 0 u = u := fun u => by unfold touch; rw [if_neg (by decide)]
  rw [hz, quiet] at read
  unfold hostRead
  rw [if_neg (by simp [hj, (addr_place r 0 hi).1]), read]
  simp only
  rw [wordOfBytes_bytesOfWord]

/-- What a read of the turn counter goes by: the counter, the answers before it, and its domain on. -/
structure CounterSeen (s t : State) : Prop where
  time : t.time = s.time
  answer : t.host.answer = s.host.answer
  on : domainOn t 0 = true

namespace CounterSeen

variable {s t u : State}

theorem served (k : Fin 5) (hd : domainOn s 0 = true) : CounterSeen s (served (.host k) s) := by
  rw [served_eq]; exact ⟨rfl, rfl, hd⟩

theorem noted {m : Nat} (h : CounterSeen s t) (n : Noted m t u) : CounterSeen s u := by
  have only := n.regsOnly
  exact ⟨(by rw [only] : u.time = t.time).trans h.time, (by rw [only] : u.host.answer = t.host.answer).trans h.answer,
    (domainOn_of_state 0 (n.reg _ _ (by simp))).trans h.on⟩

theorem woken (h : CounterSeen s t) (m : Initiator) (d : Nat) : CounterSeen s (accessWake m d t) := by
  have woke := (wokeOnly.accessWake m d t).1
  exact ⟨(by rw [woke] : (accessWake m d t).time = t.time).trans h.time,
    (by rw [woke] : (accessWake m d t).host.answer = t.host.answer).trans h.answer, (domainOn_accessWake ..).trans h.on⟩

end CounterSeen

/-- The two halves of the turn counter, the low one first. -/
def turnWords (s : State) : Nat → Word
  | 0 => BitVec.ofNat 32 s.time.turn.toNat
  | _ => BitVec.ofNat 32 (s.time.turn.toNat / 2 ^ 32)

section
variable {k : Fin 5} {s : State} (hk : k.val ≠ 4) (hu : up s = true) (hi : s.host.tx.any (fun y => y.m == k.val) = false)
  (room : s.host.tx.countP (fun y => y.cred) < 4) (hd : domainOn s 0 = true)
include hk

theorem hostRead_turn_lo {t : State} (h : CounterSeen s t) :
    ∃ u, hostRead k (Reg.addr .SYS_TURN_COUNT_LO 0) t = (some (0x80, BitVec.ofNat 32 s.time.turn.toNat), u) ∧ CounterSeen s u ∧
      Store.get zeroOf u.host.latch k.val = BitVec.ofNat 32 (s.time.turn.toNat / 2 ^ 32) := by
  have awake := h.woken (.host k) 0
  have read := hostRead_reg k .SYS_TURN_COUNT_LO t (by decide) (jtagOpen_other hk ..) (by decide) (by decide) h.on
  generalize accessWake (.host k) 0 t = v at awake read
  have time := awake.time
  have latched : regRead (.host k) .SYS_TURN_COUNT_LO 0 v = (BitVec.ofNat 32 v.time.turn.toNat,
      setHost { v.host with latch := Store.set zeroOf v.host.latch k.val (BitVec.ofNat 32 (v.time.turn.toNat / 2 ^ 32)) } v) := rfl
  rw [latched, time] at read
  exact ⟨_, read, ⟨awake.time, awake.answer, awake.on⟩, Store.get_set_same ..⟩

theorem hostRead_turn_hi {t : State} (h : CounterSeen s t) :
    ∃ u, hostRead k (Reg.addr .SYS_TURN_COUNT_HI 0) t = (some (0x80, Store.get zeroOf t.host.latch k.val), u) ∧ CounterSeen s u ∧
      u.host.latch = t.host.latch := by
  have awake := h.woken (.host k) 0
  have read := hostRead_reg k .SYS_TURN_COUNT_HI t (by decide) (jtagOpen_other hk ..) (by decide) (by decide) h.on
  have latch : (accessWake (.host k) 0 t).host.latch = t.host.latch := by
    rw [(wokeOnly.accessWake (.host k) 0 t).1]
  generalize accessWake (.host k) 0 t = v at awake read latch
  have high : regRead (.host k) .SYS_TURN_COUNT_HI 0 v = (Store.get zeroOf v.host.latch k.val, v) := rfl
  rw [high, latch] at read
  exact ⟨v, read, awake, latch⟩

include hu hi room hd

/-- A read of both halves answers one value of the turn counter. -/
theorem hostTx_turn : let t := hostTx k 0x40000024 false [] 2 s
    Store.get zeroOf t.host.latch k.val = BitVec.ofNat 32 (s.time.turn.toNat / 2 ^ 32) ∧ t.time = s.time ∧
    t.host.answer = s.host.answer.filter (fun x => x.1 != k.val) ++
      [(k.val, [(0x80, BitVec.ofNat 32 s.time.turn.toNat), (0x80, BitVec.ofNat 32 (s.time.turn.toNat / 2 ^ 32))])] := by
  have lo : Reg.addr .SYS_TURN_COUNT_LO 0 = 0x40000024 := by decide
  have hi' : Reg.addr .SYS_TURN_COUNT_HI 0 = 0x40000028 := by decide
  obtain ⟨u, ⟨seen, latched⟩, _, ht⟩ := hostTx_reads k 0x40000024 s hu (jtagOpen_other hk ..) hi 2 (by decide) (hostFull_room _ room)
    (turnWords s) (fun j t => CounterSeen s t ∧ (0 < j → Store.get zeroOf t.host.latch k.val = turnWords s 1))
    ⟨.served k hd, fun h => absurd h (by decide)⟩
    (fun _ t u h n => ⟨h.1.noted n, fun hj => by rw [(by rw [n.regsOnly] : u.host = t.host)]; exact h.2 hj⟩)
    (fun j t hj h => by
      obtain ⟨seen, latched⟩ := h
      match j, hj with
      | 0, _ =>
        obtain ⟨u, read, seen', latch⟩ := hostRead_turn_lo hk seen
        rw [lo] at read
        exact ⟨u, read, seen', fun _ => latch⟩
      | 1, _ =>
        obtain ⟨u, read, seen', latch⟩ := hostRead_turn_hi hk seen
        rw [hi', latched (by decide)] at read
        exact ⟨u, read, seen', fun _ => by rw [latch]; exact latched (by decide)⟩)
  simp only
  rw [ht]
  exact ⟨latched (by decide), seen.time, congrArg (fun l => l.filter (fun x => x.1 != k.val) ++ _) seen.answer⟩

/-- A read of the high half alone answers the latch. -/
theorem hostTx_turn_high : let t := hostTx k 0x40000028 false [] 1 s
    t.host.latch = s.host.latch ∧ t.time = s.time ∧ t.host.answer = s.host.answer.filter (fun x => x.1 != k.val) ++
      [(k.val, [(0x80, Store.get zeroOf s.host.latch k.val)])] := by
  have hi' : Reg.addr .SYS_TURN_COUNT_HI 0 = 0x40000028 := by decide
  obtain ⟨u, ⟨seen, latch⟩, _, ht⟩ := hostTx_reads k 0x40000028 s hu (jtagOpen_other hk ..) hi 1 (by decide) (hostFull_room _ room)
    (fun _ => Store.get zeroOf s.host.latch k.val) (fun _ t => CounterSeen s t ∧ t.host.latch = s.host.latch)
    ⟨.served k hd, by rw [served_eq]; rfl⟩
    (fun _ t u h n => ⟨h.1.noted n, (by rw [n.regsOnly] : u.host.latch = t.host.latch).trans h.2⟩)
    (fun j t hj h => by
      obtain ⟨seen, latch⟩ := h
      obtain ⟨u, read, seen', kept⟩ := hostRead_turn_hi hk seen
      obtain rfl : j = 0 := by omega
      rw [hi', latch] at read
      exact ⟨u, read, seen', kept.trans latch⟩)
  simp only
  rw [ht]
  exact ⟨latch, seen.time, congrArg (fun l => l.filter (fun x => x.1 != k.val) ++ _) seen.answer⟩

end

end Sys2Proof.Machine
end

section
/-! SUPPORT. O49 put together: what a command's write or read of hub memory does, by the state and the master, then the obligation. -/

namespace Sys2Proof.Machine

/-- The answers of master k to its last transaction, once it has been served (R448, R453). -/
def answersOf (k : Nat) (l : List (Nat × Word)) (s t : State) : Prop :=
  t.host = { s.host with answer := s.host.answer.filter (fun x => x.1 != k) ++ [(k, l)], rr := (k + 1) % 5, lease := leasedAt k s }

/-- What a command does that writes the words ws to hub memory from a up as master k. -/
def HubWrites (s : State) (c : Instr) (k a : Nat) (ws : List Word) : Prop :=
  let room : Prop := s.host.tx.countP (fun y => y.cred) < 4
  up s = true → s.host.tx.any (fun y => y.m == k) = false → ws ≠ [] → jtagOpen k a s = true → inRequest s 2 = false →
  (a % 4 = 0 ∧ 0x18000000 ≤ a ∧ a + 4 * ws.length ≤ 0x18400000) →
  (sysState s = St.HALT → room ∨ isOwner s k = false → gives c s (fun t => t.f .HOSTIF_MSTAT_m k 7 0 = 0x81 ∧
    t.bit .HOSTIF_MSTAT_m k 30 = true ∧ t = { s with regs := t.regs, host := t.host } ∧ regsKept [(.HOSTIF_MSTAT_m, k)] s t)) ∧
  (sysState s ≠ St.HALT → isOwner s k = false → gives c s (fun t => t.f .HOSTIF_MSTAT_m k 7 0 = 0x82 ∧
    t.bit .HOSTIF_MSTAT_m k 31 = true ∧ t.f .HOSTIF_WIGN_CNT_m k 23 0 = min (s.f .HOSTIF_WIGN_CNT_m k 23 0 + ws.length) 0xFFFFFF ∧
    (s.bit .HOSTIF_MSTAT_m k 31 = false → t.bit .EVT_RAW_w 0 5 = true) ∧ t = { s with regs := t.regs, host := t.host } ∧
    regsKept [(.HOSTIF_MSTAT_m, k), (.HOSTIF_WIGN_CNT_m, k), (.EVT_RAW_w, 0)] s t)) ∧
  (isOwner s k = true → ¬ room →
    exec c s = .next { s with host := { s.host with tx := s.host.tx ++ [⟨k, a, true, ws, 0, [], none, false, false, 0⟩] } }) ∧
  (sysState s ≠ St.HALT → isOwner s k = true → room → domainOn s 2 = true → (fenceClosed s = false ∨ s.boot.window = true) →
    s.boot.load = none → gives c s (fun t => t.f .HOSTIF_MSTAT_m k 7 0 = 0x80 ∧ answersOf k (ws.map (fun _ => (0x80, 0))) s t ∧
      regsKept [(.HOSTIF_MSTAT_m, k)] s t ∧ t = { s with regs := t.regs, mem := t.mem, host := t.host } ∧
      getBytes t a (4 * ws.length) = ws.flatMap bytesOfWord ∧ ∀ b, b < a ∨ a + 4 * ws.length ≤ b → getByte t b = getByte s b)) ∧
  (sysState s ≠ St.HALT → isOwner s k = true → room → domainOn s 2 = false → (fenceClosed s = false ∨ s.boot.window = true) →
    s.boot.load = none → gives c s (fun t => t.mem = s.mem ∧ t.host.tx = s.host.tx ++ [⟨k, a, true, ws, 0, [], none, true, true, 0⟩]))

/-- A command that is a write transaction of hub memory. -/
theorem hubWrites_of (s : State) (c : Instr) (k : Fin 5) (n a : Nat) (ws : List Word) (hk : k.val = n)
    (hc : up s = true → exec c s = .next (hostTx k a true ws 0 s)) (hl : k.val < 2 → ws.length ≤ 16) : HubWrites s c n a ws := by
  subst hk
  intro hu hi hne hj hr ⟨h4, hlo, hhi⟩
  replace hc := hc hu
  have hub := inHub_words h4 hlo hhi
  have short : txTooLong (newTx k a true ws 0) = false := by
    by_cases spi : k.val < 2
    · have few : ¬ 16 < ws.length := Nat.not_lt.mpr (hl spi)
      simp only [txTooLong, newTx, few, decide_false, Bool.and_false]
    · simp only [txTooLong, newTx, spi, decide_false, Bool.and_false, Bool.false_and]
  refine ⟨fun hs ho => ⟨_, hc, ?_⟩, fun hs ho => ⟨_, hc, hostTx_ignored hub hj hu hi hne short hs ho⟩, fun ho full => ?_,
    fun hs ho free hd hf hload => ⟨_, hc, hostTx_stored hub hj hu hi hne short hs ho free hf hload hd hr⟩,
    fun hs ho free hd hf hload => ⟨_, hc, hostTx_asleep hub hj hu hi hne short hs ho free hf hload hd⟩⟩
  · refine hostTx_halt hub hj hu hi hne short hs ?_
    rcases ho with free | ho
    · exact hostFull_room _ free
    · exact hostFull_ignored (hub 0 (List.length_pos_iff.mpr hne)) ws ho
  · rw [hc, hostTx_write_full hj hu short ho full]; rfl

/-- What a command does that reads n words of hub memory from a up as master k. -/
def HubReads (s : State) (c : Instr) (k a n : Nat) : Prop :=
  let room : Prop := s.host.tx.countP (fun y => y.cred) < 4
  up s = true → s.host.tx.any (fun y => y.m == k) = false → 0 < n → jtagOpen k a s = true →
  (a % 4 = 0 ∧ 0x18000000 ≤ a ∧ a + 4 * n ≤ 0x18400000) →
  (¬ room → exec c s = .next { s with host := { s.host with tx := s.host.tx ++ [⟨k, a, false, [], n, [], none, false, false, 0⟩] } }) ∧
  (room → domainOn s 2 = true → gives c s (fun t => t.f .HOSTIF_MSTAT_m k 7 0 = 0x80 ∧
    answersOf k ((List.range n).map (fun j => (0x80, wordOfBytes (getBytes s (a + 4 * j) 4)))) s t ∧
    regsKept [(.HOSTIF_MSTAT_m, k)] s t ∧ t = { s with regs := t.regs, host := t.host }))

/-- A command that is a read transaction of hub memory by a master other than LINKCTL. -/
theorem hubReads_of (s : State) (c : Instr) (k : Fin 5) (m a n : Nat) (hk : k.val = m) (h3 : k.val ≠ 3)
    (hc : exec c s = .next (hostTx k a false [] n s)) : HubReads s c m a n := by
  subst hk
  intro hu hi hn hj ⟨h4, hlo, hhi⟩
  refine ⟨fun full => ?_, fun free hd => ⟨_, hc, hostTx_read hu hj (if_neg h3) hi hn (inHub_words h4 hlo hhi) free hd⟩⟩
  rw [hc, hostTx_read_full hu hj full]; rfl

/-- The SPI port as a host master. -/
def portMaster (p : Fin 2) : Fin 5 := Fin.ofNat 5 p.val

theorem portMaster_val (p : Fin 2) : (portMaster p).val = p.val := Nat.mod_eq_of_lt (by omega)

/-- An I2C write of up to 16 words is a transaction of them all (R449). -/
theorem exec_i2cWrite (a : Word) (ws : List Word) (s : State) (h : ws.length ≤ 16) :
    exec (.i2cWrite a ws) s = .next (hostTx 2 a.toNat true ws 0 s) := by
  have runs : exec (.i2cWrite a ws) s = .next (i2cBurst a ws s) := rfl
  have short : ¬ 16 < ws.length := by omega
  rw [runs, i2cBurst, List.take_of_length_le h]
  simp [short]

/-- Words of an I2C write after the sixteenth are discarded, with OVERLEN set (R449). -/
theorem exec_i2cWrite_over (a : Word) (ws : List Word) (s t : State) (hu : up s = true) (h : 16 < ws.length)
    (ht : exec (.i2cWrite a (ws.take 16)) s = .next t) :
    exec (.i2cWrite a ws) s = .next (t.setBit .HOSTIF_MSTAT_m 2 28 true) := by
  rw [exec_i2cWrite _ _ _ (by rw [List.length_take]; omega)] at ht
  obtain rfl := Host.Outcome.next.inj ht
  have runs : exec (.i2cWrite a ws) s = .next (i2cBurst a ws s) := rfl
  rw [runs, i2cBurst]
  simp [hu, h]

section
variable (p : Fin 2) (a : Word) (ws : List Word) (s : State) (hu : up s = true)
include hu

theorem exec_spiWrite_busy (hi : ¬ s.host.tx.any (fun y => y.m == p.val) = false) :
    exec (.spiWrite p a ws) s = .next { s with host := { s.host with tx := s.host.tx ++
      [⟨p, a.toNat / 4 * 4, true, ws, 0, [], none, false, false, 0⟩] } } := by
  have runs : exec (.spiWrite p a ws) s = .next (hostTx (portMaster p) (a.toNat / 4 * 4) true ws 0 s) := rfl
  have val := portMaster_val p
  rw [runs, hostTx_queued hu (jtagOpen_other (by omega) ..) (.inl (by rw [val]; simpa using hi)), newTx, val]

theorem exec_spiWrite_over (h : 16 < ws.length) (hi : s.host.tx.any (fun y => y.m == p.val) = false) :
    gives (.spiWrite p a ws) s (fun t => t.f .HOSTIF_MSTAT_m p 7 0 = 0x83 ∧ t.bit .HOSTIF_MSTAT_m p 28 = true ∧
      t.host = { s.host with answer := s.host.answer.filter (fun x => x.1 != p.val) ++ [(p.val, [(0x83, 0)])], lease := leasedAt p s } ∧
      regsKept [(.HOSTIF_MSTAT_m, p.val)] s t ∧ t = { s with regs := t.regs, host := t.host }) := by
  have runs : exec (.spiWrite p a ws) s = .next (hostTx (portMaster p) (a.toNat / 4 * 4) true ws 0 s) := rfl
  have val := portMaster_val p
  have ends := hostTx_tooLong (k := portMaster p) (a := a.toNat / 4 * 4) hu (by rw [val]; exact hi) (by omega) h
  rw [val] at ends
  exact ⟨_, runs, ends⟩

end

theorem exec_hostTimeout (k : Fin 5) (s : State) (hu : up s = true) : exec (.hostTimeout k) s = .next (hostTimeout k s) := by
  have runs : exec (.hostTimeout k) s = .next (if up s then hostTimeout k s else s) := rfl
  rw [runs, if_pos hu]

theorem exec_registerWrite_host (k : Fin 5) (a w : Word) (s : State) (hu : up s = true) :
    exec (.registerWrite (.host k) a w) s = .next (hostTx k a.toNat true [w] 0 s) := by
  have runs : exec (.registerWrite (.host k) a w) s = .next (access (.host k) a.toNat w s) := rfl
  rw [runs, access_host k a.toNat w s hu]

/-- The turn counter read through SPI, whole and by its high half (R59, R462). -/
theorem exec_spiRead_turn (p : Fin 2) (s : State) (hu : up s = true) (hi : s.host.tx.any (fun y => y.m == p.val) = false)
    (room : s.host.tx.countP (fun y => y.cred) < 4) (hd : domainOn s 0 = true) :
    gives (.spiRead p 0x40000024 2) s (fun t =>
      Store.get zeroOf t.host.latch p = BitVec.ofNat 32 (s.time.turn.toNat / 2 ^ 32) ∧ t.time = s.time ∧
      t.host.answer = s.host.answer.filter (fun x => x.1 != p.val) ++
        [(p.val, [(0x80, BitVec.ofNat 32 s.time.turn.toNat), (0x80, BitVec.ofNat 32 (s.time.turn.toNat / 2 ^ 32))])]) ∧
    gives (.spiRead p 0x40000028 1) s (fun t => t.host.latch = s.host.latch ∧ t.time = s.time ∧
      t.host.answer = s.host.answer.filter (fun x => x.1 != p.val) ++ [(p.val, [(0x80, Store.get zeroOf s.host.latch p)])]) := by
  have val := portMaster_val p
  have other : (portMaster p).val ≠ 4 := by omega
  rw [← val] at hi ⊢
  have aligned : (0x40000024 : Word).toNat / 4 * 4 = 0x40000024 ∧ (0x40000028 : Word).toNat / 4 * 4 = 0x40000028 := by decide
  have runs : ∀ (a : Word) n, exec (.spiRead p a n) s = .next (hostTx (portMaster p) (a.toNat / 4 * 4) false [] n s) := fun _ _ => rfl
  exact ⟨⟨_, (runs 0x40000024 2).trans (by rw [aligned.1]), hostTx_turn other hu hi room hd⟩,
    ⟨_, (runs 0x40000028 1).trans (by rw [aligned.2]), hostTx_turn_high other hu hi room hd⟩⟩

/-- Settles O49: hub memory written and read through the words of a transaction, one invariant for each way they are answered; the rest by
the command's own case. -/
theorem hostTransactions : Obligations.HostTransactions := by
  unfold Obligations.HostTransactions
  intro m p k a ws w n cmd s live idle room code leased answers inHub writes reads word
  have val := portMaster_val p
  have idle_find : ∀ {j : Nat}, idle j → s.host.tx.find? (fun y => y.m == j && y.cred) = none := fun h => by
    rw [List.find?_eq_none]
    intro y hy
    have other := List.any_eq_false.mp h y hy
    rw [Bool.and_eq_true]
    exact fun found => other found.1
  refine ⟨fun h => hubWrites_of s _ (portMaster p) p word ws val (fun _ => rfl) (fun _ => h),
    fun h => hubWrites_of s _ 2 2 a.toNat ws rfl (fun _ => exec_i2cWrite a ws s h) (fun _ => h),
    hubWrites_of s _ 4 4 a.toNat [w] rfl (fun _ => rfl) (fun _ => by simp),
    hubWrites_of s _ k k a.toNat [w] rfl (exec_registerWrite_host k a w s) (fun _ => by simp),
    hubReads_of s _ (portMaster p) p word n val (by omega) rfl, hubReads_of s _ (portMaster p) p word n val (by omega) rfl,
    hubReads_of s _ (portMaster p) p word n val (by omega) rfl, hubReads_of s _ 2 2 a.toNat n rfl (by decide) rfl,
    hubReads_of s _ 2 2 s.host.i2cAddr n rfl (by decide) rfl, hubReads_of s _ 4 4 a.toNat 1 rfl (by decide) rfl,
    fun hu _ => exec_spiWrite_busy p a ws s hu, exec_spiWrite_over p a ws s, fun hu h t ht => exec_i2cWrite_over a ws s t hu h ht, rfl,
    ?_, ?_, ?_, ?_, ?_, ?_⟩
  · intro hu
    have runs : exec (.i2cAddressWrite a) s = .next (if up s then setHost { s.host with i2cAddr := a.toNat } s else s) := rfl
    rw [runs, if_pos hu]; rfl
  · exact fun hu hi free h4 => ⟨_, exec_i2cWrite a [w] s (by simp), hostTx_unaligned (k := 2) hu hi w (jtagOpen_other (by decide) ..) h4 free⟩
  · exact fun hj => ⟨congrArg _ (hostTx_shut 4 a.toNat true [w] 0 s hj), congrArg _ (hostTx_shut 4 a.toNat false [] 1 s hj)⟩
  · intro hu hi hj
    rw [exec_registerWrite_host k a w s hu, hostTx_queued hu hj (.inl (by simpa [idle] using hi))]; rfl
  · intro hu
    refine ⟨_, exec_hostTimeout k s hu, fun hi => hostTimeout_none (idle_find hi), fun x hx hc => hostTimeout_uncredited hx hc,
      fun x hx hm hc => ?_⟩
    split
    · next early => exact hostTimeout_early hx hm hc early
    · next late => exact fun hmsg hlast => hostTimeout_last hx hm hc late hmsg hlast
  · exact ⟨registerWrite_readOnly m w s, registerWrite_clears m w s, registerWrite_stores m w s, registerWrite_reserved m w s,
      fun ht => ⟨registerWrite_turn_lo m w s _ (turnCountWrite_on w s ht false), registerWrite_turn_hi m w s _ (turnCountWrite_on w s ht true)⟩,
      fun ht => ⟨registerWrite_turn_lo m w s _ (turnCountWrite_off w s ht false), registerWrite_turn_hi m w s _ (turnCountWrite_off w s ht true)⟩,
      fun hu hi free hd => exec_spiRead_turn p s hu hi free hd⟩

end Sys2Proof.Machine
end

section
/-! SUPPORT. The front of the queue, and what supplies and reset keep (R29, R30, R412, R414, R416). -/

namespace Sys2Proof.Machine

/-- Settles O55: on a queue with a front the step is that command's execution. -/
theorem stepRunsFront : Obligations.StepRunsFront := by
  unfold Obligations.StepRunsFront
  intro c rest s h
  unfold step
  rw [h]

/-! Supplies and reset (R30). -/

/-- Where no OTP program is in progress, reset leaves OTP as it is; otherwise OTP and the count of free values alone may change. -/
theorem otpCut_frame (s : State) :
    (∃ o n, otpCut s = { s with boot := { s.boot with otp := o }, free := n }) ∧ (s.boot.otpBusy = none → otpCut s = s) := by
  unfold otpCut
  cases s.boot.otpBusy with
  | none => exact ⟨⟨s.boot.otp, s.free, rfl⟩, fun _ => rfl⟩
  | some p => exact ⟨⟨_, _, rfl⟩, nofun⟩

/-- What a reset of everything keeps: the flash device, the pins, the level of MUTE_N and the queue; OTP too, unless a program was cut. -/
def wipedFrom (s t : State) : Prop :=
  t = { State.reset with
          regs := t.regs, wmem := t.wmem, upset := t.upset,
          boot := { State.reset.boot with otp := t.boot.otp, flash := s.boot.flash, sfdp := s.boot.sfdp }, pins := s.pins,
          guard := { State.reset.guard with low := s.guard.low, latch := s.guard.low }, free := t.free, pending := s.pending } ∧
  (s.boot.otpBusy = none → t.boot.otp = s.boot.otp)

theorem wipedFrom_resetAll (s : State) : wipedFrom s (resetAll s) := by
  obtain ⟨⟨o, n, cut⟩, idle⟩ := otpCut_frame s
  refine ⟨?_, fun h => ?_⟩
  · unfold resetAll; rw [cut]
  · unfold resetAll; rw [idle h]

/-- Registers and word memory are what a reset leaves open. -/
theorem wipedFrom.refill {s t : State} (h : wipedFrom s t) (R : Store Word) (W : Store Word) (U : Store Nat) :
    wipedFrom s { t with regs := R, wmem := W, upset := U } := by
  obtain ⟨all, otp⟩ := h
  refine ⟨?_, otp⟩
  rw [all]

theorem reg_resetAll (s : State) (r : RegName) (i : Nat) : (resetAll s).reg r i = Reg.resetOf (Reg.key r i) := rfl

/-- The state a transition out of reset writes is the state that is read. -/
theorem sysState_setF (s : State) (n : Nat) (h : n < 16) : sysState (s.setF .SYS_STATE 0 3 0 n) = n := by
  unfold sysState
  rw [f_setF_same _ _ _ _ _ _ (by decide) (by decide)]
  exact Nat.mod_eq_of_lt h

theorem supplyLoss_gives (off : Bool) (s : State) (h : sysState s ≠ St.OFF) : gives (.supplyLoss off) s (fun t =>
    wipedFrom s t ∧ t.wmem = [] ∧ t.upset = [] ∧ sysState t = (if off then St.OFF else St.POR) ∧
    ∀ r i, ¬ (r = .SYS_STATE ∧ i = 0) → t.reg r i = Reg.resetOf (Reg.key r i)) := by
  have runs : exec (.supplyLoss off) s = .next ((resetAll s).setF .SYS_STATE 0 3 0 (if off then St.OFF else St.POR)) := by
    change Host.Outcome.next (supplyLoss off s) = _
    unfold supplyLoss; rw [if_neg h]
  refine ⟨_, runs, (wipedFrom_resetAll s).refill _ _ _, rfl, rfl, sysState_setF _ _ (by cases off <;> decide), fun r i hr => ?_⟩
  rw [reg_setF, if_neg hr, reg_resetAll]

/-- Memory words at always-on addresses are kept, all others read zero. -/
theorem get_aonMem {α : Type} (d : Nat → α) (m : Store α) (a : Nat) :
    Store.get d (m.filter (fun e => aonMem e.1)) a = if 0xF0008000 ≤ a then Store.get d m a else d a := by
  rw [get_filter]
  simp only [aonMem, decide_eq_true_eq]

/-- RESET_N clears the registers but for four of them (R44, R414, R439). -/
theorem resetLow_eq (s : State) (h1 : sysState s ≠ St.OFF) (h2 : sysState s ≠ St.POR) : resetLow s =
    (((({ resetAll s with wmem := s.wmem.filter (fun e => aonMem e.1), upset := s.upset.filter (fun e => aonMem e.1) }.setReg
      .AON_FAULT_STAT 0 (s.reg .AON_FAULT_STAT 0)).setReg .AON_REG 0 (s.reg .AON_REG 0)).setReg
      .SEC_SVC_STAT 0 (s.reg .SEC_SVC_STAT 0 &&& 0x40000003)).setF .SYS_STATE 0 3 0 St.POR) := by
  unfold resetLow
  rw [if_neg (not_or.mpr ⟨h1, h2⟩)]

theorem resetLow_gives (s : State) (h1 : sysState s ≠ St.OFF) (h2 : sysState s ≠ St.POR) : gives .resetNLow s (fun t =>
    wipedFrom s t ∧ sysState t = St.POR ∧
    (∀ a, getSlot t a = if 0xF0008000 ≤ a then getSlot s a else 0) ∧ (∀ a, upsetOf t a = if 0xF0008000 ≤ a then upsetOf s a else 0) ∧
    t.reg .AON_FAULT_STAT 0 = s.reg .AON_FAULT_STAT 0 ∧ t.reg .AON_REG 0 = s.reg .AON_REG 0 ∧
    t.reg .SEC_SVC_STAT 0 = s.reg .SEC_SVC_STAT 0 &&& 0x40000003 ∧
    ∀ r i, ¬ (r ∈ [RegName.SYS_STATE, .AON_FAULT_STAT, .AON_REG, .SEC_SVC_STAT] ∧ i = 0) → t.reg r i = Reg.resetOf (Reg.key r i)) := by
  refine ⟨_, congrArg Host.Outcome.next (resetLow_eq s h1 h2), (wipedFrom_resetAll s).refill _ _ _, sysState_setF _ _ (by decide),
    fun a => get_aonMem zeroOf s.wmem a, fun a => get_aonMem natZero s.upset a, ?_, ?_, ?_, fun r i hr => ?_⟩
  · simp [reg_setF, reg_setReg]
  · simp [reg_setF, reg_setReg]
  · simp [reg_setF]
  · simp only [List.mem_cons, List.not_mem_nil, or_false, not_and_or, not_or] at hr
    simp only [reg_setF, reg_setReg]
    rw [if_neg (by tauto), if_neg (by tauto), if_neg (by tauto), if_neg (by tauto)]
    rfl

theorem otpLife_congr {s t : State} (h : t.boot = s.boot) : otpLife t = otpLife s := by
  unfold otpLife otpWord; rw [h]

theorem fuses_congr {s t : State} (h : t.boot = s.boot) : fuses t = fuses s := by
  unfold fuses otpWord; rw [h]

theorem otpLife_lt (s : State) : otpLife s < 4 := by
  simp only [otpLife]
  split
  · decide
  · split <;> decide

/-- The straps and the lifecycle latched (R416, R430, R449). -/
def strapped (sel : Fin 4) (goldenN : Bool) (s : State) : State :=
  let a := (s.setReg .SEC_STRAP 0 (BitVec.ofNat 32 (4 * b2n goldenN + sel.val))).setReg .HOSTIF_STRAP 0
    (BitVec.ofNat 32 (0x38 + s.pins.gpio.toNat % 4))
  a.setF .SEC_STATUS 0 17 16 (otpLife a)

theorem RegsOnly.strapped (sel : Fin 4) (goldenN : Bool) (s : State) : RegsOnly s (strapped sel goldenN s) :=
  .trans (.trans (.setReg ..) (.setReg ..)) (.setF ..)

theorem RegsOnly.boot {s t : State} (h : RegsOnly s t) : t.boot = s.boot := by rw [h]

theorem RegsOnly.setBoot {s t : State} (h : RegsOnly s t) (x : BootState) :
    Machine.setBoot x t = { s with regs := t.regs, boot := x } := by rw [h]; rfl

theorem strapped_life (sel : Fin 4) (goldenN : Bool) (s : State) : (strapped sel goldenN s).f .SEC_STATUS 0 17 16 = otpLife s := by
  rw [strapped, f_setF_same _ _ _ _ _ _ (by decide) (by decide), otpLife_congr (s := s) (by simp)]
  exact Nat.mod_eq_of_lt (otpLife_lt s)

theorem resetRelease_eq (sel : Fin 4) (goldenN sfdp : Bool) (s : State) (h : sysState s = St.POR) : resetRelease sel goldenN sfdp s =
    { s with regs := ((strapped sel goldenN s).setF .SYS_STATE 0 3 0 St.ROM).regs,
             boot := { s.boot with sfdp := sfdp, floor := 64 * fuses s } } := by
  have regs := RegsOnly.strapped sel goldenN s
  have latched : resetRelease sel goldenN sfdp s = setBoot { (strapped sel goldenN s).boot with
      sfdp := sfdp, floor := 64 * fuses (strapped sel goldenN s) } ((strapped sel goldenN s).setF .SYS_STATE 0 3 0 St.ROM) := by
    simp only [resetRelease, strapped, if_pos h, setReg_frame]
  rw [latched, (regs.trans (.setF ..)).setBoot, fuses_congr regs.boot, regs.boot]

/-- The release of reset latches the straps and the lifecycle, and starts the ROM (R416, R430). -/
theorem resetRelease_gives (sel : Fin 4) (goldenN sfdp : Bool) (s : State) (h : sysState s = St.POR) :
    gives (.resetRelease sel goldenN sfdp) s (fun t => sysState t = St.ROM ∧
    t.reg .SEC_STRAP 0 = BitVec.ofNat 32 (4 * b2n goldenN + sel.val) ∧
    t.reg .HOSTIF_STRAP 0 = BitVec.ofNat 32 (0x38 + s.pins.gpio.toNat % 4) ∧ t.f .SEC_STATUS 0 17 16 = otpLife s ∧
    t = { s with regs := t.regs, boot := { s.boot with sfdp := sfdp, floor := 64 * fuses s } }) := by
  refine ⟨_, congrArg Host.Outcome.next (resetRelease_eq sel goldenN sfdp s h), ?_⟩
  generalize ht : (⟨_, _, _, _, _, _, _, _, _, _, _, _, _, _, _, _, _, _, _, _, _, _, _, _, _, _⟩ : State) = t
  have reads : t.regs = ((strapped sel goldenN s).setF .SYS_STATE 0 3 0 St.ROM).regs := by rw [← ht]
  have kept : ∀ r, r ≠ .SYS_STATE → t.reg r 0 = (strapped sel goldenN s).reg r 0 := fun r hr => by
    rw [reg_congr reads, reg_setF, if_neg (fun e => hr e.1)]
  refine ⟨?_, ?_, ?_, ?_, by rw [← ht]⟩
  · rw [sysState, f_congr reads]; exact sysState_setF _ _ (by decide)
  · rw [kept _ (by decide)]; simp [strapped, reg_setF, reg_setReg]
  · rw [kept _ (by decide)]; simp [strapped, reg_setF]
  · rw [State.f, kept _ (by decide)]; exact strapped_life ..

/-- Settles O51: each event has its own lemma. -/
theorem suppliesAndReset : Obligations.SuppliesAndReset := by
  unfold Obligations.SuppliesAndReset
  intro off goldenN sfdp sel s wiped
  refine ⟨fun h => ⟨_, rfl, if_pos h⟩, supplyLoss_gives off s, resetLow_gives s, resetRelease_gives sel goldenN sfdp s⟩

end Sys2Proof.Machine
end

section
/-! SUPPORT. Which registers an operation may write, by their names: what is said once for each shared operation. -/

namespace Sys2Proof.Machine

/-- No register but those of the listed names has changed. -/
structure OnlyRegs (l : List RegName) (s t : State) : Prop where
  reg : ∀ r i, r ∉ l → t.reg r i = s.reg r i

namespace OnlyRegs

variable {l : List RegName} {s t u : State}

theorem refl (l : List RegName) (s : State) : OnlyRegs l s s := ⟨fun _ _ _ => rfl⟩

theorem trans (h : OnlyRegs l s t) (k : OnlyRegs l t u) : OnlyRegs l s u := ⟨fun r i hr => (k.reg r i hr).trans (h.reg r i hr)⟩

theorem of_regs (h : t.regs = s.regs) : OnlyRegs l s t := ⟨fun r i _ => reg_congr h r i⟩

theorem mono {m : List RegName} (h : OnlyRegs l s t) (sub : ∀ r ∈ l, r ∈ m := by simp) : OnlyRegs m s t :=
  ⟨fun r i hr => h.reg r i (fun hl => hr (sub r hl))⟩

theorem setReg {r : RegName} {i : Nat} {v : Word} {s : State} (hr : r ∈ l := by simp) : OnlyRegs l s (s.setReg r i v) :=
  ⟨fun q j hq => by
    have hne : q ≠ r := fun e => hq (e ▸ hr)
    rw [reg_setReg, if_neg (fun e => hne e.1)]⟩

theorem setF {r : RegName} {i hi lo n : Nat} {s : State} (hr : r ∈ l := by simp) : OnlyRegs l s (s.setF r i hi lo n) := setReg hr

theorem setBit {r : RegName} {i b : Nat} {x : Bool} {s : State} (hr : r ∈ l := by simp) : OnlyRegs l s (s.setBit r i b x) := setReg hr

theorem raise {e : Nat} {s : State} (he : .EVT_RAW_w ∈ l := by simp) : OnlyRegs l s (raise e s) := setBit he

theorem ite {c : Prop} [Decidable c] (h : OnlyRegs l s t) (k : OnlyRegs l s u) : OnlyRegs l s (if c then t else u) := by
  split <;> assumption

theorem count {r : RegName} {i ovf hi lo : Nat} {ev : Option Nat} {s : State} (hr : r ∈ l := by simp) (he : .EVT_RAW_w ∈ l := by simp) :
    OnlyRegs l s (count r i ovf hi lo ev s) :=
  ⟨fun q j hq => reg_count r q i j ovf hi lo ev s (fun e => hq (e ▸ hr)) (.inr (fun e => hq (e ▸ he)))⟩

theorem flagEv {r : RegName} {i b e : Nat} {s : State} (hr : r ∈ l := by simp) (he : .EVT_RAW_w ∈ l := by simp) :
    OnlyRegs l s (flagEv r i b e s) := .ite (.refl ..) (.trans (.setBit hr) (.raise he))

theorem cfgErr {r : RegName} {i : Nat} {s : State} (hr : (Reg.cfgErr r i).1 ∈ l) (he : .EVT_RAW_w ∈ l := by simp) :
    OnlyRegs l s (cfgErr r i s) :=
  ⟨fun q j hq => reg_cfgErr r q i j s (fun e => hq (e ▸ hr)) (fun e => hq (e ▸ he))⟩

theorem plainWrite {r : RegName} {i : Nat} {v : Word} {s : State} (hc : (Reg.cfgErr r i).1 ∈ l) (hr : r ∈ l := by simp)
    (he : .EVT_RAW_w ∈ l := by simp) : OnlyRegs l s (plainWrite r i v s) :=
  ⟨fun q j hq => reg_plainWrite_ne r q i j v s (fun e => hq (e.1 ▸ hr)) (fun e => hq (e ▸ hc)) (fun e => hq (e ▸ he))⟩

theorem foldl {α : Type} {f : State → α → State} (h : ∀ t x, OnlyRegs l t (f t x)) (xs : List α) (s : State) :
    OnlyRegs l s (xs.foldl f s) := by
  induction xs generalizing s with
  | nil => exact refl l s
  | cons x xs ih => exact (h s x).trans (ih (f s x))

theorem f (h : OnlyRegs l s t) (r : RegName) (i hi lo : Nat) (hr : r ∉ l := by simp) : t.f r i hi lo = s.f r i hi lo := by
  unfold State.f; rw [h.reg r i hr]

theorem bit (h : OnlyRegs l s t) (r : RegName) (i b : Nat) (hr : r ∉ l := by simp) : t.bit r i b = s.bit r i b := by
  unfold State.bit; rw [h.reg r i hr]

end OnlyRegs

end Sys2Proof.Machine
end

section
/-! SUPPORT. The rate, the clear of the fault log and the latency probe (R46, R49, R50, R66, R67, R157, R215, R257). -/

namespace Sys2Proof.Machine

/-! Ports disabled at a new rate (R257). -/

/-- What a disable of ports changes, beside the listed registers. -/
structure PortsOff (l : List RegName) (s t : State) : Prop where
  frame : t = { s with regs := t.regs, fab := { s.fab with portIn := t.fab.portIn }, port := t.port, guard := t.guard }
  regs : OnlyRegs l s t

namespace PortsOff

variable {l : List RegName} {s t u : State}

theorem refl (s : State) : PortsOff l s s := ⟨rfl, .refl ..⟩

theorem trans (h : PortsOff l s t) (k : PortsOff l t u) : PortsOff l s u :=
  ⟨by rw [k.frame, h.frame], h.regs.trans k.regs⟩

theorem mono {m : List RegName} (h : PortsOff l s t) (sub : ∀ r ∈ l, r ∈ m) : PortsOff m s t := ⟨h.frame, h.regs.mono sub⟩

theorem of_regs (h : RegsOnly s t) (k : OnlyRegs l s t) : PortsOff l s t := ⟨by rw [h], k⟩

theorem setPort (x : PortState) (s : State) : PortsOff l s (setPort x s) := ⟨rfl, .of_regs rfl⟩

theorem setGuard (x : GuardState) (s : State) : PortsOff l s (setGuard x s) := ⟨rfl, .of_regs rfl⟩

theorem zeroPortIn (p : Nat) (s : State) : PortsOff l s (zeroPortIn p s) := ⟨rfl, .of_regs rfl⟩

end PortsOff

theorem RegsOnly.getSlot {s t : State} (h : RegsOnly s t) (a : Nat) : Machine.getSlot t a = Machine.getSlot s a := by rw [h]; rfl

theorem RegsOnly.foldl {α : Type} {f : State → α → State} (h : ∀ t x, RegsOnly t (f t x)) (xs : List α) (s : State) :
    RegsOnly s (xs.foldl f s) := by
  induction xs generalizing s with
  | nil => exact .refl s
  | cons x xs ih => exact (h s x).trans (ih (f s x))

/-- The registers that an unlocked tracker writes, those of a disabled port, and those of a port disabled for its configuration. -/
def trackerRegs : List RegName := [.ASRC_TRK_p, .ASRC_LOCK_w, .ASRC_UNLOCK_CNT, .EVT_RAW_w]
def portOffRegs : List RegName := .SAP_STAT :: trackerRegs
def portRateRegs : List RegName := .SAP_CTRL :: .SAP_FAULT :: portOffRegs

/-- The display of the channels that deliver is all that it changes. -/
theorem asrcShow_parts (all : Bool) (s : State) : RegsOnly s (asrcShow all s) ∧ OnlyRegs [.ASRC_LOCK_w] s (asrcShow all s) :=
  ⟨.foldl (fun _ _ => .setReg ..) _ s, .foldl (fun _ _ => .setReg) _ s⟩

theorem asrcStopped_parts (s : State) : RegsOnly s (asrcStopped s) ∧ OnlyRegs [.ASRC_LOCK_w] s (asrcStopped s) := by
  unfold asrcStopped
  split
  · exact ⟨.refl s, .refl ..⟩
  · exact asrcShow_parts false s

theorem trackerUnlock_parts (p : Nat) (s : State) : RegsOnly s (trackerUnlock p s) ∧ OnlyRegs trackerRegs s (trackerUnlock p s) := by
  unfold trackerUnlock trackerRegs
  split
  · obtain ⟨frame, regs⟩ := asrcStopped_parts
      (raise Ev.ASRC_UNLOCK (count .ASRC_UNLOCK_CNT 0 31 15 0 none ((s.setBit .ASRC_TRK_p p 31 false).setBit .ASRC_TRK_p p 30 true)))
    exact ⟨.trans (.trans (.trans (.trans (.setBit ..) (.setBit ..)) (.count ..)) (.raise ..)) frame,
      .trans (.trans (.trans (.trans .setBit .setBit) .count) .raise) regs.mono⟩
  · exact ⟨.refl s, .refl ..⟩

theorem trackerUnlock_ports (p : Nat) (s : State) : PortsOff portOffRegs s (trackerUnlock p s) :=
  .of_regs (trackerUnlock_parts p s).1 ((trackerUnlock_parts p s).2.mono (by decide))

/-- A disable at once (R263, R266, R269). -/
theorem sapEnable_off (p : Nat) (s : State) : PortsOff portOffRegs s (sapEnable p false s) := by
  unfold sapEnable
  simp only [Bool.false_and, Bool.false_eq_true, if_false, Bool.not_false, if_true]
  split
  · exact .setPort ..
  · have idle : ∀ u : State, PortsOff portOffRegs u ((setSapState p Sap.IDLE u).setBit .SAP_STAT p 27 false) := fun u =>
      .of_regs (.trans (.setF ..) (.setBit ..)) (.trans (.setF (by simp [portOffRegs])) (.setBit (by simp [portOffRegs])))
    exact .trans (.setPort ..) (.trans (idle _) (.trans (.setPort ..) (.trans (trackerUnlock_ports p _) (.trans (.zeroPortIn ..)
      (.trans (.setPort ..) (.setGuard ..))))))

/-- What a port's SAP_CFG allows depends on it and on the rate. -/
theorem sapCfgOk_congr {s t : State} (p : Nat) (h1 : t.reg .SAP_CFG p = s.reg .SAP_CFG p) (h2 : t.reg .SYS_TURN_CFG 0 = s.reg .SYS_TURN_CFG 0) :
    sapCfgOk t p = sapCfgOk s p := by
  unfold sapCfgOk sapSlots sapSw sapWl sapFmt sapMode frameRate rateMul turnLen State.f State.bit
  rw [h1, h2]

theorem PortsOff.sapCfgOk {s t : State} (h : PortsOff portRateRegs s t) (p : Nat) : sapCfgOk t p = sapCfgOk s p :=
  sapCfgOk_congr p (h.regs.reg _ _ (by decide)) (h.regs.reg _ _ (by decide))

/-- One port looked at after a write of RATE. -/
def portRate (t : State) (p : Nat) : State :=
  if t.bit .SAP_CTRL p 0 && !sapCfgOk t p then cfgErr .SAP_CTRL p (sapEnable p false (t.setBit .SAP_CTRL p 0 false)) else t

theorem portRate_parts (s : State) (p : Nat) : PortsOff portRateRegs s (portRate s p) ∧
    ∀ q, (portRate s p).bit .SAP_CTRL q 0 = if q = p then s.bit .SAP_CTRL p 0 && sapCfgOk s p else s.bit .SAP_CTRL q 0 := by
  unfold portRate
  split
  · next off =>
    simp only [Bool.and_eq_true, Bool.not_eq_true'] at off
    have parts := sapEnable_off p (s.setBit .SAP_CTRL p 0 false)
    have noted := RegsOnly.cfgErr .SAP_CTRL p (sapEnable p false (s.setBit .SAP_CTRL p 0 false))
    refine ⟨.trans (.of_regs (.setBit ..) (.setBit (by decide))) (.trans (parts.mono (by decide)) (.of_regs noted
      (.cfgErr (show RegName.SAP_FAULT ∈ portRateRegs by decide) (by decide)))), fun q => ?_⟩
    rw [State.bit, reg_cfgErr _ _ _ _ _ (show RegName.SAP_CTRL ≠ .SAP_FAULT by decide) (by decide), parts.regs.reg _ _ (by decide), reg_setBit]
    split
    · next same => simp [same.2, off.2]
    · next other => rw [if_neg (fun e => other ⟨rfl, e⟩)]; rfl
  · next on =>
    refine ⟨.refl s, fun q => ?_⟩
    split
    · next same => subst same; cases hb : s.bit .SAP_CTRL q 0 <;> simp_all
    · rfl

/-- Every port looked at after a write of RATE. -/
theorem portRates_parts (l : List Nat) (s : State) : PortsOff portRateRegs s (l.foldl portRate s) ∧
    ∀ q, (l.foldl portRate s).bit .SAP_CTRL q 0 = if q ∈ l then s.bit .SAP_CTRL q 0 && sapCfgOk s q else s.bit .SAP_CTRL q 0 := by
  induction l generalizing s with
  | nil => exact ⟨.refl s, fun _ => rfl⟩
  | cons p l ih =>
    obtain ⟨one, bit⟩ := portRate_parts s p
    obtain ⟨rest, bits⟩ := ih (portRate s p)
    refine ⟨one.trans rest, fun q => ?_⟩
    rw [List.foldl_cons, bits, bit, one.sapCfgOk]
    by_cases e : q = p
    · subst e; simp
    · simp [e]

theorem portsRate_parts (s : State) : PortsOff portRateRegs s (portsRate s) ∧
    ∀ p : Fin 64, (portsRate s).bit .SAP_CTRL p 0 = (s.bit .SAP_CTRL p 0 && sapCfgOk s p) := by
  obtain ⟨parts, bits⟩ := portRates_parts (List.range 64) s
  exact ⟨parts, fun p => (bits p).trans (if_pos (List.mem_range.mpr p.isLt))⟩

/-! Checks started anew (R157, R215). -/

/-- A check starts with no result; the active program's result is passed if it has never run. -/
theorem startProgCheck_parts (p : Nat) (s : State) : (∃ C, startProgCheck p s = { s with eng := { s.eng with chk := C } }) ∧
    ∀ pe, engProgChk (startProgCheck p s) pe = if pe = p then 0x40000000 else engProgChk s pe := by
  have act : ∀ t pe, actProg t pe ≤ 1 := fun t pe => Nat.le_of_lt_succ (fld_lt (t.reg .ENG_STATUS pe) 2 2)
  let u := if Store.get zeroOf s.eng.chk (2 * p + actProg s p) = 0 then setChk p (actProg s p) 0x80000000 s else s
  have frame : ∃ C, u = { s with eng := { s.eng with chk := C } } := by
    by_cases h : Store.get zeroOf s.eng.chk (2 * p + actProg s p) = 0
    · exact ⟨_, if_pos h⟩
    · exact ⟨s.eng.chk, if_neg h⟩
  have other : ∀ pe, pe ≠ p → Store.get zeroOf u.eng.chk (2 * pe + (1 - actProg s pe)) = engProgChk s pe := fun pe hpe => by
    have hp := act s p
    have hq := act s pe
    unfold u
    split
    · change Store.get zeroOf (Store.set zeroOf s.eng.chk (2 * p + actProg s p) 0x80000000) _ = _
      exact Store.get_set_ne zeroOf s.eng.chk _ _ _ (by omega)
    · rfl
  have runs : startProgCheck p s = setChk p (1 - actProg s p) 0x40000000 u := rfl
  obtain ⟨C, hu⟩ := frame
  rw [runs]
  refine ⟨⟨Store.set zeroOf u.eng.chk (2 * p + (1 - actProg s p)) 0x40000000, by rw [hu]; rfl⟩, fun pe => ?_⟩
  have same : actProg (setChk p (1 - actProg s p) 0x40000000 u) pe = actProg s pe := by rw [hu]; rfl
  unfold engProgChk
  rw [same]
  change Store.get zeroOf (Store.set zeroOf u.eng.chk (2 * p + (1 - actProg s p)) 0x40000000) (2 * pe + (1 - actProg s pe)) = _
  rw [Store.get_set]
  by_cases e : pe = p
  · subst e; simp
  · have hp := act s p
    have hq := act s pe
    rw [if_neg (by omega), if_neg e, other pe e]; rfl

/-- The checks of several engines started. -/
theorem startProgChecks_parts (l : List Nat) (s : State) :
    (∃ C, l.foldl (fun t pe => startProgCheck pe t) s = { s with eng := { s.eng with chk := C } }) ∧
    ∀ pe, engProgChk (l.foldl (fun t pe => startProgCheck pe t) s) pe = if pe ∈ l then 0x40000000 else engProgChk s pe := by
  induction l generalizing s with
  | nil => exact ⟨⟨s.eng.chk, rfl⟩, fun _ => rfl⟩
  | cons p l ih =>
    obtain ⟨⟨C, frame⟩, started⟩ := startProgCheck_parts p s
    obtain ⟨⟨D, rest⟩, all⟩ := ih (startProgCheck p s)
    refine ⟨⟨D, ?_⟩, fun pe => ?_⟩
    · rw [List.foldl_cons, rest, frame]
    · rw [List.foldl_cons, all, started]
      by_cases e : pe = p
      · subst e; simp
      · simp [e]

/-! RATE (R49). -/

theorem rateRow : RwRow .SYS_TURN_CFG 3 [⟨1, 0, fun v => v < 3⟩] := ⟨rfl, rfl, rfl, rfl, rfl, rfl⟩

theorem routeAct_le (s : State) : routeAct s ≤ 1 := by
  unfold routeAct b2n; split <;> decide

/-- The active bank is judged at the new RATE, unless a full check of it runs. -/
def rateJudged (s : State) : State := if s.fab.chkRun.contains (routeAct s) then s else rejudgeRoute (routeAct s) s

/-- A full check of the shadow bank started, and the active bank judged. -/
theorem rateJudged_parts (s : State) :
    let t := rateJudged (startRouteCheck (1 - routeAct s) s)
    (∃ C P, t = { s with fab := { s.fab with chk := C, split := P, chkRun := t.fab.chkRun } }) ∧ fabricChk t = 0x40000000 ∧
    t.fab.chkRun.contains (1 - routeAct s) = true ∧
    (s.fab.chkRun.contains (routeAct s) = false → Store.get chkReset t.fab.chk (routeAct s) = (routeResult s (routeAct s)).1) := by
  have le := routeAct_le s
  let u := startRouteCheck (1 - routeAct s) s
  have act : routeAct u = routeAct s := rfl
  have runs : u.fab.chkRun.contains (routeAct s) = s.fab.chkRun.contains (routeAct s) := by
    change ((1 - routeAct s) :: s.fab.chkRun.filter (fun b => b != 1 - routeAct s)).contains (routeAct s) = _
    rw [Bool.eq_iff_iff]
    simp only [List.contains_iff_mem, List.mem_cons, List.mem_filter, bne_iff_ne]
    constructor
    · rintro (h | h)
      · omega
      · exact h.1
    · exact fun h => .inr ⟨h, by omega⟩
  have started : u.fab.chkRun.contains (1 - routeAct s) = true := by
    change ((1 - routeAct s) :: _).contains (1 - routeAct s) = true
    simp
  have chk : Store.get chkReset u.fab.chk (1 - routeAct s) = 0x40000000 :=
    Store.get_set_same chkReset s.fab.chk (1 - routeAct s) 0x40000000
  change let t := rateJudged u; _
  unfold rateJudged
  rw [act, runs]
  split
  · next h => exact ⟨⟨_, _, rfl⟩, chk, started, fun h' => absurd (h.symm.trans h') (by decide)⟩
  · refine ⟨⟨_, _, rfl⟩, ?_, started, fun _ => ?_⟩
    · change Store.get chkReset (Store.set chkReset u.fab.chk (routeAct s) _) (1 - routeAct s) = _
      rw [Store.get_set_ne _ _ _ _ _ (by omega)]
      exact chk
    · exact (Store.get_set_same ..).trans (congrArg Prod.fst (routeResult_congr s u (routeAct s) rfl rfl rfl rfl))

/-- What a write of RATE while turns are stopped leaves (R49, R157, R215, R257). -/
theorem rateWrite_parts (v : Word) (s : State) (off : turnsOn s = false) :
    let u := rateWrite v s
    u.f .SYS_TURN_CFG 0 1 0 = (if fld v 1 0 < 3 then fld v 1 0 else 0) ∧
    (∀ pe : Fin 72, fld (engProgChk u pe) 31 30 = 1) ∧ fld (fabricChk u) 31 30 = 1 ∧ u.fab.chkRun.contains (1 - routeAct s) = true ∧
    (s.fab.chkRun.contains (routeAct s) = false → Store.get chkReset u.fab.chk (routeAct s) = (routeResult u (routeAct s)).1) ∧
    (∀ p : Fin 64, u.bit .SAP_CTRL p 0 = (s.bit .SAP_CTRL p 0 && sapCfgOk u p)) ∧ u.time = s.time ∧ u.wmem = s.wmem ∧
    u.hart = s.hart := by
  let a := plainWrite .SYS_TURN_CFG 0 v s
  let b := (List.range 72).foldl (fun t pe => startProgCheck pe t) a
  let c := rateJudged (startRouteCheck (1 - routeAct b) b)
  have runs : rateWrite v s = portsRate c := by
    simp only [rateWrite, off, Bool.false_eq_true, if_false, c, b, a, rateJudged]
  have written : RegsOnly s a := .plainWrite ..
  have regs : OnlyRegs [.SYS_TURN_CFG, .SYS_STATUS, .EVT_RAW_w] s a := .plainWrite (show RegName.SYS_STATUS ∈ _ by simp)
  obtain ⟨⟨C, hb⟩, started⟩ := startProgChecks_parts (List.range 72) a
  obtain ⟨⟨D, P, hc⟩, shadow, running, judged⟩ := rateJudged_parts b
  obtain ⟨ports, bits⟩ := portsRate_parts c
  have regs_c : c.regs = a.regs := by rw [show c = _ from hc, show b = _ from hb]
  have keeps : ∀ r i, r ∉ portRateRegs → (portsRate c).reg r i = a.reg r i := fun r i h =>
    (ports.regs.reg r i h).trans (reg_congr regs_c r i)
  have act : ∀ t : State, (∀ r i, r ∉ portRateRegs → t.reg r i = a.reg r i) → routeAct t = routeAct s := fun t h => by
    unfold routeAct State.bit; rw [h _ _ (by decide), regs.reg _ _ (by decide)]
  have act_b : routeAct b = routeAct s := act b (fun r i _ => reg_congr (by rw [show b = _ from hb]) r i)
  have act_c : routeAct c = routeAct s := act c (fun r i _ => reg_congr regs_c r i)
  have act_u : routeAct (portsRate c) = routeAct s := act _ keeps
  have fab : (portsRate c).fab.chk = c.fab.chk ∧ (portsRate c).fab.chkRun = c.fab.chkRun := by rw [ports.frame]; exact ⟨rfl, rfl⟩
  have eng : (portsRate c).eng = b.eng := by rw [ports.frame, show c = _ from hc]
  rw [runs]
  refine ⟨?_, fun pe => ?_, ?_, ?_, fun idle => ?_, fun p => ?_, ?_, ?_, ?_⟩
  · have stored := f_plainWrite_enc (i := 0) (v := v) (s := s) rateRow (by decide) (by decide) (by decide) (by decide) (by decide)
    have reset : fld (Reg.resetOf (Reg.key .SYS_TURN_CFG 0)) 1 0 = 0 := by decide
    rw [State.f, keeps _ _ (by decide)]
    simp only [reset, decide_eq_true_eq] at stored
    exact stored
  · have same : engProgChk (portsRate c) pe = engProgChk b pe := by
      unfold engProgChk actProg State.f
      rw [eng, keeps _ _ (by decide), reg_congr (show b.regs = a.regs by rw [show b = _ from hb])]
    rw [same, started, if_pos (List.mem_range.mpr pe.isLt)]; decide
  · have same : fabricChk (portsRate c) = fabricChk c := by unfold fabricChk; rw [fab.1, act_u, act_c]
    rw [same, shadow]; decide
  · rw [fab.2, ← act_b]; exact running
  · have same : routeResult (portsRate c) (routeAct s) = routeResult b (routeAct s) := by
      refine routeResult_congr _ _ _ ?_ ?_ ?_ ?_
      · rw [ports.frame, show c = _ from hc]
      · rw [ports.frame, show c = _ from hc]
      · unfold bankLen bankLenReg State.f
        split <;> rw [keeps _ _ (by decide), reg_congr (show b.regs = a.regs by rw [show b = _ from hb])]
      · unfold turnLen State.f
        rw [keeps _ _ (by decide), reg_congr (show b.regs = a.regs by rw [show b = _ from hb])]
    rw [fab.1, same, ← act_b]
    have fab_b : b.fab = s.fab := by rw [show b = _ from hb, written]
    exact judged (by rw [fab_b, act_b]; exact idle)
  · rw [bits, ports.sapCfgOk]
    unfold State.bit; rw [reg_congr regs_c, regs.reg _ _ (by decide)]
  · rw [ports.frame, show c = _ from hc, show b = _ from hb, written]
  · rw [ports.frame, show c = _ from hc, show b = _ from hb, written]
  · rw [ports.frame, show c = _ from hc, show b = _ from hb, written]

section
variable {m : Initiator} {v : Word} {s : State}

theorem regTake_rate (t : State) : regTake m .SYS_TURN_CFG 0 v t = rateWrite v t := regTake_plain m _ 0 v t rfl

theorem rateWrite_refused (on : turnsOn s = true) : does (.rateWrite m v) m .SYS_TURN_CFG 0 s (cfgErr .SYS_TURN_CFG 0 s) := by
  intro hl
  obtain ⟨q, n, e, hr⟩ := rowWrite_accessed m .SYS_TURN_CFG 0 v s hl (by decide)
  rw [regTake_rate, rateWrite, if_pos (by exact on), cfgErr_reached] at hr
  exact ⟨_, rfl, accessed_trans (accessed_reached ..) hr⟩

theorem rateWrite_gives (off : turnsOn s = false) : doesSome (.rateWrite m v) m .SYS_TURN_CFG 0 s (fun u =>
    u.f .SYS_TURN_CFG 0 1 0 = (if fld v 1 0 < 3 then fld v 1 0 else 0) ∧
    (∀ pe : Fin 72, fld (engProgChk u pe) 31 30 = 1) ∧ fld (fabricChk u) 31 30 = 1 ∧ u.fab.chkRun.contains (1 - routeAct s) = true ∧
    (s.fab.chkRun.contains (routeAct s) = false → Store.get chkReset u.fab.chk (routeAct s) = (routeResult u (routeAct s)).1) ∧
    (∀ p : Fin 64, u.bit .SAP_CTRL p 0 = (s.bit .SAP_CTRL p 0 && sapCfgOk u p)) ∧ u.time = s.time ∧ u.wmem = s.wmem ∧
    u.hart = s.hart) := by
  refine doesSome_of _ m _ 0 v s _ rfl (by decide) (fun q n e => ?_)
  rw [regTake_rate]
  obtain ⟨rate, prog, chk, run, judged, ports, frame⟩ := rateWrite_parts v (reached q n e s) off
  generalize hu : rateWrite v (reached q n e s) = u at *
  have result : routeResult (reached s.pwr.quiet s.host.rr s.host.lease u) (routeAct s) = routeResult u (routeAct s) :=
    routeResult_congr _ _ _ rfl rfl rfl rfl
  exact ⟨rate, prog, chk, run, fun idle => (judged idle).trans (congrArg Prod.fst result.symm), ports, frame⟩

/-! The fault log's clear (R46). -/

theorem getSlot_zeroSlots (a len b : Nat) (t : State) :
    getSlot (zeroSlots a len t) b = if a ≤ b ∧ b < a + len then 0 else getSlot t b := by
  unfold getSlot zeroSlots
  rw [get_filter zeroOf (fun k => !inRange a len k)]
  unfold inRange
  by_cases h : a ≤ b ∧ b < a + len
  · simp [h, zeroOf]
  · rw [if_neg h, if_pos (by simp; omega)]

theorem zeroSlots_frame (a len : Nat) (t : State) : ∃ W U, zeroSlots a len t = { t with wmem := W, upset := U } := ⟨_, _, rfl⟩

/-- COUNT and NEXT of the fault log at zero. -/
def counterCleared (t : State) : State := (t.setF .AON_FAULT_STAT 0 31 16 0).setF .AON_FAULT_STAT 0 5 0 0

theorem counterCleared_parts (t : State) : RegsOnly t (counterCleared t) ∧ (counterCleared t).f .AON_FAULT_STAT 0 31 16 = 0 ∧
    (counterCleared t).f .AON_FAULT_STAT 0 5 0 = 0 ∧
    ∀ r i, ¬ (r = .AON_FAULT_STAT ∧ i = 0) → (counterCleared t).reg r i = t.reg r i := by
  unfold counterCleared
  refine ⟨.trans (.setF ..) (.setF ..), ?_, f_setF_same _ _ _ _ _ _ (by decide) (by decide), fun r i hr => ?_⟩
  · rw [State.f, reg_setF, if_pos ⟨rfl, rfl⟩, fld_setFld_ne _ _ _ _ _ _ (by decide) (by decide) (by decide)]
    exact f_setF_same _ _ _ _ _ _ (by decide) (by decide)
  · rw [reg_setF, if_neg hr, reg_setF, if_neg hr]

theorem faultClrWrite_parts (t : State) (hv : bitOf v 0 = true) :
    let u := faultClrWrite v t
    (∀ a, getSlot u a = if 0xF0008000 ≤ a ∧ a < 0xF0008400 then 0 else getSlot t a) ∧
    u.f .AON_FAULT_STAT 0 31 16 = 0 ∧ u.f .AON_FAULT_STAT 0 5 0 = 0 ∧ regsKept [(.AON_FAULT_STAT, 0)] t u ∧
    u = { t with regs := u.regs, wmem := u.wmem, upset := u.upset } := by
  have clears : faultClrWrite v t = counterCleared (zeroSlots 0xF0008000 0x400 t) := by
    simp only [faultClrWrite, hv, if_true, counterCleared]
  have slots := fun a => getSlot_zeroSlots 0xF0008000 0x400 a t
  obtain ⟨W, U, frame⟩ := zeroSlots_frame 0xF0008000 0x400 t
  rw [clears]
  generalize zeroSlots 0xF0008000 0x400 t = z at slots frame ⊢
  obtain ⟨only, count, next, kept⟩ := counterCleared_parts z
  generalize counterCleared z = c at only count next kept ⊢
  refine ⟨fun a => ?_, count, next, fun r i hr => ?_, by rw [only, frame]⟩
  · exact (only.getSlot a).trans ((slots a).trans (if_congr (by omega) rfl rfl))
  · rw [kept r i (by simpa using hr), frame]; rfl

theorem regTake_clear (t : State) : regTake m .AON_FAULT_CLR 0 v t = faultClrWrite v t := regTake_plain m _ 0 v t rfl

theorem faultLogClear_gives : doesSome (.faultLogClear m v) m .AON_FAULT_CLR 0 s (fun u =>
    (∀ a, getSlot u a = if 0xF0008000 ≤ a ∧ a < 0xF0008400 then 0 else getSlot s a) ∧
    u.f .AON_FAULT_STAT 0 31 16 = 0 ∧ u.f .AON_FAULT_STAT 0 5 0 = 0 ∧ regsKept [(.AON_FAULT_STAT, 0)] s u ∧
    u = { s with regs := u.regs, wmem := u.wmem, upset := u.upset }) := by
  refine doesSome_of _ m _ 0 (putBit v 0 true) s _ rfl (by decide) (fun q n e => ?_)
  rw [regTake_clear]
  obtain ⟨slots, count, next, kept, frame⟩ := faultClrWrite_parts (reached q n e s) (bitOf_putBit_same v 0 true (by decide))
  generalize faultClrWrite (putBit v 0 true) (reached q n e s) = u at slots count next kept frame ⊢
  exact ⟨slots, count, next, kept, by rw [frame]; rfl⟩

/-! The latency probe (R66, R67). -/

theorem probeRow : RwRow .SYS_PROBE_CTRL 0xFF0001 [] := ⟨rfl, rfl, rfl, rfl, rfl, rfl⟩

theorem probeStart_gives : doesSome (.probeStart m v) m .SYS_PROBE_CTRL 0 s (fun u =>
    u.f .SYS_PROBE_CTRL 0 23 16 = fld v 23 16 ∧ u.bit .SYS_PROBE_CTRL 0 0 = bitOf v 0 ∧
    (if bitOf v 0 = true ∧ s.bit .SYS_PROBE_RESULT 0 29 = false ∧ sysState s = St.TEST ∧ turnsOn s = true then
      u.reg .SYS_PROBE_RESULT 0 = 0x20000000 ∧ u.dev.probe = .armed
    else u.reg .SYS_PROBE_RESULT 0 = s.reg .SYS_PROBE_RESULT 0 ∧ u.dev.probe = s.dev.probe) ∧
    u = { s with regs := u.regs, dev := { s.dev with probe := u.dev.probe } }) := by
  refine doesSome_of _ m _ 0 (putBit v 1 true) s _ rfl (by decide) (fun q n e => ?_)
  let p := plainWrite .SYS_PROBE_CTRL 0 (putBit v 1 true) (reached q n e s)
  have stored : p.f .SYS_PROBE_CTRL 0 23 16 = fld v 23 16 :=
    (f_plainWrite_free probeRow (by decide) (by decide) (by decide) (by decide)).trans (fld_putBit_ne _ _ _ _ _ (by decide) (by decide))
  have enabled : p.bit .SYS_PROBE_CTRL 0 0 = bitOf v 0 := by
    rw [State.bit, reg_plainWrite_same _ _ _ _ (by decide) (by decide), probeRow.writtenWord, bitOf_merge _ _ _ _ (by decide) (by decide)]
    exact bitOf_putBit_ne _ _ _ _ (by decide) (by decide)
  have only : OnlyRegs [.SYS_PROBE_CTRL, .SYS_STATUS, .EVT_RAW_w] (reached q n e s) p := .plainWrite (show RegName.SYS_STATUS ∈ _ by simp)
  have frame : RegsOnly (reached q n e s) p := .plainWrite ..
  have idle : p.reg .SYS_PROBE_RESULT 0 = s.reg .SYS_PROBE_RESULT 0 := only.reg _ _ (by simp)
  have state : sysState p = sysState s := only.f ..
  have turns : turnsOn p = turnsOn s := only.bit ..
  have runs : regTake m .SYS_PROBE_CTRL 0 (putBit v 1 true) (reached q n e s) =
      if bitOf v 0 = true ∧ s.bit .SYS_PROBE_RESULT 0 29 = false ∧ sysState s = St.TEST ∧ turnsOn s = true then
        setDev { p.dev with probe := .armed } (p.setReg .SYS_PROBE_RESULT 0 0x20000000) else p := by
    rw [regTake_plain _ _ _ _ _ rfl]
    change probeWrite (putBit v 1 true) (reached q n e s) = _
    have busy : p.bit .SYS_PROBE_RESULT 0 29 = s.bit .SYS_PROBE_RESULT 0 29 := by unfold State.bit; rw [idle]
    unfold probeWrite
    simp only [show plainWrite .SYS_PROBE_CTRL 0 (putBit v 1 true) (reached q n e s) = p from rfl, bitOf_putBit_same _ _ _ (show 1 < 32 by decide),
      enabled, busy, state, turns, Bool.true_and, Bool.and_eq_true, Bool.not_eq_true', beq_iff_eq, and_assoc]
  rw [runs]
  split
  · have ne : ∀ r, r ≠ .SYS_PROBE_RESULT → (p.setReg .SYS_PROBE_RESULT 0 0x20000000).reg r 0 = p.reg r 0 := fun r h =>
      reg_setReg_ne _ _ _ _ _ _ (fun e => h e.1)
    refine ⟨?_, ?_, ⟨reg_setReg_same p .SYS_PROBE_RESULT 0 0x20000000, rfl⟩, by rw [frame]; rfl⟩
    · exact (congrArg (fun w => fld w 23 16) (ne .SYS_PROBE_CTRL (by decide))).trans stored
    · exact (congrArg (fun w => bitOf w 0) (ne .SYS_PROBE_CTRL (by decide))).trans enabled
  · exact ⟨stored, enabled, ⟨idle, by rw [frame]; rfl⟩, by rw [frame]; rfl⟩

end

theorem probeTimeout_late {s : State} {age : Nat} (h : s.dev.probe = .running age)
    (late : (if s.f .SYS_PROBE_CTRL 0 23 16 = 0 then 256 else s.f .SYS_PROBE_CTRL 0 23 16) < age) :
    probeTimeout s = { s.setReg .SYS_PROBE_RESULT 0 0x40000000 with dev := { s.dev with probe := .idle } } := by
  unfold probeTimeout
  rw [h]
  exact if_pos late

theorem probeTimeout_early {s : State} {age : Nat} (h : s.dev.probe = .running age)
    (early : age ≤ (if s.f .SYS_PROBE_CTRL 0 23 16 = 0 then 256 else s.f .SYS_PROBE_CTRL 0 23 16)) : probeTimeout s = s := by
  unfold probeTimeout
  rw [h]
  exact if_neg (Nat.not_lt.mpr early)

/-! The probe in a pass of the fabric (R67). -/

/-- What a pass leaves as the probe's reading left it: the operating state's own fields and the probe's result. -/
structure ProbeKept (s t : State) : Prop where
  dev : t.dev = s.dev
  result : t.reg .SYS_PROBE_RESULT 0 = s.reg .SYS_PROBE_RESULT 0

namespace ProbeKept

variable {s t u : State}

theorem refl (s : State) : ProbeKept s s := ⟨rfl, rfl⟩

theorem trans (h : ProbeKept s t) (k : ProbeKept t u) : ProbeKept s u := ⟨k.dev.trans h.dev, k.result.trans h.result⟩

theorem of_regs {l : List RegName} (h : RegsOnly s t) (k : OnlyRegs l s t) (hl : .SYS_PROBE_RESULT ∉ l := by simp) : ProbeKept s t :=
  ⟨by rw [h], k.reg _ _ hl⟩

theorem foldl {α : Type} {f : State → α → State} (h : ∀ t x, ProbeKept t (f t x)) (xs : List α) (s : State) :
    ProbeKept s (xs.foldl f s) := by
  induction xs generalizing s with
  | nil => exact refl s
  | cons x xs ih => exact (h s x).trans (ih (f s x))

theorem ite {c : Prop} [Decidable c] (h : ProbeKept s t) (k : ProbeKept s u) : ProbeKept s (if c then t else u) := by
  split <;> assumption

theorem flagEv (b e : Nat) (s : State) : ProbeKept s (flagEv .FABRIC_FAULT 0 b e s) :=
  of_regs (l := [.FABRIC_FAULT, .EVT_RAW_w]) (.flagEv ..) .flagEv

theorem count (r : RegName) (hr : r ≠ .SYS_PROBE_RESULT) (s : State) : ProbeKept s (count24 r 0 none s) :=
  of_regs (l := [r, .EVT_RAW_w]) (.count ..) .count (by simpa using Ne.symm hr)

theorem fabCorrect (a : Nat) (s : State) : ProbeKept s (fabCorrect a s) := by
  unfold Machine.fabCorrect
  split
  · exact trans (t := setUpset s a 0) ⟨rfl, rfl⟩ (count .FABRIC_ECC_CORR (by decide) _)
  · exact refl s

theorem writeSinks (passB : Bool) (l : List (Nat × Int)) (s : State) : ProbeKept s (writeSinks passB l s) := by
  unfold Machine.writeSinks
  refine trans ?_ (foldl (fun t x => ?_) _ _)
  · cases passB <;> exact ⟨rfl, rfl⟩
  · split
    · exact ⟨rfl, rfl⟩
    · exact refl t

theorem countSat (l : List (Nat × Int)) (s : State) : ProbeKept s (countSat l s) := by
  unfold Machine.countSat
  refine foldl (fun t x => ?_) l s
  split
  · exact refl t
  · exact trans (count .FABRIC_SAT_CNT (by decide) t) (flagEv ..)

theorem detClear (a : Nat) (s : State) : ProbeKept s (detClear a s) := by
  obtain ⟨frame, regs⟩ := detClear_woke a s
  have cleared : ProbeKept s (setSilent a false (setDetCnt a 0 s)) :=
    trans (t := setDetCnt a 0 s) ⟨rfl, rfl⟩ (of_regs (l := [.FABRIC_SIL_STAT_w]) (.setBit ..) .setBit)
  exact trans cleared ⟨by rw [frame], regs _ _ (by decide) (by decide) (by decide) (by decide)⟩

theorem detPassEnd (passB : Bool) (s : State) : ProbeKept s (detPassEnd passB s) := by
  unfold Machine.detPassEnd
  refine foldl (fun t a => ?_) _ s
  exact ite (refl t) (trans (detClear a t) ⟨rfl, rfl⟩)

end ProbeKept

/-- A pass whose words and gains hold no double-bit error reads the probe first, and leaves its result. -/
theorem fabricPass_probe (passB : Bool) (s : State) (clean : ∀ x ∈ passWords s passB, ∀ a ∈ wordAddrs s x.1 x.2, upsetOf s a ≠ 2) :
    ProbeKept (probeWatch passB s) (fabricPass passB s) := by
  have goes : (passWords s passB).any (fun x => (wordAddrs s x.1 x.2).any (fun a => upsetOf s a == 2)) = false := by
    rw [List.any_eq_false]
    intro x hx
    rw [List.any_eq_true]
    rintro ⟨a, ha, bad⟩
    exact clean x hx a ha (by simpa using bad)
  unfold fabricPass
  simp only [goes, Bool.false_eq_true, if_false]
  exact .trans (.trans (.trans (.trans (.foldl (fun t x => .foldl (fun u a => .fabCorrect a u) _ t) _ _) (.ite (.flagEv ..) (.refl _)))
    (.writeSinks ..)) (.countSat ..)) (.detPassEnd ..)

/-- What the probe's reading leaves (R67). -/
theorem probeWatch_parts (passB : Bool) (s : State) (age : Nat) (h : s.dev.probe = .running age) (test : sysState s = St.TEST)
    (pass : s.bit .SYS_PROBE_WATCH 0 16 = passB)
    (inTime : age ≤ (if s.f .SYS_PROBE_CTRL 0 23 16 = 0 then 256 else s.f .SYS_PROBE_CTRL 0 23 16)) :
    if 0x100000 ≤ (srcValue s passB (s.f .SYS_PROBE_WATCH 0 13 0)).natAbs then
      (probeWatch passB s).reg .SYS_PROBE_RESULT 0 = BitVec.ofNat 32 (0x80000000 + age % 65536) ∧ (probeWatch passB s).dev.probe = .idle
    else probeWatch passB s = s := by
  unfold probeWatch
  rw [h]
  simp only [test, pass, inTime, true_and]
  split
  · exact ⟨reg_setReg_same s .SYS_PROBE_RESULT 0 _, rfl⟩
  · rfl

/-- The watched source read in a pass: a detection ends the measurement (R67). -/
theorem fabricPass_gives (passB : Bool) (s : State) (age : Nat) (h : s.dev.probe = .running age) (on : turnsOn s = true)
    (awake : domainOn s 3 = true) (test : sysState s = St.TEST) (pass : s.bit .SYS_PROBE_WATCH 0 16 = passB)
    (inTime : age ≤ (if s.f .SYS_PROBE_CTRL 0 23 16 = 0 then 256 else s.f .SYS_PROBE_CTRL 0 23 16))
    (clean : ∀ x ∈ passWords s passB, ∀ a ∈ wordAddrs s x.1 x.2, upsetOf s a ≠ 2) :
    gives (if passB then .fabricPassB else .fabricPassA) s (fun t =>
      if 0x100000 ≤ (srcValue s passB (s.f .SYS_PROBE_WATCH 0 13 0)).natAbs then
        t.reg .SYS_PROBE_RESULT 0 = BitVec.ofNat 32 (0x80000000 + age % 65536) ∧ t.dev.probe = .idle
      else t.reg .SYS_PROBE_RESULT 0 = s.reg .SYS_PROBE_RESULT 0 ∧ t.dev.probe = .running age) := by
  let u : State := if passB then setLink { s.link with fwd := s.link.phys } s else s
  have runs : exec (if passB then .fabricPassB else .fabricPassA) s = .next (fabricPass passB u) := by
    have step : fabricPassStep passB s = fabricPass passB u := by
      unfold fabricPassStep; rw [on, awake]; rfl
    cases passB <;> exact congrArg Host.Outcome.next step
  refine ⟨_, runs, ?_⟩
  have kept : ProbeKept (probeWatch passB u) (fabricPass passB u) := fabricPass_probe passB u (by cases passB <;> exact clean)
  have seen : srcValue u passB (s.f .SYS_PROBE_WATCH 0 13 0) = srcValue s passB (s.f .SYS_PROBE_WATCH 0 13 0) := by
    cases passB <;> rfl
  have watch := probeWatch_parts passB u age (by cases passB <;> exact h) (by cases passB <;> exact test)
    (by cases passB <;> exact pass) (by cases passB <;> exact inTime)
  have same : u.f .SYS_PROBE_WATCH 0 13 0 = s.f .SYS_PROBE_WATCH 0 13 0 := by cases passB <;> rfl
  rw [same, seen] at watch
  split
  · next found =>
    rw [if_pos found] at watch
    exact ⟨kept.result.trans watch.1, (congrArg DevState.probe kept.dev).trans watch.2⟩
  · next quiet =>
    rw [if_neg quiet] at watch
    exact ⟨kept.result.trans (by rw [watch]; cases passB <;> rfl), (congrArg DevState.probe kept.dev).trans (by rw [watch]; cases passB <;> exact h)⟩

/-- Settles O31: each command has its own lemma. -/
theorem rateAndProbe : Obligations.RateAndProbe := by
  unfold Obligations.RateAndProbe
  intro m v passB s ctrl limit
  refine ⟨rateWrite_refused, rateWrite_gives, faultLogClear_gives, probeStart_gives, fun age h => ⟨fun late => ?_, fun early => ?_,
    fun on awake test pass inTime clean => fabricPass_gives passB s age h on awake test pass inTime clean⟩⟩
  · exact congrArg Host.Outcome.next (probeTimeout_late h late)
  · exact congrArg Host.Outcome.next (probeTimeout_early h early)

end Sys2Proof.Machine
end

section
/-! SUPPORT. The fault log and the entry to HALT (R30, R43 to R47, R353, R358). -/

namespace Sys2Proof.Machine

/-- No register but those listed has changed. -/
structure OnlyAt (l : List (RegName × Nat)) (s t : State) : Prop where
  kept : regsKept l s t

namespace OnlyAt

variable {l : List (RegName × Nat)} {s t u : State}

theorem refl (l : List (RegName × Nat)) (s : State) : OnlyAt l s s := ⟨fun _ _ _ => rfl⟩

theorem trans (h : OnlyAt l s t) (k : OnlyAt l t u) : OnlyAt l s u := ⟨fun r i hr => (k.kept r i hr).trans (h.kept r i hr)⟩

theorem of_regs (h : t.regs = s.regs) : OnlyAt l s t := ⟨fun r i _ => reg_congr h r i⟩

theorem mono {m : List (RegName × Nat)} (h : OnlyAt l s t) (sub : ∀ x ∈ l, x ∈ m) : OnlyAt m s t :=
  ⟨fun r i hr => h.kept r i (fun hl => hr (sub _ hl))⟩

theorem setReg {r : RegName} {i : Nat} {v : Word} {s : State} (hr : (r, i) ∈ l) : OnlyAt l s (s.setReg r i v) :=
  ⟨fun q j hq => reg_setReg_ne _ _ _ _ _ _ (fun e => hq (by rw [e.1, e.2]; exact hr))⟩

theorem setF {r : RegName} {i hi lo n : Nat} {s : State} (hr : (r, i) ∈ l) : OnlyAt l s (s.setF r i hi lo n) := setReg hr

theorem setBit {r : RegName} {i b : Nat} {x : Bool} {s : State} (hr : (r, i) ∈ l) : OnlyAt l s (s.setBit r i b x) := setReg hr

theorem f (h : OnlyAt l s t) {r : RegName} {i : Nat} (hi lo : Nat) (hr : (r, i) ∉ l) : t.f r i hi lo = s.f r i hi lo := by
  unfold State.f; rw [h.kept r i hr]

theorem bit (h : OnlyAt l s t) {r : RegName} {i : Nat} (b : Nat) (hr : (r, i) ∉ l) : t.bit r i b = s.bit r i b := by
  unfold State.bit; rw [h.kept r i hr]

end OnlyAt

/-! The fault log. -/

/-- COUNT of the fault log steps: it saturates, and then OVF is set. -/
def faultCounted (s : State) : State := count .AON_FAULT_STAT 0 15 31 16 none s

theorem faultCounted_parts (s : State) : RegsOnly s (faultCounted s) ∧ OnlyAt [(.AON_FAULT_STAT, 0)] s (faultCounted s) ∧
    (faultCounted s).f .AON_FAULT_STAT 0 5 0 = s.f .AON_FAULT_STAT 0 5 0 ∧
    (faultCounted s).f .AON_FAULT_STAT 0 31 16 = min (s.f .AON_FAULT_STAT 0 31 16 + 1) 65535 ∧
    (faultCounted s).bit .AON_FAULT_STAT 0 15 = (s.bit .AON_FAULT_STAT 0 15 || decide (65535 ≤ s.f .AON_FAULT_STAT 0 31 16 + 1)) := by
  let n := s.f .AON_FAULT_STAT 0 31 16
  have small : n < 2 ^ 16 := fld_lt ..
  let a := if n < 65535 then s.setF .AON_FAULT_STAT 0 31 16 (n + 1) else s
  have stepped : RegsOnly s a ∧ OnlyAt [(.AON_FAULT_STAT, 0)] s a ∧ a.f .AON_FAULT_STAT 0 5 0 = s.f .AON_FAULT_STAT 0 5 0 ∧
      a.f .AON_FAULT_STAT 0 31 16 = min (n + 1) 65535 ∧ a.bit .AON_FAULT_STAT 0 15 = s.bit .AON_FAULT_STAT 0 15 := by
    unfold a
    split
    · refine ⟨.setF .., .setF (by simp), ?_, ?_, ?_⟩
      · rw [State.f, reg_setF, if_pos ⟨rfl, rfl⟩]; exact fld_setFld_ne _ _ _ _ _ _ (by decide) (by decide) (by decide)
      · rw [f_setF_same _ _ _ _ _ _ (by decide) (by decide)]; omega
      · rw [State.bit, reg_setF, if_pos ⟨rfl, rfl⟩]; exact bitOf_setFld_ne _ _ _ _ _ (by decide) (by decide) (by decide)
    · exact ⟨.refl s, .refl _ s, rfl, by omega, rfl⟩
  have runs : faultCounted s = if 65535 ≤ n + 1 then a.setBit .AON_FAULT_STAT 0 15 true else a := rfl
  obtain ⟨only, regs, next, cnt, ovf⟩ := stepped
  rw [runs]
  split
  · next full =>
    refine ⟨only.trans (.setBit ..), regs.trans (.setBit (by simp)), ?_, ?_, ?_⟩
    · rw [State.f, reg_setBit, if_pos ⟨rfl, rfl⟩, fld_putBit_ne _ _ _ _ _ (by decide) (by decide)]; exact next
    · rw [State.f, reg_setBit, if_pos ⟨rfl, rfl⟩, fld_putBit_ne _ _ _ _ _ (by decide) (by decide)]; exact cnt
    · rw [bit_setBit_same _ _ _ _ _ (by decide), decide_eq_true full, Bool.or_true]
  · next room => exact ⟨only, regs, next, cnt, by rw [ovf, decide_eq_false room, Bool.or_false]⟩

/-- The four words of an entry. -/
def faultEntry (a : Nat) (w0 w1 w2 w3 : Word) (s : State) : State :=
  setSlot (setSlot (setSlot (setSlot s a w0) (a + 4) w1) (a + 8) w2) (a + 12) w3

theorem faultEntry_parts (a : Nat) (w0 w1 w2 w3 : Word) (s : State) :
    (∃ W U, faultEntry a w0 w1 w2 w3 s = { s with wmem := W, upset := U }) ∧
    ∀ b, getSlot (faultEntry a w0 w1 w2 w3 s) b =
      if b = a then w0 else if b = a + 4 then w1 else if b = a + 8 then w2 else if b = a + 12 then w3 else getSlot s b := by
  refine ⟨⟨_, _, rfl⟩, fun b => ?_⟩
  unfold faultEntry
  simp only [getSlot_setSlot]
  by_cases h0 : b = a
  · subst h0; simp
  by_cases h1 : b = a + 4
  · subst h1; simp
  by_cases h2 : b = a + 8
  · subst h2; simp
  · rw [if_neg h2, if_neg h1, if_neg h0, if_neg h0, if_neg h1, if_neg h2]

/-- One entry of the fault log (R43 to R45). -/
theorem logFault_parts (event utype unit : Nat) (detail : Word) (s : State) :
    logged event utype unit detail [] s (logFault event utype unit detail s) ∧
    ∃ R W U, logFault event utype unit detail s = { s with regs := R, wmem := W, upset := U } := by
  let next := s.f .AON_FAULT_STAT 0 5 0
  let e := faultEntry (0xF0008000 + 16 * next) (BitVec.ofNat 32 (0x80000000 + event * 65536 + utype * 4096 + unit))
    (BitVec.ofNat 32 s.time.turn.toNat) (BitVec.ofNat 32 (s.time.turn.toNat / 2 ^ 32 * 65536 + cycleNow s)) detail s
  let a := e.setF .AON_FAULT_STAT 0 5 0 (next + 1)
  have runs : logFault event utype unit detail s = raise Ev.FAULT_LOGGED (faultCounted a) := rfl
  obtain ⟨⟨W, U, frame⟩, slots⟩ := faultEntry_parts (0xF0008000 + 16 * next) (BitVec.ofNat 32 (0x80000000 + event * 65536 + utype * 4096 + unit))
    (BitVec.ofNat 32 s.time.turn.toNat) (BitVec.ofNat 32 (s.time.turn.toNat / 2 ^ 32 * 65536 + cycleNow s)) detail s
  have slots : ∀ b, getSlot e b = _ := slots
  have frame : e = { s with wmem := W, upset := U } := frame
  have regs : e.regs = s.regs := by rw [frame]
  obtain ⟨only, kept, nexts, cnt, ovf⟩ := faultCounted_parts a
  have raised : RegsOnly (faultCounted a) (raise Ev.FAULT_LOGGED (faultCounted a)) := .raise ..
  have log : ∀ i hi lo, (raise Ev.FAULT_LOGGED (faultCounted a)).f .AON_FAULT_STAT i hi lo = (faultCounted a).f .AON_FAULT_STAT i hi lo :=
    fun i hi lo => by rw [State.f, reg_raise, if_neg (by simp)]; rfl
  have whole : RegsOnly e (raise Ev.FAULT_LOGGED (faultCounted a)) := .trans (.trans (.setF ..) only) raised
  rw [runs]
  refine ⟨⟨fun b => (whole.getSlot b).trans (slots b), ?_, ?_, ?_, raise_bit _ Ev.FAULT_LOGGED, fun r i hr => ?_⟩, ⟨_, W, U, by rw [whole, frame]⟩⟩
  · rw [log, nexts]; exact f_setF_same _ _ _ _ _ _ (by decide) (by decide)
  · rw [log, cnt, State.f, reg_setF, if_pos ⟨rfl, rfl⟩, fld_setFld_ne _ _ _ _ _ _ (by decide) (by decide) (by decide), reg_congr regs]; rfl
  · rw [State.bit, reg_raise, if_neg (by simp)]
    change (faultCounted a).bit .AON_FAULT_STAT 0 15 = _
    rw [ovf, State.bit, State.f, reg_setF, if_pos ⟨rfl, rfl⟩, fld_setFld_ne _ _ _ _ _ _ (by decide) (by decide) (by decide),
      bitOf_setFld_ne _ _ _ _ _ (by decide) (by decide) (by decide), reg_congr regs]; rfl
  · simp only [List.append_nil, List.mem_cons, List.not_mem_nil, or_false, Prod.mk.injEq, not_or] at hr
    have event : Ev.FAULT_LOGGED / 32 = 0 := rfl
    rw [reg_raise, event, if_neg hr.2, kept.kept r i (by simpa using hr.1), reg_setF, if_neg hr.1, reg_congr regs]

/-! DMA channels that go OFF (R353). -/

theorem dmaBytes_frame (j : DmaJob) (l : List Nat) (b : List Byte) (s : State) : ∃ n, (dmaBytes j l b s).2 = { s with free := n } := by
  induction l generalizing b s with
  | nil => exact ⟨s.free, by simp [dmaBytes]⟩
  | cons a l ih =>
    cases b with
    | nil => exact ⟨s.free, by simp [dmaBytes]⟩
    | cons x b =>
      simp only [dmaBytes]
      split
      · obtain ⟨n, h⟩ := ih b { s with free := s.free + 1 }
        exact ⟨n, h⟩
      · exact ih b s

theorem dmaInFlight_frame (n : Nat) (s : State) : ∃ k, (dmaInFlight n s).2 = { s with free := k } := by
  unfold dmaInFlight
  split
  · split
    · exact dmaBytes_frame ..
    · exact ⟨s.free, rfl⟩
  · exact ⟨s.free, rfl⟩

/-- The registers of channel n are among those that R353 leaves undefined. -/
theorem mem_dmaRegs {n : Nat} (hn : n < 32) : (RegName.DMA_CH_n_CTRL, n) ∈ dmaRegs ∧ (RegName.DMA_CH_n_STAT, n) ∈ dmaRegs ∧
    (RegName.DMA_CH_n_CUR, n) ∈ dmaRegs ∧ (RegName.DMA_CH_n_REMAIN, n) ∈ dmaRegs ∧ (RegName.DMA_HALTED, 0) ∈ dmaRegs := by
  simp [dmaRegs, hn]

/-- What channels that go OFF change, and that one that is OFF stays so. -/
structure ChannelsOff (s t : State) : Prop where
  frame : t = { s with regs := t.regs, free := t.free,
                       dma := { s.dma with jobs := t.dma.jobs, trig := t.dma.trig, failed := t.dma.failed, sent := t.dma.sent } }
  regs : OnlyAt dmaRegs s t
  stat : ∀ n, s.f .DMA_CH_n_STAT n 31 29 = 0 → t.f .DMA_CH_n_STAT n 31 29 = 0
  ctrl : ∀ n, s.bit .DMA_CH_n_CTRL n 0 = false → t.bit .DMA_CH_n_CTRL n 0 = false

namespace ChannelsOff

variable {s t u : State}

theorem refl (s : State) : ChannelsOff s s := ⟨rfl, .refl _ s, fun _ h => h, fun _ h => h⟩

theorem trans (h : ChannelsOff s t) (k : ChannelsOff t u) : ChannelsOff s u :=
  ⟨by rw [k.frame, h.frame], h.regs.trans k.regs, fun n hn => k.stat n (h.stat n hn), fun n hn => k.ctrl n (h.ctrl n hn)⟩

/-- Free values drawn, and what the channels hold, but for registers. -/
theorem held (s : State) (free : Nat) (jobs : List DmaJob) (trig : Store Nat) (failed sent : List DmaWrite) : ChannelsOff s
    { s with free := free, dma := { s.dma with jobs := jobs, trig := trig, failed := failed, sent := sent } } :=
  ⟨rfl, .of_regs rfl, fun _ h => h, fun _ h => h⟩

/-- A register of the channels written, but for the two that say that a channel is off. -/
theorem setReg (r : RegName) (i : Nat) (v : Word) (s : State) (hr : (r, i) ∈ dmaRegs) (hs : r ≠ .DMA_CH_n_STAT) (hc : r ≠ .DMA_CH_n_CTRL) :
    ChannelsOff s (s.setReg r i v) := by
  refine ⟨rfl, .setReg hr, fun n hn => ?_, fun n hn => ?_⟩
  · rwa [State.f, reg_setReg_ne _ _ _ _ _ _ (fun e => hs e.1.symm)]
  · rwa [State.bit, reg_setReg_ne _ _ _ _ _ _ (fun e => hc e.1.symm)]

/-- CH_EN written 0. -/
theorem disable {n : Nat} (hn : n < 32) (s : State) : ChannelsOff s (s.setBit .DMA_CH_n_CTRL n 0 false) := by
  refine ⟨rfl, .setBit (mem_dmaRegs hn).1, fun k hk => ?_, fun k hk => ?_⟩
  · rwa [State.f, reg_setBit, if_neg (by simp)]
  · rw [State.bit, reg_setBit]
    split
    · exact bitOf_putBit_same _ _ _ (by decide)
    · exact hk

/-- A field of STAT beside the state, or the state OFF itself. -/
theorem setStat {n : Nat} (hn : n < 32) (hi lo v : Nat) (hl : lo ≤ hi) (hh : hi < 32) (h : hi < 29 ∨ (hi = 31 ∧ lo = 29 ∧ v = 0))
    (s : State) : ChannelsOff s (s.setF .DMA_CH_n_STAT n hi lo v) := by
  refine ⟨rfl, .setF (mem_dmaRegs hn).2.1, fun k hk => ?_, fun k hk => ?_⟩
  · rw [State.f, reg_setF]
    split
    · next same =>
      obtain ⟨-, rfl⟩ := same
      rcases h with h | ⟨rfl, rfl, rfl⟩
      · rw [fld_setFld_ne _ _ _ _ _ _ hl hh (.inr (by omega))]; exact hk
      · rw [fld_setFld_same _ _ _ _ hl hh]; rfl
    · exact hk
  · rwa [State.bit, reg_setF, if_neg (by simp)]

end ChannelsOff

theorem dmaDrop_off (n : Nat) (s : State) : ChannelsOff s (dmaDrop n s) := by
  obtain ⟨k, h⟩ := dmaInFlight_frame n s
  unfold dmaDrop
  generalize dmaInFlight n s = p at h
  obtain ⟨l, u⟩ := p
  subst h
  exact .held ..

/-- A channel that has dropped what it held: the registers that show it, and its job. -/
def dmaShown (n a b c : Nat) (s : State) : State :=
  let t := ((((s.setF .DMA_CH_n_STAT n 22 21 0).setF .DMA_CH_n_STAT n 15 0 c).setReg .DMA_CH_n_CUR n (BitVec.ofNat 32 a)).setReg
    .DMA_CH_n_REMAIN n (BitVec.ofNat 32 (b % 2 ^ 24))).setBit .DMA_HALTED 0 n false
  { t with dma := { t.dma with jobs := t.dma.jobs.filter (fun j => j.ch != n) } }

theorem dmaShown_off {n : Nat} (hn : n < 32) (a b c : Nat) (s : State) : ChannelsOff s (dmaShown n a b c s) := by
  obtain ⟨-, -, cur, remain, halted⟩ := mem_dmaRegs hn
  exact .trans (.trans (.trans (.trans (.trans (.setStat hn 22 21 0 (by decide) (by decide) (.inl (by decide)) s)
    (.setStat hn 15 0 c (by decide) (by decide) (.inl (by decide)) _)) (.setReg _ _ _ _ cur (by decide) (by decide)))
    (.setReg _ _ _ _ remain (by decide) (by decide))) (.setReg _ _ _ _ halted (by decide) (by decide))) (.held ..)

/-- A write of 0 to CH_EN leaves the channel OFF. -/
theorem dmaOff_off {n : Nat} (hn : n < 32) (s : State) : ChannelsOff s (dmaOff n s) ∧ (dmaOff n s).f .DMA_CH_n_STAT n 31 29 = 0 ∧
    (dmaOff n s).bit .DMA_CH_n_CTRL n 0 = false := by
  let d := s.setBit .DMA_CH_n_CTRL n 0 false
  let e := dmaDrop n { d with free := s.free + 3 }
  let f := e.setF .DMA_CH_n_STAT n 31 29 0
  have runs : dmaOff n s = if d.f .DMA_CH_n_STAT n 31 29 = 0 then d
      else dmaShown n (Config.freeNat s.free) (Config.freeNat (s.free + 1)) (Config.freeNat (s.free + 2)) f := rfl
  have disabled : ChannelsOff s d := .disable hn s
  have ctrl : d.bit .DMA_CH_n_CTRL n 0 = false := bit_setBit_same _ _ _ _ _ (by decide)
  rw [runs]
  split
  · next idle => exact ⟨disabled, idle, ctrl⟩
  · have dropped : ChannelsOff d e := .trans (.held d (s.free + 3) ..) (dmaDrop_off n _)
    have stopped : ChannelsOff e f := .setStat hn 31 29 0 (by decide) (by decide) (.inr ⟨rfl, rfl, rfl⟩) _
    have stat : f.f .DMA_CH_n_STAT n 31 29 = 0 := f_setF_same _ _ _ _ _ _ (by decide) (by decide)
    have shown := dmaShown_off hn (Config.freeNat s.free) (Config.freeNat (s.free + 1)) (Config.freeNat (s.free + 2)) f
    exact ⟨disabled.trans (dropped.trans (stopped.trans shown)), shown.stat n stat, shown.ctrl n ((dropped.trans stopped).ctrl n ctrl)⟩

/-- The channels of a list off. -/
theorem dmaOffs_off (l : List Nat) (hl : ∀ n ∈ l, n < 32) (s : State) : let t := l.foldl (fun t n => dmaOff n t) s
    ChannelsOff s t ∧ ∀ n ∈ l, t.f .DMA_CH_n_STAT n 31 29 = 0 ∧ t.bit .DMA_CH_n_CTRL n 0 = false := by
  induction l generalizing s with
  | nil => exact ⟨.refl s, nofun⟩
  | cons m l ih =>
    obtain ⟨one, stat, ctrl⟩ := dmaOff_off (hl m (by simp)) s
    obtain ⟨rest, all⟩ := ih (fun n hn => hl n (by simp [hn])) (dmaOff m s)
    refine ⟨one.trans rest, fun n hn => ?_⟩
    rcases List.mem_cons.mp hn with rfl | hn
    · exact ⟨rest.stat _ stat, rest.ctrl _ ctrl⟩
    · exact all n hn

theorem dmaAllOff_off (s : State) : ChannelsOff s (dmaAllOff s) ∧
    ∀ n : Fin 32, (dmaAllOff s).f .DMA_CH_n_STAT n 31 29 = 0 ∧ (dmaAllOff s).bit .DMA_CH_n_CTRL n 0 = false := by
  obtain ⟨off, all⟩ := dmaOffs_off (List.range 32) (fun n hn => List.mem_range.mp hn) s
  exact ⟨off, fun n => all n (List.mem_range.mpr n.isLt)⟩

/-! HALT (R30). -/

/-- SYS_STATE on the entry to HALT. -/
def haltShown (cause : Nat) (s : State) : State :=
  setMuted true (setTurns false ((enter St.HALT s).setF .SYS_STATE 0 15 8 cause))

theorem haltShown_parts (cause : Nat) (s : State) (hc : cause < 256) : RegsOnly s (haltShown cause s) ∧
    OnlyAt [(.SYS_STATE, 0)] s (haltShown cause s) ∧
    sysState (haltShown cause s) = St.HALT ∧ (haltShown cause s).f .SYS_STATE 0 19 16 = sysState s ∧
    (haltShown cause s).f .SYS_STATE 0 15 8 = cause ∧ (haltShown cause s).bit .SYS_STATE 0 4 = true ∧ turnsOn (haltShown cause s) = false := by
  have mem : (RegName.SYS_STATE, 0) ∈ [(RegName.SYS_STATE, 0)] := by simp
  let w := putBit (putBit (setFld (setFld (setFld (s.reg .SYS_STATE 0) 19 16 (sysState s)) 3 0 St.HALT) 15 8 cause) 5 false) 4 true
  have word : (haltShown cause s).reg .SYS_STATE 0 = w := by
    simp only [haltShown, setMuted, setTurns, enter, reg_setBit, reg_setF, and_self, if_true, w]
  have prev : sysState s < 16 := fld_lt ..
  refine ⟨.trans (.trans (.trans (.trans (.setF ..) (.setF ..)) (.setF ..)) (.setBit ..)) (.setBit ..),
    .trans (.trans (.trans (.trans (.setF mem) (.setF mem)) (.setF mem)) (.setBit mem)) (.setBit mem), ?_, ?_, ?_, ?_, ?_⟩
  · rw [sysState, State.f, word, fld_putBit_ne _ _ _ _ _ (by decide) (by decide), fld_putBit_ne _ _ _ _ _ (by decide) (by decide),
      fld_setFld_ne _ _ _ _ _ _ (by decide) (by decide) (by decide), fld_setFld_same _ _ _ _ (by decide) (by decide)]; decide
  · rw [State.f, word, fld_putBit_ne _ _ _ _ _ (by decide) (by decide), fld_putBit_ne _ _ _ _ _ (by decide) (by decide),
      fld_setFld_ne _ _ _ _ _ _ (by decide) (by decide) (by decide), fld_setFld_ne _ _ _ _ _ _ (by decide) (by decide) (by decide),
      fld_setFld_same _ _ _ _ (by decide) (by decide)]
    exact Nat.mod_eq_of_lt prev
  · rw [State.f, word, fld_putBit_ne _ _ _ _ _ (by decide) (by decide), fld_putBit_ne _ _ _ _ _ (by decide) (by decide),
      fld_setFld_same _ _ _ _ (by decide) (by decide)]
    exact Nat.mod_eq_of_lt hc
  · rw [State.bit, word]; exact bitOf_putBit_same _ _ _ (by decide)
  · rw [turnsOn, State.bit, word, bitOf_putBit_ne _ _ _ _ (by decide) (by decide)]; exact bitOf_putBit_same _ _ _ (by decide)

theorem abandonProbe_parts (s : State) : OnlyAt [(.SYS_PROBE_RESULT, 0)] s (abandonProbe s) ∧
    abandonProbe s = { s with regs := (abandonProbe s).regs, dev := (abandonProbe s).dev } := by
  unfold abandonProbe
  split
  · have written : OnlyAt [(.SYS_PROBE_RESULT, 0)] s (s.setReg .SYS_PROBE_RESULT 0 0x40000000) := .setReg (by simp)
    exact ⟨written.trans (.of_regs rfl), rfl⟩
  · exact ⟨.refl _ s, rfl⟩

/-- Outputs that read zero. -/
def outputsOff (s : State) : State :=
  { s with guard := { s.guard with yPrev := [] }, port := { s.port with sent := [] }, link := { s.link with guarded := [] } }

/-- What waited for boundaries gone on the entry to HALT. -/
def haltDone (s : State) : State :=
  { s with dev := { s.dev with starting := false, freeze := false, cutPast := false, late := [], pendNew := [], pendCut := [],
                               exch := [], won := some (s.time.hub, 3) } }

theorem muteOutputs_eq (s : State) : muteOutputs s = outputsOff (setMuted true s) := rfl

/-- The entry to HALT once its log entry is written. -/
def haltRest (cause : Nat) (s : State) : State :=
  let s := abandonProbe s
  let s := (enter St.HALT s).setF .SYS_STATE 0 15 8 cause
  let s := dmaAllOff (muteOutputs (setTurns false s))
  { s with dev := { s.dev with starting := false, freeze := false, cutPast := false, late := [], pendNew := [], pendCut := [],
                               exch := [], won := some (s.time.hub, 3) } }

theorem haltEnter_rest (cause : Nat) {s : State} (h : alive s = true) :
    haltEnter cause s = haltRest cause (logFault 8 0 0 (BitVec.ofNat 32 cause) s) := by
  unfold haltEnter
  rw [if_pos h]
  rfl

theorem haltRest_mutes (cause : Nat) (s : State) : haltRest cause s =
    haltDone (dmaAllOff (muteOutputs (setTurns false ((enter St.HALT (abandonProbe s)).setF .SYS_STATE 0 15 8 cause)))) := rfl

theorem haltEnter_eq (cause : Nat) {s : State} (h : alive s = true) : haltEnter cause s =
    haltDone (dmaAllOff (outputsOff (haltShown cause (abandonProbe (logFault 8 0 0 (BitVec.ofNat 32 cause) s))))) := by
  rw [haltEnter_rest cause h, haltRest_mutes, muteOutputs_eq, haltShown]

/-- The states that the entry to HALT goes through: the entry of the fault log, the probe, SYS_STATE, outputs off, and the channels. -/
theorem halted_of {cause : Nat} {s a b c d : State} (log : logged 8 0 0 (BitVec.ofNat 32 cause) [] s a)
    (logFrame : ∃ R W U, a = { s with regs := R, wmem := W, upset := U })
    (probe : OnlyAt [(.SYS_PROBE_RESULT, 0)] a b) (probeFrame : b = { a with regs := b.regs, dev := b.dev })
    (shownRegs : RegsOnly b c) (shown : OnlyAt [(.SYS_STATE, 0)] b c) (state : sysState c = St.HALT)
    (prev : c.f .SYS_STATE 0 19 16 = sysState b) (because : c.f .SYS_STATE 0 15 8 = cause) (muted : c.bit .SYS_STATE 0 4 = true)
    (stopped : turnsOn c = false) (off : ChannelsOff (outputsOff c) d)
    (channels : ∀ n : Fin 32, d.f .DMA_CH_n_STAT n 31 29 = 0 ∧ d.bit .DMA_CH_n_CTRL n 0 = false) : halted cause s (haltDone d) := by
  obtain ⟨slots, next, cnt, ovf, event, kept⟩ := log
  have regs : OnlyAt dmaRegs c d := OnlyAt.trans (t := outputsOff c) (.of_regs rfl) off.regs
  have upto : OnlyAt ([(.SYS_PROBE_RESULT, 0), (.SYS_STATE, 0)] ++ dmaRegs) a d :=
    .trans (probe.mono (by simp)) (.trans (shown.mono (by simp)) (regs.mono (fun x hx => by simp [hx])))
  have notDma : ∀ r, r ≠ .DMA_HALTED → r ≠ .DMA_CH_n_CTRL → r ≠ .DMA_CH_n_STAT → r ≠ .DMA_CH_n_CUR → r ≠ .DMA_CH_n_REMAIN →
      ∀ i, (r, i) ∉ dmaRegs := fun r h1 h2 h3 h4 h5 i => by simp [dmaRegs, h1, h2, h3, h4, h5]
  have sysKept : (RegName.SYS_STATE, 0) ∉ dmaRegs := notDma _ (by decide) (by decide) (by decide) (by decide) (by decide) 0
  have logKept : (RegName.AON_FAULT_STAT, 0) ∉ [(RegName.SYS_PROBE_RESULT, 0), (.SYS_STATE, 0)] ++ dmaRegs := by
    simp [notDma .AON_FAULT_STAT (by decide) (by decide) (by decide) (by decide) (by decide)]
  have evtKept : (RegName.EVT_RAW_w, 0) ∉ [(RegName.SYS_PROBE_RESULT, 0), (.SYS_STATE, 0)] ++ dmaRegs := by
    simp [notDma .EVT_RAW_w (by decide) (by decide) (by decide) (by decide) (by decide)]
  obtain ⟨R, W, U, logFrame⟩ := logFrame
  have was : sysState b = sysState s := by
    rw [sysState, probe.f _ _ (by simp), sysState, State.f, kept _ _ (by simp)]; rfl
  have frame : d = { s with regs := d.regs, wmem := d.wmem, upset := d.upset, dev := d.dev, free := d.free,
                            port := { s.port with sent := [] }, link := { s.link with guarded := [] },
                            guard := { s.guard with yPrev := [] },
                            dma := { s.dma with jobs := d.dma.jobs, trig := d.dma.trig, failed := d.dma.failed, sent := d.dma.sent } } := by
    rw [off.frame, shownRegs, probeFrame, logFrame]; rfl
  have wmem : d.wmem = a.wmem := by rw [off.frame, shownRegs, probeFrame]; rfl
  refine ⟨(regs.f 3 0 sysKept).trans state, (regs.f 19 16 sysKept).trans (prev.trans was), (regs.f 15 8 sysKept).trans because,
    (regs.bit 4 sysKept).trans muted, (regs.bit 5 sysKept).trans stopped,
    ⟨fun x => ?_, (upto.f 5 0 logKept).trans next, (upto.f 31 16 logKept).trans cnt, (upto.bit 15 logKept).trans ovf,
      (upto.bit 0 evtKept).trans event, fun r i hr => ?_⟩, channels, by rw [frame]; rfl, by rw [frame]; rfl, by rw [frame]; rfl⟩
  · exact (congrArg (fun w => Store.get zeroOf w x) wmem).trans (slots x)
  · simp only [List.mem_append, List.mem_cons, List.not_mem_nil, or_false, not_or] at hr
    obtain ⟨⟨h1, h2⟩, ⟨h3, h4⟩, h5⟩ := hr
    exact (upto.kept r i (by simp [h3, h4, h5])).trans (kept r i (by simp [h1, h2]))

/-- An entry to HALT (R30, R43, R47, R358). -/
theorem haltEnter_halted {cause : Nat} (hc : cause < 256) {s : State} (h : alive s = true) : halted cause s (haltEnter cause s) := by
  rw [haltEnter_eq cause h]
  obtain ⟨log, frame⟩ := logFault_parts 8 0 0 (BitVec.ofNat 32 cause) s
  obtain ⟨probe, probeFrame⟩ := abandonProbe_parts (logFault 8 0 0 (BitVec.ofNat 32 cause) s)
  obtain ⟨regs, shown, state, prev, because, muted, stopped⟩ := haltShown_parts cause (abandonProbe (logFault 8 0 0 (BitVec.ofNat 32 cause) s)) hc
  obtain ⟨off, channels⟩ := dmaAllOff_off (outputsOff (haltShown cause (abandonProbe (logFault 8 0 0 (BitVec.ofNat 32 cause) s))))
  exact halted_of log frame probe probeFrame regs shown state prev because muted stopped off channels

end Sys2Proof.Machine
end

section
/-! SUPPORT. What wakes change, with the events that stand and the parts of the power controller (R403 to R406), and the state of the
silence detectors and clusters at START (R222, R225). -/

namespace Sys2Proof.Machine

/-- A raised event stays. -/
theorem raise_keeps (e i b : Nat) (s : State) (h : s.bit .EVT_RAW_w i b = true) : (raise e s).bit .EVT_RAW_w i b = true := by
  rw [State.bit, reg_raise]
  split
  · next same =>
    rw [bitOf_putBit _ _ _ _ (Nat.mod_lt _ (by decide))]
    split
    · rfl
    · rw [← same.2]; exact h
  · exact h

/-- The registers that wakes write. -/
def wakeRegs : List RegName := [.PWR_STATE_w, .PWR_LAST_WAKE, .PWR_LAST_WAKE_TURN, .EVT_RAW_w]

/-- t differs from s by wakes: those of the power controller's parts that wakes write, their registers, and no event is lost. -/
structure Roused (s t : State) : Prop where
  frame : t = { s with regs := t.regs,
                       pwr := { s.pwr with wake := t.pwr.wake, latch := t.pwr.latch, wokeAt := t.pwr.wokeAt,
                                           firedAt := t.pwr.firedAt, fired := t.pwr.fired } }
  regs : OnlyRegs wakeRegs s t
  events : ∀ i b, s.bit .EVT_RAW_w i b = true → t.bit .EVT_RAW_w i b = true

namespace Roused

variable {s t u : State}

theorem refl (s : State) : Roused s s := ⟨rfl, .refl _ s, fun _ _ h => h⟩

theorem trans (h : Roused s t) (k : Roused t u) : Roused s u :=
  ⟨by rw [k.frame, h.frame], h.regs.trans k.regs, fun i b hb => k.events i b (h.events i b hb)⟩

theorem ite {c : Prop} [Decidable c] (h : Roused s t) (k : Roused s u) : Roused s (if c then t else u) := by
  split <;> assumption

theorem foldl {α : Type} {f : State → α → State} (h : ∀ t x, Roused t (f t x)) (l : List α) (s : State) : Roused s (l.foldl f s) := by
  induction l generalizing s with
  | nil => exact refl s
  | cons x l ih => exact (h s x).trans (ih (f s x))

theorem setReg (r : RegName) (i : Nat) (v : Word) (s : State) (hr : r ∈ wakeRegs) (he : r ≠ .EVT_RAW_w) : Roused s (s.setReg r i v) :=
  ⟨rfl, .setReg hr, fun j b h => by rwa [State.bit, reg_setReg_ne _ _ _ _ _ _ (fun e => he e.1.symm)]⟩

theorem raise (e : Nat) (s : State) : Roused s (raise e s) :=
  ⟨rfl, .raise (by decide), fun i b h => raise_keeps e i b s h⟩

/-- The parts of the power controller that wakes write. -/
theorem parts (s : State) (wake : List (Nat × Bool)) (latch fired : List (Nat × Nat)) (wokeAt firedAt : Nat) : Roused s
    (setPwr { s.pwr with wake := wake, latch := latch, wokeAt := wokeAt, firedAt := firedAt, fired := fired } s) :=
  ⟨rfl, .of_regs rfl, fun _ _ h => h⟩

theorem startWake (d : Nat) (s : State) : Roused s (startWake d s) :=
  trans (parts s (s.pwr.wake ++ [(d, domainCode s d == Dom.OFF)]) s.pwr.latch s.pwr.fired s.pwr.wokeAt s.pwr.firedAt)
    (setReg .PWR_STATE_w _ _ _ (by decide) (by decide))

theorem recordWake (src d : Nat) (b : Bool) (s : State) : Roused s (recordWake src d b s) := by
  refine ite (refl s) (trans (trans (trans ?_ (setReg .PWR_LAST_WAKE _ _ _ (by decide) (by decide)))
    (setReg .PWR_LAST_WAKE_TURN _ _ _ (by decide) (by decide))) (raise _ _))
  exact parts s s.pwr.wake s.pwr.latch s.pwr.fired (s.time.hub + 1) s.pwr.firedAt

theorem wakeDomains (src : Nat) (ds : List Nat) (s : State) : Roused s (wakeDomains src ds s) := by
  unfold Machine.wakeDomains
  simp only
  have started := fun latch fired firedAt l => trans (parts s s.pwr.wake latch fired s.pwr.wokeAt firedAt)
    (foldl (f := fun t d => Machine.startWake d t) (fun t d => startWake d t) l _)
  split
  · exact (started ..).trans (recordWake ..)
  · exact started ..

theorem fireSource (k : Nat) (s : State) : Roused s (fireSource k s) := ite (wakeDomains ..) (refl s)

end Roused

/-- A field is zero where each of its bits is. -/
theorem fld_eq_zero_iff (v : Word) (hi lo : Nat) : fld v hi lo = 0 ↔ ∀ k < hi + 1 - lo, bitOf v (lo + k) = false := by
  constructor
  · intro h k hk
    have bit := fld_testBit v hi lo k
    rw [h, Nat.zero_testBit, decide_eq_true hk, Bool.true_and] at bit
    exact bit.symm
  · intro h
    apply Nat.eq_of_testBit_eq
    intro k
    rw [fld_testBit, Nat.zero_testBit]
    by_cases hk : k < hi + 1 - lo
    · have off : v.toNat.testBit (lo + k) = false := h k hk
      rw [off, Bool.and_false]
    · rw [decide_eq_false hk, Bool.false_and]

/-! The silence detectors at START. -/

/-- The states of the detectors of some words zero. -/
def statesZero (l : List Nat) (s : State) : State := l.foldl (fun t w => t.setReg .FABRIC_SIL_STAT_w w 0) s

theorem statesZero_reg (l : List Nat) (s : State) (r : RegName) (i : Nat) :
    (statesZero l s).reg r i = if r = .FABRIC_SIL_STAT_w ∧ i ∈ l then 0 else s.reg r i := by
  induction l generalizing s with
  | nil => simp [statesZero]
  | cons a l ih =>
    refine (ih (s.setReg .FABRIC_SIL_STAT_w a 0)).trans ?_
    rw [reg_setReg]
    by_cases h : r = .FABRIC_SIL_STAT_w ∧ i ∈ l
    · rw [if_pos h, if_pos ⟨h.1, List.mem_cons_of_mem _ h.2⟩]
    · rw [if_neg h]
      exact if_congr (by simp only [List.mem_cons]; tauto) rfl rfl

/-- Every detector's count and state zero, but for the wake that follows. -/
def detZero (l : List Nat) (s : State) : State :=
  setFab { (statesZero l s).fab with detCnt := [], loud := [] } (statesZero l s)

theorem detZero_frame (l : List Nat) (s : State) :
    detZero l s = { s with regs := (detZero l s).regs, fab := { s.fab with detCnt := [], loud := [] } } := by
  have regs : RegsOnly s (statesZero l s) := .foldl (fun _ _ => .setReg ..) _ s
  unfold detZero
  generalize statesZero l s = z at regs ⊢
  rw [regs]; rfl

theorem detZero_reg (l : List Nat) (s : State) (r : RegName) (i : Nat) :
    (detZero l s).reg r i = if r = .FABRIC_SIL_STAT_w ∧ i ∈ l then 0 else s.reg r i := statesZero_reg l s r i

theorem detClearAll_eq (s : State) : detClearAll s =
    if (List.range 512).any (fun w => s.reg .FABRIC_SIL_STAT_w w != 0) then fireSource 25 (detZero (List.range 512) s)
    else detZero (List.range 512) s := by
  simp only [detClearAll, detZero, statesZero]

/-! The clusters at START. -/

/-- One cluster awake. -/
def quietAwake (t : State) (c : Nat) : State :=
  let t := setQuietCnt c 0 t
  let u := setQuiescent c false t
  if quiescent t c && domainCode t (6 + c) == Dom.RET then wakeDomains 31 [6 + c] u else u

theorem quietClear_eq (s : State) : quietClear s = (List.range 8).foldl quietAwake (detClearAll s) := rfl

/-- The clusters of l made awake. -/
structure Awakened (l : List Nat) (s t : State) : Prop where
  frame : t = { s with regs := t.regs,
                       pwr := { s.pwr with wake := t.pwr.wake, latch := t.pwr.latch, wokeAt := t.pwr.wokeAt,
                                           firedAt := t.pwr.firedAt, fired := t.pwr.fired },
                       fab := { s.fab with quietCnt := t.fab.quietCnt } }
  regs : OnlyRegs (.FABRIC_QUIET_STAT :: wakeRegs) s t
  events : ∀ i b, s.bit .EVT_RAW_w i b = true → t.bit .EVT_RAW_w i b = true
  state : ∀ d < 32, quiescent t d = if d ∈ l then false else quiescent s d
  count : ∀ d, Store.get natZero t.fab.quietCnt d = if d ∈ l then 0 else Store.get natZero s.fab.quietCnt d
  woke : ∀ c ∈ l, c < 32 → quiescent s c = true → t.bit .EVT_RAW_w 0 25 = true
  calm : (∀ c ∈ l, quiescent s c = false) → t = { s with fab := { s.fab with quietCnt := t.fab.quietCnt } }

namespace Awakened

variable {s t u : State} {l m : List Nat}

theorem nil (s : State) : Awakened [] s s :=
  ⟨rfl, .refl _ s, fun _ _ h => h, fun _ _ => rfl, fun _ => rfl, nofun, fun _ => rfl⟩

theorem append (hl : ∀ c ∈ m, c < 32) (h : Awakened l s t) (k : Awakened m t u) : Awakened (l ++ m) s u := by
  refine ⟨by rw [k.frame, h.frame], h.regs.trans k.regs, fun i b e => k.events i b (h.events i b e), fun d hd => ?_, fun d => ?_,
    fun c hc small quiet => ?_, fun quiet => ?_⟩
  · rw [k.state d hd, h.state d hd]
    by_cases a : d ∈ l <;> simp [a]
  · rw [k.count, h.count]
    by_cases a : d ∈ l <;> simp [a]
  · by_cases a : c ∈ l
    · exact k.events _ _ (h.woke c a small quiet)
    · refine k.woke c ((List.mem_append.mp hc).resolve_left a) small ?_
      rw [h.state c small, if_neg a]; exact quiet
  · have first := h.calm (fun c hc => quiet c (List.mem_append_left _ hc))
    have second := k.calm (fun c hc => by
      rw [h.state c (hl c hc)]
      split
      · rfl
      · exact quiet c (List.mem_append_right _ hc))
    rw [second, first]

/-- A wake that follows. -/
theorem roused (h : Awakened l s t) (k : Roused t u) (loud : ∃ c ∈ l, c < 32 ∧ quiescent s c = true) : Awakened l s u := by
  have fab : u.fab = t.fab := by rw [k.frame]
  refine ⟨by rw [k.frame, h.frame], h.regs.trans (k.regs.mono (fun _ hr => List.mem_cons_of_mem _ hr)), fun i b e => k.events i b (h.events i b e),
    fun d hd => ?_, fun d => by rw [fab, h.count], fun c hc small quiet => k.events _ _ (h.woke c hc small quiet), fun quiet => ?_⟩
  · unfold quiescent; rw [k.regs.bit _ _ _ (by decide)]; exact h.state d hd
  · obtain ⟨c, hc, -, awake⟩ := loud
    exact absurd (quiet c hc) (by simp [awake])

end Awakened

theorem setQuietCnt_awakened (c : Nat) (s : State) (quiet : quiescent s c = false) : Awakened [c] s (setQuietCnt c 0 s) := by
  refine ⟨rfl, .of_regs rfl, fun _ _ h => h, fun d _ => ?_, fun d => ?_, fun e he _ h => ?_, fun _ => rfl⟩
  · split
    · next h => rw [List.mem_singleton.mp h]; exact quiet
    · rfl
  · change Store.get natZero (Store.set natZero s.fab.quietCnt c 0) d = _
    rw [Store.get_set]
    simp only [List.mem_singleton]
  · rw [List.mem_singleton.mp he, quiet] at h; exact absurd h (by decide)

theorem setQuiescent_awakened {c e : Nat} (hc : c < 32) (he : ∀ u, (raise e u).bit .EVT_RAW_w 0 25 = true) (s : State)
    (quiet : quiescent s c = true) : Awakened [c] s (raise e ((setQuietCnt c 0 s).setBit .FABRIC_QUIET_STAT 0 c false)) := by
  refine ⟨rfl, .trans (.of_regs (t := setQuietCnt c 0 s) rfl) (.trans (.setBit (by simp)) (.raise (by decide))),
    fun i b h => raise_keeps _ i b _ ?_, fun d hd => ?_, fun d => ?_, fun _ _ _ _ => he _, fun h => ?_⟩
  · rw [State.bit, reg_setBit, if_neg (by simp)]; exact h
  · rw [quiescent, State.bit, reg_raise, if_neg (by simp), reg_setBit, if_pos ⟨rfl, rfl⟩, bitOf_putBit _ _ _ _ hc]
    simp only [List.mem_singleton]; rfl
  · change Store.get natZero (Store.set natZero s.fab.quietCnt c 0) d = _
    rw [Store.get_set]
    simp only [List.mem_singleton]
  · exact absurd (h c (by simp)) (by simp [quiet])

theorem quietAwake_awakened {c : Nat} (hc : c < 32) (s : State) : Awakened [c] s (quietAwake s c) := by
  have same : quiescent (setQuietCnt c 0 s) c = quiescent s c := rfl
  unfold quietAwake
  simp only
  rw [same]
  cases quiet : quiescent s c with
  | false =>
    rw [setQuiescent, same, quiet]
    exact setQuietCnt_awakened c s quiet
  | true =>
    rw [setQuiescent, same, quiet]
    have woke := setQuiescent_awakened hc (fun u => raise_bit u Ev.CLUSTER_WAKE) s quiet
    split
    · exact woke.roused (.wakeDomains ..) ⟨c, by simp, hc, quiet⟩
    · exact woke

theorem quietAwakes_awakened (l : List Nat) (hl : ∀ c ∈ l, c < 32) (s : State) : Awakened l s (l.foldl quietAwake s) := by
  induction l generalizing s with
  | nil => exact .nil s
  | cons c l ih => exact .append (fun d hd => hl d (by simp [hd])) (quietAwake_awakened (hl c (by simp)) s) (ih (fun d hd => hl d (by simp [hd])) _)

/-- The registers that START clears, and those of the wakes it may ask for. -/
def wokenRegs : List RegName := [.FABRIC_SIL_STAT_w, .FABRIC_QUIET_STAT, .EVT_RAW_w, .PWR_STATE_w, .PWR_LAST_WAKE, .PWR_LAST_WAKE_TURN]

/-- The detectors cleared and the clusters awake. -/
structure Cleared (s t : State) : Prop where
  frame : t = { s with regs := t.regs,
                       pwr := { s.pwr with wake := t.pwr.wake, latch := t.pwr.latch, wokeAt := t.pwr.wokeAt,
                                           firedAt := t.pwr.firedAt, fired := t.pwr.fired },
                       fab := { s.fab with detCnt := [], loud := [], quietCnt := t.fab.quietCnt } }
  regs : OnlyRegs wokenRegs s t
  silence : ∀ w : Fin 512, t.reg .FABRIC_SIL_STAT_w w = 0
  awake : t.f .FABRIC_QUIET_STAT 0 7 0 = 0
  count : ∀ c : Fin 8, Store.get natZero t.fab.quietCnt c = 0
  event : (∃ c : Fin 8, quiescent s c = true) → t.bit .EVT_RAW_w 0 25 = true
  calm : (∀ w : Fin 512, s.reg .FABRIC_SIL_STAT_w w = 0) → s.f .FABRIC_QUIET_STAT 0 7 0 = 0 → t.pwr = s.pwr ∧ ∀ r i, t.reg r i = s.reg r i

theorem detClearAll_roused (s : State) : Roused (detZero (List.range 512) s) (detClearAll s) := by
  rw [detClearAll_eq]
  split
  · exact .fireSource ..
  · exact .refl _

theorem detClearAll_calm (s : State) (h : ∀ w : Fin 512, s.reg .FABRIC_SIL_STAT_w w = 0) :
    detClearAll s = detZero (List.range 512) s := by
  rw [detClearAll_eq, if_neg]
  rw [List.any_eq_true]
  rintro ⟨w, hw, bad⟩
  exact absurd (h ⟨w, List.mem_range.mp hw⟩) (by simpa using bad)

theorem quiescent_of_zero (s : State) (h : s.f .FABRIC_QUIET_STAT 0 7 0 = 0) {c : Nat} (hc : c < 8) : quiescent s c = false := by
  have bit := (fld_eq_zero_iff _ 7 0).mp h c hc
  rwa [Nat.zero_add] at bit

/-- The states that the clear goes through: the detectors zero, their wake, and the clusters awake. -/
theorem cleared_of {s z d t : State} (zeroFrame : z = { s with regs := z.regs, fab := { s.fab with detCnt := [], loud := [] } })
    (zeroReg : ∀ r i, z.reg r i = if r = .FABRIC_SIL_STAT_w ∧ i ∈ List.range 512 then 0 else s.reg r i) (roused : Roused z d)
    (calm : (∀ w : Fin 512, s.reg .FABRIC_SIL_STAT_w w = 0) → d = z) (awake : Awakened (List.range 8) d t) : Cleared s t := by
  have quiet : ∀ c, quiescent d c = quiescent s c := fun c => by
    unfold quiescent State.bit
    rw [roused.regs.reg _ _ (by decide), zeroReg, if_neg (by simp)]
  refine ⟨?_, ?_, fun w => ?_, ?_, fun c => ?_, fun ⟨c, hc⟩ => ?_, fun still off => ?_⟩
  · rw [awake.frame, roused.frame, zeroFrame]
  · refine .trans (t := z) ⟨fun r i hr => ?_⟩ (.trans (roused.regs.mono (by decide)) (awake.regs.mono (by decide)))
    rw [zeroReg, if_neg (fun e => hr (by rw [e.1]; decide))]
  · rw [awake.regs.reg _ _ (by decide), roused.regs.reg _ _ (by decide), zeroReg, if_pos ⟨rfl, List.mem_range.mpr w.isLt⟩]
  · refine (fld_eq_zero_iff _ 7 0).mpr (fun k hk => ?_)
    have off := awake.state k (by omega)
    rw [if_pos (List.mem_range.mpr hk)] at off
    rwa [Nat.zero_add]
  · rw [awake.count, if_pos (List.mem_range.mpr c.isLt)]
  · exact awake.woke c (List.mem_range.mpr c.isLt) (by omega) (by rw [quiet]; exact hc)
  · have same := awake.calm (fun c hc => by rw [quiet]; exact quiescent_of_zero s off (List.mem_range.mp hc))
    rw [same, calm still]
    refine ⟨by rw [zeroFrame], fun r i => ?_⟩
    refine (zeroReg r i).trans ?_
    split
    · next h => rw [h.1, still ⟨i, List.mem_range.mp h.2⟩]
    · rfl

theorem quietClear_cleared (s : State) : Cleared s (quietClear s) := by
  have small : ∀ c ∈ List.range 8, c < 32 := fun c hc => Nat.lt_of_lt_of_le (List.mem_range.mp hc) (by decide)
  rw [quietClear_eq]
  exact cleared_of (detZero_frame _ s) (detZero_reg _ s) (detClearAll_roused s) (detClearAll_calm s)
    (quietAwakes_awakened (List.range 8) small (detClearAll s))

end Sys2Proof.Machine
end

section
/-! SUPPORT. Requests of SYS_STATE_REQ (R28 to R37, R50, R61, R287, R482, R483). -/

namespace Sys2Proof.Machine

/-! The start of the pipeline and the grid of a follower (R61, R287). -/

/-- The reference link of a follower is UP (R287). -/
def follows (s : State) : Prop := 8 ≤ s.synth.use.refSel ∧ linkState s (s.synth.use.refSel - 8) = Lk.UP

/-- The place in the turn that a follower's grid takes (R287). -/
def followedClk (s : State) : Nat :=
  (64 + s.f .LINK_DELAY (s.synth.use.refSel - 8) 9 0 + (gridTime s - Store.get natZero s.link.arrived (s.synth.use.refSel - 8))) % turnLen s

theorem alignGrid_alone {s : State} (h : ¬ follows s) : alignGrid s = s := by
  unfold alignGrid
  refine if_pos ?_
  rw [Bool.or_eq_true, decide_eq_true_eq, bne_iff_ne]
  unfold follows at h
  by_cases lt : s.synth.use.refSel < 8
  · exact .inl lt
  · exact .inr (fun up => h ⟨by omega, up⟩)

theorem alignGrid_follower {s : State} (h : follows s) : ∃ M A, alignGrid s =
    { s with time := { s.time with clk := followedClk s }, eng := { s.eng with mig := M }, link := { s.link with arrived := A } } := by
  obtain ⟨ge, up⟩ := h
  unfold alignGrid
  simp only
  rw [if_neg (by simp [up]; omega)]
  exact ⟨_, _, rfl⟩

/-- What START empties, of the state that has cleared its detectors and clusters. -/
def pipelineEmptied (dev : DevState) (s : State) : State :=
  let s := setDev { dev with late := [] } s
  { s with eng := { s.eng with inF := [], inE := [], outE := [], outF := [], run := [], deliver := [] },
           sect := { s.sect with chainIn := [], chainRun := [], chainOut := [] },
           fab := { s.fab with busA := [], busB := [], linkIn := [], portOut := [], linkOut := [] },
           link := { s.link with rx := [], phys := [], fwd := [], due := [], stage := [], guarded := [] },
           port := { s.port with stage := [], sent := [] } }

theorem clearPipeline_eq (s : State) : clearPipeline s = pipelineEmptied s.dev (quietClear s) := rfl

/-- What START and TEST_ENTER leave (R61, R287), with SYS_STATE at w. -/
def Emptied (s : State) (w : Word) (t : State) : Prop :=
  t.reg .SYS_STATE 0 = w ∧ (∀ w : Fin 512, t.reg .FABRIC_SIL_STAT_w w = 0) ∧ t.f .FABRIC_QUIET_STAT 0 7 0 = 0 ∧
  (∀ c : Fin 8, Store.get natZero t.fab.quietCnt c = 0) ∧ (∀ r i, r ∉ RegName.SYS_STATE :: wokenRegs → t.reg r i = s.reg r i) ∧
  ((∃ c : Fin 8, quiescent s c = true) → t.bit .EVT_RAW_w 0 25 = true) ∧
  ((∀ w : Fin 512, s.reg .FABRIC_SIL_STAT_w w = 0) → s.f .FABRIC_QUIET_STAT 0 7 0 = 0 →
    t.pwr = s.pwr ∧ ∀ r i, r ≠ .SYS_STATE → t.reg r i = s.reg r i) ∧
  (¬ follows s → t.time = s.time ∧ t.eng.mig = s.eng.mig ∧ t.link.arrived = s.link.arrived) ∧
  (follows s → t.time = { s.time with clk := followedClk s }) ∧
  t = { s with regs := t.regs, time := t.time,
               pwr := { s.pwr with wake := t.pwr.wake, latch := t.pwr.latch, wokeAt := t.pwr.wokeAt, firedAt := t.pwr.firedAt,
                                   fired := t.pwr.fired },
               dev := { s.dev with starting := true, late := [] },
               eng := { s.eng with inF := [], inE := [], outE := [], outF := [], run := [], deliver := [], mig := t.eng.mig },
               sect := { s.sect with chainIn := [], chainRun := [], chainOut := [] },
               fab := { s.fab with busA := [], busB := [], linkIn := [], portOut := [], linkOut := [], detCnt := [], loud := [],
                                   quietCnt := t.fab.quietCnt },
               link := { s.link with rx := [], phys := [], fwd := [], due := [], stage := [], guarded := [], arrived := t.link.arrived },
               port := { s.port with stage := [], sent := [] } }

/-- The grid aligned, from a state whose pipeline is empty. -/
structure Aligned (s t : State) : Prop where
  frame : t = { s with time := t.time, eng := { s.eng with mig := t.eng.mig }, link := { s.link with arrived := t.link.arrived } }
  alone : ¬ follows s → t.time = s.time ∧ t.eng.mig = s.eng.mig ∧ t.link.arrived = s.link.arrived
  follower : follows s → t.time = { s.time with clk := followedClk s }

theorem alignGrid_aligned (s : State) : Aligned s (alignGrid s) := by
  by_cases h : follows s
  · obtain ⟨M, A, frame⟩ := alignGrid_follower h
    rw [frame]
    exact ⟨rfl, fun n => absurd h n, fun _ => rfl⟩
  · rw [alignGrid_alone h]
    exact ⟨rfl, fun _ => ⟨rfl, rfl, rfl⟩, fun f => absurd f h⟩

/-- The states that START goes through: detectors and clusters cleared, the pipeline empty, the grid aligned, and SYS_STATE. -/
theorem emptied_of {s q g u : State} {w : Word} (cleared : Cleared s q) (aligned : Aligned (pipelineEmptied s.dev q) g)
    (shown : RegsOnly g u) (only : OnlyRegs [.SYS_STATE] g u) (word : g.reg .SYS_STATE 0 = s.reg .SYS_STATE 0 → u.reg .SYS_STATE 0 = w) :
    Emptied s w (setDev { g.dev with starting := true } u) := by
  have gRegs : g.regs = q.regs := by rw [aligned.frame]; rfl
  have gReg : ∀ r i, g.reg r i = q.reg r i := fun r i => reg_congr gRegs r i
  have uReg : ∀ r i, r ≠ .SYS_STATE → u.reg r i = q.reg r i := fun r i h => (only.reg r i (by simpa using h)).trans (gReg r i)
  have synth : (pipelineEmptied s.dev q).synth = s.synth := by rw [cleared.frame]; rfl
  have arrived : (pipelineEmptied s.dev q).link.arrived = s.link.arrived := by rw [cleared.frame]; rfl
  have mig : (pipelineEmptied s.dev q).eng.mig = s.eng.mig := by rw [cleared.frame]; rfl
  have time : (pipelineEmptied s.dev q).time = s.time := by rw [cleared.frame]; rfl
  have field : ∀ r i hi lo, r ∉ wokenRegs → (pipelineEmptied s.dev q).f r i hi lo = s.f r i hi lo := fun r i hi lo h => cleared.regs.f r i hi lo h
  have len : turnLen (pipelineEmptied s.dev q) = turnLen s := by unfold turnLen; rw [field _ _ _ _ (by decide)]
  have same : follows (pipelineEmptied s.dev q) ↔ follows s := by
    unfold follows linkState; rw [synth, field _ _ _ _ (by decide)]
  have clk : followedClk (pipelineEmptied s.dev q) = followedClk s := by
    unfold followedClk gridTime; rw [len, synth, arrived, time, field _ _ _ _ (by decide)]
  have uTime : u.time = g.time := by rw [shown]
  have uEng : u.eng = g.eng := by rw [shown]
  have uLink : u.link = g.link := by rw [shown]
  refine ⟨word ((gReg _ _).trans (cleared.regs.reg _ _ (by decide))), fun w => (uReg _ _ (by decide)).trans (cleared.silence w),
    (congrArg (fun x => fld x 7 0) (uReg .FABRIC_QUIET_STAT 0 (by decide))).trans cleared.awake, fun c => ?_, fun r i hr => ?_,
    fun h => (congrArg (fun x => bitOf x 25) (uReg .EVT_RAW_w 0 (by decide))).trans (cleared.event h), fun still off => ?_, fun h => ?_,
    fun h => ?_, ?_⟩
  · have cnt : u.fab.quietCnt = q.fab.quietCnt := by rw [shown, aligned.frame]; rfl
    exact (congrArg (fun m => Store.get natZero m c) cnt).trans (cleared.count c)
  · simp only [List.mem_cons, not_or] at hr
    exact (uReg r i hr.1).trans (cleared.regs.reg r i hr.2)
  · obtain ⟨pwr, regs⟩ := cleared.calm still off
    refine ⟨?_, fun r i h => (uReg r i h).trans (regs r i)⟩
    have : u.pwr = q.pwr := by rw [shown, aligned.frame]; rfl
    exact this.trans pwr
  · obtain ⟨h1, h2, h3⟩ := aligned.alone (fun f => h (same.mp f))
    exact ⟨uTime.trans (h1.trans time), (congrArg EngState.mig uEng).trans (h2.trans mig), (congrArg LinkState.arrived uLink).trans (h3.trans arrived)⟩
  · have placed := aligned.follower (same.mpr h)
    rw [clk, time] at placed
    exact uTime.trans placed
  · rw [shown, aligned.frame, cleared.frame]; rfl

/-! Transitions of SYS_STATE. -/

theorem enter_parts (n : Nat) (s : State) : RegsOnly s (enter n s) ∧ OnlyRegs [.SYS_STATE] s (enter n s) :=
  ⟨.trans (.setF ..) (.setF ..), .trans .setF .setF⟩

theorem enterEff_parts (n : Nat) (s : State) : RegsOnly s (enterEff n s) ∧ OnlyRegs [.SYS_STATE] s (enterEff n s) :=
  ⟨.ite _ (.setF ..) (enter_parts n s).1, .ite .setF (enter_parts n s).2⟩

theorem reg_enter {s t : State} (n : Nat) (h : t.reg .SYS_STATE 0 = s.reg .SYS_STATE 0) :
    (enter n t).reg .SYS_STATE 0 = (enter n s).reg .SYS_STATE 0 := by
  simp only [enter, reg_setF, and_self, if_true, sysState, State.f, h]

theorem reg_enterEff {s t : State} (n : Nat) (h : t.reg .SYS_STATE 0 = s.reg .SYS_STATE 0) :
    (enterEff n t).reg .SYS_STATE 0 = (enterEff n s).reg .SYS_STATE 0 := by
  have same : sysState t = sysState s := by simp only [sysState, State.f, h]
  unfold enterEff
  rw [same]
  split
  · simp only [reg_setF, and_self, if_true, h]
  · exact reg_enter n h

/-! START and TEST_ENTER (R29, R50). -/

/-- What START and TEST_ENTER need beside the state. -/
def startable (s : State) : Prop := synLock s = true ∧ holdCause s = 0 ∧ overBudget s = false ∧
  ∀ q ∈ s.safe.reqs, ∀ x ∈ reqMembers s q, memberBusy s x = false

theorem startable_iff (s : State) : startable s ↔ ¬ ((startBlocked s || overBudget s) = true) := by
  unfold startable startBlocked
  simp only [Bool.or_eq_true, Bool.not_eq_true', bne_iff_ne, List.any_eq_true, not_or, not_exists, not_and, Bool.not_eq_true, ne_eq,
    Decidable.not_not, Bool.not_eq_false]
  tauto

/-- The state entered, with turns to start at the coming boundary. -/
def startEntered (inTest : Bool) (s : State) : State :=
  setDev { s.dev with starting := true } (if inTest then enter St.TEST s else enterEff St.RUN s)

/-- What START and TEST_ENTER do where nothing refuses them. -/
def startAccepted (inTest : Bool) (s : State) : Option State :=
  let s := alignGrid (clearPipeline s)
  some (setDev { s.dev with starting := true } (if inTest then enter St.TEST s else enterEff St.RUN s))

theorem startAccepted_eq (inTest : Bool) (s : State) :
    startAccepted inTest s = some (startEntered inTest (alignGrid (clearPipeline s))) := rfl

theorem startTurns_eq (inTest : Bool) (s : State) :
    startTurns inTest s = if startBlocked s || overBudget s then none else startAccepted inTest s := rfl

theorem startTurns_none (inTest : Bool) {s : State} (h : ¬ startable s) : startTurns inTest s = none :=
  (startTurns_eq inTest s).trans (if_pos (not_not.mp (fun n => h ((startable_iff s).mpr n))))

theorem startTurns_accepted (inTest : Bool) {s : State} (h : startable s) :
    startTurns inTest s = some (startEntered inTest (alignGrid (clearPipeline s))) :=
  ((startTurns_eq inTest s).trans (if_neg ((startable_iff s).mp h))).trans (startAccepted_eq inTest s)

/-- SYS_STATE after START or TEST_ENTER. -/
def startWord (inTest : Bool) (s : State) : Word :=
  if inTest then (enter St.TEST s).reg .SYS_STATE 0 else (enterEff St.RUN s).reg .SYS_STATE 0

theorem startEntered_emptied (inTest : Bool) {s q g : State} (cleared : Cleared s q) (aligned : Aligned (pipelineEmptied s.dev q) g) :
    Emptied s (startWord inTest s) (startEntered inTest g) := by
  unfold startEntered startWord
  cases inTest with
  | true =>
    rw [if_pos rfl, if_pos rfl]
    exact emptied_of cleared aligned (enter_parts ..).1 (enter_parts ..).2 (reg_enter _)
  | false =>
    rw [if_neg Bool.false_ne_true, if_neg Bool.false_ne_true]
    exact emptied_of cleared aligned (enterEff_parts ..).1 (enterEff_parts ..).2 (reg_enterEff _)

theorem clearPipeline_aligned (s : State) : Aligned (pipelineEmptied s.dev (quietClear s)) (alignGrid (clearPipeline s)) := by
  have aligned := alignGrid_aligned (clearPipeline s)
  rwa [clearPipeline_eq] at aligned ⊢

theorem startTurns_some (inTest : Bool) {s : State} (h : startable s) :
    ∃ t, startTurns inTest s = some t ∧ Emptied s (startWord inTest s) t :=
  ⟨_, startTurns_accepted inTest h, startEntered_emptied inTest (quietClear_cleared s) (clearPipeline_aligned s)⟩

/-! The write of SYS_STATE_REQ (R28). -/

theorem stateReq_key (key : BitVec 16) {req : Nat} (h : req < 16) : fld (stateReq key req) 31 16 = key.toNat := by
  have := key.isLt
  simp only [fld, stateReq, BitVec.toNat_ofNat]
  omega

theorem stateReq_req (key : BitVec 16) {req : Nat} (h : req < 16) : fld (stateReq key req) 3 0 = req := by
  have := key.isLt
  simp only [fld, stateReq, BitVec.toNat_ofNat]
  omega

/-- A request of SYS_STATE_REQ refused. -/
def requestRefused (s : State) : State := s.setBit .SYS_STATE 0 6 true

theorem stateReqWrite_wrong {key : BitVec 16} (hk : key ≠ 0x6400) {req : Nat} (h : req < 16) (s : State) :
    stateReqWrite (stateReq key req) s = requestRefused s := by
  unfold stateReqWrite
  rw [stateReq_key key h]
  exact if_pos (fun e => hk (BitVec.eq_of_toNat_eq e))

theorem stateReqWrite_beaten {req : Nat} (h : req < 16) {s : State} (hb : requestBeaten s req = true) :
    stateReqWrite (stateReq 0x6400 req) s = requestRefused s := by
  unfold stateReqWrite
  simp only [stateReq_key _ h, stateReq_req _ h, hb, if_true, ite_self]; rfl

theorem stateReqWrite_right {req : Nat} (h : req < 16) {s : State} (hb : requestBeaten s req = false) :
    stateReqWrite (stateReq 0x6400 req) s = (stateRequest req s).getD (requestRefused s) := by
  unfold stateReqWrite
  simp only [stateReq_key _ h, stateReq_req _ h, hb]
  cases stateRequest req s <;> rfl

end Sys2Proof.Machine
end

section
/-! SUPPORT. What each request of SYS_STATE_REQ does, whatever the access itself keeps (R28 to R37, R482, R483). -/

namespace Sys2Proof.Machine

/-! The order of events in one HUBCLK cycle (R37). -/

theorem requestBeaten_won {s : State} {rank : Nat} (h : s.dev.won = some (s.time.hub, rank)) {req : Nat} (h1 : 1 ≤ req) (h7 : req ≤ 7) :
    requestBeaten s req = (decide (rank < requestRank req) && !(req == 2 && rank == 4)) := by
  unfold requestBeaten beaten
  rw [h]
  simp only
  rw [beq_self_eq_true, decide_eq_true h1, decide_eq_true h7, Bool.true_and, Bool.and_true, Bool.and_true]

theorem beaten_free {s : State} (h : ∀ k rank, s.dev.won = some (k, rank) → k ≠ s.time.hub) (rank : Nat) : beaten s rank = false := by
  unfold beaten
  cases won : s.dev.won with
  | none => rfl
  | some x => simp [beq_false_of_ne (h x.1 x.2 won)]

theorem requestBeaten_free {s : State} (h : ∀ k rank, s.dev.won = some (k, rank) → k ≠ s.time.hub) (req : Nat) :
    requestBeaten s req = false := by
  unfold requestBeaten
  rw [beaten_free h]; rfl

/-- DISARM stands beside a hold cause. -/
theorem requestBeaten_disarm {s : State} (h : ∀ k rank, s.dev.won = some (k, rank) → k ≠ s.time.hub ∨ rank = 4) :
    requestBeaten s 2 = false := by
  unfold requestBeaten beaten
  cases won : s.dev.won with
  | none => rfl
  | some x =>
    rcases h x.1 x.2 won with other | hold
    · simp [beq_false_of_ne other]
    · simp [hold]

/-! What the requests do to a state, and that none of it heeds what the access keeps. -/

section
variable (q : Store Nat) (n e : Nat) (s : State)

theorem setF_reached (r : RegName) (i hi lo v : Nat) : (reached q n e s).setF r i hi lo v = reached q n e (s.setF r i hi lo v) := rfl

theorem sysState_reached : sysState (reached q n e s) = sysState s := rfl

theorem effState_reached : effState (reached q n e s) = effState s := rfl

theorem enterEff_reached (k : Nat) : enterEff k (reached q n e s) = reached q n e (enterEff k s) := by
  unfold enterEff enter
  rw [sysState_reached]
  split
  · rw [setF_reached]
  · rw [setF_reached, setF_reached]

end

/-- ARMED, with turns stopped and outputs muted; the requests that waited are gone (R30, R35, R483). -/
def armedFrom (s : State) : State :=
  setMuted true (setTurns false (enterEff St.ARMED
    (setDev { s.dev with starting := false, pendNew := s.dev.pendNew.filter (fun a => !actRequest a),
                         pendCut := s.dev.pendCut.filter (fun a => !actRequest a) } s)))

theorem toArmed_eq (s : State) : toArmed s = armedFrom (if sysState s = St.TEST then abandonProbe s else s) := rfl

theorem armedFrom_reached (q : Store Nat) (n e : Nat) (s : State) : armedFrom (reached q n e s) = reached q n e (armedFrom s) := by
  unfold armedFrom setMuted setTurns
  rw [← setBit_reached, ← setBit_reached, ← enterEff_reached]; rfl

theorem abandonProbe_reached (q : Store Nat) (n e : Nat) (s : State) : abandonProbe (reached q n e s) = reached q n e (abandonProbe s) := by
  unfold abandonProbe
  rw [bit_reached]
  split <;> rfl

theorem toArmed_reached (q : Store Nat) (n e : Nat) (s : State) : toArmed (reached q n e s) = reached q n e (toArmed s) := by
  rw [toArmed_eq, toArmed_eq, sysState_reached, abandonProbe_reached, ← armedFrom_reached]
  split <;> rfl

theorem later_reached (q : Store Nat) (n e : Nat) (a : PendAct) (s : State) : later a (reached q n e s) = reached q n e (later a s) := rfl

theorem setHold_reached (q : Store Nat) (n e : Nat) (c : Nat) (b : Bool) (s : State) :
    setHold c b (reached q n e s) = reached q n e (setHold c b s) := by
  unfold setHold
  rw [bit_reached, show beaten (reached q n e s) 4 = beaten s 4 from rfl]
  split <;> rfl

theorem stateRequest_reached (q : Store Nat) (n e : Nat) (s : State) {req : Nat} (h : req ∈ [2, 3, 4, 6]) :
    stateRequest req (reached q n e s) = (stateRequest req s).map (reached q n e) := by
  have test : inTest (reached q n e s) = inTest s := rfl
  have turns : turnsOn (reached q n e s) = turnsOn s := rfl
  simp only [List.mem_cons, List.not_mem_nil, or_false] at h
  rcases h with rfl | rfl | rfl | rfl
  · simp only [stateRequest, effState_reached, turns, toArmed_reached, later_reached]
    split
    · split <;> rfl
    · split <;> rfl
  · simp only [stateRequest, effState_reached, test, setHold_reached]
    split <;> rfl
  · simp only [stateRequest, effState_reached, test, setHold_reached]
    split <;> rfl
  · simp only [stateRequest, test, turns, toArmed_reached, later_reached]
    split
    · split <;> rfl
    · rfl

/-! The commands. -/

section
variable {c : Instr} {m : Initiator} {s u : State} {req : Nat}

theorem regTake_state (m : Initiator) (v : Word) (s : State) : regTake m .SYS_STATE_REQ 0 v s = stateReqWrite v s := regTake_plain m _ 0 v s rfl

theorem request_does {v : Word} (hc : exec c s = .next (rowWrite m .SYS_STATE_REQ 0 v s))
    (hu : ∀ q n e, stateReqWrite v (reached q n e s) = reached q n e u) : does c m .SYS_STATE_REQ 0 s u := by
  intro hl
  obtain ⟨q, n, e, h⟩ := rowWrite_accessed m .SYS_STATE_REQ 0 v s hl (by decide)
  rw [regTake_state, hu] at h
  exact ⟨_, hc, accessed_trans (accessed_reached ..) h⟩

theorem requestRefused_reached (q : Store Nat) (n e : Nat) (s : State) : requestRefused (reached q n e s) = reached q n e (requestRefused s) := rfl

theorem request_wrong {key : BitVec 16} (hk : key ≠ 0x6400) (h : req < 16)
    (hc : exec c s = .next (rowWrite m .SYS_STATE_REQ 0 (stateReq key req) s)) : does c m .SYS_STATE_REQ 0 s (requestRefused s) :=
  request_does hc (fun q n e => by rw [stateReqWrite_wrong hk h, requestRefused_reached])

theorem request_beaten (h : req < 16) (hc : exec c s = .next (rowWrite m .SYS_STATE_REQ 0 (stateReq 0x6400 req) s))
    (hb : requestBeaten s req = true) : does c m .SYS_STATE_REQ 0 s (requestRefused s) :=
  request_does hc (fun q n e => by rw [stateReqWrite_beaten (s := reached q n e s) h hb, requestRefused_reached])

/-- A request that an event of its HUBCLK cycle beats. -/
theorem request_loses {rank : Nat} (won : s.dev.won = some (s.time.hub, rank)) (h1 : 1 ≤ req) (h7 : req ≤ 7) (lt : rank < requestRank req)
    (other : req ≠ 2 ∨ rank ≠ 4) (hc : exec c s = .next (rowWrite m .SYS_STATE_REQ 0 (stateReq 0x6400 req) s)) :
    does c m .SYS_STATE_REQ 0 s (requestRefused s) :=
  request_beaten (by omega) hc (by
    rw [requestBeaten_won won h1 h7, decide_eq_true lt, Bool.true_and, Bool.not_eq_true', Bool.and_eq_false_iff, beq_eq_false_iff_ne,
      beq_eq_false_iff_ne]
    exact other)

theorem request_gives (hr : req ∈ [2, 3, 4, 6]) (hc : exec c s = .next (rowWrite m .SYS_STATE_REQ 0 (stateReq 0x6400 req) s))
    (hb : requestBeaten s req = false) (hu : stateRequest req s = some u) : does c m .SYS_STATE_REQ 0 s u := by
  have h : req < 16 := by simp only [List.mem_cons, List.not_mem_nil, or_false] at hr; omega
  exact request_does hc (fun q n e => by rw [stateReqWrite_right (s := reached q n e s) h hb, stateRequest_reached _ _ _ _ hr, hu]; rfl)

theorem request_refused (h : req < 16) (hc : exec c s = .next (rowWrite m .SYS_STATE_REQ 0 (stateReq 0x6400 req) s))
    (hb : requestBeaten s req = false) (hu : ∀ q n e, stateRequest req (reached q n e s) = none) : does c m .SYS_STATE_REQ 0 s (requestRefused s) :=
  request_does hc (fun q n e => by rw [stateReqWrite_right (s := reached q n e s) h hb, hu, requestRefused_reached]; rfl)

end

/-! HALT, and the start of turns. -/

theorem lands_up {m : Initiator} {r : RegName} {i : Nat} {s : State} (h : lands m r i s = true) : 2 ≤ sysState s := by
  unfold lands at h
  simp only [Bool.and_eq_true, up, decide_eq_true_eq] at h
  exact h.1.1.1.1.1.1.1.1

theorem halted_reached {cause : Nat} {s t : State} {q : Store Nat} {n e : Nat} (h : halted cause (reached q n e s) t) :
    halted cause s (reached s.pwr.quiet s.host.rr s.host.lease t) := by
  obtain ⟨state, prev, because, muted, stopped, log, channels, sent, guarded, frame⟩ := h
  refine ⟨state, prev, because, muted, stopped, log, channels, sent, guarded, ?_⟩
  conv_lhs => rw [frame]
  rfl

theorem stateRequest_halt (s : State) : stateRequest 7 s = if alive s then some (haltEnter 1 s) else none := rfl

theorem halt_gives {m : Initiator} {s : State} (hb : requestBeaten s 7 = false) :
    doesSome (.halt m 0x6400) m .SYS_STATE_REQ 0 s (fun t => if sysState s = St.HALT then t = requestRefused s else halted 1 s t) := by
  intro hl
  by_cases halt : sysState s = St.HALT
  · have dead : ∀ q n e, stateRequest 7 (reached q n e s) = none := fun q n e => by
      rw [stateRequest_halt]
      refine if_neg ?_
      unfold alive
      rw [sysState_reached, halt]; decide
    obtain ⟨t, hc, ha⟩ := request_refused (c := .halt m 0x6400) (m := m) (by decide) rfl hb dead hl
    exact ⟨_, t, hc, ha, by simp only [if_pos halt]⟩
  · have live : alive s = true := by
      have := lands_up hl
      unfold alive
      simp only [Bool.not_eq_true', Bool.or_eq_false_iff, beq_eq_false_iff_ne]
      exact ⟨⟨fun h => absurd (h ▸ this) (by decide), fun h => absurd (h ▸ this) (by decide)⟩, halt⟩
    obtain ⟨q, n, e, h⟩ := rowWrite_accessed m .SYS_STATE_REQ 0 (stateReq 0x6400 7) s hl (by decide)
    rw [regTake_state, stateReqWrite_right (s := reached q n e s) (by decide) hb, stateRequest_halt, if_pos (show alive (reached q n e s) = true from live)] at h
    refine ⟨_, _, rfl, accessed_trans (accessed_of_reached s.pwr.quiet s.host.rr s.host.lease _) h, ?_⟩
    simp only [if_neg halt]
    exact halted_reached (haltEnter_halted (by decide) live)

theorem startable_reached (q : Store Nat) (n e : Nat) (s : State) : startable (reached q n e s) ↔ startable s := Iff.rfl

theorem emptied_reached {s t : State} {w : Word} {q : Store Nat} {n e : Nat} (h : Emptied (reached q n e s) w t) :
    Emptied s w (reached s.pwr.quiet s.host.rr s.host.lease t) := by
  obtain ⟨state, silence, awake, cnt, regs, event, calm, alone, follower, frame⟩ := h
  refine ⟨state, silence, awake, cnt, regs, event, fun still off => ⟨?_, (calm still off).2⟩, alone, follower, ?_⟩
  · have pwr := (calm still off).1
    change { t.pwr with quiet := s.pwr.quiet } = s.pwr
    rw [pwr]; rfl
  · conv_lhs => rw [frame]
    rfl

theorem startWord_reached (inTest : Bool) (q : Store Nat) (n e : Nat) (s : State) : startWord inTest (reached q n e s) = startWord inTest s := by
  unfold startWord
  rw [reg_enter (t := reached q n e s) (s := s) St.TEST rfl, reg_enterEff (t := reached q n e s) (s := s) St.RUN rfl]

theorem startTurns_gives {c : Instr} {m : Initiator} {s : State} {req : Nat} (inTest : Bool) (h : req < 16)
    (hc : exec c s = .next (rowWrite m .SYS_STATE_REQ 0 (stateReq 0x6400 req) s)) (hb : requestBeaten s req = false)
    (starts : ∀ t, sysState t = sysState s → effState t = effState s → stateRequest req t = startTurns inTest t) (can : startable s) :
    doesSome c m .SYS_STATE_REQ 0 s (Emptied s (startWord inTest s)) := by
  refine doesSome_of c m _ 0 _ s _ hc (by decide) (fun q n e => ?_)
  obtain ⟨t, runs, emptied⟩ := startTurns_some inTest ((startable_reached q n e s).mpr can)
  rw [regTake_state, stateReqWrite_right (s := reached q n e s) h hb, starts (reached q n e s) rfl rfl, runs]
  rw [startWord_reached] at emptied
  exact emptied_reached emptied

/-! Each request by state. -/

section
variable (s : State)

theorem stateRequest_start : stateRequest 1 s = if effState s = St.ARMED then startTurns false s else none := rfl

theorem stateRequest_disarm : stateRequest 2 s = if effState s = St.RUN then some (if turnsOn s then later .disarm s else toArmed s)
    else if effState s = St.HOLD then some (toArmed s) else none := rfl

/-- The states in which the host hold may be set and cleared (R36, R482). -/
def holdStates : Bool := effState s == St.ARMED || effState s == St.RUN || effState s == St.HOLD || inTest s

theorem holdStates_iff : holdStates s = true ↔
    effState s = St.ARMED ∨ effState s = St.RUN ∨ effState s = St.HOLD ∨ inTest s = true := by
  unfold holdStates
  simp only [Bool.or_eq_true, beq_iff_eq, or_assoc]

theorem stateRequest_hold : stateRequest 3 s = if holdStates s then some (setHold Hold.REQ true s) else none := rfl

theorem stateRequest_release : stateRequest 4 s = if holdStates s then some (setHold Hold.REQ false s) else none := rfl

theorem stateRequest_testEnter : stateRequest 5 s = if sysState s = St.ARMED then startTurns true s else none := rfl

theorem stateRequest_testExit : stateRequest 6 s = if inTest s then some (if turnsOn s then later .testExit s else toArmed s) else none := rfl

end

theorem start_gives {m : Initiator} {s : State} (hb : requestBeaten s 1 = false) (state : effState s = St.ARMED) (can : startable s) :
    doesSome (.start m 0x6400) m .SYS_STATE_REQ 0 s (Emptied s ((enterEff St.RUN s).reg .SYS_STATE 0)) := by
  have gives := startTurns_gives (c := .start m 0x6400) (m := m) false (by decide) rfl hb (fun t _ same => by rw [stateRequest_start, same, if_pos state]) can
  rwa [startWord, if_neg Bool.false_ne_true] at gives

theorem testEnter_gives {m : Initiator} {s : State} (hb : requestBeaten s 5 = false) (state : sysState s = St.ARMED) (can : startable s) :
    doesSome (.testEnter m 0x6400) m .SYS_STATE_REQ 0 s (Emptied s ((enter St.TEST s).reg .SYS_STATE 0)) := by
  have gives := startTurns_gives (c := .testEnter m 0x6400) (m := m) true (by decide) rfl hb
    (fun t same _ => by rw [stateRequest_testEnter, same, if_pos state]) can
  rwa [startWord, if_pos rfl] at gives

theorem later_request {a : PendAct} (h : a.enable = none) (s : State) :
    later a s = { s with dev := { s.dev with pendNew := s.dev.pendNew ++ [a] } } := by
  unfold later
  simp only [h, Option.isNone_none, Bool.true_or, List.filter_true]

theorem actRequest_eq (a : PendAct) : (a != .disarm && a != .testExit) = !actRequest a := by
  cases a <;> rfl

/-- A request refused at the state, whatever the access keeps. -/
theorem start_refused {c : Instr} {m : Initiator} {s : State} {req : Nat} (inTest : Bool) (h : req < 16) (ok : State → Prop) [DecidablePred ok]
    (hok : ∀ q n e, ok (reached q n e s) ↔ ok s)
    (hc : exec c s = .next (rowWrite m .SYS_STATE_REQ 0 (stateReq 0x6400 req) s)) (hb : requestBeaten s req = false)
    (starts : ∀ t, stateRequest req t = if ok t then startTurns inTest t else none) (no : ¬ (ok s ∧ startable s)) :
    does c m .SYS_STATE_REQ 0 s (requestRefused s) := by
  refine request_refused h hc hb (fun q n e => ?_)
  rw [starts]
  split
  · next yes => exact startTurns_none inTest (fun can => no ⟨(hok q n e).mp yes, (startable_reached q n e s).mp can⟩)
  · rfl

theorem markWon_setBit (n : Nat) (s : State) (r : RegName) (i b : Nat) (x : Bool) :
    markWon n (s.setBit r i b x) = { s.setBit r i b x with dev := { s.dev with won := some (s.time.hub, n) } } := rfl

/-- The host hold: one that is raised wins over the requests below it in its HUBCLK cycle (R37). -/
theorem setHold_request {s : State} (h : ∀ k rank, s.dev.won = some (k, rank) → k ≠ s.time.hub) :
    setHold Hold.REQ true s = if s.bit .SYS_STATE 0 20 then s.setBit .SYS_STATE 0 20 true
      else { s.setBit .SYS_STATE 0 20 true with dev := { s.dev with won := some (s.time.hub, 4) } } := by
  unfold setHold
  rw [beaten_free h, show Hold.REQ = 20 from rfl]
  cases s.bit .SYS_STATE 0 20 with
  | true => rw [if_neg (by decide), if_pos rfl]
  | false => rw [if_pos (by decide), if_neg (by decide), markWon_setBit]

theorem releaseHold_request (s : State) : setHold Hold.REQ false s = s.setBit .SYS_STATE 0 20 false := by
  unfold setHold
  rw [Bool.false_and, Bool.false_and, if_neg Bool.false_ne_true]
  rfl

theorem toArmed_armed {s : State} (h : sysState s ≠ St.TEST) : toArmed s = armedFrom s := by
  rw [toArmed_eq, if_neg h]

theorem inTest_state {s : State} (h : inTest s = true) : sysState s = St.TEST := by
  unfold inTest at h
  exact beq_iff_eq.mp (Bool.and_eq_true_iff.mp h).1

/-- RUN and HOLD, in SERVICE too, are not TEST. -/
theorem not_test_of_effState {s : State} (h : effState s = St.RUN ∨ effState s = St.HOLD) : sysState s ≠ St.TEST := by
  intro test
  unfold effState at h
  rw [test, if_neg (by decide)] at h
  rcases h with h | h
  · exact absurd h (by decide)
  · exact absurd h (by decide)

/-- Settles O25: a lemma for each request, by the states that allow it. -/
theorem stateRequests : Obligations.StateRequests := by
  unfold Obligations.StateRequests
  intro m key s refused row wait link followsUp woken waiting armed canStart emptied holds held
  have armedEq : ∀ t, armedFrom t = armed t := fun t => by
    have same : (fun a => a != PendAct.disarm && a != .testExit) = fun a => !actRequest a := funext actRequest_eq
    unfold armedFrom armed waiting
    rw [same]; rfl
  refine ⟨fun wrong i hi => ?_, fun right rank won => ?_, fun right free => ?_, fun right free => ?_⟩
  · simp only [List.mem_cons, List.not_mem_nil, or_false] at hi
    rcases hi with rfl | rfl | rfl | rfl | rfl | rfl | rfl
    · exact request_wrong (req := 1) wrong (by decide) rfl
    · exact request_wrong (req := 2) wrong (by decide) rfl
    · exact request_wrong (req := 3) wrong (by decide) rfl
    · exact request_wrong (req := 4) wrong (by decide) rfl
    · exact request_wrong (req := 5) wrong (by decide) rfl
    · exact request_wrong (req := 6) wrong (by decide) rfl
    · exact request_wrong (req := 7) wrong (by decide) rfl
  · subst right
    refine ⟨fun h i hi => ?_, fun h ne => ?_, fun h => ?_, fun h => ?_⟩
    · simp only [List.mem_cons, List.not_mem_nil, or_false] at hi
      rcases hi with rfl | rfl | rfl | rfl
      · exact request_loses (req := 1) won (by decide) (by decide) h (.inl (by decide)) rfl
      · exact request_loses (req := 4) won (by decide) (by decide) h (.inl (by decide)) rfl
      · exact request_loses (req := 5) won (by decide) (by decide) h (.inl (by decide)) rfl
      · exact request_loses (req := 6) won (by decide) (by decide) h (.inl (by decide)) rfl
    · exact request_loses (req := 2) won (by decide) (by decide) h (.inr ne) rfl
    · exact request_loses (req := 3) won (by decide) (by decide) h (.inl (by decide)) rfl
    · exact request_loses (req := 7) won (by decide) (by decide) h (.inl (by decide)) rfl
  · subst right
    have hb := requestBeaten_disarm free
    refine ⟨fun run on => ?_, fun h => ?_, fun notRun notHold => ?_⟩
    · refine request_gives (req := 2) (by decide) rfl hb ?_
      rw [stateRequest_disarm, if_pos run, if_pos on, later_request rfl]
    · have stopped := toArmed_armed (not_test_of_effState (h.imp And.left id))
      refine request_gives (req := 2) (by decide) rfl hb ?_
      rw [← armedEq, ← stopped, stateRequest_disarm]
      rcases h with ⟨run, off⟩ | hold
      · rw [if_pos run, if_neg (by simp [off])]
      · rw [if_neg (by rw [hold]; decide), if_pos hold]
    · refine request_refused (req := 2) (by decide) rfl hb (fun q n e => ?_)
      rw [stateRequest_disarm, effState_reached, if_neg notRun, if_neg notHold]
  · subst right
    have hb := requestBeaten_free free
    have holding : holds ↔ holdStates s = true := (holdStates_iff s).symm
    refine ⟨fun isArmed can => ?_, fun no => ?_, fun yes => ⟨?_, ?_⟩, fun no => ⟨?_, ?_⟩, fun isArmed can => ?_, fun no => ?_, fun test on => ?_,
      fun test off => ?_, fun test => ?_, halt_gives (hb 7)⟩
    · exact start_gives (hb 1) isArmed can
    · exact start_refused (req := 1) false (by decide) (fun t => effState t = St.ARMED) (fun _ _ _ => Iff.rfl) rfl (hb 1) stateRequest_start no
    · refine request_gives (req := 3) (by decide) rfl (hb 3) ?_
      rw [stateRequest_hold, if_pos (holding.mp yes), setHold_request free]
    · refine request_gives (req := 4) (by decide) rfl (hb 4) ?_
      rw [stateRequest_release, if_pos (holding.mp yes), releaseHold_request]
    · exact request_refused (req := 3) (by decide) rfl (hb 3) (fun q n e => if_neg (fun h => no (holding.mpr h)))
    · exact request_refused (req := 4) (by decide) rfl (hb 4) (fun q n e => if_neg (fun h => no (holding.mpr h)))
    · exact testEnter_gives (hb 5) isArmed can
    · exact start_refused (req := 5) true (by decide) (fun t => sysState t = St.ARMED) (fun _ _ _ => Iff.rfl) rfl (hb 5) stateRequest_testEnter no
    · refine request_gives (req := 6) (by decide) rfl (hb 6) ?_
      rw [stateRequest_testExit, if_pos test, if_pos on, later_request rfl]
    · refine request_gives (req := 6) (by decide) rfl (hb 6) ?_
      rw [stateRequest_testExit, if_pos test, if_neg (by simp [off]), toArmed_eq, if_pos (inTest_state test), armedEq]
    · exact request_refused (req := 6) (by decide) rfl (hb 6) (fun q n e => if_neg (fun h => absurd (h.symm.trans test) (by decide)))

end Sys2Proof.Machine
end

section
/-! SUPPORT. A cycle of acceptance with one host token, and what goes on after it (R311 to R316, R320, R335). -/

namespace Sys2Proof.Machine

theorem whenOn_on {d : Nat} {s : State} (h : up s = true ∧ domainOn s d = true) (f : State → State) : whenOn d f s = f s := by
  unfold whenOn
  rw [h.1, h.2]; rfl

/-! Nothing that waited for a token entry. -/

/-- No access, transaction or write waits to be made again. -/
structure NothingWaits (s : State) : Prop where
  stalled : s.pwr.stalled = []
  tx : s.host.tx = []
  jobs : s.dma.jobs = []
  failed : s.dma.failed = []
  strokes : ∀ k ∈ s.safe.strokes, k.rest = []

namespace NothingWaits

variable {s : State}

theorem of_parts {t : State} (h : NothingWaits s) (pwr : t.pwr = s.pwr) (host : t.host = s.host) (dma : t.dma = s.dma) (safe : t.safe = s.safe) :
    NothingWaits t :=
  ⟨by rw [pwr, h.stalled], by rw [host, h.tx], by rw [dma, h.jobs], by rw [dma, h.failed], by rw [safe]; exact h.strokes⟩

theorem dmaTokFreed (h : NothingWaits s) : Machine.dmaTokFreed s = s := by
  unfold Machine.dmaTokFreed
  rw [h.jobs]; rfl

theorem dmaReissues (h : NothingWaits s) : Machine.dmaReissues s = s := by
  unfold Machine.dmaReissues
  rw [h.failed]; rfl

theorem strokeGoOn (h : NothingWaits s) (n : Nat) : Machine.strokeGoOn n s = s := by
  unfold Machine.strokeGoOn
  cases found : strokeOf s n with
  | none => rfl
  | some k =>
    have none := h.strokes k (List.mem_of_find?_eq_some found)
    simp only [none, List.isEmpty_nil, Bool.true_or, if_true]

theorem strokesGoOn (h : NothingWaits s) (l : List Nat) : l.foldl (fun t n => Machine.strokeGoOn n t) s = s := by
  induction l with
  | nil => rfl
  | cons n l ih => rw [List.foldl_cons, h.strokeGoOn]; exact ih

theorem setPwr_same (h : NothingWaits s) : setPwr { s.pwr with stalled := [] } s = s := by
  rw [← h.stalled]; rfl

theorem setHost_same (h : NothingWaits s) : setHost { s.host with tx := [] } s = s := by
  rw [← h.tx]; rfl

theorem hostServe (h : NothingWaits s) : Machine.hostServe s = s := by
  have idle : (List.range 5).flatMap (fun k => ([] : List HostTx).filter (fun x => x.m == (s.host.rr + k) % 5)) = [] := rfl
  unfold Machine.hostServe
  simp only [h.tx, List.filter_nil] at idle ⊢
  exact h.setHost_same

theorem retryAll (h : NothingWaits s) : Machine.retryAll s = s := by
  unfold Machine.retryAll
  simp only [h.stalled, h.tx, h.dmaReissues, List.filter_nil, List.foldl_nil, List.append_nil]
  rw [h.setPwr_same, h.strokesGoOn, h.setHost_same, h.tx, h.setHost_same, h.hostServe]

end NothingWaits

/-! Tokens (R312, R313). -/

/-- One host token, and none of another producer. -/
structure LoneToken (s : State) (t : Tok) (rest : List Tok) : Prop where
  host : s.sched.hostQ = t :: rest
  core : s.sched.coreQ = []
  rel : s.sched.relQ = []
  dma : s.sched.dmaQ = []
  timer : s.sched.timerQ = []
  eng : s.eng.tokq = []

theorem acceptInTurn_nil {α : Type} (who : α → Nat) (tok : α → Tok) (p : List Nat) (s : State) : acceptInTurn who tok [] p s = none := by
  unfold acceptInTurn
  rw [List.findSome?_eq_none_iff]
  exact fun _ _ => rfl

/-- The host's token matched: it leaves its queue where it is accepted. -/
def hostAccepted (t : Tok) (rest : List Tok) (s : State) : State :=
  if (matchToken t s).1 then setSched { (matchToken t s).2.sched with hostQ := rest } (matchToken t s).2 else s

theorem tokenAcceptCycle_lone {s : State} {t : Tok} {rest : List Tok} (h : LoneToken s t rest) :
    tokenAcceptCycle s = settleReady (hostAccepted t rest s) := by
  have eng : acceptEng s = s := by unfold acceptEng; rw [h.eng, acceptInTurn_nil]
  have core : acceptCore s = s := by unfold acceptCore; rw [h.core, acceptInTurn_nil]
  have units : acceptUnits s = s := by unfold acceptUnits; rw [h.dma, acceptInTurn_nil, h.timer, acceptInTurn_nil]
  have other : acceptOther s = s := by unfold acceptOther; rw [h.rel]; exact units
  have host : acceptHost s = hostAccepted t rest s := by unfold acceptHost; rw [h.host]; rfl
  unfold tokenAcceptCycle
  rw [eng, core, other, host]

theorem settleReady_none {s : State} (h : ∀ i ∈ s.sched.opens, filled i = false) : settleReady s = s := by
  have full : s.sched.opens.filter filled = [] := by
    rw [List.filter_eq_nil_iff]
    exact fun i hi => by simp [h i hi]
  have rest : s.sched.opens.filter (fun i => !filled i) = s.sched.opens := by
    rw [List.filter_eq_self]
    exact fun i hi => by simp [h i hi]
  unfold settleReady
  rw [full, rest]; rfl

section
variable (t : Tok) (s : State)

/-- No descriptor, or no such slot. -/
def tokBad : Prop := bitOf (s.reg .SCHED_DESC0_t t.tag) 31 = false ∨ fld (s.reg .SCHED_DESC0_t t.tag) 27 26 + 1 ≤ t.slot

/-- The open item that a token fills. -/
def tokOpen : Option Item :=
  s.sched.opens.find? (fun i => i.tag == t.tag && (i.ops.getD t.slot none).isNone && decide (t.slot < i.nops))

/-- The class of a new item, and the flow that orders it. -/
def tokFlow : Nat := fld (s.reg .SCHED_DESC0_t t.tag) 25 16
def tokClass : Nat :=
  if bitOf (s.reg .SCHED_FLOW_f (tokFlow t s)) 31 then fld (s.reg .SCHED_FLOW_f (tokFlow t s)) 29 28
  else fld (s.reg .SCHED_DESC0_t t.tag) 29 28

/-- A new item, with the token's slot filled. -/
def tokItem : Item :=
  { tag := t.tag, own := tokClass t s, lst := tokClass t s, flow := tokFlow t s, ordered := bitOf (s.reg .SCHED_FLOW_f (tokFlow t s)) 31,
    nops := fld (s.reg .SCHED_DESC0_t t.tag) 27 26 + 1, pool := fld (s.reg .SCHED_DESC1_t t.tag) 15 0,
    ops := ([none, none, none, none] : List (Option Word)).set t.slot (some t.value), seq := none, aged := false, stamp := 0, readyAt := 0,
    born := s.sched.births }

variable {t s}

theorem matchToken_bad (h : tokBad t s) : matchToken t s = (true, count24 .SCHED_TOK_BAD 0 none s) := by
  unfold matchToken
  refine if_pos ?_
  simpa [tokBad] using h

/-- A token of a valid descriptor, for one of its slots. -/
theorem matchToken_good (h : ¬ tokBad t s) : matchToken t s = match tokOpen t s with
    | some i =>
      if s.sched.bad.contains i.born then (true, haltEnter 4 s)
      else (true, setSched { s.sched with opens := s.sched.opens.map (fun x =>
        if x.born = i.born then { i with ops := i.ops.set t.slot (some t.value) } else x) } s)
    | none =>
      if entryFree s (tokClass t s) then (true, setSched { s.sched with opens := s.sched.opens ++ [tokItem t s], births := s.sched.births + 1 } s)
      else (false, s) := by
  unfold matchToken
  have no : ¬ (!bitOf (s.reg .SCHED_DESC0_t t.tag) 31 || decide (fld (s.reg .SCHED_DESC0_t t.tag) 27 26 + 1 ≤ t.slot)) = true := by
    simpa [tokBad] using h
  simp only
  rw [if_neg no]
  rfl

end

/-! TOKEN_ACCEPT with a lone token. -/

/-- A counter of 24 bits saturates. -/
theorem f_count24 (r : RegName) (i : Nat) (s : State) : (count24 r i none s).f r i 23 0 = min (s.f r i 23 0 + 1) (2 ^ 24 - 1) := by
  have small : s.f r i 23 0 < 2 ^ 24 := fld_lt ..
  have stepped : (if s.f r i 23 0 < 2 ^ 24 - 1 then s.setF r i 23 0 (s.f r i 23 0 + 1) else s).f r i 23 0 = min (s.f r i 23 0 + 1) (2 ^ 24 - 1) := by
    split
    · rw [f_setF_same _ _ _ _ _ _ (by decide) (by decide)]; omega
    · omega
  have beside : ∀ t : State, (t.setBit r i 31 true).f r i 23 0 = t.f r i 23 0 := fun t => by
    rw [State.f, reg_setBit, if_pos ⟨rfl, rfl⟩, fld_putBit_ne _ _ _ _ _ (by decide) (by decide)]; rfl
  unfold count24 count
  simp only
  split
  · rw [beside]; exact stepped
  · exact stepped

/-- DMA channels hold no job and no failed write. -/
structure DmaIdle (s : State) : Prop where
  jobs : s.dma.jobs = []
  failed : s.dma.failed = []

theorem DmaIdle.of_dma {s t : State} (h : DmaIdle s) (e : t.dma = s.dma) : DmaIdle t := ⟨by rw [e, h.jobs], by rw [e, h.failed]⟩

theorem DmaIdle.regsOnly {s t : State} (h : DmaIdle s) (r : RegsOnly s t) : DmaIdle t := h.of_dma (by rw [r])

theorem DmaIdle.dropped {s : State} (h : DmaIdle s) (n : Nat) :
    DmaIdle { s with dma := { s.dma with jobs := s.dma.jobs.filter (fun j => j.ch != n) } } := ⟨by simp [h.jobs], h.failed⟩

theorem dmaShown_idle (n a b c : Nat) {s : State} (h : DmaIdle s) : DmaIdle (dmaShown n a b c s) := by
  unfold dmaShown
  exact (h.regsOnly (.trans (.trans (.trans (.trans (.setF ..) (.setF ..)) (.setReg ..)) (.setReg ..)) (.setBit ..))).dropped n

theorem dmaDrop_idle (n : Nat) {s : State} (h : DmaIdle s) : DmaIdle (dmaDrop n s) := by
  have none : dmaInFlight n s = ([], s) := by
    unfold dmaInFlight
    rw [h.jobs]; rfl
  unfold dmaDrop
  rw [none]
  exact ⟨h.jobs, by simp [h.failed]⟩

/-- The entry to HALT leaves DMA channels that held nothing as empty. -/
theorem dmaOff_idle (n : Nat) {s : State} (h : DmaIdle s) : DmaIdle (dmaOff n s) := by
  let d := s.setBit .DMA_CH_n_CTRL n 0 false
  let e := dmaDrop n { d with free := s.free + 3 }
  have off : DmaIdle d := h.regsOnly (.setBit ..)
  have drop : DmaIdle e := dmaDrop_idle n (off.of_dma rfl)
  have runs : dmaOff n s = if d.f .DMA_CH_n_STAT n 31 29 = 0 then d
      else dmaShown n (Config.freeNat s.free) (Config.freeNat (s.free + 1)) (Config.freeNat (s.free + 2))
        (e.setF .DMA_CH_n_STAT n 31 29 0) := rfl
  rw [runs]
  split
  · exact off
  · exact dmaShown_idle _ _ _ _ (drop.regsOnly (.setF ..))

theorem dmaAllOff_idle {s : State} (h : DmaIdle s) : DmaIdle (dmaAllOff s) := by
  have each : ∀ (l : List Nat) (s : State), DmaIdle s → DmaIdle (l.foldl (fun t n => dmaOff n t) s) := by
    intro l
    induction l with
    | nil => exact fun _ h => h
    | cons n l ih => exact fun s h => ih _ (dmaOff_idle n h)
  exact each _ s h

theorem haltEnter_idle {cause : Nat} (hc : cause < 256) {s : State} (live : alive s = true) (h : DmaIdle s) : DmaIdle (haltEnter cause s) := by
  obtain ⟨-, R, W, U, log⟩ := logFault_parts 8 0 0 (BitVec.ofNat 32 cause) s
  have probe := (abandonProbe_parts (logFault 8 0 0 (BitVec.ofNat 32 cause) s)).2
  have logged := h.of_dma (t := logFault 8 0 0 (BitVec.ofNat 32 cause) s) (by rw [log])
  have probed := logged.of_dma (t := abandonProbe (logFault 8 0 0 (BitVec.ofNat 32 cause) s)) (by rw [probe])
  have shown := probed.regsOnly (haltShown_parts cause _ hc).1
  have off : ∀ {t : State}, DmaIdle t → DmaIdle (outputsOff t) := fun k => k.of_dma rfl
  have done : ∀ {t : State}, DmaIdle t → DmaIdle (haltDone t) := fun k => k.of_dma rfl
  rw [haltEnter_eq cause live]
  exact done (dmaAllOff_idle (off shown))

section
variable {s : State} {t : Tok} {rest : List Tok}

theorem tokenAccept_runs (on : Machine.up s = true ∧ domainOn s 2 = true) (lone : LoneToken s t rest) {u : State}
    (hu : settleReady (hostAccepted t rest s) = u) (quiet : NothingWaits u) : exec .tokenAccept s = .next u := by
  have runs : exec .tokenAccept s = .next (whenOn 2 acceptStep s) := rfl
  rw [runs, whenOn_on on, acceptStep, tokenAcceptCycle_lone lone, hu, quiet.dmaTokFreed, quiet.retryAll]

/-- An open item with the token's slot filled, in its place. -/
def tokFilled (t : Tok) (i : Item) : Item := { i with ops := i.ops.set t.slot (some t.value) }
def opensFilled (t : Tok) (i : Item) (l : List Item) : List Item := l.map (fun x => if x.born = i.born then tokFilled t i else x)

/-- An open item takes the token. -/
theorem hostAccepted_open {i : Item} (good : ¬ tokBad t s) (found : tokOpen t s = some i) (sound : i.born ∉ s.sched.bad) :
    hostAccepted t rest s = { s with sched := { s.sched with hostQ := rest, opens := opensFilled t i s.sched.opens } } := by
  have done : matchToken t s = (true, setSched { s.sched with opens := opensFilled t i s.sched.opens } s) := by
    rw [matchToken_good good, found]; exact if_neg (fun h => sound (List.contains_iff_mem.mp h))
  unfold hostAccepted; rw [done]; rfl

/-! An item that becomes ready (R316, R320, R329). -/

theorem trace_off (s : State) (h : s.bit .SCHED_TRACE_CTRL 0 0 = false) (ev : Nat) (it : Item) (core st : Nat) : trace ev it core st s = s := by
  unfold trace
  rw [h]
  exact ite_self _

/-- Some core may run the item. -/
def runnable (s : State) (it : Item) : Prop := ∃ c : Fin 16, it.pool.testBit c = true ∧ c.val ∉ resCores s ∧ coreMode s c ≠ 4

theorem poolless_of_runnable {s : State} {it : Item} (h : runnable s it) : poolless s it = false := by
  obtain ⟨c, pool, res, mode⟩ := h
  unfold poolless
  rw [Bool.and_eq_false_iff]
  refine .inr ?_
  rw [Bool.not_eq_false', List.any_eq_true]
  exact ⟨c, List.mem_range.mpr c.isLt, by simp [pool, res, mode]⟩

/-- The on-chip list of the item's class has room, and nothing of the class waits or has spilled. -/
structure Room (s : State) (c : Nat) : Prop where
  chip : (onChip s c).length < 64
  waiting : waitingOf s c = []
  ring : ringOf s c = []

theorem place_room {s : State} {it : Item} (h : Room s it.lst) :
    place it s = setSched { s.sched with ready := s.sched.ready ++ [it] } s := by
  unfold place
  simp only [h.chip, h.waiting, h.ring, decide_true, List.isEmpty_nil, Bool.and_self, if_true]
  exact ite_self _

theorem becomeReady_plain {s : State} {it : Item} (untraced : s.bit .SCHED_TRACE_CTRL 0 0 = false) (shared : it.own ≠ 0)
    (unordered : it.ordered = false) (runs : runnable s it) (room : Room s it.lst) : becomeReady it s =
      setSched { s.sched with ready := s.sched.ready ++ [{ it with seq := none, stamp := stamp s, readyAt := s.time.hub }] } s := by
  have no : ¬ it.ordered = true := by rw [unordered]; decide
  unfold becomeReady
  simp only [if_neg no, if_neg shared]
  rw [trace_off s untraced, poolless_of_runnable (it := { it with seq := none, stamp := stamp s, readyAt := s.time.hub }) runs,
    if_neg Bool.false_ne_true]
  exact place_room (it := { it with seq := none, stamp := stamp s, readyAt := s.time.hub }) room

variable (on : Machine.up s = true ∧ domainOn s 2 = true) (lone : LoneToken s t rest) (quiet : NothingWaits s)
  (unfilled : ∀ i ∈ s.sched.opens, filled i = false)
include on lone quiet unfilled

theorem tokenAccept_bad (bad : tokBad t s) : gives .tokenAccept s (fun u =>
    u.f .SCHED_TOK_BAD 0 23 0 = min (s.f .SCHED_TOK_BAD 0 23 0 + 1) (2 ^ 24 - 1) ∧
    u = { s with regs := u.regs, sched := { s.sched with hostQ := rest } }) := by
  have only : RegsOnly s (count24 .SCHED_TOK_BAD 0 none s) := .count ..
  have cnt := f_count24 .SCHED_TOK_BAD 0 s
  have took : hostAccepted t rest s = setSched { (count24 .SCHED_TOK_BAD 0 none s).sched with hostQ := rest } (count24 .SCHED_TOK_BAD 0 none s) := by
    unfold hostAccepted; rw [matchToken_bad bad]; rfl
  generalize count24 .SCHED_TOK_BAD 0 none s = v at only cnt took
  have same : setSched { v.sched with hostQ := rest } v = { s with regs := v.regs, sched := { s.sched with hostQ := rest } } := by
    rw [only]; rfl
  rw [same] at took
  refine ⟨_, tokenAccept_runs on lone (u := { s with regs := v.regs, sched := { s.sched with hostQ := rest } }) ?_
    (quiet.of_parts rfl rfl rfl rfl), cnt, rfl⟩
  rw [took]
  exact settleReady_none unfilled

theorem tokenAccept_new (good : ¬ tokBad t s) (new : tokOpen t s = none) (free : entryFree s (tokClass t s) = true)
    (more : filled (tokItem t s) = false) : exec .tokenAccept s = .next { s with sched := { s.sched with
      hostQ := rest, opens := s.sched.opens ++ [tokItem t s], births := s.sched.births + 1 } } := by
  refine tokenAccept_runs on lone ?_ (quiet.of_parts rfl rfl rfl rfl)
  have took : hostAccepted t rest s = { s with sched := { s.sched with
      hostQ := rest, opens := s.sched.opens ++ [tokItem t s], births := s.sched.births + 1 } } := by
    have done : matchToken t s = (true, setSched { s.sched with opens := s.sched.opens ++ [tokItem t s], births := s.sched.births + 1 } s) := by
      rw [matchToken_good good, new]; exact if_pos free
    unfold hostAccepted; rw [done]; rfl
  rw [took]
  refine settleReady_none (fun i hi => ?_)
  rcases List.mem_append.mp hi with h | h
  · exact unfilled i h
  · rw [List.mem_singleton.mp h]; exact more

theorem tokenAccept_full (good : ¬ tokBad t s) (new : tokOpen t s = none) (full : entryFree s (tokClass t s) = false) :
    exec .tokenAccept s = .next s := by
  refine tokenAccept_runs on lone ?_ quiet
  have left : hostAccepted t rest s = s := by
    have done : matchToken t s = (false, s) := by rw [matchToken_good good, new]; exact if_neg (by simp [full])
    unfold hostAccepted; rw [done]; rfl
  rw [left]
  exact settleReady_none unfilled

theorem tokenAccept_broken {i : Item} (good : ¬ tokBad t s) (found : tokOpen t s = some i) (bad : i.born ∈ s.sched.bad)
    (live : alive s = true) : gives .tokenAccept s (fun u => sysState u = St.HALT ∧ u.f .SYS_STATE 0 15 8 = 4 ∧ u.sched.opens = s.sched.opens) := by
  have took : hostAccepted t rest s = setSched { (haltEnter 4 s).sched with hostQ := rest } (haltEnter 4 s) := by
    have done : matchToken t s = (true, haltEnter 4 s) := by
      rw [matchToken_good good, found]; exact if_pos (List.contains_iff_mem.mpr bad)
    unfold hostAccepted; rw [done]; rfl
  obtain ⟨state, -, because, -, -, -, -, -, -, frame⟩ := haltEnter_halted (show 4 < 256 by decide) live
  have idle := haltEnter_idle (show 4 < 256 by decide) live ⟨quiet.jobs, quiet.failed⟩
  generalize haltEnter 4 s = v at took state because frame idle
  have sched : v.sched = s.sched := by rw [frame]
  refine ⟨setSched { v.sched with hostQ := rest } v, tokenAccept_runs on lone ?_ ⟨?_, ?_, idle.jobs, idle.failed, ?_⟩, state, because,
    (congrArg SchedState.opens sched : v.sched.opens = s.sched.opens)⟩
  · rw [took]
    refine settleReady_none ?_
    change ∀ i ∈ v.sched.opens, filled i = false
    rw [sched]; exact unfilled
  · change v.pwr.stalled = []
    rw [frame]; exact quiet.stalled
  · change v.host.tx = []
    rw [frame]; exact quiet.tx
  · change ∀ k ∈ v.safe.strokes, k.rest = []
    rw [frame]; exact quiet.strokes

theorem tokenAccept_open {i : Item} (good : ¬ tokBad t s) (found : tokOpen t s = some i) (sound : i.born ∉ s.sched.bad)
    (more : filled (tokFilled t i) = false) : exec .tokenAccept s = .next
      { s with sched := { s.sched with hostQ := rest, opens := opensFilled t i s.sched.opens } } := by
  refine tokenAccept_runs on lone ?_ (quiet.of_parts rfl rfl rfl rfl)
  rw [hostAccepted_open good found sound]
  refine settleReady_none (fun x hx => ?_)
  obtain ⟨y, hy, rfl⟩ := List.mem_map.mp hx
  split
  · exact more
  · exact unfilled y hy

omit unfilled in
/-- The last operand of the one open item: it is ready, at the tail of its class's list. -/
theorem tokenAccept_ready {i : Item} (good : ¬ tokBad t s) (found : tokOpen t s = some i) (sound : i.born ∉ s.sched.bad)
    (whole : filled (tokFilled t i) = true) (only : s.sched.opens = [i]) (shared : i.own ≠ 0) (unordered : i.ordered = false)
    (untraced : s.bit .SCHED_TRACE_CTRL 0 0 = false) (runs : runnable s i) (room : Room s i.lst) : exec .tokenAccept s = .next
      { s with sched := { s.sched with hostQ := rest, opens := [],
                                       ready := s.sched.ready ++ [{ tokFilled t i with seq := none, stamp := stamp s, readyAt := s.time.hub }] } } := by
  refine tokenAccept_runs on lone ?_ (quiet.of_parts rfl rfl rfl rfl)
  have opens : opensFilled t i s.sched.opens = [tokFilled t i] := by rw [only]; simp [opensFilled]
  rw [hostAccepted_open good found sound, opens]
  let v : State := { s with sched := { s.sched with hostQ := rest, opens := [] } }
  have settles : settleReady { s with sched := { s.sched with hostQ := rest, opens := [tokFilled t i] } } = becomeReady (tokFilled t i) v := by
    simp only [settleReady, List.filter_cons, whole, List.filter_nil, if_true, Bool.not_true, Bool.false_eq_true, if_false, List.foldr_cons,
      List.foldr_nil, insertByTag, List.foldl_cons, List.foldl_nil]
    rfl
  rw [settles]
  exact becomeReady_plain (s := v) untraced shared unordered runs ⟨room.chip, room.waiting, room.ring⟩

end

end Sys2Proof.Machine
end

section
/-! SUPPORT. Dispatch: the item and core chosen, and what the core gets (R317 to R319, R130). -/

namespace Sys2Proof.Machine

/-! The choice. -/

theorem choose_parts {s : State} {pick : Item → Option Nat} {c : Nat} {it : Item} {k : Nat} (h : choose s pick c = some (it, k)) :
    it ∈ s.sched.ready ∧ it.lst = c ∧ blocked s it = false ∧ pick it = some k := by
  unfold choose at h
  obtain ⟨x, hx, found⟩ := List.exists_of_findSome?_eq_some h
  obtain ⟨ready, lst⟩ := List.mem_filter.mp (List.mem_of_mem_take hx)
  split at found
  · exact absurd found (by simp)
  · next free =>
    obtain ⟨j, hj, e⟩ := Option.map_eq_some_iff.mp found
    obtain ⟨rfl, rfl⟩ := Prod.mk.inj e
    exact ⟨ready, beq_iff_eq.mp lst, by simpa using free, hj⟩

theorem pickC0_parts {s : State} {idle : List Nat} {it : Item} {k : Nat} (h : pickC0 s idle it = some k) :
    k ∈ idle ∧ (k ∈ resCores s ∨ it.pool.testBit k = true) := by
  unfold pickC0 lowest at h
  simp only at h
  split at h
  · next last =>
    obtain rfl := Option.some.inj h
    simp only [Bool.and_eq_true, Bool.or_eq_true, List.contains_iff_mem] at last
    exact ⟨last.1.2, last.2⟩
  · split at h
    · next j found =>
      obtain rfl := Option.some.inj h
      exact ⟨List.mem_of_find?_eq_some found, .inl (List.contains_iff_mem.mp (List.find?_some (p := fun c => (resCores s).contains c) found))⟩
    · exact ⟨List.mem_of_find?_eq_some h, .inr (List.find?_some (p := fun c => it.pool.testBit c) h)⟩

theorem pickC_parts {s : State} {idle : List Nat} {it : Item} {k : Nat} (h : pickC s idle it = some k) :
    k ∈ idle ∧ it.pool.testBit k = true ∧ k ∉ resCores s := by
  have among : k ∈ idle.filter (fun c => it.pool.testBit c && !(resCores s).contains c) := by
    unfold pickC at h
    simp only at h
    split at h
    · next last =>
      obtain rfl := Option.some.inj h
      simp only [Bool.and_eq_true, List.contains_iff_mem] at last
      exact last.2
    · split at h
      · exact absurd h (by simp)
      · exact List.mem_of_head? h
  obtain ⟨mem, ok⟩ := List.mem_filter.mp among
  simp only [Bool.and_eq_true, Bool.not_eq_true', List.contains_eq_mem, decide_eq_false_iff_not] at ok
  exact ⟨mem, ok⟩

theorem idleCores_parts {s : State} {k : Nat} (h : k ∈ idleCores s) : k < 16 ∧ coreMode s k = 2 := by
  obtain ⟨mem, ok⟩ := List.mem_filter.mp h
  simp only [Bool.and_eq_true, beq_iff_eq] at ok
  exact ⟨List.mem_range.mp mem, ok.1.1⟩

/-! The core that gets the item (R319, R130). -/

/-- What a core's GET changes. -/
structure Loaded (s : State) (it : Item) (k : Nat) (t : State) : Prop where
  frame : t = { s with regs := t.regs, hart := t.hart, core := t.core }
  regs : OnlyRegs [.SCHED_CORE_n_STAT] s t
  mode : coreMode t k = 1
  busy : t.bit .SCHED_CORE_n_STAT k 28 = true
  tag : t.f .SCHED_CORE_n_STAT k 11 0 = it.tag % 4096
  pc : getPc t k = getPc s k + 4
  word : getPhys t k 1 = dispatchWord it
  ops : ∀ j : Fin 4, getPhys t k (2 + j) = opSlot it j
  others : ∀ h n, ¬ (h = k ∧ 1 ≤ n ∧ n ≤ 5) → n < 64 → getPhys t h n = getPhys s h n

/-- States that differ in the harts alone. -/
structure HartsOnly (s t : State) : Prop where
  frame : t = { s with hart := t.hart }

theorem HartsOnly.setPhys (h n : Nat) (v : Word) (s : State) : HartsOnly s (setPhys h n v s) := ⟨rfl⟩

theorem HartsOnly.trans {s t u : State} (h : HartsOnly s t) (k : HartsOnly t u) : HartsOnly s u := ⟨by rw [k.frame, h.frame]⟩

/-- The registers g1 to g5 of a core that GET has loaded. -/
def itemRegs (k : Nat) (it : Item) (s : State) : State :=
  setPhys k 5 (opSlot it 3) (setPhys k 4 (opSlot it 2) (setPhys k 3 (opSlot it 1) (setPhys k 2 (opSlot it 0) (setPhys k 1 (dispatchWord it) s))))

theorem itemRegs_parts (k : Nat) (it : Item) (s : State) : HartsOnly s (itemRegs k it s) ∧
    ∀ h n, n < 64 → getPhys (itemRegs k it s) h n = if h = k ∧ n = 1 then dispatchWord it
      else if h = k ∧ n = 2 then opSlot it 0 else if h = k ∧ n = 3 then opSlot it 1 else if h = k ∧ n = 4 then opSlot it 2
      else if h = k ∧ n = 5 then opSlot it 3 else getPhys s h n := by
  refine ⟨.trans (.trans (.trans (.trans (.setPhys ..) (.setPhys ..)) (.setPhys ..)) (.setPhys ..)) (.setPhys ..), fun h n hn => ?_⟩
  unfold itemRegs
  rw [getPhys_setPhys _ _ _ _ _ _ (by decide) hn, getPhys_setPhys _ _ _ _ _ _ (by decide) hn, getPhys_setPhys _ _ _ _ _ _ (by decide) hn,
    getPhys_setPhys _ _ _ _ _ _ (by decide) hn, getPhys_setPhys _ _ _ _ _ _ (by decide) hn]
  by_cases hk : h = k
  · subst hk
    by_cases h5 : n = 5
    · subst h5; simp
    by_cases h4 : n = 4
    · subst h4; simp
    by_cases h3 : n = 3
    · subst h3; simp
    by_cases h2 : n = 2
    · subst h2; simp
    · simp [h5, h4, h3, h2]
  · simp [hk]

/-- A core's SCHED_CORE_n_STAT with an item. -/
def statLoaded (k : Nat) (it : Item) (s : State) : State :=
  ((setCoreMode k 1 s).setBit .SCHED_CORE_n_STAT k 28 true).setF .SCHED_CORE_n_STAT k 11 0 it.tag

theorem statLoaded_parts (k : Nat) (it : Item) (s : State) : RegsOnly s (statLoaded k it s) ∧
    OnlyRegs [.SCHED_CORE_n_STAT] s (statLoaded k it s) ∧ coreMode (statLoaded k it s) k = 1 ∧
    (statLoaded k it s).bit .SCHED_CORE_n_STAT k 28 = true ∧ (statLoaded k it s).f .SCHED_CORE_n_STAT k 11 0 = it.tag % 4096 := by
  have word : (statLoaded k it s).reg .SCHED_CORE_n_STAT k =
      setFld (putBit (setFld (s.reg .SCHED_CORE_n_STAT k) 31 29 1) 28 true) 11 0 it.tag := by
    simp only [statLoaded, setCoreMode, reg_setF, reg_setBit, and_self, if_true]
  refine ⟨.trans (.trans (.setF ..) (.setBit ..)) (.setF ..), .trans (.trans .setF .setBit) .setF, ?_, ?_, ?_⟩
  · rw [coreMode, State.f, word, fld_setFld_ne _ _ _ _ _ _ (by decide) (by decide) (by decide),
      fld_putBit_ne _ _ _ _ _ (by decide) (by decide), fld_setFld_same _ _ _ _ (by decide) (by decide)]; rfl
  · rw [State.bit, word, bitOf_setFld_ne _ _ _ _ _ (by decide) (by decide) (by decide)]
    exact bitOf_putBit_same _ _ _ (by decide)
  · rw [State.f, word, fld_setFld_same _ _ _ _ (by decide) (by decide)]; rfl

/-- The loads of g1 to g5 that are still on their way bring nothing. -/
def loadsStale (k : Nat) (s : State) : State :=
  { s with core := { s.core with pend := s.core.pend.map (fun l => if l.core = k ∧ 1 ≤ l.dst ∧ l.dst ≤ 5 then { l with live := false } else l) } }

theorem loadItem_eq (k : Nat) (it : Item) (s : State) :
    loadItem k it s = setPc k (getPc (statLoaded k it (itemRegs k it (loadsStale k s))) k + 4) (statLoaded k it (itemRegs k it (loadsStale k s))) := rfl

/-- The states that a GET goes through: loads stale, registers, SCHED_CORE_n_STAT, and the next word. -/
theorem loaded_of {s a b c : State} {k : Nat} {it : Item} (stale : a = { s with core := a.core }) (pc : getPc a k = getPc s k)
    (hart : HartsOnly a b) (phys : ∀ h n, n < 64 → getPhys b h n = if h = k ∧ n = 1 then dispatchWord it
      else if h = k ∧ n = 2 then opSlot it 0 else if h = k ∧ n = 3 then opSlot it 1 else if h = k ∧ n = 4 then opSlot it 2
      else if h = k ∧ n = 5 then opSlot it 3 else getPhys a h n)
    (regs : RegsOnly b c) (only : OnlyRegs [.SCHED_CORE_n_STAT] b c) (mode : coreMode c k = 1) (busy : c.bit .SCHED_CORE_n_STAT k 28 = true)
    (tag : c.f .SCHED_CORE_n_STAT k 11 0 = it.tag % 4096) : Loaded s it k (setPc k (getPc c k + 4) c) := by
  have frame : c = { s with regs := c.regs, hart := c.hart, core := c.core } := by rw [regs, hart.frame, stale]
  have cores : c.core = a.core := by rw [regs, hart.frame]
  have before : b.regs = s.regs := by rw [hart.frame, stale]
  have harts : ∀ h n, getPhys (setPc k (getPc c k + 4) c) h n = getPhys b h n := fun h n => by
    have same : c.hart = b.hart := by rw [regs]
    exact congrArg (fun x => Store.get zeroOf x.r (64 * h + n)) same
  have old : ∀ h n, getPhys a h n = getPhys s h n := fun h n => by
    have same : a.hart = s.hart := by rw [stale]
    exact congrArg (fun x => Store.get zeroOf x.r (64 * h + n)) same
  refine ⟨by rw [frame]; rfl, .trans (.of_regs before) (.trans only (.of_regs rfl)), mode, busy, tag, ?_, ?_, fun j => ?_, fun h n no hn => ?_⟩
  · have same : getPc c k = getPc s k := (congrArg (fun x : CoreState => Store.get zeroOf x.pc k) cores).trans pc
    rw [getPc_setPc, if_pos rfl, same]
  · rw [harts, phys _ _ (by decide), if_pos ⟨rfl, rfl⟩]
  · rw [harts, phys _ _ (by omega)]
    match j with
    | 0 => simp
    | 1 => simp
    | 2 => simp
    | 3 => simp
  · rw [harts, phys _ _ hn, if_neg (by omega), if_neg (by omega), if_neg (by omega), if_neg (by omega), if_neg (by omega), old]

theorem loadItem_loaded (k : Nat) (it : Item) (s : State) : Loaded s it k (loadItem k it s) := by
  obtain ⟨hart, phys⟩ := itemRegs_parts k it (loadsStale k s)
  obtain ⟨regs, only, mode, busy, tag⟩ := statLoaded_parts k it (itemRegs k it (loadsStale k s))
  rw [loadItem_eq]
  exact loaded_of (a := loadsStale k s) rfl rfl hart phys regs only mode busy tag

/-! A dispatch. -/

/-- The class-0 item that a freed place on the chip takes from its matching-store entry. -/
def movedUp (s : State) : List Item :=
  match waitingOf s 0 with
  | w :: _ => if ringOf s 0 = [] ∧ (onChip s 0).length < 64 then [w] else []
  | [] => []

theorem spillStep_class0 (s : State) : ∃ W, spillStep 0 s =
    { s with sched := { s.sched with waiting := W, ready := s.sched.ready ++ movedUp s } } := by
  unfold spillStep movedUp
  cases waitingOf s 0 with
  | nil => exact ⟨s.sched.waiting, by rw [List.append_nil]⟩
  | cons w l =>
    by_cases room : ringOf s 0 = [] ∧ (onChip s 0).length < 64
    · simp only [room.1, room.2, List.isEmpty_nil, decide_true, Bool.and_self, if_true, and_self]
      exact ⟨_, rfl⟩
    · have no : ¬ ((ringOf s 0).isEmpty && decide ((onChip s 0).length < 64)) = true := by
        rw [Bool.and_eq_true, List.isEmpty_iff, decide_eq_true_eq]; exact room
      have never : ¬ (decide (0 ≠ 0) && ringRoom s 0) = true := by simp
      simp only [if_neg room, if_neg no, if_neg never]
      exact ⟨s.sched.waiting, by rw [List.append_nil]⟩

/-- An item has been sent to a core. -/
structure Sent (s : State) (it : Item) (k : Nat) (t : State) : Prop where
  mode : coreMode t k = 1
  pc : getPc t k = getPc s k + 4
  busy : t.bit .SCHED_CORE_n_STAT k 28 = true
  tag : t.f .SCHED_CORE_n_STAT k 11 0 = it.tag % 4096
  word : getPhys t k 1 = dispatchWord it
  ops : ∀ j : Fin 4, getPhys t k (2 + j) = opSlot it j
  others : ∀ h n, ¬ (h = k ∧ 1 ≤ n ∧ n ≤ 5) → n < 64 → getPhys t h n = getPhys s h n
  held : t.sched.held = s.sched.held ++ [⟨k, it, s.time.hub⟩]
  ready : t.sched.ready = dropBorn it.born s.sched.ready ++ movedUp (setSched { s.sched with ready := dropBorn it.born s.sched.ready } s)
  last : Store.get natZero t.sched.lastCore it.flow = k + 1
  await : t.sched.await = s.sched.await ++ (if it.ordered then [⟨it, k, none, true, robReserve s it.own⟩] else [])
  mem : t.mem = s.mem
  eng : t.eng = s.eng
  time : t.time = s.time

/-- The lists of the scheduler once an item is sent, but for the place it leaves. -/
def sentLists (it : Item) (k : Nat) (s : State) : State :=
  setSched { s.sched with ready := dropBorn it.born s.sched.ready,
                          await := s.sched.await ++ (if it.ordered then [⟨it, k, none, true, robReserve s it.own⟩] else []),
                          lastCore := Store.set natZero s.sched.lastCore it.flow (k + 1),
                          held := s.sched.held ++ [⟨k, it, s.time.hub⟩] } s

theorem dispatchTo_eq (it : Item) (k : Nat) {s : State} (sound : s.sched.bad = []) (untraced : s.bit .SCHED_TRACE_CTRL 0 0 = false) :
    dispatchTo it k s = loadItem k it (spillStep 0 (sentLists it k s)) := by
  obtain ⟨W, moved⟩ := spillStep_class0 (sentLists it k s)
  have off : trace Tr.DISPATCH it k 0 (spillStep 0 (sentLists it k s)) = spillStep 0 (sentLists it k s) :=
    trace_off _ (by rw [moved]; exact untraced) ..
  have runs : dispatchTo it k s = if s.sched.bad.contains it.born then haltEnter 4 s
      else loadItem k it (trace Tr.DISPATCH it k 0 (spillStep 0 (sentLists it k s))) := rfl
  rw [runs, if_neg (by simp [sound]), off]

theorem dispatchTo_sent (it : Item) (k : Nat) {s : State} (sound : s.sched.bad = []) (untraced : s.bit .SCHED_TRACE_CTRL 0 0 = false) :
    Sent s it k (dispatchTo it k s) ∧ (dispatchTo it k s).sched.credit = s.sched.credit ∧ (dispatchTo it k s).sched.rr = s.sched.rr := by
  rw [dispatchTo_eq it k sound untraced]
  obtain ⟨W, moved⟩ := spillStep_class0 (sentLists it k s)
  have loaded := loadItem_loaded k it (spillStep 0 (sentLists it k s))
  generalize loadItem k it (spillStep 0 (sentLists it k s)) = t at loaded ⊢
  rw [moved] at loaded
  obtain ⟨frame, regs, mode, busy, tag, pc, word, ops, others⟩ := loaded
  refine ⟨⟨mode, pc, busy, tag, word, ops, others, ?_, ?_, ?_, ?_, ?_, ?_, ?_⟩, ?_, ?_⟩
  · rw [frame]; rfl
  · rw [frame]; rfl
  · rw [frame]; exact Store.get_set_same natZero s.sched.lastCore it.flow (k + 1)
  · rw [frame]; rfl
  · rw [frame]; rfl
  · rw [frame]; rfl
  · rw [frame]; rfl
  · rw [frame]; rfl
  · rw [frame]; rfl

namespace Sent

variable {s t u : State} {it : Item} {k : Nat}

/-- A wake that follows a dispatch. -/
theorem roused (h : Sent s it k t) (w : Roused t u) : Sent s it k u := by
  have harts : u.hart = t.hart := by rw [w.frame]
  have phys : ∀ j n, getPhys u j n = getPhys t j n := fun j n => congrArg (fun x : HartState => Store.get zeroOf x.r (64 * j + n)) harts
  have core : u.core = t.core := by rw [w.frame]
  have sched : u.sched = t.sched := by rw [w.frame]
  refine ⟨(w.regs.f _ _ _ _ (by decide)).trans h.mode, (congrArg (fun x : CoreState => Store.get zeroOf x.pc k) core).trans h.pc,
    (w.regs.bit _ _ _ (by decide)).trans h.busy, (w.regs.f _ _ _ _ (by decide)).trans h.tag, (phys ..).trans h.word,
    fun j => (phys ..).trans (h.ops j), fun j n no hn => (phys ..).trans (h.others j n no hn), ?_, ?_, ?_, ?_, ?_, ?_, ?_⟩
  · rw [sched, h.held]
  · rw [sched, h.ready]
  · rw [sched, h.last]
  · rw [sched, h.await]
  · rw [w.frame]; exact h.mem
  · rw [w.frame]; exact h.eng
  · rw [w.frame]; exact h.time

/-- The credits and the class served last. -/
theorem credited (h : Sent s it k t) (credit : Store Nat) (rr : Nat) : Sent s it k { t with sched := { t.sched with credit := credit, rr := rr } } :=
  ⟨h.mode, h.pc, h.busy, h.tag, h.word, h.ops, h.others, h.held, h.ready, h.last, h.await, h.mem, h.eng, h.time⟩

end Sent

/-- After a cycle of dispatch a core group that it was sent to may wake. -/
theorem dispatchStep_roused (s : State) : Roused (dispatchCycle s) (dispatchStep s) := by
  unfold dispatchStep
  exact .ite (.refl _) (.wakeDomains ..)

theorem dispatchCycle_off {s : State} (h : s.bit .SCHED_CTRL 0 0 = false ∨ sysState s = St.HALT) : dispatchCycle s = s := by
  unfold dispatchCycle
  refine if_pos ?_
  rcases h with h | h
  · rw [h]; rfl
  · rw [h]; simp

/-- With no item sent nothing wakes. -/
theorem dispatchStep_none {s : State} (h : (dispatchCycle s).sched.held = s.sched.held) : dispatchStep s = dispatchCycle s := by
  have fresh : s.sched.held.filter (fun x => !s.sched.held.contains x) = [] := by
    rw [List.filter_eq_nil_iff]
    exact fun x hx => by simpa using hx
  unfold dispatchStep
  simp only [h, fresh, List.map_nil, List.filter_nil, List.isEmpty_nil, if_true]

/-! DISPATCH. -/

section
variable {s : State}

theorem dispatch_runs (on : Machine.up s = true ∧ domainOn s 2 = true) : exec .dispatch s = .next (dispatchStep s) := by
  have runs : exec .dispatch s = .next (whenOn 2 dispatchStep s) := rfl
  rw [runs, whenOn_on on]

/-- The scheduler dispatches: it is on, and the device is not in HALT. -/
theorem dispatchCycle_class0 (go : s.bit .SCHED_CTRL 0 0 = true) (run : sysState s ≠ St.HALT) {it : Item} {k : Nat}
    (first : choose s (pickC0 s (idleCores s)) 0 = some (it, k)) : dispatchCycle s = dispatchTo it k s := by
  unfold dispatchCycle
  rw [if_neg (by simp [go, run])]
  simp only [first]

/-- The class served, with the credit it has left. -/
def classServed (c n : Nat) (t : State) : State := { t with sched := { t.sched with credit := Store.set natZero t.sched.credit c n, rr := c } }

theorem classServed_eq (c n : Nat) (t : State) : setSched { (setCredit c n t).sched with rr := c } (setCredit c n t) = classServed c n t := rfl

theorem dispatchCycle_class {c : Nat} (go : s.bit .SCHED_CTRL 0 0 = true) (run : sysState s ≠ St.HALT) {it : Item} {k : Nat}
    (first : choose s (pickC0 s (idleCores s)) 0 = none) (hc : c = (s.sched.rr - 1) % 3 + 1) (credit : creditOf s c ≠ 0)
    (found : choose s (pickC s (idleCores s)) c = some (it, k)) : dispatchCycle s =
      classServed c (creditOf s c - 1) (dispatchTo it k s) := by
  have order : (List.range 3).map (fun j => (s.sched.rr - 1 + j) % 3 + 1) =
      [c, (s.sched.rr - 1 + 1) % 3 + 1, (s.sched.rr - 1 + 2) % 3 + 1] := by rw [hc]; rfl
  unfold dispatchCycle
  rw [if_neg (by simp [go, run])]
  simp only [first, order, List.findSome?_cons, if_neg credit, found, Option.map_some]
  exact classServed_eq ..

/-- With no item on the chip every class's credit is its weight again. -/
theorem dispatchCycle_empty (go : s.bit .SCHED_CTRL 0 0 = true) (run : sysState s ≠ St.HALT) (empty : ∀ c : Fin 4, onChip s c = []) :
    dispatchCycle s = setCredit 3 (s.f .SCHED_CLASS_CFG_c 3 3 0) (setCredit 2 (s.f .SCHED_CLASS_CFG_c 2 3 0)
      (setCredit 1 (s.f .SCHED_CLASS_CFG_c 1 3 0) s)) := by
  have none : ∀ c < 4, ∀ pick, choose s pick c = none := fun c hc pick => by
    unfold choose
    rw [show onChip s c = [] from empty ⟨c, hc⟩]; rfl
  have classes : ((List.range 3).map (fun j => (s.sched.rr - 1 + j) % 3 + 1)).findSome? (fun c =>
      if creditOf s c = 0 then Option.none else (choose s (pickC s (idleCores s)) c).map (fun r => (c, r))) = Option.none := by
    rw [List.findSome?_eq_none_iff]
    intro c hc
    obtain ⟨j, -, rfl⟩ := List.mem_map.mp hc
    rw [none _ (by omega)]
    exact ite_self _
  unfold dispatchCycle
  rw [if_neg (by simp [go, run])]
  simp only [none 0 (by decide), classes]

theorem dispatch_class0 (on : Machine.up s = true ∧ domainOn s 2 = true) (go : s.bit .SCHED_CTRL 0 0 = true) (run : sysState s ≠ St.HALT)
    (untraced : s.bit .SCHED_TRACE_CTRL 0 0 = false) (sound : s.sched.bad = []) {it : Item} {k : Nat}
    (first : choose s (pickC0 s (idleCores s)) 0 = some (it, k)) :
    gives .dispatch s (fun t => Sent s it k t ∧ t.sched.credit = s.sched.credit) := by
  obtain ⟨sent, credit, -⟩ := dispatchTo_sent it k sound untraced
  have woke := dispatchStep_roused s
  rw [dispatchCycle_class0 go run first] at woke
  refine ⟨_, dispatch_runs on, sent.roused woke, ?_⟩
  rw [woke.frame]; exact credit

theorem dispatch_class {c : Nat} (on : Machine.up s = true ∧ domainOn s 2 = true) (go : s.bit .SCHED_CTRL 0 0 = true)
    (run : sysState s ≠ St.HALT) (untraced : s.bit .SCHED_TRACE_CTRL 0 0 = false) (sound : s.sched.bad = []) {it : Item} {k : Nat}
    (first : choose s (pickC0 s (idleCores s)) 0 = none) (hc : c = (s.sched.rr - 1) % 3 + 1) (credit : creditOf s c ≠ 0)
    (found : choose s (pickC s (idleCores s)) c = some (it, k)) :
    gives .dispatch s (fun t => Sent s it k t ∧ t.sched.rr = c ∧ creditOf t c = creditOf s c - 1) := by
  obtain ⟨sent, -, -⟩ := dispatchTo_sent it k sound untraced
  have woke := dispatchStep_roused s
  rw [dispatchCycle_class go run first hc credit found] at woke
  have sched : (dispatchStep s).sched = (classServed c (creditOf s c - 1) (dispatchTo it k s)).sched := by rw [woke.frame]
  refine ⟨_, dispatch_runs on, (sent.credited _ c).roused woke, ?_, ?_⟩
  · rw [sched]; rfl
  · unfold creditOf
    rw [sched]
    exact Store.get_set_same natZero _ c _

theorem dispatch_empty (on : Machine.up s = true ∧ domainOn s 2 = true) (go : s.bit .SCHED_CTRL 0 0 = true) (run : sysState s ≠ St.HALT)
    (empty : ∀ c : Fin 4, onChip s c = []) : gives .dispatch s (fun t =>
      (∀ c : Fin 3, creditOf t (c + 1) = s.f .SCHED_CLASS_CFG_c (c + 1) 3 0) ∧
      t = { s with sched := { s.sched with credit := t.sched.credit } }) := by
  have cycle := dispatchCycle_empty go run empty
  have still := dispatchStep_none (s := s) (by rw [cycle]; rfl)
  refine ⟨_, dispatch_runs on, ?_⟩
  rw [still, cycle]
  refine ⟨fun c => ?_, rfl⟩
  unfold creditOf setCredit setSched
  simp only [Store.get_set]
  match c with
  | 0 => rfl
  | 1 => rfl
  | 2 => rfl

end

/-! A host's token (R311). -/

theorem hostTokPush_reached (v : Word) (q : Store Nat) (n e : Nat) (s : State) (room : s.sched.hostQ.length < 16) :
    hostTokPush v (reached q n e s) = reached q n e
      { s with sched := { s.sched with hostQ := s.sched.hostQ ++ [⟨fld v 13 2, fld v 1 0, s.reg .SCHED_HOST_TOK_VAL 0⟩] } } := by
  unfold hostTokPush
  exact if_pos room

theorem regTake_token (m : Initiator) (v : Word) (s : State) :
    regTake m .SCHED_HOST_TOK_PUSH 0 v s = hostOnly m (fun _ => hostTokPush v) s := regTake_plain m _ 0 v s rfl

theorem lands_tokens {k : Fin 5} {s : State} (h : lands (.host k) .SCHED_HOST_TOK_PUSH 0 s = true) : s.sched.hostQ.length < 16 := by
  have room : tokFull (.host k) (Reg.addr .SCHED_HOST_TOK_PUSH 0) s = false := by
    unfold lands at h
    simp only [Bool.and_eq_true, Bool.not_eq_true'] at h
    exact h.1.1.1.1.2
  simpa [tokFull] using room

theorem hostTokPush_does (m : Initiator) (v : Word) (s : State) : does (.schedHostTokPush m v) m .SCHED_HOST_TOK_PUSH 0 s
    (if (∃ k, m = .host k) then
      { s with sched := { s.sched with hostQ := s.sched.hostQ ++ [⟨fld v 13 2, fld v 1 0, s.reg .SCHED_HOST_TOK_VAL 0⟩] } } else s) := by
  intro hl
  obtain ⟨q, n, e, h⟩ := rowWrite_accessed m .SCHED_HOST_TOK_PUSH 0 v s hl (by decide)
  rw [regTake_token] at h
  refine ⟨_, rfl, accessed_trans (accessed_reached q n e _) ?_⟩
  by_cases host : ∃ k, m = .host k
  · obtain ⟨k, rfl⟩ := host
    rw [if_pos ⟨k, rfl⟩, ← hostTokPush_reached v q n e s (lands_tokens hl)]
    exact h
  · rw [if_neg host]
    cases m with
    | host k => exact absurd ⟨k, rfl⟩ host
    | _ => exact h

/-- A new item of more than one operand is not whole. -/
theorem filled_tokItem {t : Tok} {s : State} (slot : t.slot < 4) (more : 1 < fld (s.reg .SCHED_DESC0_t t.tag) 27 26 + 1) :
    filled (tokItem t s) = false := by
  have empty : ∀ k < 4, k ≠ t.slot → (([none, none, none, none] : List (Option Word)).set t.slot (some t.value)).getD k none = none := by
    intro k hk ne
    rw [List.getD_eq_getElem?_getD, List.getElem?_set_ne (fun e => ne e.symm)]
    match k, hk with
    | 0, _ => rfl
    | 1, _ => rfl
    | 2, _ => rfl
    | 3, _ => rfl
  unfold filled
  rw [List.all_eq_false]
  by_cases zero : t.slot = 0
  · exact ⟨1, List.mem_range.mpr more, by rw [show (tokItem t s).ops.getD 1 none = none from empty 1 (by decide) (by omega)]; decide⟩
  · exact ⟨0, List.mem_range.mpr (Nat.lt_trans Nat.zero_lt_one more), by
      rw [show (tokItem t s).ops.getD 0 none = none from empty 0 (by decide) (by omega)]; decide⟩

/-- The operand slots of a new item. -/
theorem tokItem_ops {t : Tok} (slot : t.slot < 4) : ([none, none, none, none] : List (Option Word)).set t.slot (some t.value) =
    (List.range 4).map (fun k => if k = t.slot then some t.value else none) := by
  have cases : t.slot = 0 ∨ t.slot = 1 ∨ t.slot = 2 ∨ t.slot = 3 := by
    have bound := slot
    omega
  rcases cases with h | h | h | h
  · rw [h]; rfl
  · rw [h]; rfl
  · rw [h]; rfl
  · rw [h]; rfl

/-- Settles O44: a lemma for each end of an acceptance, and for each choice of a dispatch. -/
theorem tokensAndDispatch : Obligations.TokensAndDispatch := by
  unfold Obligations.TokensAndDispatch
  intro m v s up lone untraced
  refine ⟨hostTokPush_does m v s, fun t rest on alone slot => ?_, fun off on => ?_, fun on go run off sound => ?_⟩
  · obtain ⟨host, core, rel, dma, timer, eng, stalled, tx, jobs, failed, strokes, unfilled⟩ := alone
    have one : LoneToken s t rest := ⟨host, core, rel, dma, timer, eng⟩
    have quiet : NothingWaits s := ⟨stalled, tx, jobs, failed, strokes⟩
    intro d0 nops bad flow fl cls opens new
    have item : tokItem t s = new := by
      unfold tokItem new
      rw [tokItem_ops slot]; rfl
    refine ⟨fun isBad => tokenAccept_bad on one quiet unfilled isBad, fun good none free more => ?_, fun good none full => ?_,
      fun i good found broken live => tokenAccept_broken on one quiet unfilled good found (by simpa using broken) live,
      fun i good found whole unique => ⟨fun more => ?_, fun done only shared own unordered off runs chip waits ring => ?_⟩⟩
    · rw [← item]
      exact tokenAccept_new on one quiet unfilled good none free (filled_tokItem slot more)
    · exact tokenAccept_full on one quiet unfilled good none full
    · exact tokenAccept_open on one quiet unfilled good found (by simpa using whole) more
    · exact tokenAccept_ready on one quiet good found (by simpa using whole) done only shared unordered off runs ⟨chip, waits, ring⟩
  · rw [dispatch_runs on]
    have cycle := dispatchCycle_off off
    rw [dispatchStep_none (by rw [cycle]), cycle]
  · intro idle moved sent
    have moves : ∀ it, movedUp (setSched { s.sched with ready := dropBorn it.born s.sched.ready } s) = moved it := fun it => by
      have chip : onChip (setSched { s.sched with ready := dropBorn it.born s.sched.ready } s) 0 = (onChip s 0).filter (fun x => x.born != it.born) :=
        List.filter_comm ..
      unfold movedUp moved
      rw [chip]; rfl
    have whole : ∀ {it k t pick c}, choose s pick c = some (it, k) → (pick it = some k → k ∈ idleCores s) → Sent s it k t → sent it k t :=
      fun {it k t pick c} chosen among done => by
        obtain ⟨ready, -, -, picked⟩ := choose_parts chosen
        obtain ⟨core, waits⟩ := idleCores_parts (among picked)
        exact ⟨ready, waits, core, done.mode, done.pc, done.busy, done.tag, done.word, done.ops, done.others, done.held,
          by rw [← moves]; exact done.ready, done.last, done.await, done.mem, done.eng, done.time⟩
    refine ⟨fun it k first => ?_, fun none c it k hc credit found => ?_, dispatch_empty on go run⟩
    · obtain ⟨t, runs, done, credit⟩ := dispatch_class0 on go run off sound first
      obtain ⟨-, lst, free, picked⟩ := choose_parts first
      exact ⟨t, runs, whole first (fun p => (pickC0_parts p).1) done, lst, free, (pickC0_parts picked).2, credit⟩
    · obtain ⟨t, runs, done, rr, credit⟩ := dispatch_class on go run off sound none hc credit found
      obtain ⟨-, lst, free, picked⟩ := choose_parts found
      obtain ⟨-, pool, res⟩ := pickC_parts picked
      exact ⟨t, runs, whole found (fun p => (pickC_parts p).1) done, lst, free, pool, res, rr, credit⟩

end Sys2Proof.Machine
end

section
/-! SUPPORT. What a trap of a core leaves (R305, R306): the item it held is released, and the core stands at its vector. -/

namespace Sys2Proof.Machine

/-! The release of an item. -/

/-- The registers that a trace entry writes (R336 to R338). -/
def traceRegs : List RegName := [.EVT_RAW_w, .SCHED_TRACE_PTR, .SCHED_TRACE_DROP, .SCHED_TRACE_CTRL]

/-- Only memory, the scheduler's records other than the held items, and the registers of the trace moved. -/
structure Recorded (s t : State) : Prop where
  core : t.core = s.core
  hart : t.hart = s.hart
  dev : t.dev = s.dev
  held : t.sched.held = s.sched.held
  regs : OnlyRegs traceRegs s t

namespace Recorded

variable {s t u : State}

theorem refl (s : State) : Recorded s s := ⟨rfl, rfl, rfl, rfl, .refl _ s⟩

theorem trans (h : Recorded s t) (k : Recorded t u) : Recorded s u :=
  ⟨k.core.trans h.core, k.hart.trans h.hart, k.dev.trans h.dev, k.held.trans h.held, h.regs.trans k.regs⟩

theorem of_regs (h : RegsOnly s t) (k : OnlyRegs traceRegs s t) : Recorded s t := by
  rw [RegsOnly] at h
  exact ⟨by rw [h], by rw [h], by rw [h], by rw [h], k⟩

theorem sched (x : SchedState) (h : x.held = s.sched.held) : Recorded s (setSched x s) := ⟨rfl, rfl, rfl, h, .of_regs rfl⟩

theorem bytes (a : Nat) (l : List Byte) (s : State) : Recorded s (setBytes s a l) := by
  induction l generalizing a s with
  | nil => exact .refl s
  | cons b t ih => exact .trans (t := setByte s a b) ⟨rfl, rfl, rfl, rfl, .of_regs rfl⟩ (ih (a + 1) (setByte s a b))

theorem putWord (a : Nat) (w : Word) (s : State) : Recorded s (putWord a w s) := by
  unfold Machine.putWord
  split
  · exact .refl s
  · exact .trans (.bytes a _ s) ⟨rfl, rfl, rfl, rfl, .of_regs rfl⟩

theorem putWords (a : Nat) (l : List Word) (s : State) : Recorded s (putWords s a l) := by
  induction l generalizing a s with
  | nil => exact .refl s
  | cons w t ih => exact .trans (.putWord a w s) (ih (a + 4) _)

theorem putEntries (base size p : Nat) (l : List (Nat × List Word)) (s : State) :
    Recorded s (putEntries base size p l s) := by
  induction l generalizing p s with
  | nil => exact .refl s
  | cons e t ih => exact .trans (.putWords _ _ s) (ih _ _)

theorem raise (e : Nat) (s : State) : Recorded s (raise e s) := .of_regs (.raise ..) (.raise (by simp [traceRegs]))

/-- A trace entry, or its drop. -/
theorem trace (ev : Nat) (it : Item) (core st : Nat) (s : State) : Recorded s (trace ev it core st s) := by
  unfold Machine.trace
  split
  · exact .refl s
  · split
    · split
      · exact .of_regs (.count ..) (.count (by simp [traceRegs]) (by simp [traceRegs]))
      · extract_lets old cyc size ptr first ptr' s1 free records s2
        have put : Recorded s s1 := .putEntries ..
        have ring : Recorded s1 (s1.setReg .SCHED_TRACE_PTR 0 (BitVec.ofNat 32 ptr')) :=
          .of_regs (.setReg ..) (.setReg (by simp [traceRegs]))
        have kept : Recorded s s2 := put.trans (ring.trans ⟨rfl, rfl, rfl, rfl, .of_regs rfl⟩)
        split
        · exact kept.trans (.trans (.of_regs (.setBit ..) (.setBit (by simp [traceRegs]))) (.raise ..))
        · exact kept
    · exact .refl s

theorem completion (it : Item) (st : RelStatus) (s : State) : Recorded s (completion it st s) := by
  unfold Machine.completion
  dsimp only
  split
  · exact .sched _ rfl
  · exact .refl s

theorem complete (it : Item) (core : Nat) (st : RelStatus) (s : State) : Recorded s (complete it core st s) :=
  .trans (.trace ..) (.completion ..)

end Recorded

/-- Core c holds nothing any more. -/
def letGo (c : Nat) (s : State) : State := setSched { s.sched with held := s.sched.held.filter (fun x => x.core != c) } s

/-- A release leaves the core without its item; of the registers only those of the trace and the core's own status move. -/
theorem releaseHeld_parts (c : Nat) (st : RelStatus) (tr : Option Nat) (s : State) :
    Recorded ((letGo c s).setBit .SCHED_CORE_n_STAT c 28 false) (releaseHeld c st tr s) ∨
      (heldBy s c = none ∧ releaseHeld c st tr s = s) := by
  unfold releaseHeld
  split
  case h_1 none => exact .inr ⟨none, rfl⟩
  case h_2 h found =>
    have traced (u : State) :
        Recorded u (match tr with | some e => trace e h.item c (if e = Tr.DONE then relCode st else 0) u | none => u) := by
      cases tr with
      | none => exact .refl u
      | some e => exact .trace ..
    have settled (u : State) : Recorded u (if h.item.ordered then
        setSched { u.sched with await := u.sched.await.map (fun a =>
          if a.item.born = h.item.born then { a with st := some st } else a) } u
        else complete h.item c st u) := by
      split
      · exact .sched _ rfl
      · exact .complete ..
    exact .inl ((traced _).trans (settled _))

/-! The entry to a vector. -/

/-- The vector of a cause. -/
def vectorOf (c : Nat) (k : Cause) (s : State) : Word := Store.get vbaseReset s.core.vbase c + BitVec.ofNat 32 (causeVector k)

/-- The cores' state once core c stands at the vector, its cause and its place noted. -/
def vectorCore (c : Nat) (k : Cause) (code : Nat) (epc : Word) (s : State) : CoreState :=
  { s.core with
    pc := Store.set zeroOf s.core.pc c (vectorOf c k s)
    epc := Store.set zeroOf s.core.epc c epc
    ecause := Store.set zeroOf s.core.ecause c (BitVec.ofNat 32 (code * 256 + causeCode k)) }

/-- The core stands at the vector, its interrupts off. -/
def vectorAt (c : Nat) (k : Cause) (code : Nat) (epc : Word) (s : State) : State :=
  let s := s.setBit .SCHED_CORE_n_CTRL c 2 false
  setPc c (vectorOf c k s) { s with core := { s.core with
    epc := Store.set zeroOf s.core.epc c epc,
    ecause := Store.set zeroOf s.core.ecause c (BitVec.ofNat 32 (code * 256 + causeCode k)) } }

/-- A core that cannot fetch its vector halts (R306). -/
def vectorLost (c : Nat) (s : State) : State := raise Ev.CORE_HALTED ((setCoreMode c 3 s).setBit .SCHED_CORE_n_STAT c 21 true)

/-- The core runs from its vector, or halts. -/
def vectorRun (c : Nat) (vec : Word) (s : State) : State :=
  if canFetch s vec.toNat then setCoreMode c 1 s else vectorLost c s

theorem trapEnter_eq (c : Nat) (k : Cause) (code : Nat) (epc : Word) (s : State) :
    trapEnter c k code epc s = vectorRun c
      (vectorOf c k ((if k = .irq ∨ k = .kill then s else releaseHeld c .aborted (some Tr.DONE) s).setBit .SCHED_CORE_n_CTRL c 2 false))
      (vectorAt c k code epc (if k = .irq ∨ k = .kill then s else releaseHeld c .aborted (some Tr.DONE) s)) := rfl

/-- Only the boot states decide where a core may fetch (R365, R367). -/
theorem canFetch_congr {s t : State} (state : sysState t = sysState s) (dev : t.dev = s.dev) (a : Nat) :
    canFetch t a = canFetch s a := by
  unfold canFetch bootState
  rw [state, dev]

theorem vectorOf_congr {s t : State} (core : t.core.vbase = s.core.vbase) (c : Nat) (k : Cause) : vectorOf c k t = vectorOf c k s := by
  unfold vectorOf; rw [core]

/-- The registers that an entry to a vector writes. -/
def vectorRegs (c : Nat) : List (RegName × Nat) := [(.SCHED_CORE_n_CTRL, c), (.SCHED_CORE_n_STAT, c), (.EVT_RAW_w, 1)]

theorem vectorAt_parts (c : Nat) (k : Cause) (code : Nat) (epc : Word) (s : State) :
    vectorAt c k code epc s = { s with regs := (vectorAt c k code epc s).regs, core := (vectorAt c k code epc s).core } ∧
    OnlyAt [(.SCHED_CORE_n_CTRL, c)] s (vectorAt c k code epc s) ∧
    (vectorAt c k code epc s).bit .SCHED_CORE_n_CTRL c 2 = false ∧
    (vectorAt c k code epc s).core = vectorCore c k code epc s :=
  ⟨rfl, .trans (t := s.setBit .SCHED_CORE_n_CTRL c 2 false) (.setBit (by simp)) (.of_regs rfl),
    bit_setBit_same s .SCHED_CORE_n_CTRL c 2 false (by decide), rfl⟩

theorem setCoreMode_parts (c n : Nat) (s : State) (hn : n < 8) :
    RegsOnly s (setCoreMode c n s) ∧ OnlyAt [(.SCHED_CORE_n_STAT, c)] s (setCoreMode c n s) ∧ coreMode (setCoreMode c n s) c = n :=
  ⟨.setF .., .setF (by simp), (f_setF_same _ _ _ _ _ _ (by decide) (by decide)).trans (Nat.mod_eq_of_lt hn)⟩

theorem vectorLost_parts (c : Nat) (s : State) :
    RegsOnly s (vectorLost c s) ∧ OnlyAt [(.SCHED_CORE_n_STAT, c), (.EVT_RAW_w, 1)] s (vectorLost c s) ∧
    coreMode (vectorLost c s) c = 3 ∧ (vectorLost c s).bit .SCHED_CORE_n_STAT c 21 = true ∧
    (vectorLost c s).bit .EVT_RAW_w 1 31 = true := by
  have word : (vectorLost c s).reg .SCHED_CORE_n_STAT c = putBit (setFld (s.reg .SCHED_CORE_n_STAT c) 31 29 3) 21 true := by
    rw [vectorLost, reg_raise, if_neg (by simp), reg_setBit, if_pos ⟨rfl, rfl⟩, setCoreMode, reg_setF, if_pos ⟨rfl, rfl⟩]
  refine ⟨.trans (.trans (.setF ..) (.setBit ..)) (.raise ..),
    .trans (t := setCoreMode c 3 s) (.setF (by simp)) (.trans (t := (setCoreMode c 3 s).setBit .SCHED_CORE_n_STAT c 21 true)
      (.setBit (by simp)) (.setBit (by simp [Ev.CORE_HALTED, evAt]))), ?_, ?_, raise_bit _ Ev.CORE_HALTED⟩
  · rw [coreMode, State.f, word, fld_putBit_ne _ _ _ _ _ (by decide) (by decide), fld_setFld_same _ _ _ _ (by decide) (by decide)]
    rfl
  · rw [State.bit, word]
    exact bitOf_putBit_same _ _ _ (by decide)

theorem vectorRun_parts (c : Nat) (vec : Word) (s : State) :
    RegsOnly s (vectorRun c vec s) ∧ OnlyAt [(.SCHED_CORE_n_STAT, c), (.EVT_RAW_w, 1)] s (vectorRun c vec s) ∧
    coreMode (vectorRun c vec s) c = (if canFetch s vec.toNat then 1 else 3) ∧
    (canFetch s vec.toNat = false →
      (vectorRun c vec s).bit .SCHED_CORE_n_STAT c 21 = true ∧ (vectorRun c vec s).bit .EVT_RAW_w 1 31 = true) := by
  unfold vectorRun
  split
  case isTrue fetches =>
    obtain ⟨regs, only, mode⟩ := setCoreMode_parts c 1 s (by decide)
    exact ⟨regs, only.mono (by simp), mode, fun lost => absurd fetches (by simp [lost])⟩
  case isFalse =>
    obtain ⟨regs, only, mode, flag, event⟩ := vectorLost_parts c s
    exact ⟨regs, only, mode, fun _ => ⟨flag, event⟩⟩

/-- Core c stands at the vector of cause k, from a state u that the release of its item left. -/
theorem vectored_of {s u v t : State} {c code : Nat} {k : Cause} {epc : Word}
    (core : u.core = s.core) (state : sysState u = sysState s) (dev : u.dev = s.dev)
    (frame : v = { u with regs := v.regs, core := v.core }) (only : OnlyAt [(.SCHED_CORE_n_CTRL, c)] u v)
    (ie : v.bit .SCHED_CORE_n_CTRL c 2 = false)
    (cores : v.core = vectorCore c k code epc u)
    (regs : RegsOnly v t) (run : OnlyAt [(.SCHED_CORE_n_STAT, c), (.EVT_RAW_w, 1)] v t)
    (mode : coreMode t c = (if canFetch v (vectorOf c k u).toNat then 1 else 3))
    (lost : canFetch v (vectorOf c k u).toNat = false → t.bit .SCHED_CORE_n_STAT c 21 = true ∧ t.bit .EVT_RAW_w 1 31 = true)
    (off : causeVector k = 0x40 * (causeCode k - 1)) : vectored c (causeCode k) code epc s t := by
  have cores : t.core = _ := (congrArg State.core regs).trans cores
  have vec : vectorOf c k u = Store.get vbaseReset s.core.vbase c + BitVec.ofNat 32 (0x40 * (causeCode k - 1)) := by
    rw [vectorOf, core, off]
  have fetch : canFetch v (vectorOf c k u).toNat = canFetch s (vectorOf c k u).toNat :=
    canFetch_congr ((only.f 3 0 (by simp)).trans state) ((congrArg State.dev frame).trans dev) _
  rw [fetch, vec] at mode lost
  refine ⟨?_, ?_, ?_, ?_, mode, lost⟩
  · rw [cores]; exact Store.get_set_same ..
  · rw [cores]; exact Store.get_set_same ..
  · rw [getPc, cores, ← vec]; exact Store.get_set_same ..
  · rw [run.bit 2 (by simp)]; exact ie

/-- What an entry to a vector leaves as it was. -/
theorem vectorFrame_of {u v t : State} {c code : Nat} {k : Cause} {epc : Word}
    (frame : v = { u with regs := v.regs, core := v.core }) (only : OnlyAt [(.SCHED_CORE_n_CTRL, c)] u v)
    (cores : v.core = vectorCore c k code epc u)
    (regs : RegsOnly v t) (run : OnlyAt [(.SCHED_CORE_n_STAT, c), (.EVT_RAW_w, 1)] v t) :
    t = { u with regs := t.regs, core := t.core } ∧ OnlyAt (vectorRegs c) u t ∧
    t.core = { u.core with pc := t.core.pc, epc := t.core.epc, ecause := t.core.ecause } ∧
    ∀ j, j ≠ c → getPc t j = getPc u j := by
  have core : t.core = _ := (congrArg State.core regs).trans cores
  refine ⟨?_, .trans (only.mono (by simp [vectorRegs])) (run.mono (by simp [vectorRegs])), by rw [core]; rfl, fun j other => ?_⟩
  · rw [regs, frame]
  · rw [getPc, core]; exact Store.get_set_ne _ _ _ _ _ other

/-- A trap's release of the item of core c. -/
structure Dropped (c : Nat) (s u : State) : Prop where
  core : u.core = s.core
  hart : u.hart = s.hart
  dev : u.dev = s.dev
  state : sysState u = sysState s
  modes : ∀ j, coreMode u j = coreMode s j
  held : heldBy u c = none
  same : heldBy s c = none → u = s

theorem heldBy_filtered (c : Nat) (l : List Held) : (l.filter (fun h => h.core != c)).find? (fun h => h.core == c) = none := by
  rw [List.find?_eq_none]
  intro h hm
  have := (List.mem_filter.mp hm).2
  simpa using this

/-- A release from an item held, its status bit cleared first. -/
theorem dropped_of {c : Nat} {s a b u : State} (first : a = letGo c s) (bit : RegsOnly a b)
    (word : ∀ r i, r ≠ .SCHED_CORE_n_STAT → b.reg r i = a.reg r i) (modes : ∀ j, coreMode b j = coreMode a j)
    (rest : Recorded b u) (holds : heldBy s c ≠ none) : Dropped c s u := by
  subst first
  refine ⟨?_, ?_, ?_, ?_, fun j => ?_, ?_, fun none => absurd none holds⟩
  · rw [rest.core, bit]; rfl
  · rw [rest.hart, bit]; rfl
  · rw [rest.dev, bit]; rfl
  · rw [sysState, State.f, rest.regs.reg .SYS_STATE 0 (by simp [traceRegs]), word _ _ (by simp)]; rfl
  · rw [coreMode, State.f, rest.regs.reg .SCHED_CORE_n_STAT j (by simp [traceRegs])]; exact modes j
  · rw [heldBy, rest.held, bit]; exact heldBy_filtered ..

theorem coreMode_setBit28 (c j : Nat) (s : State) : coreMode (s.setBit .SCHED_CORE_n_STAT c 28 false) j = coreMode s j := by
  rw [coreMode, State.f, reg_setBit]
  split
  case isTrue same => obtain ⟨_, rfl⟩ := same; exact fld_putBit_ne _ _ _ _ _ (by decide) (by decide)
  case isFalse => rfl

theorem releaseHeld_dropped (c : Nat) (st : RelStatus) (tr : Option Nat) (s : State) : Dropped c s (releaseHeld c st tr s) := by
  by_cases holds : heldBy s c = none
  · have idle : releaseHeld c st tr s = s := by unfold releaseHeld; rw [holds]
    rw [idle]
    exact ⟨rfl, rfl, rfl, rfl, fun _ => rfl, holds, fun _ => rfl⟩
  · have rest := (releaseHeld_parts c st tr s).resolve_right (fun h => holds h.1)
    exact dropped_of rfl (.setBit ..) (fun r i other => by rw [reg_setBit, if_neg (fun e => other e.1)])
      (fun j => coreMode_setBit28 ..) rest holds

/-- A core takes a trap that does not keep its item (R94, R122, R305). -/
theorem trapTaken_of {s u t : State} {c n code : Nat} {epc : Word} (dropped : Dropped c s u) (vectored : vectored c n code epc s t)
    (frame : t = { u with regs := t.regs, core := t.core }) (only : OnlyAt (vectorRegs c) u t)
    (core : t.core = { u.core with pc := t.core.pc, epc := t.core.epc, ecause := t.core.ecause })
    (others : ∀ j, j ≠ c → getPc t j = getPc u j) : trapTaken c n code epc false s t := by
  have sched : t.sched = u.sched := by rw [frame]
  refine ⟨vectored, ?_, ?_, ?_, fun j other => ⟨?_, ?_⟩, fun idle => ?_⟩
  · rw [heldBy, sched]; exact dropped.held
  · rw [frame]; exact dropped.hart
  · rw [core, dropped.core]
  · rw [others j other, getPc, dropped.core]; rfl
  · rw [coreMode, only.f 31 29 (by simp [vectorRegs, other])]; exact dropped.modes j
  · obtain rfl := dropped.same (by simpa using idle)
    refine ⟨frame, fun r i core event => only.kept r i ?_⟩
    simp only [vectorRegs, List.mem_cons, Prod.mk.injEq, List.not_mem_nil, or_false, not_or]
    exact ⟨fun e => core ⟨.inl e.1, e.2⟩, fun e => core ⟨.inr e.1, e.2⟩, event⟩

/-- The traps of a word: those that give its item back. -/
theorem trapEnter_taken (c : Nat) (k : Cause) (code : Nat) (epc : Word) (s : State) (drops : ¬ (k = .irq ∨ k = .kill))
    (off : causeVector k = 0x40 * (causeCode k - 1)) :
    trapTaken c (causeCode k) code epc false s (trapEnter c k code epc s) := by
  rw [trapEnter_eq, if_neg drops]
  have dropped := releaseHeld_dropped c .aborted (some Tr.DONE) s
  generalize releaseHeld c .aborted (some Tr.DONE) s = u at dropped ⊢
  have vec : vectorOf c k (u.setBit .SCHED_CORE_n_CTRL c 2 false) = vectorOf c k u := rfl
  rw [vec]
  obtain ⟨frame, only, ie, cores⟩ := vectorAt_parts c k code epc u
  obtain ⟨regs, run, mode, lost⟩ := vectorRun_parts c (vectorOf c k u) (vectorAt c k code epc u)
  obtain ⟨whole, all, core, others⟩ := vectorFrame_of frame only cores regs run
  exact trapTaken_of dropped (vectored_of dropped.core dropped.state dropped.dev frame only ie cores regs run mode lost off)
    whole all core others

end Sys2Proof.Machine
end

section
/-! SUPPORT. A read at its target (R368) changes nothing of the cores; what a load of core local memory finds there. -/

namespace Sys2Proof.Machine

/-- The cores stand as they stood. -/
structure CoresKept (s t : State) : Prop where
  core : t.core = s.core

namespace CoresKept

variable {s t u : State}

theorem refl (s : State) : CoresKept s s := ⟨rfl⟩

theorem trans (h : CoresKept s t) (k : CoresKept t u) : CoresKept s u := ⟨k.core.trans h.core⟩

theorem of_regs (h : RegsOnly s t) : CoresKept s t := ⟨by rw [h]⟩

theorem ite {c : Prop} [Decidable c] (h : CoresKept s t) (k : CoresKept s u) : CoresKept s (if c then t else u) := by
  split <;> assumption

theorem foldl {α : Type} {f : State → α → State} (h : ∀ t x, CoresKept t (f t x)) (xs : List α) (s : State) :
    CoresKept s (xs.foldl f s) := by
  induction xs generalizing s with
  | nil => exact .refl s
  | cons x xs ih => exact (h s x).trans (ih _)

theorem eng (x : EngState) (s : State) : CoresKept s (setEng x s) := ⟨rfl⟩

/-! Wakes. -/

theorem of_woke (h : wokeOnly s t) : CoresKept s t := ⟨by rw [h.1]⟩

theorem touch (d : Nat) (s : State) : CoresKept s (touch d s) := by
  obtain ⟨q, h⟩ := touch_frame d s
  exact ⟨by rw [h]⟩

theorem accessWake (who : Initiator) (d : Nat) (s : State) : CoresKept s (accessWake who d s) := .of_woke (.accessWake ..)

theorem demandWake (who : Initiator) (d : Nat) (s : State) : CoresKept s (demandWake who d s) := .of_woke (.demandWake ..)

/-! Faults of lanes (R164 to R172). -/

theorem logFault (event utype unit : Nat) (detail : Word) (s : State) : CoresKept s (logFault event utype unit detail s) := by
  obtain ⟨R, W, U, h⟩ := (logFault_parts event utype unit detail s).2
  exact ⟨by rw [h]⟩

theorem stopRun (pe : Nat) (s : State) : CoresKept s (stopRun pe s) := by
  unfold Machine.stopRun; split <;> exact ⟨rfl⟩

theorem muteEngine (pe : Nat) (s : State) : CoresKept s (muteEngine pe s) := .trans (.stopRun pe s) ⟨rfl⟩

theorem stopEngine (pe : Nat) (s : State) : CoresKept s (stopEngine pe s) := by
  unfold Machine.stopEngine; dsimp only; split <;> exact ⟨rfl⟩

theorem retireEngine (pe : Nat) (detail : Word) (s : State) : CoresKept s (retireEngine pe detail s) := by
  unfold Machine.retireEngine
  refine .ite (.refl s) (.trans ?_ (.of_regs (.raise ..)))
  refine .trans (.trans ?_ (.stopEngine ..)) (.logFault ..)
  split
  · exact .of_regs (.trans (.setBit ..) (.setBit ..))
  · exact .of_regs (.setBit ..)

theorem retireSoon (pe : Nat) (detail : Word) (s : State) : CoresKept s (retireSoon pe detail s) := .ite ⟨rfl⟩ (.retireEngine ..)

theorem migStart (pe : Nat) (kind : MigKind) (s : State) : CoresKept s (migStart pe kind s) := by
  unfold Machine.migStart
  dsimp only
  exact .trans (.eng ..) (.trans (.trans (.of_regs (.setF ..)) (.of_regs (.setF ..))) (.of_regs (.setF ..)))

theorem spareFault (cl : Nat) (detail : Word) (s : State) : CoresKept s (spareFault cl detail s) := by
  unfold Machine.spareFault
  split
  · dsimp only
    refine .ite ?spared (.trans ?spared (.retireSoon ..))
    exact .trans (.trans (.eng ..) (.of_regs (.setF ..))) (.retireSoon ..)
  · exact .retireSoon ..

theorem idleFault (pe : Nat) (d : Word) (s : State) : CoresKept s (idleFault pe d s) := .ite (.spareFault ..) (.retireSoon ..)

theorem correctableFault (pe L w : Nat) (s : State) : CoresKept s (correctableFault pe L w s) :=
  .ite (.refl s) (.ite (.idleFault ..) (.ite (.refl s) (.ite (.trans (.migStart ..) (.logFault ..)) (.retireSoon ..))))

theorem doubleBitFault (pe L w : Nat) (s : State) : CoresKept s (doubleBitFault pe L w s) := by
  have migrates (u : State) : CoresKept u (Machine.logFault 0x02 1 pe (laneDetail L w) (Machine.migStart pe .doubleBit (Machine.muteEngine pe u))) :=
    .trans (.trans (.muteEngine ..) (.migStart ..)) (.logFault ..)
  unfold Machine.doubleBitFault
  refine .ite (.refl s) (.trans (.of_regs (.setBit ..)) (.ite (.idleFault ..) ?_))
  split
  · exact .ite (.refl _) (migrates _)
  · exact .ite (migrates _) (.trans (.muteEngine ..) (.retireSoon ..))

theorem recordFault (pe L w : Nat) (s : State) : CoresKept s (recordFault pe L w s).2 := by
  unfold Machine.recordFault
  dsimp only
  split
  · exact .eng ..
  · split
    · exact .eng ..
    · split
      · exact .eng ..
      · exact .refl s

theorem correctLane (pe L w : Nat) (s : State) : CoresKept s (correctLane pe L w s) := by
  unfold Machine.correctLane
  refine .ite (.refl s) ?_
  extract_lets records a b c
  have noted : CoresKept s c := .trans (t := a) (.eng ..) (.trans (t := b) (.of_regs (.count ..)) (.of_regs (.setReg ..)))
  exact noted.trans (.trans (.recordFault pe L w c) (.ite (.correctableFault ..) (.refl _)))

/-! Targets. -/

theorem busReadLane (pe L w : Nat) (s : State) : CoresKept s (busReadLane pe L w s).2 := by
  unfold Machine.busReadLane
  dsimp only
  split
  · exact .refl s
  · split
    · exact .refl s
    · exact .correctLane ..
    · exact .doubleBitFault ..

theorem progMemRead (pe w : Nat) (s : State) : CoresKept s (progMemRead pe w s).2 := by
  unfold Machine.progMemRead
  dsimp only
  split
  · exact .refl s
  · split
    · exact .of_regs (.setBit ..)
    · exact ⟨by rw [(correctProg_frame pe _ w s).1]⟩

theorem sectBusRead (a : Nat) (s : State) : CoresKept s (sectBusRead a s).2 := by
  unfold Machine.sectBusRead
  split
  · exact .ite (.of_regs (.flagEv ..)) (.of_regs (.setBit ..))
  · exact .ite (.trans (t := setUpset s a 0) ⟨rfl⟩ (.of_regs (.count ..))) (.refl s)

theorem fabCorrect (a : Nat) (s : State) : CoresKept s (fabCorrect a s) :=
  .ite (.trans (t := setUpset s a 0) ⟨rfl⟩ (.of_regs (.count ..))) (.refl s)

theorem fabBusRead (a : Nat) (s : State) : CoresKept s (fabBusRead a s).2 := by
  unfold Machine.fabBusRead
  split
  · exact .refl s
  · split
    · exact .of_regs (.fabSded s)
    · exact .foldl (fun t b => .fabCorrect b t) ..

theorem aonRegRead (s : State) : CoresKept s (aonRegRead s).2 := by
  unfold Machine.aonRegRead
  dsimp only
  split <;> exact ⟨rfl⟩

/-- A register read keeps the cores: it latches a word of its master, or draws a free value, or changes nothing. -/
theorem regRead (who : Initiator) (r : RegName) (i : Nat) (s : State) : CoresKept s (regRead who r i s).2 := by
  unfold Machine.regRead
  split
  case h_1 => dsimp only; split <;> exact ⟨rfl⟩
  case h_3 => exact .aonRegRead s
  all_goals exact .refl s

theorem regsRead (who : Initiator) (a : Nat) (s : State) : CoresKept s (regsRead who a s).2 := by
  unfold Machine.regsRead
  split
  · exact .refl s
  · split
    · exact .refl s
    · split
      · exact .regRead ..
      · exact .refl s

theorem wordRead (who : Initiator) (a : Nat) (s : State) : CoresKept s (wordRead who a s).2 := by
  unfold Machine.wordRead
  split
  · exact .busReadLane ..
  · exact .progMemRead ..
  · exact .sectBusRead ..
  · exact .fabBusRead ..
  · exact .regsRead ..
  · exact .regsRead ..
  · exact .refl s

end CoresKept

/-- What a target that is on answers a read with. -/
def targetRead (who : Initiator) (a n : Nat) (s : State) : Ans × State :=
  match regionOf a with
  | .rom => (.ok ((List.range n).map (fun k => romRead s (a + k))), s)
  | .flash => (.ok ((List.range n).map (fun k => flashByte s (a - 0x80000000 + k))), s)
  | _ =>
    if isByteMem (regionOf a) then (.ok (getBytes s (primary a) n), s)
    else match wordRead who a s with
      | (some w, t) => (.ok (bytesOfWord w), t)
      | (none, t) => (.err, t)

theorem targetRead_kept (who : Initiator) (a n : Nat) (s : State) : CoresKept s (targetRead who a n s).2 := by
  have word := CoresKept.wordRead who a s
  unfold targetRead
  split
  · exact .refl s
  · exact .refl s
  · split
    · exact .refl s
    · split
      all_goals rename_i h; rw [h] at word; exact word

/-- A target that is on never lets the initiator wait. -/
theorem targetRead_answers (who : Initiator) (a n : Nat) (s : State) : (targetRead who a n s).1 ≠ .wait := by
  unfold targetRead
  split
  · simp
  · simp
  · split
    · simp
    · split <;> simp

/-- A read of a domain, the addresses already judged. -/
theorem busRead_eq {who : Initiator} {a n : Nat} {s : State} (can : readable s (isCore who) a n = true)
    (whole : isWordOnly (regionOf a) = true → a % 4 = 0) :
    busRead who a n s = (if domainOn (accessWake who (domainAt a) s) (domainAt a) = true
      then targetRead who a n (touch (domainAt a) (accessWake who (domainAt a) s))
      else (.wait, demandWake who (domainAt a) (accessWake who (domainAt a) s))) := by
  have judged : (!readable s (isCore who) a n || (isWordOnly (regionOf a) && a % 4 != 0)) = false := by
    rw [can]
    by_cases h : isWordOnly (regionOf a) = true
    · simp [whole h]
    · simp [h]
  unfold busRead
  simp only [judged, Bool.false_eq_true, if_false]
  by_cases on : domainOn (accessWake who (domainAt a) s) (domainAt a) = true
  · rw [if_pos on, on]; rfl
  · rw [if_neg on]
    simp only [on, Bool.not_false, if_true]

/-- A read keeps the cores. -/
theorem busRead_kept (who : Initiator) (a n : Nat) (s : State) : CoresKept s (busRead who a n s).2 := by
  unfold busRead
  extract_lets r d u v
  have woken : CoresKept s u := .accessWake ..
  split
  · exact .refl s
  · split
    · exact woken.trans (.demandWake ..)
    · exact woken.trans (.trans (.touch d u) (targetRead_kept who a n v))

end Sys2Proof.Machine
end

section
/-! SUPPORT. The word of a core's load (R101, R121, R122): what it asks for, when it traps, waits or takes its value. -/

namespace Sys2Proof.Machine

/-! The word. -/

/-- What a core's word of one load does when it issues: kind k at ea into rd. -/
def loadWord (c : Fin 16) (rd ea : Nat) (k : LoadKind) (s : State) : State :=
  match accTrap s (.load ea k rd) with
  | some x => trapEnter c x 0 (getPc s c) s
  | none =>
    if accsWait s c [.load ea k rd] then s
    else if isCached (regionOf ea) then loadDo s c ea k rd [] (setPc c (getPc s c + 4) s)
    else match busRead (.core c) ea (loadSize k) s with
      | (.ok b, u) => loadDo s c ea k rd b (setPc c (getPc s c + 4) u)
      | (.err, u) => trapEnter c .load 0 (getPc s c) u
      | (.wait, u) => if sleepError c ea u then trapEnter c .load 0 (getPc s c) u
          else loadDo s c ea k rd [] (setPc c (getPc s c + 4) u)

/-- An operation that is that load, and nothing more. -/
structure IsLoad (op : Op) (c : Fin 16) (rs rd ea : Nat) (k : LoadKind) (s : State) : Prop where
  legal : op.legal c = true
  srcs : op.srcs = [rs]
  access : op.cacc s c = some (.load ea k rd)
  fx : ∀ a b, op.fx a c b = b

/-- A core that is ready gets to its accesses. -/
theorem coreWord_ready {c : Fin 16} {op : Op} {s : State} (ready : coreReady c op.srcs s = true) (legal : op.legal c = true) :
    coreWord c [op] s =
      (let accs := [op].filterMap (fun o => o.cacc s c)
       match accs.findSome? (fun a => accTrap s a) with
       | some k => trapEnter c k 0 (getPc s c) s
       | none =>
         if accsWait s c accs then s
         else match findLoads c (accs.filter CoreAcc.direct) s with
           | (none, t) => trapEnter c .load 0 (getPc s c) t
           | (some b, t) => wbufAfter c accs (coreOps s c [op] b (setPc c (getPc s c + 4) t))) := by
  simp only [coreReady, Bool.and_eq_true, Bool.not_eq_true', List.all_eq_true] at ready
  obtain ⟨⟨⟨runs, fence⟩, fetch⟩, arrived⟩ := ready
  have come : ([op].any fun o => o.srcs.any fun r => regPending s c r) = false := by
    simp only [List.any_cons, List.any_nil, Bool.or_false, List.any_eq_false]
    intro r hr; simpa using arrived r hr
  have defined : ([op].all fun o => o.legal c) = true := by simp [legal]
  unfold coreWord
  simp only [runs, fence, fetch, come, defined, Bool.not_true, Bool.or_self, Bool.false_eq_true, if_false] <;> rfl

theorem coreWord_load {c : Fin 16} {op : Op} {rs rd ea : Nat} {k : LoadKind} {s : State}
    (load : IsLoad op c rs rd ea k s) (ready : coreReady c [rs] s = true) : coreWord c [op] s = loadWord c rd ea k s := by
  obtain ⟨legal, srcs, access, fx⟩ := load
  rw [coreWord_ready (by rw [srcs]; exact ready) legal]
  have accs : [op].filterMap (fun o => o.cacc s c) = [.load ea k rd] := by simp [access]
  simp only [accs, loadWord, List.findSome?_cons, List.findSome?_nil]
  cases accTrap s (.load ea k rd) with
  | some x => rfl
  | none =>
    simp only
    by_cases waits : accsWait s c [.load ea k rd] = true
    · rw [if_pos waits, if_pos waits]
    · rw [if_neg waits, if_neg waits]
      by_cases cached : isCached (regionOf ea) = true
      · have none : [CoreAcc.load ea k rd].filter CoreAcc.direct = [] := by simp [CoreAcc.direct, CoreAcc.ea, cached]
        rw [none, if_pos cached]
        simp only [findLoads, List.foldl_nil, coreOps, access, cached, if_true, fx]
        rfl
      · have one : [CoreAcc.load ea k rd].filter CoreAcc.direct = [.load ea k rd] := by
          simp [CoreAcc.direct, CoreAcc.isLoad, CoreAcc.ea, cached]
        rw [one, if_neg cached]
        simp only [findLoads, List.foldl_cons, List.foldl_nil, findLoad, CoreAcc.ea, CoreAcc.size, coreOps, access, cached,
          Bool.false_eq_true, if_false, fx]
        rcases busRead (.core c) ea (loadSize k) s with ⟨_ | _ | _, u⟩
        · rfl
        · rfl
        · by_cases error : sleepError c ea u = true
          · simp only [error, if_true]
          · simp only [error, if_false, Bool.false_eq_true] <;> rfl

/-! Traps. -/

theorem accTrap_misaligned {s : State} {ea rd : Nat} {k : LoadKind} (h : ea % loadSize k ≠ 0) :
    accTrap s (.load ea k rd) = some .align := if_pos h

theorem accTrap_unreadable {s : State} {ea rd : Nat} {k : LoadKind} (aligned : ea % loadSize k = 0)
    (bad : ¬ (readable s true ea (loadSize k) = true ∧ ¬ (k = .sample ∧ regionOf ea = .regs))) :
    accTrap s (.load ea k rd) = some .load := by
  have h : ¬ (readable s true ea (loadSize k) && !(k == .sample && regionOf ea == .regs)) = true := by simpa using bad
  exact (if_neg (not_not.mpr aligned)).trans (if_neg h)

theorem accTrap_none {s : State} {ea rd : Nat} {k : LoadKind} (aligned : ea % loadSize k = 0)
    (read : readable s true ea (loadSize k) = true) (space : ¬ (k = .sample ∧ regionOf ea = .regs)) :
    accTrap s (.load ea k rd) = none := by
  have allowed : (k == .sample && regionOf ea == .regs) = false := by simpa using space
  have h : (readable s true ea (loadSize k) && !(k == .sample && regionOf ea == .regs)) = true := by rw [read, allowed]; rfl
  exact (if_neg (not_not.mpr aligned)).trans (if_pos h)

/-! The wait at the word (R21, R370). -/

/-- A load that goes to memory itself, and is not answered in the core. -/
def reachesOut (ea : Nat) : Prop := isCached (regionOf ea) = false ∧ regionOf ea ≠ .localMem

/-- No buffered store of the core stands before the load. -/
def storesFree (s : State) (c ea n : Nat) : Prop :=
  (∀ e ∈ wbufOf s c, ∀ p ∈ e.data, p.1 < ea ∨ ea + n ≤ p.1) ∧ (isRegs ea = true → ∀ e ∈ wbufOf s c, isRegs e.addr = false)

/-- The core has a request credit for the load. -/
def creditFree (s : State) (c ea : Nat) (k : LoadKind) (rd : Nat) : Prop :=
  coreRequests (s.core.pend.filter (fun l => l.core == c) ++ [waitLoad s c ea k rd []]) ≤ 8

/-- The load has its bytes at the word. -/
def atOnce (s : State) (c ea : Nat) : Prop :=
  (regionOf ea = .localMem ∧ domainOn s (domainAt ea) = true) ∨ (isCached (regionOf ea) = true ∧ (lineAt s c ea).isSome)

theorem storedIn_iff (s : State) (c ea n : Nat) :
    storedIn s c ea n = false ↔ ∀ e ∈ wbufOf s c, ∀ p ∈ e.data, p.1 < ea ∨ ea + n ≤ p.1 := by
  simp only [storedIn, List.any_eq_false, Bool.and_eq_true, decide_eq_true_eq, not_and_or, not_le, not_lt, Bool.not_eq_true]

theorem isRegs_out {ea : Nat} (h : isRegs ea = true) : reachesOut ea := by
  simp only [isRegs, Bool.or_eq_true, beq_iff_eq] at h
  rcases h with h | h <;> simp [reachesOut, h, isCached]

theorem newLoads_load (s : State) (c ea : Nat) (k : LoadKind) (rd : Nat) :
    (atOnce s c ea ∧ newLoads s c [.load ea k rd] = []) ∨
      (¬ atOnce s c ea ∧ newLoads s c [.load ea k rd] = [waitLoad s c ea k rd []]) := by
  by_cases now : atOnce s c ea
  · have h : ((regionOf ea == .localMem && domainOn s (domainAt ea)) || (isCached (regionOf ea) && (lineAt s c ea).isSome)) = true := by
      simpa [atOnce] using now
    exact .inl ⟨now, by simp only [newLoads, List.filterMap_cons, List.filterMap_nil, h, if_true]⟩
  · have h : ((regionOf ea == .localMem && domainOn s (domainAt ea)) || (isCached (regionOf ea) && (lineAt s c ea).isSome)) = false := by
      simpa [atOnce] using now
    exact .inr ⟨now, by simp only [newLoads, List.filterMap_cons, List.filterMap_nil, h, if_false, Bool.false_eq_true]⟩

/-- What a load waits for at its word. -/
theorem accsWait_load (s : State) (c ea : Nat) (k : LoadKind) (rd : Nat) :
    accsWait s c [.load ea k rd] = true ↔
      (reachesOut ea ∧ ¬ storesFree s c ea (loadSize k)) ∨ (¬ atOnce s c ea ∧ ¬ creditFree s c ea k rd) := by
  have before : ([CoreAcc.load ea k rd].any (fun a => (a.direct && regionOf a.ea != .localMem && storedIn s c a.ea a.size) ||
      (a.isLoad && isRegs a.ea && (wbufOf s c).any (fun e => isRegs e.addr)))) = true ↔
      reachesOut ea ∧ ¬ storesFree s c ea (loadSize k) := by
    simp only [List.any_cons, List.any_nil, Bool.or_false, CoreAcc.direct, CoreAcc.isLoad, CoreAcc.ea, CoreAcc.size, Bool.true_and,
      Bool.or_eq_true, Bool.and_eq_true, Bool.not_eq_true', bne_iff_ne, List.any_eq_true]
    constructor
    · rintro (⟨out, stored⟩ | ⟨regs, e, mem, he⟩)
      · exact ⟨out, fun free => by rw [(storedIn_iff ..).mpr free.1] at stored; exact absurd stored (by simp)⟩
      · exact ⟨isRegs_out regs, fun free => by rw [free.2 regs e mem] at he; exact absurd he (by simp)⟩
    · rintro ⟨out, busy⟩
      by_cases stored : storedIn s c ea (loadSize k) = true
      · exact .inl ⟨out, stored⟩
      · have clear := (storedIn_iff ..).mp (Bool.not_eq_true _ ▸ stored)
        have := not_and.mp busy clear
        push Not at this
        obtain ⟨regs, e, mem, he⟩ := this
        exact .inr ⟨regs, e, mem, by simpa using he⟩
  have noStore : ([CoreAcc.load ea k rd].any (fun a => !a.isLoad)) = false := rfl
  unfold accsWait
  rw [Bool.or_eq_true, Bool.or_eq_true, before, noStore, Bool.false_and, or_iff_left Bool.false_ne_true]
  refine or_congr Iff.rfl ?_
  rcases newLoads_load s c ea k rd with ⟨now, new⟩ | ⟨later, new⟩
  · simp [new, now]
  · rw [new]
    simp only [List.isEmpty_cons, Bool.not_false, Bool.true_and, decide_eq_true_eq, later, not_false_eq_true, true_and, creditFree, not_le]

/-! A load that waits. -/

/-- The load joins those that have not arrived. -/
def joinLoads (s0 : State) (c ea : Nat) (k : LoadKind) (rd : Nat) (data : List (Nat × Byte)) (s : State) : State :=
  let x := waitLoad s0 c ea k rd data
  let older := s.core.pend.map (fun y : PendLoad => if y.core = c ∧ y.dst = x.dst then { y with live := false } else y)
  { s with core := { s.core with pend := older ++ [x] } }

theorem physIdx_eq_zero (rrb g : Nat) : physIdx rrb g = 0 ↔ g = 0 := by
  unfold physIdx; split <;> omega

/-- A load into rd names the stored register of rd, and stays its own while rd is not g0. -/
theorem waitLoad_dst (s : State) (c ea : Nat) (k : LoadKind) (rd : Nat) (data : List (Nat × Byte)) :
    (waitLoad s c ea k rd data).dst = physIdx (getRrb s c) rd ∧ (waitLoad s c ea k rd data).live = (rd != 0) := by
  unfold waitLoad
  by_cases zero : rd = 0
  · subst zero; exact ⟨((physIdx_eq_zero ..).mpr rfl).symm, rfl⟩
  · have := (physIdx_eq_zero (getRrb s c) rd).not.mpr zero
    simp [zero, this]

/-- Whether a pending load is core c's own load into a stored register. -/
def awaits (c p : Nat) (l : PendLoad) : Bool := l.core == c && l.live && l.dst == p

theorem regPending_eq (s : State) (c r : Nat) : regPending s c r = (r != 0 && s.core.pend.any (awaits c (physIdx (getRrb s c) r))) := rfl

/-- After a load has joined, of core c's registers its own is awaited and the others as before. -/
theorem awaits_joined (c p q : Nat) (x : PendLoad) (l : List PendLoad) (own : x.core = c) (dst : x.dst = p) :
    (l.map (fun y : PendLoad => if y.core = c ∧ y.dst = x.dst then { y with live := false } else y) ++ [x]).any (awaits c q) =
      if q = p then x.live else l.any (awaits c q) := by
  have older (y : PendLoad) : awaits c q (if y.core = c ∧ y.dst = x.dst then { y with live := false } else y) =
      (awaits c q y && q != p) := by
    by_cases same : y.core = c ∧ y.dst = x.dst
    · rw [if_pos same]
      by_cases hq : q = p
      · simp [awaits, hq]
      · have : y.dst ≠ q := fun e => hq (e.symm.trans (same.2.trans dst))
        simp [awaits, this]
    · rw [if_neg same]
      by_cases hq : q = p
      · have : awaits c q y = false := by
          simp only [awaits, Bool.and_eq_false_iff, beq_eq_false_iff_ne]
          rw [dst, ← hq, not_and_or] at same
          rcases same with h | h
          · exact .inl (.inl h)
          · exact .inr h
        simp [this]
      · simp [hq]
  have added : awaits c q x = (x.live && decide (q = p)) := by
    simp only [awaits, own, dst, beq_self_eq_true, Bool.true_and]
    by_cases hq : q = p
    · simp [hq]
    · simp [hq, Ne.symm hq]
  simp only [List.any_append, List.any_cons, List.any_nil, Bool.or_false, added, List.any_map, Function.comp_def, older]
  by_cases hq : q = p
  · simp [hq]
  · have other : (q != p) = true := bne_iff_ne.mpr hq
    simp [other, hq]

/-- A load that has joined waits. -/
theorem joinLoads_waits {s u : State} {c : Fin 16} {rd : Fin 32} {ea : Nat} {k : LoadKind} {data : List (Nat × Byte)}
    (kept : CoresKept s u) : loadWaits c rd ea k data u (joinLoads s c ea k rd data (setPc c (getPc s c + 4) u)) := by
  have rrb : getRrb s c = getRrb u c := by unfold getRrb; rw [kept.core]
  have pc : getPc s c = getPc u c := by unfold getPc; rw [kept.core]
  obtain ⟨dst, live⟩ := waitLoad_dst s c ea k rd data
  have awaited (r : Fin 32) : regPending (joinLoads s c ea k rd data (setPc c (getPc s c + 4) u)) c r =
      if r = rd then (rd.val != 0) else regPending u c r := by
    have joined := awaits_joined c (physIdx (getRrb u c) rd) (physIdx (getRrb u c) r) (waitLoad s c ea k rd data)
      u.core.pend rfl (dst.trans (by rw [rrb]))
    rw [regPending_eq, regPending_eq]
    refine (congrArg (fun b => r.val != 0 && b) joined).trans ?_
    by_cases same : r = rd
    · subst same
      rw [if_pos rfl, if_pos rfl, live, Bool.and_self]
    · have other : physIdx (getRrb u c) r ≠ physIdx (getRrb u c) rd :=
        fun e => same (Fin.ext (physIdx_inj _ _ _ r.isLt rd.isLt e))
      rw [if_neg other, if_neg same]
  refine ⟨?_, fun j other => ?_, ?_, fun r other => ?_, ?_, ?_⟩
  · rw [← pc]
    exact (getPc_setPc u c c _).trans (if_pos rfl)
  · exact (getPc_setPc u c j _).trans (if_neg other)
  · rw [awaited, if_pos rfl]
  · rw [awaited, if_neg other]
  · simp [joinLoads, waitLoad]
  · rfl

end Sys2Proof.Machine
end

section
/-! SUPPORT. The bytes that a core's load takes (R101, R303), and the load as a whole. -/

namespace Sys2Proof.Machine

/-! Bytes. -/

/-- The bytes that a core's own buffered stores of a kind hold of a run. -/
def ownRun (s : State) (c ea n : Nat) (w : WKind) : List (Nat × Byte) :=
  (List.range n).filterMap (fun j => (ownByte s c w (ea + j)).map (fun x => (ea + j, x)))

/-- The core's own byte at an address of the run. -/
theorem find_ownRun (s : State) (c ea n : Nat) (w : WKind) {j : Nat} (hj : j < n) :
    ((ownRun s c ea n w).find? (fun q => q.1 == ea + j)).map (fun q => q.2) = ownByte s c w (ea + j) := by
  have hit (i : Nat) : ((ownByte s c w (ea + i)).map (fun x => (ea + i, x))).any (fun q => q.1 == ea + j) =
      ((ownByte s c w (ea + i)).isSome && i == j) := by
    cases ownByte s c w (ea + i) with
    | none => rfl
    | some x => simp
  rw [ownRun, List.find?_filterMap]
  simp only [hit]
  cases own : ownByte s c w (ea + j) with
  | none =>
    have none : (List.range n).find? (fun i => (ownByte s c w (ea + i)).isSome && i == j) = none := by
      rw [List.find?_eq_none]
      intro i _ h
      obtain ⟨some, rfl⟩ : (ownByte s c w (ea + i)).isSome = true ∧ i = j := by simpa using h
      rw [own] at some
      exact absurd some (by simp)
    rw [none]; rfl
  | some x =>
    have found : (List.range n).find? (fun i => (ownByte s c w (ea + i)).isSome && i == j) = some j := by
      rw [List.find?_range_eq_some]
      refine ⟨by simp [own], List.mem_range.mpr hj, fun i hi => ?_⟩
      have : (i == j) = false := by simpa using Nat.ne_of_lt hi
      simp [this]
    rw [found]
    simp [own]

/-- A run with the core's own stores over it. -/
theorem overBytes_ownRun (s : State) (c ea n : Nat) (w : WKind) (l : List Byte) (hl : l.length ≤ n) :
    overBytes ea (ownRun s c ea n w) l = l.zipIdx.map (fun x => (ownByte s c w (ea + x.2)).getD x.1) := by
  refine List.map_congr_left fun x hx => ?_
  have hj : x.2 < n := by
    have := (List.mem_zipIdx hx).2.1
    omega
  rw [find_ownRun s c ea n w hj]

theorem getBytes_eq_map (s : State) (a n : Nat) : getBytes s a n = (List.range n).map (fun k => getByte s (a + k)) := by
  induction n generalizing a with
  | zero => rfl
  | succ n ih =>
    rw [getBytes, ih, List.range_succ_eq_map, List.map_cons, List.map_map]
    refine congrArg₂ _ rfl (List.map_congr_left fun k _ => ?_)
    exact congrArg (getByte s) (by simp only [Nat.succ_eq_add_one]; omega)

theorem getBytes_length (s : State) (a n : Nat) : (getBytes s a n).length = n := by simp [getBytes_eq_map]

/-- The bytes of memory that a core sees behind its own stores. -/
theorem overBytes_seen (s : State) (c ea n : Nat) (plain : ∀ k < n, primary (ea + k) = ea + k) :
    overBytes ea (ownRun s c ea n .bus) (getBytes s ea n) = (List.range n).map (fun k => byteSeen s c (ea + k)) := by
  rw [overBytes_ownRun _ _ _ _ _ _ (Nat.le_of_eq (getBytes_length ..))]
  refine List.ext_getElem (by simp [getBytes_length]) fun k h1 h2 => ?_
  have hk : k < n := by simpa using h2
  simp [byteSeen, plain k hk, getBytes_eq_map]

/-! Core local memory (R365). -/

theorem ite_ne {α : Type} {p : Prop} [Decidable p] {x y z : α} (h : x ≠ z) (k : y ≠ z) : (if p then x else y) ≠ z := by
  split <;> assumption

theorem regionOf_local {a : Nat} (h : regionOf a = .localMem) : 0x08000000 ≤ a ∧ a < 0x08100000 := by
  by_contra outside
  refine absurd h ?_
  unfold regionOf
  refine ite_ne (by decide) ?_
  by_cases low : a < 0x08000000
  · rw [if_pos low]; decide
  · rw [if_neg low, if_neg (by omega)]
    repeat refine ite_ne (by decide) ?_
    decide

theorem regionOf_local_mk {a : Nat} (h1 : 0x08000000 ≤ a) (h2 : a < 0x08100000) : regionOf a = .localMem := by
  unfold regionOf
  rw [if_neg (by omega), if_neg (by omega), if_pos h2]

theorem primary_local {a : Nat} (h : regionOf a = .localMem) : primary a = a := by
  unfold primary; rw [h]

theorem domainAt_local {a : Nat} (h : regionOf a = .localMem) : 14 ≤ domainAt a := by
  unfold domainAt
  simp only [primary_local h, h, domCore]
  omega

theorem loadSize_pos (k : LoadKind) : 0 < loadSize k := by cases k <;> decide

/-- An aligned run that begins in core local memory stays in it. -/
theorem local_run {ea : Nat} {k : LoadKind} (h : regionOf ea = .localMem) (aligned : ea % loadSize k = 0) :
    ∀ j < loadSize k, regionOf (ea + j) = .localMem := by
  obtain ⟨lo, hi⟩ := regionOf_local h
  intro j hj
  refine regionOf_local_mk (by omega) ?_
  cases k <;> simp only [loadSize] at hj aligned <;> omega

/-- A read of core local memory that is on, and that no request moves, gives its bytes and changes nothing. -/
theorem busRead_local {c : Fin 16} {ea n : Nat} {s : State} (region : regionOf ea = .localMem)
    (on : domainOn s (domainAt ea) = true) (quiet : inRequest s (domainAt ea) = false) :
    busRead (.core c) ea n s = (.ok (getBytes s ea n), s) := by
  have still : accessWake (.core c) (domainAt ea) s = s :=
    accessWake_still _ _ _ on (by simp [Machine.still, quiet, accessSource])
  have untouched : touch (domainAt ea) s = s := by
    have := domainAt_local region
    unfold touch
    exact if_neg (by omega)
  rw [busRead_eq (by simp [readable, region, isWordOnly]) (by simp [region, isWordOnly]), still, if_pos on, untouched]
  simp [targetRead, region, isByteMem, primary_local region]

/-! What a load does once it may go on. -/

theorem loadDo_local {s0 s : State} {c ea : Nat} {k : LoadKind} {rd : Nat} {b : List Byte}
    (region : regionOf ea = .localMem) (some : b ≠ []) :
    loadDo s0 c ea k rd b s = writeReg c rd (loadValue k (overBytes ea (ownRun s0 c ea (loadSize k) .bus) b)) s := by
  have h : (regionOf ea == .localMem && !b.isEmpty) = true := by simp [region, some]
  unfold loadDo
  simp only [h, if_true]
  rfl

theorem loadDo_line {s0 s : State} {c ea : Nat} {k : LoadKind} {rd : Nat} {b : List Byte} {l : Line}
    (cached : isCached (regionOf ea) = true) (line : lineAt s0 c ea = some l) :
    loadDo s0 c ea k rd b s =
      writeReg c rd (loadValue k (overBytes ea (ownRun s0 c ea (loadSize k) .cache) (lineBytes l ea (loadSize k)))) s := by
  have other : (regionOf ea == .localMem) = false := by
    rw [beq_eq_false_iff_ne]; rintro e; rw [e] at cached; exact absurd cached (by decide)
  unfold loadDo
  simp only [other, Bool.false_and, Bool.false_eq_true, if_false, cached, if_true, line]
  rfl

theorem loadDo_lacks {s0 s : State} {c ea : Nat} {k : LoadKind} {rd : Nat} {b : List Byte}
    (cached : isCached (regionOf ea) = true) (line : lineAt s0 c ea = none) :
    loadDo s0 c ea k rd b s = joinLoads s0 c ea k rd (ownRun s0 c ea (loadSize k) .cache) s := by
  have other : (regionOf ea == .localMem) = false := by
    rw [beq_eq_false_iff_ne]; rintro e; rw [e] at cached; exact absurd cached (by decide)
  unfold loadDo
  simp only [other, Bool.false_and, Bool.false_eq_true, if_false, cached, if_true, line]
  rfl

theorem loadDo_out {s0 s : State} {c ea : Nat} {k : LoadKind} {rd : Nat} {b : List Byte}
    (uncached : isCached (regionOf ea) = false) (away : regionOf ea = .localMem → b = []) :
    loadDo s0 c ea k rd b s = joinLoads s0 c ea k rd (addrBytes ea b) s := by
  have other : (regionOf ea == .localMem && !b.isEmpty) = false := by
    by_cases h : regionOf ea = .localMem
    · simp [away h]
    · simp [h]
  unfold loadDo
  simp only [other, Bool.false_eq_true, if_false, uncached]
  rfl

/-- A word that writes rd and goes on does that, and nothing else. -/
theorem writeReg_does (c : Fin 16) (rd : Fin 32) (v : Nat) (s : State) :
    wordDoes (.core c) (fun _ => Put.plain rd v) s (writeReg c rd v (setPc c (getPc s c + 4) s)) := by
  have ok : putOk c (Put.plain rd v) false := by
    refine ⟨fun e he => ?_, fun _ => rfl, fun _ _ h => absurd h (by simp [Put.plain])⟩
    obtain rfl : e = (rd.val, v) := by simpa [Put.plain] using he
    exact ⟨rd.isLt, by simp [legalWrite]⟩
  have put : writeReg c rd v (setPc c (getPc s c + 4) s) =
      applyPut c (Put.plain rd v) false (setPc c (getPc s c + 4) s) := rfl
  rw [put]
  refine ⟨fun h r => ?_, fun h => ?_, fun h x => ?_, fun h => ?_, ?_, fun k => ?_⟩
  · rw [applyPut_reg _ _ _ _ ok]; by_cases hh : h = c.val <;> simp [harts, hh, landed]
  · rw [applyPut_stat _ _ _ _ ok]; by_cases hh : h = c.val <;> simp [harts, hh]
  · rw [applyPut_acc _ _ _ _ ok]; by_cases hh : h = c.val <;> simp [harts, hh]
  · rw [applyPut_dice]; by_cases hh : h = c.val <;> simp [harts, hh]
  · rw [applyPut_frame]; rfl
  · rw [applyPut_frame]
    exact getPc_setPc s c k (getPc s c + 4)

/-! The load's word by what it meets. -/

section
variable {c : Fin 16} {rd : Nat} {ea : Nat} {k : LoadKind} {s : State}

theorem loadWord_trap {x : Cause} (trap : accTrap s (.load ea k rd) = some x) :
    loadWord c rd ea k s = trapEnter c x 0 (getPc s c) s := by
  unfold loadWord; rw [trap]

theorem loadWord_held (clear : accTrap s (.load ea k rd) = none)
    (waits : (reachesOut ea ∧ ¬ storesFree s c ea (loadSize k)) ∨ (¬ atOnce s c ea ∧ ¬ creditFree s c ea k rd)) :
    loadWord c rd ea k s = s := by
  unfold loadWord; rw [clear]
  exact if_pos ((accsWait_load ..).mpr waits)

/-- Nothing holds the word. -/
def goes (s : State) (c ea : Nat) (k : LoadKind) (rd : Nat) : Prop :=
  (reachesOut ea → storesFree s c ea (loadSize k)) ∧ (atOnce s c ea ∨ creditFree s c ea k rd)

theorem goes_not {s : State} {c ea : Nat} {k : LoadKind} {rd : Nat} (go : goes s c ea k rd) : accsWait s c [.load ea k rd] ≠ true := by
  obtain ⟨free, asks⟩ := go
  rw [ne_eq, accsWait_load]
  rintro (⟨out, busy⟩ | ⟨later, full⟩)
  · exact busy (free out)
  · exact asks.elim later full

theorem loadWord_cached (clear : accTrap s (.load ea k rd) = none) (go : goes s c ea k rd) (cached : isCached (regionOf ea) = true) :
    loadWord c rd ea k s = loadDo s c ea k rd [] (setPc c (getPc s c + 4) s) := by
  unfold loadWord; rw [clear]
  exact (if_neg (goes_not go)).trans (if_pos cached)

/-- A load that goes to its target goes on as its target answers. -/
theorem loadWord_asks (clear : accTrap s (.load ea k rd) = none) (go : goes s c ea k rd) (uncached : isCached (regionOf ea) = false) :
    (∀ b u, busRead (.core c) ea (loadSize k) s = (.ok b, u) →
      loadWord c rd ea k s = loadDo s c ea k rd b (setPc c (getPc s c + 4) u)) ∧
    (∀ u, busRead (.core c) ea (loadSize k) s = (.err, u) → loadWord c rd ea k s = trapEnter c .load 0 (getPc s c) u) ∧
    (∀ u, busRead (.core c) ea (loadSize k) s = (.wait, u) →
      loadWord c rd ea k s = (if sleepError c ea u then trapEnter c .load 0 (getPc s c) u
        else loadDo s c ea k rd [] (setPc c (getPc s c + 4) u))) := by
  have direct : ¬ isCached (regionOf ea) = true := by simp [uncached]
  have asks : loadWord c rd ea k s = match busRead (.core c) ea (loadSize k) s with
      | (.ok b, u) => loadDo s c ea k rd b (setPc c (getPc s c + 4) u)
      | (.err, u) => trapEnter c .load 0 (getPc s c) u
      | (.wait, u) => if sleepError c ea u then trapEnter c .load 0 (getPc s c) u
          else loadDo s c ea k rd [] (setPc c (getPc s c + 4) u) := by
    unfold loadWord; rw [clear]
    exact (if_neg (goes_not go)).trans (if_neg direct)
  refine ⟨fun b u h => ?_, fun u h => ?_, fun u h => ?_⟩ <;> rw [asks, h]

/-- A target that is not on lets the core's load wait, and is woken. -/
theorem busRead_asleep {n : Nat} (can : readable s true ea n = true) (whole : isWordOnly (regionOf ea) = true → ea % 4 = 0)
    (off : domainOn s (domainAt ea) = false) :
    busRead (.core c) ea n s = (.wait, demandWake (.core c) (domainAt ea) s) := by
  have still : accessWake (.core c) (domainAt ea) s = s := by simp [accessWake, hostWake, accessSource, off]
  rw [busRead_eq can whole, still, if_neg (by simp [off])]

end

end Sys2Proof.Machine
end

section
/-! SUPPORT. The loads of a core (R121, R122), clause by clause. -/

namespace Sys2Proof.Machine

section
variable {i : Instr} {c : Fin 16} {rd : Fin 32} {ea : Nat} {k : LoadKind} {s : State}

/-- The bytes that a load takes at once, over what memory or its line gives. -/
theorem loadWord_now (does : exec i s = .next (loadWord c rd ea k s)) (clear : accTrap s (.load ea k rd) = none)
    (aligned : ea % loadSize k = 0) {b : List Byte} (seen : seenNow s c ea (loadSize k) = some b)
    (on : isCached (regionOf ea) = false → domainOn s (domainAt ea) = true ∧ inRequest s (domainAt ea) = false) :
    ∃ t, exec i s = .next t ∧ wordDoes (.core c) (fun _ => Put.plain rd (loadValue k b)) s t := by
  have puts : loadWord c rd ea k s = writeReg c rd (loadValue k b) (setPc c (getPc s c + 4) s) := by
    unfold seenNow at seen
    split at seen
    case isTrue region =>
      have uncached : isCached (regionOf ea) = false := by rw [region]; rfl
      obtain ⟨awake, quiet⟩ := on uncached
      have go : goes s c ea k rd := ⟨fun out => absurd region out.2, .inl (.inl ⟨region, awake⟩)⟩
      have some : getBytes s ea (loadSize k) ≠ [] := fun e => by
        have := getBytes_length s ea (loadSize k)
        rw [e] at this
        exact absurd this (Nat.ne_of_lt (loadSize_pos k))
      rw [(loadWord_asks clear go uncached).1 _ _ (busRead_local region awake quiet), loadDo_local region some,
        overBytes_seen _ _ _ _ fun j hj => primary_local (local_run region aligned j hj), Option.some.inj seen]
    case isFalse =>
      split at seen
      case isFalse => exact absurd seen (by simp)
      case isTrue cached =>
        obtain ⟨l, line, rfl⟩ := Option.map_eq_some_iff.mp seen
        have go : goes s c ea k rd := ⟨fun out => absurd cached (by simp [out.1]), .inl (.inr ⟨cached, by rw [line]; rfl⟩)⟩
        have short : (lineBytes l ea (loadSize k)).length ≤ loadSize k := List.length_take_le ..
        rw [loadWord_cached clear go cached, loadDo_line cached line, overBytes_ownRun _ _ _ _ _ _ short]
        rfl
  exact ⟨_, does, puts ▸ writeReg_does ..⟩

/-- A load that does not trap (R121, R122). -/
def sound (s : State) (ea : Nat) (k : LoadKind) : Prop :=
  ea % loadSize k = 0 ∧ readable s true ea (loadSize k) = true ∧ ¬ (k = .sample ∧ regionOf ea = .regs)

/-- The clauses of a core's load hold of an instruction whose word is that load. -/
theorem coreLoads_of (does : coreReady c [rs] s = true → exec i s = .next (loadWord c rd ea k s)) :
    coreLoads i c rd [rs] ea (loadSize k) k (loadValue k) s := by
  intro _ ready
  have does := does ready
  have drops : ¬ (Cause.load = .irq ∨ Cause.load = .kill) := by simp
  have clear (h : sound s ea k) : accTrap s (.load ea k rd) = none := accTrap_none h.1 h.2.1 h.2.2
  have faults (u : State) : trapTaken c 4 0 (getPc s c) false u (trapEnter c .load 0 (getPc s c) u) :=
    trapEnter_taken c .load 0 (getPc s c) u drops rfl
  have away (h : reachesOut ea) {b : List Byte} (local' : regionOf ea = .localMem) : b = [] := absurd local' h.2
  refine ⟨fun misaligned => ?_, fun aligned bad => ?_, fun b seen h on => ?_, fun cached line h credit => ?_,
    fun out h clearOf credit on b u answer => ?_, fun out h clearOf credit on u answer => ?_,
    fun uncached h clearOf credit off => ?_, fun h lacks asleep waits => ?_⟩
  · refine ⟨_, does, ?_⟩
    rw [loadWord_trap (accTrap_misaligned misaligned)]
    exact trapEnter_taken c .align 0 (getPc s c) s (by simp) rfl
  · refine ⟨_, does, ?_⟩
    rw [loadWord_trap (accTrap_unreadable aligned fun h => bad ⟨aligned, h⟩)]
    exact faults s
  · exact loadWord_now does (clear h) h.1 seen on
  · refine ⟨_, does, ?_⟩
    rw [loadWord_cached (clear h) ⟨fun out => absurd cached (by simp [out.1]), .inr credit⟩ cached, loadDo_lacks cached line]
    exact joinLoads_waits (.refl s)
  · refine ⟨_, does, ?_⟩
    have kept := busRead_kept (.core c) ea (loadSize k) s
    rw [(loadWord_asks (clear h) ⟨fun _ => clearOf, .inr credit⟩ out.1).1 b u answer, loadDo_out out.1 (away out)]
    rw [answer] at kept
    exact joinLoads_waits kept
  · refine ⟨_, does, ?_⟩
    rw [(loadWord_asks (clear h) ⟨fun _ => clearOf, .inr credit⟩ out.1).2.1 u answer]
    exact faults u
  · intro u
    have whole : isWordOnly (regionOf ea) = true → ea % 4 = 0 := fun word => by
      have four : loadSize k = 4 := by
        by_contra other
        have := h.2.1
        unfold readable at this
        simp [word, other] at this
      exact four ▸ h.1
    have word := (loadWord_asks (clear h) ⟨clearOf, .inr credit⟩ uncached).2.2 u (busRead_asleep h.2.1 whole off)
    refine ⟨fun fine => ⟨_, does, ?_⟩, fun error => ⟨_, does, ?_⟩⟩
    · rw [word, if_neg (by rw [fine]; exact Bool.false_ne_true), loadDo_out uncached fun _ => rfl]
      exact joinLoads_waits (.demandWake ..)
    · rw [word, if_pos error]
      exact faults u
  · have later : ¬ atOnce s c ea := by
      rintro (⟨region, on⟩ | ⟨cached, line⟩)
      · rw [asleep region] at on; exact absurd on (by simp)
      · rw [lacks cached] at line; exact absurd line (by simp)
    rw [does, loadWord_held (clear h) (waits.elim (fun full => .inr ⟨later, full⟩) .inl)]

end

/-! The instructions. -/

/-- The address of a core's access, as R121 states it. -/
theorem eaCore_eq (s : State) (c : Nat) (rs : Fin 32) (imm : BitVec 15) : eaCore s c rs imm = coreAt s c rs (sxN 15 imm.toNat) := by
  unfold eaCore coreAt immS toU
  have hp : (0 : Int) < ((2 ^ 32 : Nat) : Int) := by norm_num
  have h0 := Int.emod_nonneg (sxN 15 imm.toNat) (Int.ne_of_gt hp)
  norm_num at h0 ⊢
  omega

/-- The loads of format I with a register base are that load and nothing more. -/
theorem loadOp_isLoad (c : Fin 16) (k : LoadKind) (rd rs : Fin 32) (imm : BitVec 15) (s : State) :
    IsLoad (loadOp k rd rs imm) c rs rd (coreAt s c rs (sxN 15 imm.toNat)) k s :=
  ⟨by simp [loadOp, legalRW, legalRead, legalWrite], rfl, congrArg (fun a => some (CoreAcc.load a k rd)) (eaCore_eq ..),
    fun a b => if_pos c.isLt⟩

theorem ldxOp_isLoad (c : Fin 16) (rd rs : Fin 32) (imm : BitVec 15) (s : State) :
    IsLoad (ldxOp rd (.base rs imm)) c rs rd (coreAt s c rs (sxN 15 imm.toNat)) .sample s :=
  ⟨by simp [ldxOp], rfl, congrArg (fun a => some (CoreAcc.load a .sample rd)) (eaCore_eq ..), fun _ _ => rfl⟩

/-- Settles O11: each load is the word of one load operation, and that word's clauses are those of the load. -/
theorem coreLoads_hold : Obligations.CoreLoads := by
  intro c rd rs imm s ea
  have plain (k : LoadKind) (ready : coreReady c [rs.val] s = true) := coreWord_load (loadOp_isLoad c k rd rs imm s) ready
  have sample (ready : coreReady c [rs.val] s = true) := coreWord_load (ldxOp_isLoad c rd rs imm s) ready
  exact ⟨coreLoads_of (k := .word) fun ready => congrArg Host.Outcome.next (plain .word ready),
    coreLoads_of (k := .half) fun ready => congrArg Host.Outcome.next (plain .half ready),
    coreLoads_of (k := .byte) fun ready => congrArg Host.Outcome.next (plain .byte ready),
    coreLoads_of (k := .sample) fun ready => congrArg Host.Outcome.next (sample ready)⟩

end Sys2Proof.Machine
end

section
/-! SUPPORT. The boundary at which a turn begins (R38, R51, R54, R206, R222, R269): what it takes from the turn before, and what stays. -/

namespace Sys2Proof.Machine

/-! What every boundary leaves as it was. -/

/-- Memory, harts, cores, scheduler and the sample stores between engines and sections stand as they stood. -/
structure Stays (s t : State) : Prop where
  mem : t.mem = s.mem
  wmem : t.wmem = s.wmem
  hart : t.hart = s.hart
  core : t.core = s.core
  sched : t.sched = s.sched
  outE : t.eng.outE = s.eng.outE
  inF : t.eng.inF = s.eng.inF
  chainOut : t.sect.chainOut = s.sect.chainOut
  chainRun : t.sect.chainRun = s.sect.chainRun
  pending : t.pending = s.pending

namespace Stays

variable {s t u : State}

theorem refl (s : State) : Stays s s := ⟨rfl, rfl, rfl, rfl, rfl, rfl, rfl, rfl, rfl, rfl⟩

theorem trans (h : Stays s t) (k : Stays t u) : Stays s u :=
  ⟨k.mem.trans h.mem, k.wmem.trans h.wmem, k.hart.trans h.hart, k.core.trans h.core, k.sched.trans h.sched, k.outE.trans h.outE,
    k.inF.trans h.inF, k.chainOut.trans h.chainOut, k.chainRun.trans h.chainRun, k.pending.trans h.pending⟩

/-- A state that takes only the parts that boundaries move. -/
theorem of_parts (h : t = { s with
      regs := t.regs, pwr := t.pwr, dev := t.dev, safe := t.safe, fab := t.fab, port := t.port, link := t.link, time := t.time
      guard := t.guard, timer := t.timer, free := t.free }) :
    Stays s t := by
  rw [h]; exact ⟨rfl, rfl, rfl, rfl, rfl, rfl, rfl, rfl, rfl, rfl⟩

theorem of_regs (h : RegsOnly s t) : Stays s t := by
  rw [h]; exact ⟨rfl, rfl, rfl, rfl, rfl, rfl, rfl, rfl, rfl, rfl⟩

theorem all (h : Stays s t) : t.mem = s.mem ∧ t.wmem = s.wmem ∧ t.hart = s.hart ∧ t.core = s.core ∧ t.sched = s.sched ∧
    t.eng.outE = s.eng.outE ∧ t.eng.inF = s.eng.inF ∧ t.sect.chainOut = s.sect.chainOut ∧ t.sect.chainRun = s.sect.chainRun ∧
    t.pending = s.pending :=
  ⟨h.mem, h.wmem, h.hart, h.core, h.sched, h.outE, h.inF, h.chainOut, h.chainRun, h.pending⟩

end Stays

/-! Stores. -/

theorem get_foldl_set {α : Type} [DecidableEq α] (d : Nat → α) (g : Nat → α) (N : Nat) (m : Store α) (n : Nat) :
    Store.get d ((List.range N).foldl (fun m k => Store.set d m k (g k)) m) n = if n < N then g n else Store.get d m n := by
  induction N with
  | zero => rfl
  | succ N ih =>
    rw [List.range_succ, List.foldl_append]
    simp only [List.foldl_cons, List.foldl_nil]
    by_cases h : n = N
    · subst h
      rw [Store.get_set_same, if_pos (Nat.lt_succ_self n)]
    · rw [Store.get_set_ne _ _ _ _ _ h, ih]
      by_cases lt : n < N
      · rw [if_pos lt, if_pos (Nat.lt_succ_of_lt lt)]
      · rw [if_neg lt, if_neg (by omega)]

/-! The input stage (R38, R54, R260). -/

/-- What a swap of the input stage moves. -/
structure Swapped (s t : State) : Prop where
  frame : t = { s with fab := t.fab, port := t.port, free := t.free }
  fab : t.fab = { s.fab with portIn := t.fab.portIn }

theorem Swapped.trans {s t u : State} (h : Swapped s t) (k : Swapped t u) : Swapped s u :=
  ⟨by rw [k.frame, h.frame], by rw [k.fab, h.fab]⟩

/-- One converted sample (R268). -/
def convert (s : State) (n : Nat) : State :=
  setFab { s.fab with portIn := Store.set zeroOf s.fab.portIn (asrcAddr s n) (BitVec.ofNat 24 (draw s).1) } (draw s).2

theorem asrcSamples_eq (s : State) : asrcSamples s =
    if s.dev.runs ≤ 25 then s
    else (s.asrc.on.filter (fun n => asrcDelivers s n && decide (asrcAddr s n % 16 < sapSlots s (asrcAddr s n / 16)))).foldl convert s := rfl

theorem converts_swapped (l : List Nat) (s : State) : Swapped s (l.foldl convert s) := by
  induction l generalizing s with
  | nil => exact ⟨rfl, rfl⟩
  | cons n l ih => exact .trans (t := convert s n) ⟨rfl, rfl⟩ (ih _)

theorem asrcSamples_swapped (s : State) : Swapped s (asrcSamples s) := by
  rw [asrcSamples_eq]
  split
  · exact ⟨rfl, rfl⟩
  · exact converts_swapped ..

/-- A converter writes the address of its channel, and no other. -/
theorem converts_other {a : Nat} (l : List Nat) (s : State) (h : ∀ n ∈ l, asrcAddr s n ≠ a) :
    Store.get zeroOf (l.foldl convert s).fab.portIn a = Store.get zeroOf s.fab.portIn a := by
  induction l generalizing s with
  | nil => rfl
  | cons n l ih =>
    refine (ih (convert s n) fun k hk => h k (List.mem_cons_of_mem _ hk)).trans ?_
    exact Store.get_set_ne _ _ _ _ _ (Ne.symm (h n List.mem_cons_self))

theorem asrcSamples_other {s : State} {a : Nat} (h : ∀ n ∈ s.asrc.on, asrcAddr s n ≠ a) :
    Store.get zeroOf (asrcSamples s).fab.portIn a = Store.get zeroOf s.fab.portIn a := by
  rw [asrcSamples_eq]
  split
  · rfl
  · exact converts_other _ _ fun n hn => h n (List.mem_filter.mp hn).1

/-- The captures of the ports that are not behind a converter, and of those that add no sample. -/
def directCaps (s : State) : Store Sample := s.port.cap.filter (fun e => decide (sapMode s (e.1 / 16) ≠ 2))
def inTime (s : State) (m : Store Sample) : Store Sample := m.filter (fun e => !lateIn s (e.1 / 16))

/-- The input stage holds these samples. -/
def withInputs (m : Store Sample) (s : State) : State := setFab { s.fab with portIn := m } s

/-- What the turn takes as its inputs (R54). -/
def inputsTaken (w : Swap) (s : State) : State :=
  match w with
  | .keep => s
  | .first => withInputs [] (setPort { s.port with cap := inTime s s.port.cap, capLate := [] } s)
  | .resume => asrcSamples (withInputs (inTime s (directCaps s)) s)
  | .run => asrcSamples (withInputs (directCaps s) s)

/-- The captures that came late, and the concealments, step. -/
def capturesStepped (s : State) : State :=
  let late := s.port.capLate
  let s := setPort { s.port with cap := late.foldl (fun m e => Store.set zeroOf m e.1 e.2) s.port.cap, capLate := [] } s
  setPort { s.port with left := (s.port.left.map (fun e => (e.1, e.2 - 1))).filter (fun e => e.2 != 0) } s

theorem portsSwap_eq (w : Swap) (s : State) : portsSwap w s = capturesStepped (inputsTaken w s) := by
  cases w <;> rfl

theorem portsSwap_swapped (w : Swap) (s : State) : Swapped s (portsSwap w s) := by
  rw [portsSwap_eq]
  refine .trans (t := inputsTaken w s) ?_ ⟨rfl, rfl⟩
  cases w with
  | keep => exact ⟨rfl, rfl⟩
  | first => exact ⟨rfl, rfl⟩
  | resume => exact .trans (t := withInputs (inTime s (directCaps s)) s) ⟨rfl, rfl⟩ (asrcSamples_swapped _)
  | run => exact .trans (t := withInputs (directCaps s) s) ⟨rfl, rfl⟩ (asrcSamples_swapped _)

theorem portIn_first (s : State) : (portsSwap .first s).fab.portIn = [] := rfl

theorem portIn_keep (s : State) : (portsSwap .keep s).fab.portIn = s.fab.portIn := rfl

/-- In a running turn a port that is not asynchronous delivers what it captured (R54). -/
theorem portIn_run {s : State} {a : Nat} (mode : sapMode s (a / 16) ≠ 2) (free : ∀ n ∈ s.asrc.on, asrcAddr s n ≠ a) :
    Store.get zeroOf (portsSwap .run s).fab.portIn a = Store.get zeroOf s.port.cap a := by
  rw [portsSwap_eq]
  refine (asrcSamples_other (s := withInputs (directCaps s) s) free).trans ?_
  exact (get_filter zeroOf (fun k => decide (sapMode s (k / 16) ≠ 2)) s.port.cap a).trans (if_pos (by simp [mode]))

/-! The detectors (R221 to R223). -/

/-- The registers of the silence detectors and of the wakes they ask for. -/
def silenceRegs : List RegName := [.FABRIC_SIL_STAT_w, .PWR_STATE_w, .PWR_LAST_WAKE, .PWR_LAST_WAKE_TURN, .EVT_RAW_w]

/-- Only the detectors, and what a wake changes, moved. -/
structure Detected (s t : State) : Prop where
  frame : t = { s with regs := t.regs, pwr := t.pwr, fab := t.fab }
  fab : t.fab = { s.fab with detCnt := t.fab.detCnt, loud := t.fab.loud }
  regs : OnlyRegs silenceRegs s t

namespace Detected

variable {s t u : State}

theorem refl (s : State) : Detected s s := ⟨rfl, rfl, .refl _ s⟩

theorem trans (h : Detected s t) (k : Detected t u) : Detected s u :=
  ⟨by rw [k.frame, h.frame], by rw [k.fab, h.fab], h.regs.trans k.regs⟩

theorem of_woke (h : wokeOnly s t) : Detected s t := by
  obtain ⟨frame, kept⟩ := h
  have fab : t.fab = s.fab := by rw [frame]
  refine ⟨frame.trans (by rw [fab]), by rw [fab], ⟨fun r i hr => ?_⟩⟩
  simp only [silenceRegs, List.mem_cons, List.not_mem_nil, or_false, not_or] at hr
  exact kept r i hr.2.1 hr.2.2.1 hr.2.2.2.1 hr.2.2.2.2

theorem detCnt (a n : Nat) (s : State) : Detected s (setDetCnt a n s) := ⟨rfl, rfl, .of_regs rfl⟩

theorem setSilent (a : Nat) (b : Bool) (s : State) : Detected s (setSilent a b s) :=
  ⟨rfl, rfl, .setBit (by simp [silenceRegs])⟩

theorem detQuiet (a : Nat) (s : State) : Detected s (detQuiet a s) := .trans (.detCnt ..) (.setSilent ..)

theorem detClear (a : Nat) (s : State) : Detected s (detClear a s) :=
  .trans (.trans (.detCnt a 0 s) (.setSilent a false _)) (.of_woke (detClear_woke a s))

theorem detSee (a : Nat) (s : State) : Detected s (detSee a s) := by
  unfold Machine.detSee
  split
  · exact .detQuiet ..
  · exact .detClear ..

theorem foldl {α : Type} {f : State → α → State} (h : ∀ t x, Detected t (f t x)) (xs : List α) (s : State) :
    Detected s (xs.foldl f s) := by
  induction xs generalizing s with
  | nil => exact .refl s
  | cons x xs ih => exact (h s x).trans (ih _)

theorem detBoundary (s : State) : Detected s (detBoundary s) := by
  unfold Machine.detBoundary
  extract_lets a b
  have seen : Detected s a := .foldl (fun t x => .detSee x t) ..
  have stepped : Detected a b := .foldl (fun t x => by split; exacts [.refl t, .detQuiet x t]) ..
  exact seen.trans (stepped.trans ⟨rfl, rfl, .of_regs rfl⟩)

end Detected

/-! The start of a turn. -/

/-- The probe counts the turn that begins (R67). -/
def probeNext : Probe → Probe
  | .idle => .idle
  | .armed => .running 0
  | .running k => .running (k + 1)

theorem probeTurn_eq (s : State) :
    probeTurn s = setDev { s.dev with probe := probeNext s.dev.probe, marker := decide (s.dev.probe = .armed) } s := by
  unfold probeTurn
  split <;> (rename_i h; simp [h, probeNext])

/-- The registers that the start of a turn moves. -/
def turnRegs : List RegName := .ASRC_LOCK_w :: silenceRegs

/-- The constants and tone levels that a turn takes (R206). -/
def constsTaken (s : State) (F : FabState) : Prop :=
  F = { s.fab with const := F.const, level := F.level } ∧
  (∀ n : Fin 32, Store.get zeroOf F.const n = s.reg .FABRIC_CONST_n n) ∧
  ∀ n : Fin 8, Store.get zeroOf F.level n = s.reg .FABRIC_TONE_n_LEVEL n

theorem constsLatch_taken (s : State) : constsTaken s (constsLatch s).fab :=
  ⟨rfl, fun n => (get_foldl_set zeroOf (fun n => s.reg .FABRIC_CONST_n n) 32 s.fab.const n).trans (if_pos n.isLt),
    fun n => (get_foldl_set zeroOf (fun n => s.reg .FABRIC_TONE_n_LEVEL n) 8 s.fab.level n).trans (if_pos n.isLt)⟩

/-- The count of turns, the converters and the probe, before the stages move. -/
structure TurnCounted (s c : State) : Prop where
  frame : c = { s with regs := c.regs, dev := c.dev, safe := c.safe }
  dev : c.dev = { s.dev with runs := s.dev.runs + 1, probe := probeNext s.dev.probe, marker := decide (s.dev.probe = .armed) }
  safe : c.safe = { s.safe with strokes := c.safe.strokes }
  regs : OnlyRegs [.ASRC_LOCK_w] s c

theorem turnCounted_of {s a b c : State}
    (count : a = { s with dev := { s.dev with runs := s.dev.runs + 1 }, safe := { s.safe with strokes := a.safe.strokes } })
    (lock : RegsOnly a b) (locks : OnlyRegs [.ASRC_LOCK_w] a b)
    (probe : c = setDev { b.dev with probe := probeNext b.dev.probe, marker := decide (b.dev.probe = .armed) } b) : TurnCounted s c := by
  have dev : b.dev = { s.dev with runs := s.dev.runs + 1 } := by rw [lock, count]
  have strokes : b.safe = { s.safe with strokes := a.safe.strokes } := by rw [lock, count]
  have frame : b = { s with regs := b.regs, dev := b.dev, safe := b.safe } := by rw [lock, count]
  have safe : b.safe = { s.safe with strokes := b.safe.strokes } := by rw [strokes]
  subst probe
  refine ⟨?_, by rw [dev]; rfl, safe, .trans (.of_regs (by rw [count])) (locks.trans (.of_regs rfl))⟩
  rw [frame]; rfl

theorem turnCounted (s : State) :
    TurnCounted s (probeTurn (asrcBoundary (strokesTurn (setDev { s.dev with runs := s.dev.runs + 1 } s)))) :=
  turnCounted_of rfl (asrcShow_parts true _).1 (asrcShow_parts true _).2 (probeTurn_eq _)

/-- The stages have moved: inputs delivered, constants taken, outputs loaded, detectors stepped. -/
structure StagesMoved (w : Swap) (c g : State) : Prop where
  frame : g = { c with regs := g.regs, pwr := g.pwr, fab := g.fab, port := g.port, link := g.link, free := g.free }
  regs : OnlyRegs silenceRegs c g
  portIn : g.fab.portIn = (portsSwap w c).fab.portIn
  fab : g.fab = { c.fab with
    portIn := g.fab.portIn, const := g.fab.const, level := g.fab.level, detCnt := g.fab.detCnt, loud := g.fab.loud }
  stage : g.port.stage = c.fab.portOut
  const : ∀ n : Fin 32, Store.get zeroOf g.fab.const n = c.reg .FABRIC_CONST_n n
  level : ∀ n : Fin 8, Store.get zeroOf g.fab.level n = c.reg .FABRIC_TONE_n_LEVEL n

theorem stagesMoved_of {w : Swap} {c d e f g : State} (from_ : d = portsSwap w c) (swap : Swapped c d)
    (latch : e = setFab e.fab d) (taken : constsTaken d e.fab) (seen : Detected e f)
    (load : g = { f with port := { f.port with stage := f.fab.portOut }, link := g.link }) : StagesMoved w c g := by
  obtain ⟨consts, const, level⟩ := taken
  have fabF : f.fab = { c.fab with
      portIn := d.fab.portIn, const := e.fab.const, level := e.fab.level, detCnt := f.fab.detCnt, loud := f.fab.loud } := by
    rw [seen.fab, consts, swap.fab]
  have fabG : g.fab = f.fab := by rw [load]
  have frameD : d = { c with fab := d.fab, port := d.port, free := d.free } := swap.frame
  have frameE : e = { c with fab := e.fab, port := d.port, free := d.free } := by
    rw [latch, frameD]; rfl
  have regsD (r : RegName) (i : Nat) : d.reg r i = c.reg r i := by rw [frameD]; rfl
  refine ⟨?_, ?_, ?_, ?_, ?_, fun n => ?_, fun n => ?_⟩
  · rw [load, seen.frame, frameE]
  · exact .trans (t := e) (.of_regs (by rw [frameE])) (seen.regs.trans (.of_regs (by rw [load])))
  · rw [fabG, fabF, ← from_]
  · rw [fabG, fabF]
  · rw [load]
    show f.fab.portOut = _
    rw [fabF]
  · rw [fabG, fabF]; exact (const n).trans (regsD ..)
  · rw [fabG, fabF]; exact (level n).trans (regsD ..)

theorem stagesMoved (w : Swap) (c : State) : StagesMoved w c (linksLoad (portsLoad (detBoundary (constsLatch (portsSwap w c))))) :=
  stagesMoved_of rfl (portsSwap_swapped w c) rfl (constsLatch_taken _) (.detBoundary _) rfl

/-- A turn has begun, its inputs taken as w says. -/
structure TurnBegun (w : Swap) (s t : State) : Prop where
  stays : Stays s t
  time : t.time = s.time
  safe : t.safe = { s.safe with strokes := t.safe.strokes }
  dev : t.dev = { s.dev with runs := s.dev.runs + 1, probe := probeNext s.dev.probe, marker := decide (s.dev.probe = .armed) }
  regs : OnlyRegs turnRegs s t
  stage : t.port.stage = s.fab.portOut
  const : ∀ n : Fin 32, Store.get zeroOf t.fab.const n = s.reg .FABRIC_CONST_n n
  level : ∀ n : Fin 8, Store.get zeroOf t.fab.level n = s.reg .FABRIC_TONE_n_LEVEL n
  phase : t.fab.phase = s.fab.phase
  hold : t.fab.hold = s.fab.hold
  portIn : ∃ c, TurnCounted s c ∧ t.fab.portIn = (portsSwap w c).fab.portIn

theorem turnBegun_of {w : Swap} {s c t : State} (counted : TurnCounted s c) (moved : StagesMoved w c t) : TurnBegun w s t := by
  have whole : t = { s with regs := t.regs, pwr := t.pwr, dev := t.dev, safe := t.safe, fab := t.fab, port := t.port, link := t.link
                            free := t.free } := by
    rw [moved.frame, counted.frame]
  have fab : c.fab = s.fab := by rw [counted.frame]
  have dev : t.dev = c.dev := by rw [moved.frame]
  have safe : t.safe = c.safe := by rw [moved.frame]
  have kept (r : RegName) (i : Nat) (h : r ∉ [RegName.ASRC_LOCK_w] := by simp) : c.reg r i = s.reg r i := counted.regs.reg r i h
  refine ⟨.of_parts ?_, by rw [whole], by rw [safe, counted.safe], by rw [dev, counted.dev], ?_, by rw [moved.stage, fab],
    fun n => (moved.const n).trans (kept ..), fun n => (moved.level n).trans (kept ..), ?_, ?_, c, counted, moved.portIn⟩
  · rw [whole]
  · exact .trans (t := c) (counted.regs.mono (by simp [turnRegs])) (moved.regs.mono (by simp +contextual [turnRegs]))
  · rw [moved.fab, fab]
  · rw [moved.fab, fab]

theorem beginTurn_begun (w : Swap) (s : State) : TurnBegun w s (beginTurn w s) := turnBegun_of (turnCounted s) (stagesMoved w _)

end Sys2Proof.Machine
end

section
/-! SUPPORT. A boundary at which no turns run (R30, R36, R383): turns start or resume, or nothing moves. -/

namespace Sys2Proof.Machine

/-! What SYS_STATE alone decides. -/

section
variable {s t : State} (word : t.reg .SYS_STATE 0 = s.reg .SYS_STATE 0)
include word

theorem f_state (hi lo : Nat) : t.f .SYS_STATE 0 hi lo = s.f .SYS_STATE 0 hi lo := by unfold State.f; rw [word]
theorem bit_state (b : Nat) : t.bit .SYS_STATE 0 b = s.bit .SYS_STATE 0 b := by unfold State.bit; rw [word]
theorem sysState_congr : sysState t = sysState s := f_state word 3 0
theorem effState_congr : effState t = effState s := by unfold effState; rw [sysState_congr word, f_state word 19 16]
theorem turnsOn_congr : turnsOn t = turnsOn s := bit_state word 5
theorem holdCause_congr : holdCause t = holdCause s := f_state word 23 20
theorem inTest_congr (rom : t.dev.testRom = s.dev.testRom) : inTest t = inTest s := by unfold inTest; rw [sysState_congr word, rom]

end

theorem effState_putBit {s t : State} {b : Nat} {x : Bool} (hb : b = 4 ∨ b = 5)
    (word : t.reg .SYS_STATE 0 = putBit (s.reg .SYS_STATE 0) b x) : effState t = effState s := by
  have low : sysState t = sysState s := by
    rw [sysState, State.f, word, fld_putBit_ne _ _ _ _ _ (by omega) (by omega)]; rfl
  have high : t.f .SYS_STATE 0 19 16 = s.f .SYS_STATE 0 19 16 := by
    rw [State.f, word, fld_putBit_ne _ _ _ _ _ (by omega) (by omega)]; rfl
  unfold effState; rw [low, high]

/-- The word of SYS_STATE with turns running and outputs open, or the reverse. -/
def turnsWord (on muted : Bool) (w : Word) : Word := putBit (putBit w 5 on) 4 muted

theorem reg_turnsShown (on muted : Bool) (s : State) :
    (setMuted muted (setTurns on s)).reg .SYS_STATE 0 = turnsWord on muted (s.reg .SYS_STATE 0) := by
  rw [setMuted, reg_setBit, if_pos ⟨rfl, rfl⟩, setTurns, reg_setBit, if_pos ⟨rfl, rfl⟩]; rfl

theorem turnsWord_parts {s t : State} {on muted : Bool} (word : t.reg .SYS_STATE 0 = turnsWord on muted (s.reg .SYS_STATE 0)) :
    turnsOn t = on ∧ t.bit .SYS_STATE 0 4 = muted ∧ effState t = effState s := by
  refine ⟨?_, ?_, ?_⟩
  · rw [turnsOn, State.bit, word, turnsWord, bitOf_putBit_ne _ _ _ _ (by decide) (by decide)]
    exact bitOf_putBit_same _ _ _ (by decide)
  · rw [State.bit, word]
    exact bitOf_putBit_same _ _ _ (by decide)
  · have first := effState_putBit (s := s) (t := setTurns on s) (.inr rfl) (by rw [setTurns, reg_setBit, if_pos ⟨rfl, rfl⟩])
    refine (effState_putBit (s := setTurns on s) (x := muted) (.inl rfl) ?_).trans first
    rw [word, setTurns, reg_setBit, if_pos ⟨rfl, rfl⟩]; rfl

/-- A transition that an event makes stands where the event looks. -/
theorem effState_enterEff (n : Nat) (s : State) (hn : n < 16) (other : n ≠ St.SERVICE) : effState (enterEff n s) = n := by
  unfold enterEff
  split
  case isTrue service =>
    have state : sysState (s.setF .SYS_STATE 0 19 16 n) = St.SERVICE := by
      rw [sysState, State.f, reg_setF, if_pos ⟨rfl, rfl⟩, fld_setFld_ne _ _ _ _ _ _ (by decide) (by decide) (by decide)]; exact service
    rw [effState, if_pos state, f_setF_same _ _ _ _ _ _ (by decide) (by decide)]
    exact Nat.mod_eq_of_lt hn
  case isFalse =>
    have state : sysState (enter n s) = n := by
      rw [enter, sysState, f_setF_same _ _ _ _ _ _ (by decide) (by decide)]; exact Nat.mod_eq_of_lt hn
    rw [effState, if_neg (by rw [state]; exact other), state]

/-- A transition leaves the low flags of SYS_STATE. -/
theorem bit_enterEff (n : Nat) (s : State) (b : Nat) (hb : 3 < b ∧ b < 16) :
    (enterEff n s).bit .SYS_STATE 0 b = s.bit .SYS_STATE 0 b := by
  have prev (v : Nat) (u : State) : (u.setF .SYS_STATE 0 19 16 v).bit .SYS_STATE 0 b = u.bit .SYS_STATE 0 b := by
    rw [State.bit, reg_setF, if_pos ⟨rfl, rfl⟩, bitOf_setFld_ne _ _ _ _ _ (by decide) (by decide) (by omega)]; rfl
  unfold enterEff
  split
  · exact prev n s
  · rw [enter, State.bit, reg_setF, if_pos ⟨rfl, rfl⟩, bitOf_setFld_ne _ _ _ _ _ (by decide) (by decide) (by omega)]
    exact prev (sysState s) s

/-! Turns start or resume (R30, R59, R61). -/

/-- The device's own state as turns go. -/
def goingDev (s : State) : DevState :=
  { s.dev with starting := false, first := if s.dev.starting then s.time.turn else s.dev.first,
               runs := if s.dev.starting then 0 else s.dev.runs, freeze := false, cutPast := false, swapped := [],
               exchanged := [], started := [], relockEnd := false, exch := [] }

/-- Turns run, with nothing under way from before. -/
def turnsShown (s : State) : State :=
  let u := setDev (goingDev s) (setMuted false (setTurns true s))
  { u with link := { u.link with rx := [], due := [] }, time := { u.time with clk := 0 } }

theorem turnsGo_eq (s : State) : turnsGo s = beginTurn (if s.dev.starting then .first else .resume) (turnsShown s) := rfl

theorem turnsShown_parts (s : State) :
    Stays s (turnsShown s) ∧ (turnsShown s).time = { s.time with clk := 0 } ∧ (turnsShown s).dev = goingDev s ∧
    (turnsShown s).fab = s.fab ∧ OnlyRegs [.SYS_STATE] s (turnsShown s) ∧
    (turnsShown s).reg .SYS_STATE 0 = turnsWord true false (s.reg .SYS_STATE 0) := by
  have shown : RegsOnly s (setMuted false (setTurns true s)) := .trans (.setBit ..) (.setBit ..)
  have regs : OnlyRegs [.SYS_STATE] s (setMuted false (setTurns true s)) := .trans (t := setTurns true s) .setBit .setBit
  refine ⟨.trans (t := setMuted false (setTurns true s)) (.of_regs shown) (.of_parts rfl), ?_, rfl, ?_,
    .trans (t := setMuted false (setTurns true s)) regs (.of_regs rfl), reg_turnsShown true false s⟩
  · have time : (setMuted false (setTurns true s)).time = s.time := by rw [shown]
    exact congrArg (fun x : TimeState => { x with clk := 0 }) time
  · have fab : (setMuted false (setTurns true s)).fab = s.fab := by rw [shown]
    exact fab

/-- Turns go on from s. -/
structure TurnsGone (s t : State) : Prop where
  stays : Stays s t
  time : t.time = { s.time with clk := 0 }
  on : turnsOn t = true
  open' : t.bit .SYS_STATE 0 4 = false
  state : effState t = effState s
  dev : t.dev = { goingDev s with
    runs := (goingDev s).runs + 1, probe := probeNext s.dev.probe, marker := decide (s.dev.probe = .armed) }
  stage : t.port.stage = s.fab.portOut
  const : ∀ n : Fin 32, Store.get zeroOf t.fab.const n = s.reg .FABRIC_CONST_n n
  level : ∀ n : Fin 8, Store.get zeroOf t.fab.level n = s.reg .FABRIC_TONE_n_LEVEL n
  inputs : s.dev.starting = true → t.fab.portIn = []

theorem turnsGone_of {s u t : State} {w : Swap} (first : s.dev.starting = true → w = .first) (stays : Stays s u)
    (time : u.time = { s.time with clk := 0 }) (dev : u.dev = goingDev s) (fab : u.fab = s.fab) (regs : OnlyRegs [.SYS_STATE] s u)
    (word : u.reg .SYS_STATE 0 = turnsWord true false (s.reg .SYS_STATE 0)) (begun : TurnBegun w u t) : TurnsGone s t := by
  have same : t.reg .SYS_STATE 0 = u.reg .SYS_STATE 0 := begun.regs.reg _ _ (by simp [turnRegs, silenceRegs])
  obtain ⟨on, muted, state⟩ := turnsWord_parts (same.trans word)
  refine ⟨stays.trans begun.stays, begun.time.trans time, on, muted, state, ?_, by rw [begun.stage, fab],
    fun n => (begun.const n).trans (regs.reg _ _ (by simp)), fun n => (begun.level n).trans (regs.reg _ _ (by simp)), fun starts => ?_⟩
  · rw [begun.dev, dev]; rfl
  · obtain ⟨c, _, taken⟩ := begun.portIn
    rw [taken, first starts]; rfl

theorem turnsGo_gone (s : State) : TurnsGone s (turnsGo s) := by
  obtain ⟨stays, time, dev, fab, regs, word⟩ := turnsShown_parts s
  rw [turnsGo_eq]
  exact turnsGone_of (fun starts => if_pos starts) stays time dev fab regs word (beginTurn_begun ..)

/-! The boundary while turns are stopped. -/

/-- The links have counted the boundary, no correction stands over it, and what waited for it has acted. -/
def idleActed (s : State) : State :=
  let s := linksBoundary s
  let s := setEng { s.eng with corrected := [] } s
  let acts := s.dev.pendCut
  actsNow acts (setDev { s.dev with pendCut := [] } s)

/-- Turns start or resume, or the input stage alone steps. -/
def idleNext (s : State) : State :=
  if turnsNext s then turnsGo (if effState s = St.HOLD then enterEff St.RUN s else s)
  else portsSwap .keep (if startWaits s && effState s == St.RUN then enterEff St.HOLD s else s)

theorem idleTurn_eq (s : State) : idleTurn s = idleNext (idleActed s) := rfl

/-- What waited for the boundary is in hand. -/
def idled (s : State) : State :=
  let s := linksBoundary (nextGrid s)
  let s := setEng { s.eng with corrected := [] } s
  setDev { s.dev with pendCut := [] } s

/-- The time of the next boundary (R48, R51). -/
def nextTime (s : State) : TimeState :=
  { s.time with clk := 0, grid := s.time.grid + 1, hub := s.time.hub + (max (turnLen s) s.time.clk / 2 - s.time.clk / 2) }

theorem nextGrid_eq (s : State) : nextGrid s = { s with time := nextTime s } := by
  unfold nextGrid setClk nextTime; rfl

theorem linksBoundary_frame (s : State) : linksBoundary s = { s with link := (linksBoundary s).link } := by
  unfold linksBoundary; rfl

theorem idled_eq (s : State) : idled s = { s with
    time := nextTime s, link := (linksBoundary (nextGrid s)).link, eng := { s.eng with corrected := [] }
    dev := { s.dev with pendCut := [] } } := by
  unfold idled
  rw [linksBoundary_frame, nextGrid_eq]
  rfl

theorem idleActed_eq (s : State) : idleActed (nextGrid s) = actsNow s.dev.pendCut (idled s) := by
  unfold idleActed idled
  rw [linksBoundary_frame, nextGrid_eq]
  rfl

theorem idled_parts (s : State) :
    Stays s (idled s) ∧ (idled s).time = nextTime s ∧ (idled s).dev = { s.dev with pendCut := [] } ∧ (idled s).fab = s.fab ∧
    (idled s).regs = s.regs := by
  rw [idled_eq]
  exact ⟨⟨rfl, rfl, rfl, rfl, rfl, rfl, rfl, rfl, rfl, rfl⟩, rfl, rfl, rfl, rfl⟩

/-- A boundary while turns are stopped. -/
theorem boundary_idle {s : State} (live : alive s = true) (off : turnsOn s = false) :
    exec .boundary s = .next (idleNext (actsNow s.dev.pendCut (idled s))) := by
  rw [← idleActed_eq, ← idleTurn_eq]
  have step : boundary s = idleTurn (nextGrid s) := by
    unfold boundary
    rw [live, off]; rfl
  exact congrArg Host.Outcome.next step

section
variable {s t : State} (word : t.reg .SYS_STATE 0 = s.reg .SYS_STATE 0)
include word

theorem startWaits_congr (starting : t.dev.starting = s.dev.starting) : startWaits t = startWaits s := by
  unfold startWaits; rw [starting, bit_state word]

theorem turnsNext_congr (starting : t.dev.starting = s.dev.starting) (rom : t.dev.testRom = s.dev.testRom) :
    turnsNext t = turnsNext s := by
  unfold turnsNext
  rw [starting, effState_congr word, startWaits_congr word starting, inTest_congr word rom, holdCause_congr word]

end

/-- What a boundary while turns are stopped has moved before anything goes on. -/
structure IdleMoved (s v : State) : Prop where
  stays : Stays s v
  time : v.time = nextTime s
  dev : v.dev = { s.dev with pendCut := [] }
  fab : v.fab = s.fab
  regs : OnlyRegs [.SYS_STATE] s v

theorem idled_moved (s : State) : IdleMoved s (idled s) := by
  obtain ⟨stays, time, dev, fab, regs⟩ := idled_parts s
  exact ⟨stays, time, dev, fab, .of_regs regs⟩

theorem IdleMoved.enterEff {s v : State} (h : IdleMoved s v) (n : Nat) : IdleMoved s (enterEff n v) := by
  obtain ⟨regs, only⟩ := enterEff_parts n v
  exact ⟨h.stays.trans (.of_regs regs), by rw [regs]; exact h.time, by rw [regs]; exact h.dev, by rw [regs]; exact h.fab,
    h.regs.trans only⟩

theorem idled_word (s : State) : (idled s).reg .SYS_STATE 0 = s.reg .SYS_STATE 0 := reg_congr (idled_parts s).2.2.2.2 _ _

theorem turnsNext_idled (s : State) : turnsNext (idled s) = turnsNext s := by
  have dev := (idled_moved s).dev
  exact turnsNext_congr (idled_word s) (by rw [dev]) (by rw [dev])

theorem startWaits_idled (s : State) : startWaits (idled s) = startWaits s :=
  startWaits_congr (idled_word s) (by rw [(idled_moved s).dev])

/-- Turns go on at this boundary. -/
theorem idle_goes {s : State} (live : alive s = true) (off : turnsOn s = false) (nothing : s.dev.pendCut = []) (next : turnsNext s = true) :
    ∃ v t, exec .boundary s = .next t ∧ IdleMoved s v ∧ TurnsGone v t ∧
      effState t = (if effState s = St.HOLD then St.RUN else effState s) := by
  have state : effState (idled s) = effState s := effState_congr (idled_word s)
  refine ⟨if effState (idled s) = St.HOLD then enterEff St.RUN (idled s) else idled s, _, boundary_idle live off, ?_, ?_, ?_⟩
  · split
    · exact (idled_moved s).enterEff _
    · exact idled_moved s
  · rw [nothing]
    have go : turnsNext (idled s) = true := (turnsNext_idled s).trans next
    have step : idleNext (actsNow [] (idled s)) =
        turnsGo (if effState (idled s) = St.HOLD then enterEff St.RUN (idled s) else idled s) := if_pos go
    rw [step]
    exact turnsGo_gone _
  · rw [nothing]
    have go : turnsNext (idled s) = true := (turnsNext_idled s).trans next
    have step : idleNext (actsNow [] (idled s)) =
        turnsGo (if effState (idled s) = St.HOLD then enterEff St.RUN (idled s) else idled s) := if_pos go
    rw [step, (turnsGo_gone _).state, state]
    split
    · exact effState_enterEff _ _ (by decide) (by decide)
    · exact state

/-- Turns stay as they are. -/
theorem idle_stays {s v : State} (live : alive s = true) (off : turnsOn s = false) (acted : actsNow s.dev.pendCut (idled s) = v)
    (next : turnsNext v = false) :
    exec .boundary s = .next (portsSwap .keep (if startWaits v && effState v == St.RUN then enterEff St.HOLD v else v)) := by
  rw [boundary_idle live off, acted]
  exact congrArg Host.Outcome.next (if_neg (by rw [next]; exact Bool.false_ne_true))

/-! The clauses. -/

/-- The grid stands at the next boundary. -/
def AtBoundary (s t : State) : Prop :=
  t.time.clk = 0 ∧ t.time.grid = s.time.grid + 1 ∧ t.time.hub = s.time.hub + (max (turnLen s) s.time.clk / 2 - s.time.clk / 2)

theorem atBoundary_of {s t : State} (h : t.time = nextTime s) : AtBoundary s t := by
  rw [AtBoundary, h]; exact ⟨rfl, rfl, rfl⟩

/-- A turn that freeze or hold stopped may go on (R36, R483). -/
def resumable (s : State) : Prop := (effState s = St.HOLD ∨ inTest s = true) ∧ holdCause s = 0

theorem turnsNext_iff (s : State) : turnsNext s = true ↔
    (s.dev.starting = true ∧ effState s ≠ St.HOLD ∧ s.bit .SYS_STATE 0 21 = false) ∨ resumable s := by
  unfold turnsNext startWaits resumable Hold.RELOCK
  cases s.dev.starting <;> simp

/-- The turn that starts, or goes on, at a boundary of stopped turns. -/
structure Resumed (s t : State) : Prop where
  at' : AtBoundary s t
  on : turnsOn t = true
  open' : t.bit .SYS_STATE 0 4 = false
  dev : t.dev.cutPast = false ∧ t.dev.freeze = false ∧ t.dev.swapped = [] ∧ t.dev.exchanged = [] ∧ t.dev.started = [] ∧
    t.dev.starting = false
  loads : t.port.stage = s.fab.portOut ∧ (∀ n : Fin 32, Store.get zeroOf t.fab.const n = s.reg .FABRIC_CONST_n n) ∧
    ∀ n : Fin 8, Store.get zeroOf t.fab.level n = s.reg .FABRIC_TONE_n_LEVEL n
  stays : Stays s t
  turn : t.time.turn = s.time.turn
  first : t.dev.first = if s.dev.starting then s.time.turn else s.dev.first
  inputs : s.dev.starting = true → t.fab.portIn = []
  state : effState t = (if effState s = St.HOLD then St.RUN else effState s)

theorem resumed_of {s v t : State} (moved : IdleMoved s v) (gone : TurnsGone v t)
    (state : effState t = (if effState s = St.HOLD then St.RUN else effState s)) : Resumed s t := by
  have starting : v.dev.starting = s.dev.starting := by rw [moved.dev]
  have time : t.time = nextTime s := by rw [gone.time, moved.time]; rfl
  have first : t.dev.first = if v.dev.starting then v.time.turn else v.dev.first := by rw [gone.dev]; rfl
  refine ⟨atBoundary_of time, gone.on, gone.open', by rw [gone.dev]; exact ⟨rfl, rfl, rfl, rfl, rfl, rfl⟩,
    ⟨by rw [gone.stage, moved.fab], fun n => (gone.const n).trans (moved.regs.reg _ _ (by simp)),
      fun n => (gone.level n).trans (moved.regs.reg _ _ (by simp))⟩,
    moved.stays.trans gone.stays, by rw [time]; rfl, ?_, fun starts => gone.inputs (starting.trans starts), state⟩
  rw [first, starting, moved.time, moved.dev]; rfl

theorem boundary_resumes {s : State} (live : alive s = true) (off : turnsOn s = false) (nothing : s.dev.pendCut = [])
    (next : turnsNext s = true) : gives .boundary s (Resumed s) := by
  obtain ⟨v, t, does, moved, gone, state⟩ := idle_goes live off nothing next
  exact ⟨t, does, resumed_of moved gone state⟩

/-- A boundary of stopped turns at which nothing goes on. -/
structure Idles (s t : State) : Prop where
  at' : AtBoundary s t
  stays : Stays s t
  turn : t.time.turn = s.time.turn
  inputs : t.fab.portIn = s.fab.portIn

theorem idles_of {s v w : State} (stays : Stays s v) (time : v.time = nextTime s) (fab : v.fab = s.fab) (regs : RegsOnly v w) :
    Idles s (portsSwap .keep w) ∧ (portsSwap .keep w).dev = v.dev ∧ (portsSwap .keep w).regs = w.regs := by
  have swap := portsSwap_swapped .keep w
  have moved : (portsSwap .keep w).time = nextTime s := by rw [swap.frame, regs]; exact time
  refine ⟨⟨atBoundary_of moved, .trans (stays.trans (.of_regs regs)) (.of_parts ?_), by rw [moved]; rfl, ?_⟩, ?_, ?_⟩
  · rw [swap.frame]
  · rw [portIn_keep, regs]; exact congrArg FabState.portIn fab
  · rw [swap.frame, regs]
  · rw [swap.frame]

theorem boundary_idles {s : State} (live : alive s = true) (off : turnsOn s = false) (nothing : s.dev.pendCut = [])
    (still : turnsNext s = false) : gives .boundary s (fun t => Idles s t ∧ turnsOn t = false ∧ t.dev.starting = s.dev.starting ∧
      (if s.dev.starting = true ∧ s.bit .SYS_STATE 0 21 = true ∧ effState s = St.RUN then effState t = St.HOLD
        else t.reg .SYS_STATE 0 = s.reg .SYS_STATE 0)) := by
  have does := idle_stays live off (v := idled s) (by rw [nothing]; rfl) ((turnsNext_idled s).trans still)
  have moved := idled_moved s
  have word := idled_word s
  have waits : (startWaits (idled s) && effState (idled s) == St.RUN) = true ↔
      s.dev.starting = true ∧ s.bit .SYS_STATE 0 21 = true ∧ effState s = St.RUN := by
    rw [startWaits_idled, effState_congr word, startWaits, Bool.and_eq_true, Bool.and_eq_true, beq_iff_eq, and_assoc]
    exact Iff.rfl
  refine ⟨_, does, ?_⟩
  by_cases locked : s.dev.starting = true ∧ s.bit .SYS_STATE 0 21 = true ∧ effState s = St.RUN
  · rw [if_pos (waits.mpr locked)]
    obtain ⟨regs, only⟩ := enterEff_parts St.HOLD (idled s)
    obtain ⟨idles, dev, same⟩ := idles_of moved.stays moved.time moved.fab regs
    have kept : (enterEff St.HOLD (idled s)).bit .SYS_STATE 0 5 = s.bit .SYS_STATE 0 5 :=
      (bit_enterEff St.HOLD (idled s) 5 (by decide)).trans (bit_state word 5)
    refine ⟨idles, (bit_congr same ..).trans (kept.trans off), by rw [dev, moved.dev], ?_⟩
    rw [if_pos locked, effState_congr (reg_congr same ..)]
    exact effState_enterEff _ _ (by decide) (by decide)
  · rw [if_neg (fun h => locked (waits.mp h))]
    obtain ⟨idles, dev, same⟩ := idles_of moved.stays moved.time moved.fab (.refl (idled s))
    have shown : (portsSwap .keep (idled s)).reg .SYS_STATE 0 = s.reg .SYS_STATE 0 := (reg_congr same ..).trans word
    refine ⟨idles, (turnsOn_congr shown).trans off, by rw [dev, moved.dev], ?_⟩
    rw [if_neg locked]
    exact shown

end Sys2Proof.Machine
end

section
/-! SUPPORT. A boundary of running turns, up to where the turn begins or stops (R48, R56, R59, R180, R184, R206). -/

namespace Sys2Proof.Machine

/-! DISARM has its effect (R30, R35). -/

/-- The device's own state once DISARM has acted. -/
def armedDev (s : State) : DevState :=
  { s.dev with starting := false, pendNew := s.dev.pendNew.filter (fun a => !actRequest a),
               pendCut := s.dev.pendCut.filter (fun a => !actRequest a) }

/-- ARMED, turns stopped, outputs muted. -/
structure Armed (s t : State) : Prop where
  frame : t = { s with regs := t.regs, dev := armedDev s }
  regs : OnlyRegs [.SYS_STATE] s t
  off : turnsOn t = false
  muted : t.bit .SYS_STATE 0 4 = true
  state : effState t = St.ARMED

theorem armed_of {s a b c : State} (dev : a = setDev (armedDev s) s) (entered : RegsOnly a b) (only : OnlyRegs [.SYS_STATE] a b)
    (state : effState b = St.ARMED) (shown : RegsOnly b c) (onlyShown : OnlyRegs [.SYS_STATE] b c)
    (word : c.reg .SYS_STATE 0 = turnsWord false true (b.reg .SYS_STATE 0)) : Armed s c := by
  obtain ⟨off, muted, same⟩ := turnsWord_parts word
  refine ⟨?_, .trans (t := a) (.of_regs (by rw [dev]; rfl)) (only.trans onlyShown), off, muted, same.trans state⟩
  rw [shown, entered, dev]; rfl

theorem armedFrom_armed (s : State) : Armed s (armedFrom s) := by
  obtain ⟨entered, only⟩ := enterEff_parts St.ARMED (setDev (armedDev s) s)
  exact armed_of rfl entered only (effState_enterEff _ _ (by decide) (by decide)) (.trans (.setBit ..) (.setBit ..))
    (.trans (t := setTurns false (enterEff St.ARMED (setDev (armedDev s) s))) .setBit .setBit) (reg_turnsShown ..)

/-- DISARM in RUN or HOLD. -/
theorem actNow_disarm {s : State} (h : effState s = St.RUN ∨ effState s = St.HOLD) : Armed s (actNow .disarm s) := by
  have notTest : sysState s ≠ St.TEST := fun test => by
    have state : effState s = St.TEST := by rw [effState, test]; exact if_neg (by decide)
    rw [state] at h
    exact absurd h (by decide)
  have acts : actNow .disarm s = toArmed s := if_pos h
  rw [acts, toArmed_eq, if_neg notTest]
  exact armedFrom_armed s

theorem boundary_disarmed {s : State} (live : alive s = true) (off : turnsOn s = false) (waits : s.dev.pendCut = [.disarm])
    (hold : effState s = St.HOLD) : gives .boundary s (fun t => Idles s t ∧ turnsOn t = false ∧ effState t = St.ARMED ∧
      t.bit .SYS_STATE 0 4 = true ∧ t.dev.pendCut = []) := by
  have moved := idled_moved s
  have armed : Armed (idled s) (actNow .disarm (idled s)) := actNow_disarm (.inr ((effState_congr (idled_word s)).trans hold))
  have acted : actsNow s.dev.pendCut (idled s) = actNow .disarm (idled s) := by rw [waits]; rfl
  generalize actNow .disarm (idled s) = v at armed acted
  have dev : v.dev = armedDev (idled s) := by rw [armed.frame]
  have notTest : inTest v = false := by
    by_contra test
    have state : sysState v = St.TEST := by
      simp only [inTest, Bool.not_eq_false, Bool.and_eq_true, beq_iff_eq] at test; exact test.1
    have : effState v = St.TEST := by rw [effState, state]; exact if_neg (by decide)
    exact absurd (armed.state.symm.trans this) (by decide)
  have still : turnsNext v = false := by
    unfold turnsNext
    rw [dev, armed.state, notTest]; rfl
  have does := idle_stays live off acted still
  have no : (startWaits v && effState v == St.RUN) = false := by
    rw [armed.state]; exact Bool.and_false _
  rw [if_neg (by rw [no]; exact Bool.false_ne_true)] at does
  obtain ⟨idles, devKept, same⟩ := idles_of (s := s) (v := v) (w := v) (moved.stays.trans (.of_parts (by rw [armed.frame])))
    (by rw [armed.frame]; exact moved.time) (by rw [armed.frame]; exact moved.fab) (.refl v)
  have word := reg_congr same .SYS_STATE 0
  refine ⟨_, does, idles, (turnsOn_congr word).trans armed.off, (effState_congr word).trans armed.state,
    (bit_state word 4).trans armed.muted, ?_⟩
  rw [devKept, dev, armedDev, moved.dev]; rfl

/-! The turn that ends (R48, R56, R59, R206). -/

/-- The turn that ends has been counted, by the grid, the links, the tones, the ramp and the timers. -/
def turnEnded (s : State) : State :=
  let s := exchangeLate s
  let s := nextGrid { s with time := { s.time with turn := s.time.turn + 1 } }
  let s := setDev { s.dev with cutPast := false, pendCut := [], swapped := [], exchanged := [], started := [] } s
  timersBoundary (rampBoundary (tonesAdvance (linksBoundary s)))

/-- Where no cluster wakes, none has its exchange late. -/
theorem exchangeLate_none {s : State} (h : s.pwr.wake = []) : exchangeLate s = setDev { s.dev with late := [] } s := by
  have none : (List.range 8).filter (fun c => !s.dev.exchanged.contains c && !quiescent s c && s.pwr.wake.any (fun w => w.1 == 6 + c)) = [] := by
    simp [h]
  unfold exchangeLate
  rw [none]
  rfl

def rampRegs : List RegName := [.SYNTH_RAMP_OFFSET, .SYNTH_RAMP_STAT]

theorem rampBoundary_parts (s : State) : RegsOnly s (rampBoundary s) ∧ OnlyRegs rampRegs s (rampBoundary s) := by
  unfold rampBoundary
  split
  · exact ⟨.trans (.setReg ..) (.setF ..), .trans (.setReg (by simp [rampRegs])) (.setF (by simp [rampRegs]))⟩
  · exact ⟨.refl s, .refl _ s⟩

theorem timersBoundary_parts (s : State) :
    RegsOnly (setTimer { s.timer with fired := [] } s) (timersBoundary s) ∧
    OnlyRegs [.TIMER_n_COUNT] (setTimer { s.timer with fired := [] } s) (timersBoundary s) := by
  unfold timersBoundary
  refine ⟨.foldl (fun t n => ?_) .., .foldl (fun t n => ?_) ..⟩
  · exact .ite _ (.setReg ..) (.refl t)
  · exact .ite .setReg (.refl _ t)

/-- The phases of the turn that begins (R206). -/
def nextPhase (s : State) : Store Nat :=
  (List.range 8).foldl (fun m n => Store.set natZero m n (if s.fab.clr.contains n then 0
    else (Store.get natZero s.fab.phase n + s.f .FABRIC_TONE_n_INC n 23 0) % 2 ^ 24)) s.fab.phase

theorem get_nextPhase (s : State) (n : Fin 8) : Store.get natZero (nextPhase s) n = if n.val ∈ s.fab.clr then 0
    else (Store.get natZero s.fab.phase n + s.f .FABRIC_TONE_n_INC n 23 0) % 2 ^ 24 := by
  refine (get_foldl_set natZero (fun n => if s.fab.clr.contains n then 0
    else (Store.get natZero s.fab.phase n + s.f .FABRIC_TONE_n_INC n 23 0) % 2 ^ 24) 8 s.fab.phase n).trans ((if_pos n.isLt).trans ?_)
  simp only [List.contains_iff_mem]

theorem tonesAdvance_eq (s : State) : tonesAdvance s = setFab { s.fab with clr := [], phase := nextPhase s } s := rfl

/-- The registers that count with the turns. -/
def countRegs : List RegName := .TIMER_n_COUNT :: rampRegs

/-- The device's own state over the boundary. -/
def endedDev (s : State) : DevState :=
  { s.dev with late := [], cutPast := false, pendCut := [], swapped := [], exchanged := [], started := [] }

/-- The turn has ended. -/
structure TurnEnded (s t : State) : Prop where
  frame : t = { s with regs := t.regs, time := t.time, dev := t.dev, fab := t.fab, link := t.link, timer := t.timer }
  time : t.time = { nextTime s with turn := s.time.turn + 1 }
  dev : t.dev = endedDev s
  fab : t.fab = { s.fab with clr := [], phase := nextPhase s }
  regs : OnlyRegs countRegs s t

theorem turnEnded_of {s d l r m : State} (time : d.time = { nextTime s with turn := s.time.turn + 1 }) (dev : d.dev = endedDev s)
    (frame : d = { s with time := d.time, dev := d.dev }) (link : l = { d with link := l.link })
    (ramp : RegsOnly (tonesAdvance l) r) (ramps : OnlyRegs rampRegs (tonesAdvance l) r)
    (timer : RegsOnly (setTimer { r.timer with fired := [] } r) m)
    (timers : OnlyRegs [.TIMER_n_COUNT] (setTimer { r.timer with fired := [] } r) m) : TurnEnded s m := by
  have hl : l = { s with time := d.time, dev := d.dev, link := l.link } := by rw [link, frame]
  have phase : nextPhase l = nextPhase s := by rw [hl]; rfl
  have fab : l.fab = s.fab := by rw [hl]
  rw [tonesAdvance_eq, phase, fab] at ramp ramps
  have frameR : r = { s with regs := r.regs, time := d.time, dev := d.dev, link := l.link
                             fab := { s.fab with clr := [], phase := nextPhase s } } := by
    rw [ramp, setFab, hl]
  have frameM : m = { s with regs := m.regs, time := d.time, dev := d.dev, link := l.link
                             fab := { s.fab with clr := [], phase := nextPhase s }, timer := m.timer } := by
    rw [timer, setTimer, frameR]
  have regsL (q : RegName) (i : Nat) : l.reg q i = s.reg q i := by rw [hl]; rfl
  refine ⟨by rw [frameM], by rw [frameM]; exact time, by rw [frameM]; exact dev, by rw [frameM], ⟨fun q i hq => ?_⟩⟩
  simp only [countRegs, List.mem_cons, not_or] at hq
  obtain ⟨notTimer, notRamp⟩ := hq
  exact (timers.reg q i (by simpa using notTimer)).trans ((ramps.reg q i notRamp).trans (regsL q i))

theorem turnEnded_ended {s : State} (h : s.pwr.wake = []) : TurnEnded s (turnEnded s) := by
  unfold turnEnded
  rw [exchangeLate_none h]
  refine turnEnded_of ?_ ?_ ?_ (linksBoundary_frame _) (rampBoundary_parts _).1 (rampBoundary_parts _).2 (timersBoundary_parts _).1
    (timersBoundary_parts _).2
  all_goals rw [nextGrid_eq]; rfl

end Sys2Proof.Machine
end

section
/-! SUPPORT. The flips of a boundary (R180, R184, R187): the fabric members change sides, the others wait for their clk. -/

namespace Sys2Proof.Machine

/-! The sides of the fabric. -/

/-- A member of the fabric has flipped. -/
theorem flipMember_fabric {m : Member} (h : fabricSide m = true) (s : State) :
    RegsOnly s (flipMember m s) ∧ OnlyRegs [.SAFE_FABRIC_GROUP] s (flipMember m s) ∧
    routeAct (flipMember m s) = (if m = .route then 1 - routeAct s else routeAct s) ∧
    gainAct (flipMember m s) = (if m = .gain then 1 - gainAct s else gainAct s) := by
  have flipped (b : Nat) (x : Bool) (v : Nat) (hv : v = b2n x) : b2n (v == 0) = 1 - v := by subst hv; cases x <;> rfl
  have same (b d : Nat) (x : Bool) (hb : b < 32) (hd : d ≠ b) :
      (s.setBit .SAFE_FABRIC_GROUP 0 b x).bit .SAFE_FABRIC_GROUP 0 d = s.bit .SAFE_FABRIC_GROUP 0 d := by
    rw [State.bit, reg_setBit, if_pos ⟨rfl, rfl⟩]; exact bitOf_putBit_ne _ _ _ _ hb hd
  cases m with
  | gain =>
    refine ⟨.setBit .., .setBit, ?_, ?_⟩
    · rw [if_neg (by decide), routeAct, flipMember, same 9 8 _ (by decide) (by decide)]; rfl
    · rw [if_pos rfl, gainAct, flipMember, bit_setBit_same _ _ _ _ _ (by decide)]
      exact flipped 9 _ _ rfl
  | route =>
    refine ⟨.setBit .., .setBit, ?_, ?_⟩
    · rw [if_pos rfl, routeAct, flipMember, bit_setBit_same _ _ _ _ _ (by decide)]
      exact flipped 8 _ _ rfl
    · rw [if_neg (by decide), gainAct, flipMember, same 8 9 _ (by decide) (by decide)]; rfl
  | palette e => exact absurd h Bool.false_ne_true
  | prog e => exact absurd h Bool.false_ne_true
  | chain c => exact absurd h Bool.false_ne_true

/-- Members of the fabric, each named once, have flipped. -/
theorem flipMembers_fabric (l : List Member) (nodup : l.Nodup) (sided : ∀ x ∈ l, fabricSide x = true) (s : State) :
    RegsOnly s (l.foldl (fun t m => flipMember m t) s) ∧
    OnlyRegs [.SAFE_FABRIC_GROUP] s (l.foldl (fun t m => flipMember m t) s) ∧
    routeAct (l.foldl (fun t m => flipMember m t) s) = (if .route ∈ l then 1 - routeAct s else routeAct s) ∧
    gainAct (l.foldl (fun t m => flipMember m t) s) = (if .gain ∈ l then 1 - gainAct s else gainAct s) := by
  induction l generalizing s with
  | nil => exact ⟨.refl s, .refl _ s, by simp, by simp⟩
  | cons m l ih =>
    obtain ⟨fresh, rest⟩ := List.nodup_cons.mp nodup
    obtain ⟨regs, only, route, gain⟩ := flipMember_fabric (sided m List.mem_cons_self) s
    obtain ⟨regs', only', route', gain'⟩ := ih rest (fun x hx => sided x (List.mem_cons_of_mem _ hx)) (flipMember m s)
    refine ⟨regs.trans regs', only.trans only', ?_, ?_⟩
    · refine route'.trans ?_
      rw [route]
      by_cases h : m = .route
      · subst h; simp [fresh]
      · simp [h, Ne.symm h]
    · refine gain'.trans ?_
      rw [gain]
      by_cases h : m = .gain
      · subst h; simp [fresh]
      · simp [h, Ne.symm h]

/-! The groups that flip (R188, R189). -/

theorem bitOf_beyond (w : Word) {b : Nat} (h : 32 ≤ b) : bitOf w b = false := by
  unfold bitOf
  exact BitVec.getLsbD_of_ge _ _ h

theorem putBit_beyond (w : Word) {b : Nat} (h : 32 ≤ b) : putBit w b false = w := by
  have small : w.toNat < 2 ^ b := Nat.lt_of_lt_of_le w.isLt (Nat.pow_le_pow_right (by decide) h)
  have smaller : w.toNat < 2 ^ (b + 1) := Nat.lt_trans small (Nat.pow_lt_pow_right (by decide) (Nat.lt_succ_self b))
  have nothing : b2n false % 2 ^ (b + 1 - b) = 0 := Nat.zero_mod _
  rw [putBit, setFld, Nat.mod_eq_of_lt small, Nat.div_eq_of_lt smaller, nothing, Nat.zero_mul, Nat.zero_mul]
  exact BitVec.ofNat_toNat ..

/-- Groups whose bit has been cleared. -/
theorem setBits_clear (r : RegName) (i : Nat) (l : List Nat) (s : State) :
    RegsOnly s (setBits r i 0 false l s) ∧ OnlyRegs [r] s (setBits r i 0 false l s) ∧
    (∀ g, s.bit r i g = false → (setBits r i 0 false l s).bit r i g = false) ∧
    ∀ g ∈ l, (setBits r i 0 false l s).bit r i g = false := by
  unfold setBits
  induction l generalizing s with
  | nil => exact ⟨.refl s, .refl _ s, fun _ h => h, by simp⟩
  | cons g l ih =>
    obtain ⟨regs, only, kept, cleared⟩ := ih (s.setBit r i (0 + g) false)
    have mine : (s.setBit r i (0 + g) false).bit r i g = false := by
      rw [Nat.zero_add]
      by_cases h : g < 32
      · exact bit_setBit_same _ _ _ _ _ h
      · exact bitOf_beyond _ (Nat.le_of_not_lt h)
    have others (k : Nat) (h : s.bit r i k = false) : (s.setBit r i (0 + g) false).bit r i k = false := by
      by_cases same : k = g
      · rw [same]; exact mine
      · rw [Nat.zero_add, State.bit, reg_setBit, if_pos ⟨rfl, rfl⟩]
        by_cases big : g < 32
        · rw [bitOf_putBit_ne _ _ _ _ big same]; exact h
        · rw [putBit_beyond _ (Nat.le_of_not_lt big)]; exact h
    refine ⟨.trans (.setBit ..) regs, .trans .setBit only, fun k h => kept k (others k h), fun k hk => ?_⟩
    rcases List.mem_cons.mp hk with rfl | hk
    · exact kept k mine
    · exact cleared k hk

/-- A commit's groups flip: their mirrors are no longer valid. -/
theorem flipGroups_parts (l : List SafeReq) (s : State) :
    flipGroups l s = { s with regs := (flipGroups l s).regs, safe := (flipGroups l s).safe } ∧
    (flipGroups l s).safe = { s.safe with mirGroups := (flipGroups l s).safe.mirGroups } ∧
    OnlyRegs [.SAFE_MIRROR_VALID] s (flipGroups l s) ∧
    ∀ q ∈ l, ∀ g ∈ q.groups, (flipGroups l s).bit .SAFE_MIRROR_VALID 0 g = false := by
  obtain ⟨regs, only, _, cleared⟩ := setBits_clear .SAFE_MIRROR_VALID 0 (l.flatMap (fun q => q.groups)) s
  unfold flipGroups
  dsimp only
  generalize setBits .SAFE_MIRROR_VALID 0 0 false (l.flatMap fun q => q.groups) s = u at regs only cleared
  have safe : u.safe = s.safe := by rw [regs]
  refine ⟨?_, ?_, only.trans (.of_regs rfl), fun q hq g hg => cleared g (List.mem_flatMap.mpr ⟨q, hq, hg⟩)⟩
  · rw [setSafe, regs]
  · rw [setSafe, safe]

/-! Where nothing is down, and no stroke is under way. -/

/-- The members of flips wait in domains that are on and not in a request. -/
def flipsAwake (l : List Member) (s : State) : Prop :=
  ∀ x ∈ l, domainOn s (memberDomain x) = true ∧ inRequest s (memberDomain x) = false

theorem domainDown_on {s : State} {d : Nat} (h : domainOn s d = true) : domainDown s d = false := by
  unfold domainOn at h
  unfold domainDown
  rw [beq_iff_eq] at h
  rw [h]; decide

theorem flipsAwake_congr {l : List Member} {s t : State} (awake : flipsAwake l s) (pwr : t.pwr = s.pwr)
    (regs : ∀ w, t.reg .PWR_STATE_w w = s.reg .PWR_STATE_w w) : flipsAwake l t := fun x hx => by
  obtain ⟨on, free⟩ := awake x hx
  refine ⟨?_, ?_⟩
  · unfold domainOn domainCode State.f at on ⊢
    rw [regs]; exact on
  · unfold inRequest at free ⊢
    rw [pwr]; exact free

/-- Members whose domain is on wait for their clk. -/
theorem flipDown_awake {s : State} (awake : flipsAwake s.safe.flipEng s) : flipDown s = s := by
  have up (x : Member) (hx : x ∈ s.safe.flipEng) : domainDown s (memberDomain x) = false := domainDown_on (awake x hx).1
  have none : s.safe.flipEng.filter (fun m => domainDown s (memberDomain m)) = [] := by
    rw [List.filter_eq_nil_iff]; exact fun x hx => by rw [up x hx]; exact Bool.false_ne_true
  have all : s.safe.flipEng.filter (fun m => !domainDown s (memberDomain m)) = s.safe.flipEng := by
    rw [List.filter_eq_self]; exact fun x hx => by rw [up x hx]; rfl
  unfold flipDown
  dsimp only
  rw [none, all]; rfl

theorem flipWakes_awake {l : List Member} {s : State} (awake : flipsAwake l s) : flipWakes l s = s := by
  have none : (l.map memberDomain).filter (fun d => domainDown s d || inRequest s d) = [] := by
    rw [List.filter_eq_nil_iff]
    intro d hd
    obtain ⟨x, hx, rfl⟩ := List.mem_map.mp hd
    rw [domainDown_on (awake x hx).1, (awake x hx).2]; exact Bool.false_ne_true
  unfold flipWakes
  dsimp only
  rw [none]; rfl

theorem releaseRoute_free {s : State} (h : s.fab.held = []) : releaseRoute s = setFab { s.fab with hold := false } s := by
  unfold releaseRoute
  dsimp only
  simp only [h, List.filter_nil, List.foldl_nil]

/-- No channel's writes have been held, and none takes effect. -/
theorem strokesSettled {s : State} (h : s.safe.strokes = []) :
    strokesEffect ((List.range 8).foldl (fun t n => strokeReleased n t) s) = s := by
  have released (n : Nat) : strokeReleased n s = s := by
    unfold strokeReleased strokeOf; rw [h]; rfl
  have all : ∀ l : List Nat, l.foldl (fun t n => strokeReleased n t) s = s := fun l => by
    induction l with
    | nil => rfl
    | cons n l ih => rw [List.foldl_cons, released]; exact ih
  rw [all]
  unfold strokesEffect
  rw [h]; rfl

/-- The flips of a boundary, before they are recorded. -/
def flipsTurned (s : State) : State :=
  let s := s.safe.flipFab.foldl (fun t m => flipMember m t) s
  let s := flipDown (setSafe { s.safe with flipEng := s.safe.flipEng ++ s.safe.flipNext, flipNext := [] } s)
  let s := flipGroups s.safe.decided s
  let dec := s.safe.decided
  let s := setSafe { s.safe with flipFab := [], decided := [], doneDue := s.safe.doneDue ++ dec } s
  let s := releaseRoute s
  strokesEffect ((List.range 8).foldl (fun t n => strokeReleased n t) s)

/-- The record, where turns stop. -/
def safeEnd (stops : Bool) (s : State) : State :=
  if stops then
    let due := s.safe.doneDue
    finishStrokes (due.foldl (fun t q => recordDone (t.time.turn.toNat % 65536) q t) (setSafe { s.safe with doneDue := [] } s))
  else s

theorem safeBoundary_eq (stops : Bool) (s : State) : safeBoundary stops s = safeEnd stops (flipsTurned s) := by
  simp only [safeBoundary, safeEnd, flipsTurned]

theorem safeEnd_runs (s : State) : safeEnd false s = s := if_neg Bool.false_ne_true

theorem safeEnd_stops (s : State) : safeEnd true s = safeRecord s := if_pos rfl

/-- What the flips of a boundary leave to the SAFE unit. -/
def turnedSafe (s : State) (G : List Nat) : SafeState :=
  { s.safe with flipFab := [], flipEng := s.safe.flipEng ++ s.safe.flipNext, flipNext := [], decided := []
                doneDue := s.safe.doneDue ++ s.safe.decided, mirGroups := G }

/-- The registers that the flips of a boundary write. -/
def flipRegs : List RegName := [.SAFE_FABRIC_GROUP, .SAFE_MIRROR_VALID]

/-- The fabric members have flipped. -/
structure FlipsTurned (s t : State) : Prop where
  frame : t = { s with regs := t.regs, safe := t.safe, fab := { s.fab with hold := false } }
  safe : t.safe = turnedSafe s t.safe.mirGroups
  regs : OnlyRegs flipRegs s t
  route : routeAct t = (if .route ∈ s.safe.flipFab then 1 - routeAct s else routeAct s)
  gain : gainAct t = (if .gain ∈ s.safe.flipFab then 1 - gainAct s else gainAct s)
  valid : ∀ q ∈ s.safe.decided, ∀ g ∈ q.groups, t.bit .SAFE_MIRROR_VALID 0 g = false

theorem flipsTurned_of {s a b c d : State} (flipped : RegsOnly s a) (sides : OnlyRegs [.SAFE_FABRIC_GROUP] s a)
    (route : routeAct a = (if .route ∈ s.safe.flipFab then 1 - routeAct s else routeAct s))
    (gain : gainAct a = (if .gain ∈ s.safe.flipFab then 1 - gainAct s else gainAct s))
    (next : b = setSafe { a.safe with flipEng := a.safe.flipEng ++ a.safe.flipNext, flipNext := [] } a)
    (groups : c = { b with regs := c.regs, safe := c.safe }) (mirrors : c.safe = { b.safe with mirGroups := c.safe.mirGroups })
    (shown : OnlyRegs [.SAFE_MIRROR_VALID] b c)
    (valid : ∀ q ∈ b.safe.decided, ∀ g ∈ q.groups, c.bit .SAFE_MIRROR_VALID 0 g = false)
    (due : d = setSafe { c.safe with flipFab := [], decided := [], doneDue := c.safe.doneDue ++ c.safe.decided } c) :
    FlipsTurned s (setFab { d.fab with hold := false } d) := by
  have safeA : a.safe = s.safe := by rw [flipped]
  have regsB (r : RegName) (i : Nat) : b.reg r i = a.reg r i := by rw [next]; rfl
  have safeB : b.safe = { s.safe with flipEng := s.safe.flipEng ++ s.safe.flipNext, flipNext := [] } := by
    rw [next, safeA]; rfl
  have regsT (r : RegName) (i : Nat) : (setFab { d.fab with hold := false } d).reg r i = c.reg r i := by rw [due]; rfl
  have safeT : (setFab { d.fab with hold := false } d).safe = turnedSafe s c.safe.mirGroups := by
    rw [setFab, due, setSafe, mirrors, safeB]; rfl
  have frameC : c = { s with regs := c.regs, safe := c.safe } := by rw [groups, next, setSafe, flipped]
  have group (b' : Nat) : (setFab { d.fab with hold := false } d).bit .SAFE_FABRIC_GROUP 0 b' = a.bit .SAFE_FABRIC_GROUP 0 b' := by
    unfold State.bit
    rw [regsT, shown.reg _ _ (by simp), regsB]
  refine ⟨?_, by rw [safeT]; rfl, ⟨fun r i hr => ?_⟩, ?_, ?_, fun q hq g hg => ?_⟩
  · rw [due, setFab, setSafe, frameC]
  · simp only [flipRegs, List.mem_cons, List.not_mem_nil, or_false, not_or] at hr
    rw [regsT, shown.reg _ _ (by simpa using hr.2), regsB, sides.reg _ _ (by simpa using hr.1)]
  · rw [routeAct, group]; exact route
  · rw [gainAct, group]; exact gain
  · have := valid q (by rw [safeB]; exact hq) g hg
    unfold State.bit at this ⊢
    rw [regsT]; exact this

theorem flipsTurned_turned {s : State} (strokes : s.safe.strokes = []) (held : s.fab.held = [])
    (nodup : s.safe.flipFab.Nodup) (sided : ∀ x ∈ s.safe.flipFab, fabricSide x = true)
    (awake : flipsAwake (s.safe.flipEng ++ s.safe.flipNext) s) : FlipsTurned s (flipsTurned s) := by
  obtain ⟨flipped, sides, route, gain⟩ := flipMembers_fabric s.safe.flipFab nodup sided s
  unfold flipsTurned
  dsimp only
  generalize s.safe.flipFab.foldl (fun t m => flipMember m t) s = a at flipped sides route gain
  have safeA : a.safe = s.safe := by rw [flipped]
  have downNone : flipDown (setSafe { a.safe with flipEng := a.safe.flipEng ++ a.safe.flipNext, flipNext := [] } a) =
      setSafe { a.safe with flipEng := a.safe.flipEng ++ a.safe.flipNext, flipNext := [] } a := by
    refine flipDown_awake (flipsAwake_congr ?_ (s := s) ?_ fun w => sides.reg .PWR_STATE_w w (by simp))
    · rw [setSafe, safeA]; exact awake
    · rw [setSafe, flipped]
  rw [downNone]
  obtain ⟨groups, mirrors, shown, valid⟩ := flipGroups_parts
    (setSafe { a.safe with flipEng := a.safe.flipEng ++ a.safe.flipNext, flipNext := [] } a).safe.decided
    (setSafe { a.safe with flipEng := a.safe.flipEng ++ a.safe.flipNext, flipNext := [] } a)
  generalize hb : setSafe { a.safe with flipEng := a.safe.flipEng ++ a.safe.flipNext, flipNext := [] } a = b at groups mirrors shown valid ⊢
  generalize flipGroups b.safe.decided b = c at groups mirrors shown valid ⊢
  have turned := flipsTurned_of flipped sides route gain hb.symm groups mirrors shown valid rfl
  generalize setSafe { c.safe with flipFab := [], decided := [], doneDue := c.safe.doneDue ++ c.safe.decided } c = d at turned ⊢
  have kept : (setFab { d.fab with hold := false } d).fab.held = s.fab.held := by rw [turned.frame]
  have heldD : d.fab.held = [] := kept.trans held
  rw [releaseRoute_free heldD, strokesSettled]
  · exact turned
  · rw [turned.safe]; exact strokes

/-! The record of flips (R184, R185). -/

/-- The registers that the record of flips writes. -/
def recordRegs : List RegName := [.SAFE_PENDING, .SAFE_DONE, .SAFE_GROUP_n_STAMP, .SAFE_MIRROR_BUSY, .EVT_RAW_w]

/-- Only the record, and the mirrors that follow it, moved. -/
structure FlipsNoted (s t : State) : Prop where
  frame : t = { s with regs := t.regs, safe := t.safe }
  safe : t.safe = { s.safe with mirGroups := t.safe.mirGroups, mirrors := t.safe.mirrors }
  regs : OnlyRegs recordRegs s t

namespace FlipsNoted

variable {s t u : State}

theorem refl (s : State) : FlipsNoted s s := ⟨rfl, rfl, .refl _ s⟩

theorem trans (h : FlipsNoted s t) (k : FlipsNoted t u) : FlipsNoted s u :=
  ⟨by rw [k.frame, h.frame], by rw [k.safe, h.safe], h.regs.trans k.regs⟩

theorem of_regs (h : RegsOnly s t) (k : OnlyRegs recordRegs s t) : FlipsNoted s t := by
  have safe : t.safe = s.safe := by rw [h]
  exact ⟨by rw [safe]; exact h, by rw [safe], k⟩

theorem foldl {α : Type} {f : State → α → State} (h : ∀ t x, FlipsNoted t (f t x)) (xs : List α) (s : State) :
    FlipsNoted s (xs.foldl f s) := by
  induction xs generalizing s with
  | nil => exact .refl s
  | cons x xs ih => exact (h s x).trans (ih _)

theorem groups (l : List Nat) (s : State) : FlipsNoted s (setSafe { s.safe with mirGroups := l } s) := ⟨rfl, rfl, .of_regs rfl⟩

theorem mirrors (l : List Mirror) (s : State) : FlipsNoted s (setSafe { s.safe with mirrors := l } s) := ⟨rfl, rfl, .of_regs rfl⟩

theorem setBit (r : RegName) (i b : Nat) (x : Bool) (s : State) (hr : r ∈ recordRegs) : FlipsNoted s (s.setBit r i b x) :=
  .of_regs (.setBit ..) (.setBit hr)

theorem setF (r : RegName) (i hi lo n : Nat) (s : State) (hr : r ∈ recordRegs) : FlipsNoted s (s.setF r i hi lo n) :=
  .of_regs (.setF ..) (.setF hr)

theorem count (r : RegName) (i ovf hi lo : Nat) (e : Option Nat) (s : State) (hr : r ∈ recordRegs) :
    FlipsNoted s (count r i ovf hi lo e s) := .of_regs (.count ..) (.count hr (by simp [recordRegs]))

theorem raise (e : Nat) (s : State) : FlipsNoted s (raise e s) := .of_regs (.raise ..) (.raise (by simp [recordRegs]))

theorem startMirror (g : Nat) (s : State) : FlipsNoted s (startMirror g s) := by
  unfold Machine.startMirror
  split
  · exact (FlipsNoted.mirrors _ s).trans (.setBit _ _ _ _ _ (by simp [recordRegs]))
  · exact .refl s

end FlipsNoted

/-- One group of a flip is recorded: DONE, PENDING, the stamp and the event. -/
def groupDone (turn g : Nat) (s : State) : State :=
  let pend := s.safe.reqs.any (fun r => r.groups.contains g)
  let s := (s.setBit .SAFE_PENDING 0 g pend).setBit .SAFE_DONE 0 g true
  raise Ev.SAFE_COMMIT_DONE (count .SAFE_GROUP_n_STAMP g 15 14 0 none (s.setF .SAFE_GROUP_n_STAMP g 31 16 turn))

/-- The mirror that follows the flip of a group starts. -/
def groupMirrored (g : Nat) (s : State) : State :=
  let en := s.safe.mirGroups.contains g
  let s := setSafe { s.safe with mirGroups := s.safe.mirGroups.filter (fun x => x != g) } s
  if en then startMirror g s else s

theorem recordDone_eq (turn : Nat) (q : SafeReq) (s : State) :
    recordDone turn q s = q.groups.foldl (fun t g => groupMirrored g (groupDone turn g t)) s := rfl

theorem groupDone_noted (turn g : Nat) (s : State) : FlipsNoted s (groupDone turn g s) := by
  unfold groupDone
  exact (FlipsNoted.setBit _ _ _ _ _ (by simp [recordRegs])).trans ((FlipsNoted.setBit _ _ _ _ _ (by simp [recordRegs])).trans
    ((FlipsNoted.setF _ _ _ _ _ _ (by simp [recordRegs])).trans ((FlipsNoted.count _ _ _ _ _ _ _ (by simp [recordRegs])).trans (.raise ..))))

theorem groupMirrored_noted (g : Nat) (s : State) : FlipsNoted s (groupMirrored g s) := by
  unfold groupMirrored
  dsimp only
  refine (FlipsNoted.groups (s.safe.mirGroups.filter (fun x => x != g)) s).trans ?_
  split
  · exact .startMirror ..
  · exact .refl _

theorem recordDone_noted (turn : Nat) (q : SafeReq) (s : State) : FlipsNoted s (recordDone turn q s) := by
  rw [recordDone_eq]
  exact .foldl (fun t g => (groupDone_noted turn g t).trans (groupMirrored_noted g _)) ..

/-- With no channel under way, the record is all that is left to do. -/
theorem finishStrokes_none {s : State} (h : s.safe.strokes = []) : finishStrokes s = s := by
  unfold finishStrokes
  simp only [h, List.filter_nil, List.foldl_nil, List.map_nil]
  rw [← h]; rfl

theorem safeRecord_noted {s : State} (h : s.safe.strokes = []) :
    FlipsNoted (setSafe { s.safe with doneDue := [] } s) (safeRecord s) := by
  have noted : FlipsNoted (setSafe { s.safe with doneDue := [] } s)
      (s.safe.doneDue.foldl (fun t q => recordDone (t.time.turn.toNat % 65536) q t) (setSafe { s.safe with doneDue := [] } s)) :=
    .foldl (fun t q => recordDone_noted _ q t) ..
  unfold safeRecord
  dsimp only
  generalize s.safe.doneDue.foldl (fun t q => recordDone (t.time.turn.toNat % 65536) q t) (setSafe { s.safe with doneDue := [] } s) = u
    at noted ⊢
  rw [finishStrokes_none]
  · exact noted
  · rw [noted.safe]; exact h

end Sys2Proof.Machine
end

section
/-! SUPPORT. A boundary of running turns (R48, R54, R56, R59, R67, R180, R206): the next turn begins. -/

namespace Sys2Proof.Machine

/-- The flips, the wakes they ask for, and the end of the turn's corrections. -/
def flipsSettled (stops : Bool) (flips : List Member) (s : State) : State :=
  let s := flipWakes flips (safeBoundary stops s)
  setEng { s.eng with corrected := [] } s

/-- The next turn begins, with what acts at this boundary. -/
def turnRuns (acts : List PendAct) (s : State) : State :=
  let s := actsNow (acts.filter (fun a => !actRun a)) s
  let (runs, s) := clearDisabled (acts.filter actRun) (muteDisabled acts s)
  let s := (acts.filterMap actOff).foldl (fun t pe => silenceF pe t) s
  beginTurn .run (setDev { s.dev with exch := s.dev.exch ++ runs } s)

/-- Whether turns stop at the boundary. -/
def stopsNow (s : State) : Bool := s.dev.freeze || s.dev.relockEnd || s.dev.pendCut.any (actStops s)

/-- The members that flip at the boundary or in the turn that it begins. -/
def flipsOf (s : State) : List Member := s.safe.flipFab ++ s.safe.flipEng ++ s.safe.flipNext

theorem runningBoundary_eq (s : State) : runningBoundary s =
    if stopsNow s then turnsStop s.dev.pendCut (flipsSettled (stopsNow s) (flipsOf s) (turnEnded s))
    else turnRuns s.dev.pendCut (flipsSettled (stopsNow s) (flipsOf s) (turnEnded s)) := by
  simp only [runningBoundary, stopsNow, flipsOf, flipsSettled, turnEnded, turnRuns] <;> rfl

/-- A boundary while turns run, with no write held. -/
theorem boundary_running {s : State} (live : alive s = true) (on : turnsOn s = true) (held : s.fab.held = []) :
    exec .boundary s = .next (runningBoundary s) := by
  have step : boundary s = runningBoundary s := by
    unfold boundary
    rw [live, on, held]; rfl
  exact congrArg Host.Outcome.next step

theorem turnRuns_none (s : State) : turnRuns [] s = beginTurn .run (setDev { s.dev with exch := s.dev.exch ++ [] } s) := by
  simp only [turnRuns, List.filter_nil, List.filterMap_nil, List.foldl_nil, actsNow, muteDisabled, clearDisabled, List.flatMap_nil,
    List.map_nil, List.append_nil]

/-- The boundary has settled what flips, before the next turn begins or turns stop. -/
structure EdgeSettled (s w : State) : Prop where
  frame : w = { s with regs := w.regs, time := w.time, dev := w.dev, fab := w.fab, link := w.link, timer := w.timer, safe := w.safe
                       eng := { s.eng with corrected := [] } }
  time : w.time = { nextTime s with turn := s.time.turn + 1 }
  dev : w.dev = endedDev s
  fab : w.fab = { s.fab with clr := [], phase := nextPhase s, hold := false }

/-- The flips of a boundary at which the next turn begins. -/
structure EdgeRuns (s w : State) : Prop extends EdgeSettled s w where
  safe : w.safe = turnedSafe s w.safe.mirGroups
  regs : OnlyRegs (countRegs ++ flipRegs) s w
  route : routeAct w = (if .route ∈ s.safe.flipFab then 1 - routeAct s else routeAct s)
  gain : gainAct w = (if .gain ∈ s.safe.flipFab then 1 - gainAct s else gainAct s)
  valid : ∀ q ∈ s.safe.decided, ∀ g ∈ q.groups, w.bit .SAFE_MIRROR_VALID 0 g = false

theorem edgeRuns_of {s u v : State} (ended : TurnEnded s u) (turned : FlipsTurned u v) :
    EdgeRuns s (setEng { v.eng with corrected := [] } v) := by
  have safe : u.safe = s.safe := by rw [ended.frame]
  have group (b : Nat) : u.bit .SAFE_FABRIC_GROUP 0 b = s.bit .SAFE_FABRIC_GROUP 0 b :=
    ended.regs.bit _ _ _ (by simp [countRegs, rampRegs])
  have route : routeAct u = routeAct s := congrArg b2n (group 8)
  have gain : gainAct u = gainAct s := congrArg b2n (group 9)
  have tSafe : turnedSafe u = turnedSafe s := by unfold turnedSafe; rw [safe]
  have frame : v = { s with regs := v.regs, time := u.time, dev := u.dev, link := u.link, timer := u.timer, safe := v.safe
                            fab := { u.fab with hold := false } } := by
    rw [turned.frame, ended.frame]
  refine { frame := ?_, time := ?_, dev := ?_, fab := ?_, safe := ?_, regs := ?_, route := ?_, gain := ?_, valid := ?_ }
  · rw [setEng, frame]
  · rw [setEng, frame]; exact ended.time
  · rw [setEng, frame]; exact ended.dev
  · rw [setEng, frame]
    show { u.fab with hold := false } = _
    rw [ended.fab]
  · exact turned.safe.trans (congrFun tSafe _)
  · exact .trans (t := u) (ended.regs.mono fun _ h => List.mem_append_left _ h)
      (.trans (t := v) (turned.regs.mono fun _ h => List.mem_append_right _ h) (.of_regs rfl))
  · have := turned.route
    rw [safe, route] at this; exact this
  · have := turned.gain
    rw [safe, gain] at this; exact this
  · have := turned.valid
    rw [safe] at this; exact this

theorem flipsSettled_eq {stops : Bool} {l : List Member} {s : State} (awake : flipsAwake l (safeBoundary stops s)) :
    flipsSettled stops l s = setEng { (safeBoundary stops s).eng with corrected := [] } (safeBoundary stops s) := by
  unfold flipsSettled
  rw [flipWakes_awake awake]

/-- No stroke is under way, no write is held, no domain wakes. -/
def nothingMoves (s : State) : Prop := s.safe.strokes = [] ∧ s.fab.held = [] ∧ s.pwr.wake = []

/-- The members whose side the fabric changes at the boundary are its own, each named once. -/
def fabricSided (s : State) : Prop := s.safe.flipFab.Nodup ∧ ∀ x ∈ s.safe.flipFab, fabricSide x = true

theorem turned_ended {s : State} (still : nothingMoves s) (sided : fabricSided s) (awake : flipsAwake (flipsOf s) s) :
    TurnEnded s (turnEnded s) ∧ FlipsTurned (turnEnded s) (flipsTurned (turnEnded s)) ∧
      flipsAwake (flipsOf s) (flipsTurned (turnEnded s)) := by
  obtain ⟨strokes, held, wake⟩ := still
  have ended := turnEnded_ended wake
  generalize turnEnded s = u at ended ⊢
  have safe : u.safe = s.safe := by rw [ended.frame]
  have here : flipsAwake (flipsOf s) u :=
    flipsAwake_congr awake (by rw [ended.frame]) fun w => ended.regs.reg _ _ (by simp [countRegs, rampRegs])
  have turned : FlipsTurned u (flipsTurned u) := by
    refine flipsTurned_turned (by rw [safe]; exact strokes) (by rw [ended.fab]; exact held) (by rw [safe]; exact sided.1)
      (by rw [safe]; exact sided.2) fun x hx => here x ?_
    rw [safe] at hx
    rw [flipsOf, List.append_assoc]
    exact List.mem_append_right _ hx
  exact ⟨ended, turned, flipsAwake_congr here (by rw [turned.frame]) fun w => turned.regs.reg _ _ (by simp [flipRegs])⟩

/-- A running boundary with nothing to act at it. -/
theorem runningBoundary_runs {s : State} (freeze : s.dev.freeze = false) (relock : s.dev.relockEnd = false)
    (nothing : s.dev.pendCut = []) (still : nothingMoves s) (sided : fabricSided s) (awake : flipsAwake (flipsOf s) s) :
    ∃ w, EdgeRuns s w ∧ runningBoundary s = beginTurn .run (setDev { w.dev with exch := w.dev.exch ++ [] } w) := by
  obtain ⟨ended, turned, later⟩ := turned_ended still sided awake
  have goes : stopsNow s = false := by simp [stopsNow, freeze, relock, nothing]
  have settled : safeBoundary false (turnEnded s) = flipsTurned (turnEnded s) := (safeBoundary_eq ..).trans (safeEnd_runs _)
  refine ⟨_, edgeRuns_of ended turned, ?_⟩
  rw [runningBoundary_eq, goes, if_neg Bool.false_ne_true, nothing, turnRuns_none,
    flipsSettled_eq (by rw [settled]; exact later), settled]

/-- The turn that a running boundary begins. -/
structure RunsOn (s t : State) : Prop where
  at' : AtBoundary s t
  safe : t.safe.flipFab = [] ∧ t.safe.flipNext = [] ∧ t.safe.flipEng = s.safe.flipEng ++ s.safe.flipNext ∧ t.safe.decided = [] ∧
    t.safe.doneDue = s.safe.doneDue ++ s.safe.decided
  hold : t.fab.hold = false
  route : routeAct t = (if .route ∈ s.safe.flipFab then 1 - routeAct s else routeAct s)
  gain : gainAct t = (if .gain ∈ s.safe.flipFab then 1 - gainAct s else gainAct s)
  valid : ∀ q ∈ s.safe.decided, ∀ g ∈ q.groups, t.bit .SAFE_MIRROR_VALID 0 g = false
  regs : OnlyRegs (countRegs ++ flipRegs ++ turnRegs) s t
  turn : t.time.turn = s.time.turn + 1
  dev : t.dev.cutPast = false ∧ t.dev.swapped = [] ∧ t.dev.exchanged = [] ∧ t.dev.started = []
  loads : t.port.stage = s.fab.portOut ∧ (∀ n : Fin 32, Store.get zeroOf t.fab.const n = s.reg .FABRIC_CONST_n n) ∧
    ∀ n : Fin 8, Store.get zeroOf t.fab.level n = s.reg .FABRIC_TONE_n_LEVEL n
  delivered : ∀ a, sapMode s (a / 16) ≠ 2 → (∀ n ∈ s.asrc.on, asrcAddr s n ≠ a) →
    Store.get zeroOf t.fab.portIn a = Store.get zeroOf s.port.cap a
  stays : Stays s t
  phase : t.fab.phase = nextPhase s
  probe : t.dev.probe = probeNext s.dev.probe
  marker : t.dev.marker = decide (s.dev.probe = .armed)

theorem runsOn_of {s w x t : State} (edge : EdgeRuns s w) (dev : x = setDev { w.dev with exch := w.dev.exch ++ [] } w)
    (begun : TurnBegun .run x t) : RunsOn s t := by
  have frame : x = { s with regs := w.regs, time := w.time, dev := x.dev, fab := w.fab, link := w.link, timer := w.timer, safe := w.safe
                            eng := { s.eng with corrected := [] } } := by
    rw [dev, setDev, edge.frame]
  have regsX : OnlyRegs (countRegs ++ flipRegs) s x := edge.regs.trans (.of_regs (by rw [frame]))
  have devX : x.dev = { endedDev s with exch := (endedDev s).exch ++ [] } := by rw [dev, edge.dev]; rfl
  have safe : t.safe = { turnedSafe s w.safe.mirGroups with strokes := t.safe.strokes } := by
    rw [begun.safe, frame, edge.safe]; rfl
  have time : t.time = { nextTime s with turn := s.time.turn + 1 } := by rw [begun.time, frame]; exact edge.time
  have fabX : x.fab = { s.fab with clr := [], phase := nextPhase s, hold := false } := by rw [frame]; exact edge.fab
  have shown (b : Nat) : t.bit .SAFE_FABRIC_GROUP 0 b = w.bit .SAFE_FABRIC_GROUP 0 b :=
    (begun.regs.bit _ _ _ (by simp [turnRegs, silenceRegs])).trans (bit_congr (by rw [frame]) ..)
  have kept (r : RegName) (i : Nat) (h : r ∉ countRegs ++ flipRegs) : x.reg r i = s.reg r i := regsX.reg r i h
  refine { at' := ?_, safe := ?_, hold := ?_, route := ?_, gain := ?_, valid := ?_, regs := ?_, turn := ?_, dev := ?_, loads := ?_,
           delivered := ?_, stays := ?_, phase := ?_, probe := ?_, marker := ?_ }
  · rw [AtBoundary, time]; exact ⟨rfl, rfl, rfl⟩
  · rw [safe]; exact ⟨rfl, rfl, rfl, rfl, rfl⟩
  · rw [begun.hold, fabX]
  · rw [routeAct, shown]; exact edge.route
  · rw [gainAct, shown]; exact edge.gain
  · intro q hq g hg
    rw [begun.regs.bit _ _ _ (by simp [turnRegs, silenceRegs]), bit_congr (by rw [frame])]
    exact edge.valid q hq g hg
  · exact .trans (t := x) (regsX.mono fun _ h => List.mem_append_left _ h) (begun.regs.mono fun _ h => List.mem_append_right _ h)
  · exact congrArg TimeState.turn time
  · rw [begun.dev, devX]; exact ⟨rfl, rfl, rfl, rfl⟩
  · exact ⟨by rw [begun.stage, fabX], fun n => (begun.const n).trans (kept _ _ (by simp [countRegs, rampRegs, flipRegs])),
      fun n => (begun.level n).trans (kept _ _ (by simp [countRegs, rampRegs, flipRegs]))⟩
  · intro a mode free
    obtain ⟨c, counted, taken⟩ := begun.portIn
    have reg (r : RegName) (i : Nat) (h : r ∉ countRegs ++ flipRegs) (h' : r ∉ [RegName.ASRC_LOCK_w] := by simp) :
        c.reg r i = s.reg r i := (counted.regs.reg r i h').trans (kept r i h)
    have asrc : c.asrc = s.asrc := by rw [counted.frame, frame]
    have port : c.port = s.port := by rw [counted.frame, frame]
    rw [taken, portIn_run, port]
    · rw [sapMode, State.f, reg .SAP_CFG _ (by simp [countRegs, rampRegs, flipRegs])]; exact mode
    · intro n hn
      rw [asrc] at hn
      rw [asrcAddr, State.f, reg .ASRC_CH_n_CFG _ (by simp [countRegs, rampRegs, flipRegs])]; exact free n hn
  · refine .trans (t := x) ⟨?_, ?_, ?_, ?_, ?_, ?_, ?_, ?_, ?_, ?_⟩ begun.stays
    all_goals rw [frame]
  · rw [begun.phase, fabX]
  · rw [begun.dev, devX]; rfl
  · rw [begun.dev, devX]; rfl

theorem boundary_runs {s : State} (live : alive s = true) (on : turnsOn s = true) (freeze : s.dev.freeze = false)
    (relock : s.dev.relockEnd = false) (nothing : s.dev.pendCut = []) (still : nothingMoves s) (sided : fabricSided s)
    (awake : flipsAwake (flipsOf s) s) : gives .boundary s (RunsOn s) := by
  obtain ⟨w, edge, step⟩ := runningBoundary_runs freeze relock nothing still sided awake
  refine ⟨_, boundary_running live on still.2.1, ?_⟩
  rw [step]
  exact runsOn_of edge rfl (beginTurn_begun ..)

end Sys2Proof.Machine
end

section
/-! SUPPORT. A boundary of running turns at which they freeze or stop (R33, R35, R36, R58, R269). -/

namespace Sys2Proof.Machine

/-- Turns stop: the outputs are zero, and what came after the cut is in hand. -/
def stopShown (s : State) : State :=
  let s := setDev { s.dev with pendNew := [], pendCut := s.dev.pendNew.filter actRequest, freeze := false, relockEnd := false } s
  asrcStopped (muteOutputs (setTurns false { s with link := { s.link with rx := [], due := [] } }))

/-- A freeze holds the turn. -/
def stopHeld (acts : List PendAct) (s : State) : State :=
  if effState s = St.RUN && !acts.contains .disarm then enterEff St.HOLD s else s

/-- What was to act at the boundary does. -/
def stopActed (acts after : List PendAct) (s : State) : State :=
  let s := flipsEnded (safeSections s)
  portsSwap .keep (actsNow (s.dev.exch ++ acts ++ after) (setDev { s.dev with exch := [] } s))

theorem turnsStop_eq (acts : List PendAct) (s : State) :
    turnsStop acts s = stopActed acts (s.dev.pendNew.filter (fun a => !actRequest a)) (stopHeld acts (stopShown s)) := by
  simp only [turnsStop, stopActed, stopHeld, stopShown] <;> rfl

/-- The device's own state once turns have stopped. -/
def stopDev (s : State) : DevState :=
  { s.dev with pendNew := [], pendCut := s.dev.pendNew.filter actRequest, freeze := false, relockEnd := false }

/-- Turns have stopped, and every output is zero. -/
structure StopShown (s t : State) : Prop where
  frame : t = { s with regs := t.regs, dev := stopDev s, link := t.link, guard := t.guard, port := t.port }
  sent : t.port.sent = []
  guarded : t.link.guarded = []
  yPrev : t.guard.yPrev = []
  word : t.reg .SYS_STATE 0 = turnsWord false true (s.reg .SYS_STATE 0)

theorem stopShown_of {s a b c d e : State} (dev : a = { s with dev := stopDev s, link := a.link }) (off : b = setTurns false a)
    (muted : c = setMuted true b)
    (outputs : d = { c with guard := { c.guard with yPrev := [] }, port := { c.port with sent := [] }, link := { c.link with guarded := [] } })
    (lock : RegsOnly d e) (locks : OnlyRegs [.ASRC_LOCK_w] d e) : StopShown s e := by
  have shown : RegsOnly a c := by rw [muted, off]; exact .trans (.setBit ..) (.setBit ..)
  have word : c.reg .SYS_STATE 0 = turnsWord false true (a.reg .SYS_STATE 0) := by rw [muted, off]; exact reg_turnsShown ..
  have regA : a.reg .SYS_STATE 0 = s.reg .SYS_STATE 0 := by rw [dev]; rfl
  have regD : d.reg .SYS_STATE 0 = c.reg .SYS_STATE 0 := by rw [outputs]; rfl
  have frameC : c = { s with regs := c.regs, dev := stopDev s, link := a.link } := by rw [shown, dev]
  have frameD : d = { s with regs := d.regs, dev := stopDev s, link := d.link, guard := d.guard, port := d.port } := by
    rw [outputs, frameC]
  refine ⟨by rw [lock, frameD], ?_, ?_, ?_, ?_⟩
  · rw [lock, outputs]
  · rw [lock, outputs]
  · rw [lock, outputs]
  · rw [locks.reg _ _ (by simp), regD, word, regA]

theorem stopShown_shown (s : State) : StopShown s (stopShown s) :=
  stopShown_of rfl rfl rfl rfl (asrcStopped_parts _).1 (asrcStopped_parts _).2

/-! No flip is left to make. -/

theorem setSafe_flipEng {s : State} (h : s.safe.flipEng = []) : setSafe { s.safe with flipEng := [] } s = s := by
  rw [← h]; rfl

theorem flipsEnded_none {s : State} (h : s.safe.flipEng = []) : flipsEnded s = s := by
  unfold flipsEnded
  split
  · rfl
  · simp only [h, List.filter_nil, List.foldl_nil]
    exact setSafe_flipEng h

theorem safeSections_none {s : State} (h : s.safe.flipEng = []) (held : s.sect.held = []) :
    safeSections s = setSect { s.sect with held := [], holdChains := [] } s := by
  have none : safeSections s = releaseStaged (setSafe { s.safe with flipEng := [] } s) := by
    unfold safeSections
    simp only [h, List.filter_nil, List.foldl_nil]
  rw [none, setSafe_flipEng h]
  unfold releaseStaged
  simp only [held, List.foldl_nil]

/-- The sections hold no staged write. -/
def sectionsFree (s : State) : State := setSect { s.sect with held := [], holdChains := [] } s

theorem stopActed_none {acts : List PendAct} {s : State} (flips : s.safe.flipEng = []) (held : s.sect.held = []) (exch : s.dev.exch = []) :
    stopActed acts [] s = portsSwap .keep (actsNow acts (setDev { s.dev with exch := [] } (sectionsFree s))) := by
  have settled : flipsEnded (safeSections s) = sectionsFree s := by
    rw [safeSections_none flips held]
    exact flipsEnded_none flips
  have dev : (sectionsFree s).dev = s.dev := rfl
  unfold stopActed
  rw [settled]
  simp only [dev, exch, List.nil_append, List.append_nil]

/-! The boundary, settled. -/

/-- The edge at which turns stop, with no flip left. -/
structure EdgeStops (s w : State) : Prop extends EdgeSettled s w where
  flipEng : w.safe.flipEng = []
  word : w.reg .SYS_STATE 0 = s.reg .SYS_STATE 0

theorem edgeStops_of {s u v r : State} (ended : TurnEnded s u) (turned : FlipsTurned u v)
    (noted : FlipsNoted (setSafe { v.safe with doneDue := [] } v) r) (flips : s.safe.flipEng ++ s.safe.flipNext = []) :
    EdgeStops s (setEng { r.eng with corrected := [] } r) := by
  have safe : u.safe = s.safe := by rw [ended.frame]
  have frame : r = { s with regs := r.regs, time := u.time, dev := u.dev, link := u.link, timer := u.timer, safe := r.safe
                            fab := { u.fab with hold := false } } := by
    rw [noted.frame, setSafe, turned.frame, ended.frame]
  have flipEng : r.safe.flipEng = [] := by
    have same : r.safe.flipEng = v.safe.flipEng := by rw [noted.safe]; rfl
    rw [same, turned.safe, turnedSafe, safe]; exact flips
  have word : r.reg .SYS_STATE 0 = s.reg .SYS_STATE 0 :=
    (noted.regs.reg _ _ (by simp [recordRegs])).trans ((turned.regs.reg .SYS_STATE 0 (by simp [flipRegs])).trans
      (ended.regs.reg _ _ (by simp [countRegs, rampRegs])))
  refine { frame := ?_, time := ?_, dev := ?_, fab := ?_, flipEng := flipEng, word := word }
  · rw [setEng, frame]
  · rw [setEng, frame]; exact ended.time
  · rw [setEng, frame]; exact ended.dev
  · rw [setEng, frame]
    show { u.fab with hold := false } = _
    rw [ended.fab]

/-- A running boundary at which turns stop. -/
theorem runningBoundary_stops {s : State} (stops : stopsNow s = true) (still : nothingMoves s) (flips : flipsOf s = []) :
    ∃ w, EdgeStops s w ∧ runningBoundary s = turnsStop s.dev.pendCut w := by
  obtain ⟨fabEng, next⟩ := List.append_eq_nil_iff.mp flips
  obtain ⟨fab, eng⟩ := List.append_eq_nil_iff.mp fabEng
  have awake : flipsAwake (flipsOf s) s := by rw [flips]; exact fun _ h => absurd h (by simp)
  have sided : fabricSided s := ⟨by rw [fab]; exact .nil, by rw [fab]; exact fun _ h => absurd h (by simp)⟩
  obtain ⟨ended, turned, _⟩ := turned_ended still sided awake
  have settled : safeBoundary true (turnEnded s) = safeRecord (flipsTurned (turnEnded s)) := (safeBoundary_eq ..).trans (safeEnd_stops _)
  have safe : (turnEnded s).safe = s.safe := by rw [ended.frame]
  have strokes : (flipsTurned (turnEnded s)).safe.strokes = [] := by rw [turned.safe, turnedSafe, safe]; exact still.1
  refine ⟨_, edgeStops_of ended turned (safeRecord_noted strokes) (by rw [eng, next]; rfl), ?_⟩
  rw [runningBoundary_eq, stops, if_pos rfl, flipsSettled_eq, settled]
  rw [flips]; exact fun _ h => absurd h (by simp)

/-- Turns have stopped at a boundary. -/
structure TurnsStopped (s t : State) : Prop where
  at' : AtBoundary s t
  turn : t.time.turn = s.time.turn + 1
  off : turnsOn t = false
  muted : t.bit .SYS_STATE 0 4 = true
  sent : t.port.sent = []
  guarded : t.link.guarded = []
  yPrev : t.guard.yPrev = []
  stays : Stays s t

/-- What stands once turns have stopped, before and after the last acts. -/
structure StopFrame (s x : State) : Prop where
  stays : Stays s x
  time : x.time = { nextTime s with turn := s.time.turn + 1 }
  sent : x.port.sent = []
  guarded : x.link.guarded = []
  yPrev : x.guard.yPrev = []

theorem stopFrame_of {s w e x : State} (edge : EdgeStops s w) (shown : StopShown w e)
    (frame : x = { e with regs := x.regs, dev := x.dev, sect := { e.sect with held := x.sect.held, holdChains := x.sect.holdChains } }) :
    StopFrame s x := by
  refine ⟨?_, ?_, ?_, ?_, ?_⟩
  · refine .trans (t := w) ⟨?_, ?_, ?_, ?_, ?_, ?_, ?_, ?_, ?_, ?_⟩ (.trans (t := e) (.of_parts (by rw [shown.frame]))
      ⟨?_, ?_, ?_, ?_, ?_, ?_, ?_, ?_, ?_, ?_⟩)
    any_goals rw [edge.frame]
    all_goals rw [frame]
  · rw [frame, shown.frame]; exact edge.time
  · rw [frame]; exact shown.sent
  · rw [frame]; exact shown.guarded
  · rw [frame]; exact shown.yPrev

theorem turnsStopped_of {s x : State} (frame : StopFrame s x) (off : turnsOn x = false) (muted : x.bit .SYS_STATE 0 4 = true) :
    TurnsStopped s (portsSwap .keep x) ∧ (portsSwap .keep x).dev = x.dev ∧ (portsSwap .keep x).reg .SYS_STATE 0 = x.reg .SYS_STATE 0 := by
  have swap := portsSwap_swapped .keep x
  have word : (portsSwap .keep x).reg .SYS_STATE 0 = x.reg .SYS_STATE 0 := reg_congr (by rw [swap.frame]) ..
  have time : (portsSwap .keep x).time = { nextTime s with turn := s.time.turn + 1 } := by rw [swap.frame]; exact frame.time
  refine ⟨{ at' := ?_, turn := congrArg TimeState.turn time, off := (turnsOn_congr word).trans off, muted := (bit_state word 4).trans muted,
            sent := frame.sent, guarded := ?_, yPrev := ?_, stays := frame.stays.trans (.of_parts ?_) }, by rw [swap.frame], word⟩
  · rw [AtBoundary, time]; exact ⟨rfl, rfl, rfl⟩
  · rw [swap.frame]; exact frame.guarded
  · rw [swap.frame]; exact frame.yPrev
  · rw [swap.frame]

/-- The last acts of a boundary at which turns stop meet nothing that is left over. -/
structure StopReady (s e h : State) : Prop where
  flipEng : h.safe.flipEng = []
  held : h.sect.held = []
  exch : h.dev.exch = []
  dev : h.dev = stopDev (setDev (endedDev s) s)
  frame : h = { e with regs := h.regs }

theorem stopReady_of {s w e h : State} (edge : EdgeStops s w) (shown : StopShown w e) (regs : RegsOnly e h)
    (exch : s.dev.exch = []) (held : s.sect.held = []) : StopReady s e h := by
  have dev : h.dev = stopDev (setDev (endedDev s) s) := by
    rw [regs, shown.frame]
    show stopDev w = _
    unfold stopDev
    rw [edge.dev]; rfl
  have safe : h.safe = w.safe := by rw [regs, shown.frame]
  have sect : h.sect = s.sect := by rw [regs, shown.frame, edge.frame]
  exact ⟨by rw [safe]; exact edge.flipEng, by rw [sect]; exact held, by rw [dev]; exact exch, dev, regs⟩

/-- What the last acts start from. -/
def stopRest (h : State) : State := setDev { h.dev with exch := [] } (sectionsFree h)

theorem stopRest_frame {s e h : State} (ready : StopReady s e h) : stopRest h = { e with
    regs := (stopRest h).regs, dev := (stopRest h).dev
    sect := { e.sect with held := (stopRest h).sect.held, holdChains := (stopRest h).sect.holdChains } } := by
  have sect : h.sect = e.sect := by rw [ready.frame]
  have rest : stopRest h = { h with dev := { h.dev with exch := [] }, sect := { e.sect with held := [], holdChains := [] } } := by
    rw [stopRest, setDev, sectionsFree, setSect, sect]
  rw [rest, ready.frame]

/-- A freeze, or the end of RELOCK's turns (R33, R36): HOLD. -/
theorem boundary_freezes {s : State} (live : alive s = true) (on : turnsOn s = true)
    (cause : s.dev.freeze = true ∨ s.dev.relockEnd = true) (nothing : s.dev.pendCut = [])
    (new : s.dev.pendNew = [] ∨ s.dev.pendNew = [.disarm]) (run : effState s = St.RUN) (still : nothingMoves s) (flips : flipsOf s = [])
    (exch : s.dev.exch = []) (held : s.sect.held = []) : gives .boundary s (fun t => TurnsStopped s t ∧ effState t = St.HOLD ∧
      t.dev.pendNew = [] ∧ t.dev.pendCut = s.dev.pendNew) := by
  have stops : stopsNow s = true := by
    rcases cause with h | h <;> simp [stopsNow, h]
  obtain ⟨w, edge, step⟩ := runningBoundary_stops stops still flips
  have shown := stopShown_shown w
  have newW : w.dev.pendNew = s.dev.pendNew := by rw [edge.dev]; rfl
  have none : w.dev.pendNew.filter (fun a => !actRequest a) = [] := by rw [newW]; rcases new with h | h <;> rw [h] <;> rfl
  have requests : w.dev.pendNew.filter actRequest = s.dev.pendNew := by rw [newW]; rcases new with h | h <;> rw [h] <;> rfl
  obtain ⟨off, muted, state⟩ := turnsWord_parts shown.word
  have running : effState (stopShown w) = St.RUN := state.trans ((effState_congr edge.word).trans run)
  have holds : stopHeld [] (stopShown w) = enterEff St.HOLD (stopShown w) := if_pos (by rw [running]; rfl)
  rw [nothing, turnsStop_eq, none, holds] at step
  generalize stopShown w = e at shown off muted running step
  have ready := stopReady_of edge shown (enterEff_parts St.HOLD e).1 exch held
  have offH : (enterEff St.HOLD e).bit .SYS_STATE 0 5 = false := (bit_enterEff St.HOLD e 5 (by decide)).trans off
  have mutedH : (enterEff St.HOLD e).bit .SYS_STATE 0 4 = true := (bit_enterEff St.HOLD e 4 (by decide)).trans muted
  have held' : effState (enterEff St.HOLD e) = St.HOLD := effState_enterEff _ _ (by decide) (by decide)
  generalize enterEff St.HOLD e = h at ready offH mutedH held' step
  rw [stopActed_none ready.flipEng ready.held ready.exch] at step
  have wordR : (stopRest h).reg .SYS_STATE 0 = h.reg .SYS_STATE 0 := rfl
  obtain ⟨stopped, dev, word⟩ := turnsStopped_of (x := stopRest h) (stopFrame_of edge shown (stopRest_frame ready))
    ((turnsOn_congr wordR).trans offH) ((bit_state wordR 4).trans mutedH)
  have devR : (stopRest h).dev = { stopDev (setDev (endedDev s) s) with exch := [] } := by
    rw [← ready.dev]; rfl
  refine ⟨_, (boundary_running live on still.2.1).trans (congrArg Host.Outcome.next step), stopped,
    (effState_congr (word.trans wordR)).trans held', ?_, ?_⟩
  · exact (congrArg DevState.pendNew dev).trans (congrArg DevState.pendNew devR)
  · refine ((congrArg DevState.pendCut dev).trans (congrArg DevState.pendCut devR)).trans ?_
    exact (congrArg (List.filter actRequest) newW.symm).trans requests

/-- DISARM at the end of a running turn (R30, R35): ARMED. -/
theorem boundary_disarms {s : State} (live : alive s = true) (on : turnsOn s = true)
    (waits : s.dev.pendCut = [.disarm]) (new : s.dev.pendNew = []) (run : effState s = St.RUN) (still : nothingMoves s)
    (flips : flipsOf s = []) (exch : s.dev.exch = []) (held : s.sect.held = []) :
    gives .boundary s (fun t => TurnsStopped s t ∧ effState t = St.ARMED) := by
  have stops : stopsNow s = true := by simp [stopsNow, waits, actStops, run]
  obtain ⟨w, edge, step⟩ := runningBoundary_stops stops still flips
  have shown := stopShown_shown w
  have none : w.dev.pendNew.filter (fun a => !actRequest a) = [] := by
    have newW : w.dev.pendNew = s.dev.pendNew := by rw [edge.dev]; rfl
    rw [newW, new]; rfl
  obtain ⟨_, _, state⟩ := turnsWord_parts shown.word
  have running : effState (stopShown w) = St.RUN := state.trans ((effState_congr edge.word).trans run)
  have stays : stopHeld [.disarm] (stopShown w) = stopShown w := if_neg (by rw [running]; decide)
  rw [waits, turnsStop_eq, none, stays] at step
  generalize stopShown w = e at shown running step
  have ready := stopReady_of edge shown (.refl e) exch held
  rw [stopActed_none ready.flipEng ready.held ready.exch] at step
  have wordR : (stopRest e).reg .SYS_STATE 0 = e.reg .SYS_STATE 0 := rfl
  have armed : Armed (stopRest e) (actNow .disarm (stopRest e)) := actNow_disarm (.inl ((effState_congr wordR).trans running))
  have acted : actsNow [.disarm] (setDev { e.dev with exch := [] } (sectionsFree e)) = actNow .disarm (stopRest e) := rfl
  rw [acted] at step
  generalize actNow .disarm (stopRest e) = x at armed step
  have frame : x = { e with regs := x.regs, dev := x.dev, sect := { e.sect with held := x.sect.held, holdChains := x.sect.holdChains } } := by
    have sect : x.sect = (stopRest e).sect := by rw [armed.frame]
    rw [sect, armed.frame, stopRest_frame ready]
  obtain ⟨stopped, _, word⟩ := turnsStopped_of (stopFrame_of edge shown frame) armed.off armed.muted
  exact ⟨_, (boundary_running live on still.2.1).trans (congrArg Host.Outcome.next step), stopped,
    (effState_congr word).trans armed.state⟩

end Sys2Proof.Machine
end

section
/-! SUPPORT. The boundary, clause by clause. -/

namespace Sys2Proof.Machine

/-- What a turn that goes on says of its clauses, in the obligation's order. -/
theorem Resumed.begun {s t : State} (h : Resumed s t) : turnsOn t = true ∧ t.bit .SYS_STATE 0 4 = false ∧ t.dev.cutPast = false ∧
    t.dev.freeze = false ∧ t.dev.swapped = [] ∧ t.dev.exchanged = [] ∧ t.dev.started = [] ∧ t.dev.starting = false :=
  ⟨h.on, h.open', h.dev⟩

/-- Registers that no running boundary writes. -/
theorem RunsOn.kept {s t : State} (h : RunsOn s t) (r : RegName) (i : Nat)
    (hr : r ∉ countRegs ++ flipRegs ++ turnRegs := by simp [countRegs, rampRegs, flipRegs, turnRegs, silenceRegs]) : t.reg r i = s.reg r i :=
  h.regs.reg r i hr

/-- Settles O26: turns stopped go by the idle boundary, turns running by the flips and the turn that begins or stops. -/
theorem boundary_holds : Obligations.Boundary := by
  intro s live row hub N none_ quiet flips awake sided begun loads delivered stays resumes locks
  refine ⟨fun off nothing starts goes => ?_, fun off nothing starts goes => ?_, fun off nothing waits stops => ?_,
    fun off waits hold => ?_, fun on freeze relock nothing still up fabric => ?_,
    fun on cause nothing new run still exch held => ?_, fun on freeze relock waits new run still exch held => ?_⟩
  · have next : turnsNext s = true := (turnsNext_iff s).mpr (goes.imp_left fun h => ⟨starts, h⟩)
    obtain ⟨t, does, h⟩ := boundary_resumes live off nothing next
    exact ⟨t, does, h.at', h.begun, h.loads, h.stays.all, h.turn, h.first.trans (if_pos starts), h.inputs starts, h.state⟩
  · have next : turnsNext s = true := (turnsNext_iff s).mpr (.inr goes)
    obtain ⟨t, does, h⟩ := boundary_resumes live off nothing next
    exact ⟨t, does, h.at', h.begun, h.loads, h.stays.all, h.turn, h.first.trans (if_neg (by rw [starts]; exact Bool.false_ne_true)),
      h.state⟩
  · have still : turnsNext s = false := by
      rw [Bool.eq_false_iff, ne_eq, turnsNext_iff]
      rintro (⟨starts, run, unlocked⟩ | goes)
      · exact (waits starts).elim run fun locked => Bool.false_ne_true (unlocked.symm.trans locked)
      · exact stops goes
    obtain ⟨t, does, idles, offT, starting, state⟩ := boundary_idles live off nothing still
    exact ⟨t, does, idles.at', idles.stays.all, offT, idles.turn, idles.inputs, starting, state⟩
  · obtain ⟨t, does, idles, offT, state, muted, cut⟩ := boundary_disarmed live off waits hold
    exact ⟨t, does, idles.at', idles.stays.all, offT, state, muted, cut, idles.turn, idles.inputs⟩
  · obtain ⟨t, does, h⟩ := boundary_runs live on freeze relock nothing still fabric up
    obtain ⟨fab, next, eng, decided, due⟩ := h.safe
    obtain ⟨cut, swapped, exchanged, started⟩ := h.dev
    have status (pe : Nat) := h.kept .ENG_STATUS pe
    refine ⟨t, does, h.at', fab, next, eng, decided, due, h.hold, h.route, h.gain, h.valid, h.kept .SAFE_DONE 0,
      fun pe => ⟨?_, ?_⟩, fun k => ?_, h.turn, (turnsOn_congr (h.kept .SYS_STATE 0)).trans on, cut, swapped, exchanged, started, h.loads,
      fun a _ mode free => h.delivered a mode free, h.stays.all, fun n => ?_, ?_, h.marker⟩
    · unfold State.bit; rw [status]
    · unfold actProg State.f; rw [status]
    · unfold chainSide State.bit; rw [h.kept .SECTION_ACT_w]
    · rw [h.phase]; exact get_nextPhase s n
    · rw [h.probe]; cases s.dev.probe <;> rfl
  · obtain ⟨nothingMoves, noFlips, _⟩ := still
    obtain ⟨t, does, h, state, newT, cutT⟩ := boundary_freezes live on cause nothing new run nothingMoves noFlips exch held
    exact ⟨t, does, h.at', h.turn, h.off, h.muted, state, h.sent, h.guarded, h.yPrev, newT, cutT, h.stays.all⟩
  · obtain ⟨nothingMoves, noFlips, _⟩ := still
    obtain ⟨t, does, h, state⟩ := boundary_disarms live on waits new run nothingMoves noFlips exch held
    exact ⟨t, does, h.at', h.turn, h.off, h.muted, state, h.sent, h.guarded, h.yPrev, h.stays.all⟩

end Sys2Proof.Machine
end


section
/-! SUPPORT. The words of the Ramtal table (R68, R69): what the fields of a long word are, and its operand kinds (R80 to R82, R84). -/

namespace Sys2Proof.Ramtal

open Machine

/-- w is the long word of operation code op with the operand fields f. -/
structure Spells (w : Word) (op f : Nat) : Prop where
  value : w.toNat = op * 2 ^ 25 + f
  code : op < 64
  fields : f < 2 ^ 25

theorem spells_of_lw {op f : Nat} {w : Word} (h : lw op f = some w) (code : op < 64) (fields : f < 2 ^ 25) : Spells w op f := by
  obtain rfl := Option.some.inj h
  exact ⟨by rw [BitVec.toNat_ofNat]; omega, code, fields⟩

/-- A run of len bits from lo is clear where the field that it holds is zero. -/
theorem and_run (n lo len : Nat) (h : n / 2 ^ lo % 2 ^ len = 0) : n &&& 2 ^ lo * (2 ^ len - 1) = 0 := by
  apply Nat.eq_of_testBit_eq; intro i
  have := congrArg (fun x => x.testBit (i - lo)) h
  simp only [Nat.testBit_mod_two_pow, Nat.testBit_div_two_pow, Nat.zero_testBit] at this
  rw [Nat.testBit_and, Nat.testBit_two_pow_mul, Nat.testBit_two_pow_sub_one, Nat.zero_testBit]
  by_cases le : lo ≤ i
  · rw [Nat.sub_add_cancel le] at this
    simp only [ge_iff_le, le, decide_true, Bool.true_and, Bool.and_comm, this]
  · simp [le]

namespace Spells
variable {w : Word} {op f : Nat} (s : Spells w op f)
include s

theorem decode (u : Agent) : decodeRamtal u w = long u w := by
  obtain ⟨value, code, fields⟩ := s
  have clear : bitOf w 31 = false := by
    unfold bitOf; rw [value]; exact Nat.testBit_lt_two_pow (by omega)
  unfold decodeRamtal
  simp only [clear, Bool.false_eq_true, if_false]

theorem row : fld w 30 25 = op := by
  obtain ⟨value, code, fields⟩ := s
  unfold fld; rw [value]; norm_num; omega

/-- A field below the operation code. -/
theorem fld_eq (hi lo : Nat) (h : hi < 25) (l : lo ≤ hi) : fld w hi lo = f / 2 ^ lo % 2 ^ (hi + 1 - lo) := by
  unfold fld
  rw [s.value]
  have e : op * 2 ^ 25 = 2 ^ lo * (op * 2 ^ (24 - hi) * 2 ^ (hi + 1 - lo)) := by
    have : 25 = lo + ((24 - hi) + (hi + 1 - lo)) := by omega
    conv_lhs => rw [this, pow_add, pow_add]
    ring
  rw [e, Nat.mul_add_div (Nat.two_pow_pos _), Nat.mul_add_mod_self_right]

theorem reg {lo : Nat} {r : Fin 32} (l : lo ≤ 20) (h : f / 2 ^ lo % 2 ^ 5 = r.val) : r5 w lo = r := by
  apply Fin.ext
  have := s.fld_eq (lo + 4) lo (by omega) (by omega)
  rw [show lo + 4 + 1 - lo = 5 by omega, h] at this
  simp only [r5, Fin.ofNat, this]
  exact Nat.mod_eq_of_lt r.isLt

/-- The low bits, as an immediate. -/
theorem low {n : Nat} {v : BitVec n} (l : n ≤ 25) (h : f % 2 ^ n = v.toNat) : BitVec.ofNat n w.toNat = v := by
  apply BitVec.eq_of_toNat_eq
  have e : op * 2 ^ 25 = op * 2 ^ (25 - n) * 2 ^ n := by rw [mul_assoc, ← pow_add]; congr 2; omega
  rw [BitVec.toNat_ofNat, s.value, e, Nat.mul_add_mod_self_right, h]

/-- Reserved bits that are zero do not stop the decoder. -/
theorem zero {α : Type} {mask : Nat} (lo len : Nat) (x : α) (h : f / 2 ^ lo % 2 ^ len = 0)
    (m : mask = 2 ^ lo * (2 ^ len - 1) := by decide) (l : lo + len ≤ 25 := by decide) : guardZero w mask x = some x := by
  subst m
  refine if_pos (and_run _ _ _ ?_)
  rcases len with _ | len
  · exact Nat.mod_one _
  · have := s.fld_eq (lo + len) lo (by omega) (by omega)
    rw [show lo + len + 1 - lo = len + 1 by omega, h] at this
    rw [← this, fld, show lo + len + 1 - lo = len + 1 by omega]

/-- Reserved bits in two runs, one of them lowest. -/
theorem zeros {α : Type} {mask : Nat} (lo len low : Nat) (x : α) (h : f / 2 ^ lo % 2 ^ len = 0) (h' : f % 2 ^ low = 0)
    (m : mask = 2 ^ lo * (2 ^ len - 1) ||| 2 ^ 0 * (2 ^ low - 1) := by decide) (l : lo + len ≤ 25 := by decide)
    (l' : 0 + low ≤ 25 := by decide) : guardZero w mask x = some x := by
  have first := s.zero lo len x h rfl l
  have second := s.zero 0 low x (by rw [Nat.pow_zero, Nat.div_one, h']) rfl l'
  unfold guardZero at first second ⊢
  have a := (Option.ite_none_right_eq_some.mp first).1
  have b := (Option.ite_none_right_eq_some.mp second).1
  exact if_pos (by rw [m, Nat.and_or_distrib_left, a, b]; rfl)

end Spells

/-! Kinds of operands. -/

theorem pmOf_eq {n : Nat} {pm : PtrMod} (h : n % 4 = pmBits pm) : pmOf n = pm := by unfold pmOf; rw [h]; cases pm <;> rfl
theorem shiftOf_eq {n : Nat} {k : ShiftKind} (h : n % 4 = shiftBits k) : shiftOf n = k := by unfold shiftOf; rw [h]; cases k <;> rfl
theorem spaceOf_eq {n : Nat} {sp : Space} (h : n % 4 = spaceBits sp) : spaceOf n = sp := by unfold spaceOf; rw [h]; cases sp <;> rfl
theorem condOf_bits (k : Cond) : condOf (condBits k) = some k := by cases k <;> rfl
theorem pmBits_lt (pm : PtrMod) : pmBits pm < 4 := by cases pm <;> decide
theorem shiftBits_lt (k : ShiftKind) : shiftBits k < 4 := by cases k <;> decide
theorem spaceBits_lt (sp : Space) : spaceBits sp < 4 := by cases sp <;> decide
theorem condBits_lt (k : Cond) : condBits k < 15 := by cases k <;> decide
theorem b2n_lt (b : Bool) : b2n b < 2 := by cases b <;> decide
theorem b2n_eq_one (b : Bool) : (b2n b == 1) = b := by cases b <;> rfl

theorem ofNat_val {n : Nat} [NeZero n] {v : Nat} {x : Fin n} (h : v % n = x.val) : Fin.ofNat n v = x := Fin.ext h

theorem reads_one {u : Agent} {r : Fin 32} (h : u.reads [r] = true) : rd_ok u.isCore r = true := by simpa [Agent.reads] using h

theorem reads_two {u : Agent} {r q : Fin 32} (h : u.reads [r, q] = true) : rd_ok u.isCore r = true ∧ rd_ok u.isCore q = true := by
  simpa [Agent.reads] using h

theorem memBits_lt (op : MemOp) : memBits op < 2 ^ 17 := by
  obtain ⟨sp, o | ⟨p, pm⟩⟩ := op
  · have := spaceBits_lt sp; have := o.isLt; simp only [memBits]; omega
  · have := spaceBits_lt sp; have := p.isLt; have := pmBits_lt pm; simp only [memBits]; omega

/-- An engine memory operand is read back (R80 to R82). -/
theorem memOp_memBits (op : MemOp) (fits : op.fits = true) : memOp (memBits op) = some op := by
  obtain ⟨sp, o | ⟨p, pm⟩⟩ := op
  · have := spaceBits_lt sp; have := o.isLt
    have space : spaceOf (memBits ⟨sp, .imm o⟩ / 2 ^ 15) = sp := spaceOf_eq (by simp only [memBits]; omega)
    have direct : memBits ⟨sp, .imm o⟩ / 2 ^ 14 % 2 = 0 := by simp only [memBits]; omega
    have off : memBits ⟨sp, .imm o⟩ % 16384 = o.val := by simp only [memBits]; omega
    have inside : ¬ (sp = .cross ∧ 512 ≤ o.val) := by
      rintro ⟨rfl, big⟩
      have : o.val < 512 := by simpa [MemOp.fits] using fits
      omega
    unfold memOp
    simp only [space, direct, off, if_true, if_neg inside]
    rw [ofNat_val (x := o) (Nat.mod_eq_of_lt o.isLt)]
  · have := spaceBits_lt sp; have := p.isLt; have := pmBits_lt pm
    have space : spaceOf (memBits ⟨sp, .ptr p pm⟩ / 2 ^ 15) = sp := spaceOf_eq (by simp only [memBits]; omega)
    have direct : ¬ memBits ⟨sp, .ptr p pm⟩ / 2 ^ 14 % 2 = 0 := by simp only [memBits]; omega
    have low : memBits ⟨sp, .ptr p pm⟩ % 1024 = 0 := by simp only [memBits]; omega
    have ptr : Fin.ofNat 4 (memBits ⟨sp, .ptr p pm⟩ / 2 ^ 12) = p := ofNat_val (by simp only [memBits]; omega)
    have mod : pmOf (memBits ⟨sp, .ptr p pm⟩ / 2 ^ 10) = pm := pmOf_eq (by simp only [memBits]; omega)
    unfold memOp
    simp only [space, if_neg direct, if_pos low, ptr, mod]

end Sys2Proof.Ramtal
end

section
/-! SUPPORT. The formats that several long words share (R77, R79): three registers, two, an immediate, a field, none, and those of MAC. -/

namespace Sys2Proof.Ramtal

open Machine

section
variable {u : Agent} {w : Word} {op : Nat} {rd rs rt : Fin 32} {imm : BitVec 15}

/-- The fields of format R, with a rest below them. -/
theorem rrr_fields {x : Nat} (h : lw op (rrr rd rs rt + x) = some w) (code : op < 64) (hx : x < 2 ^ 10) :
    Spells w op (rrr rd rs rt + x) ∧ r5 w 20 = rd ∧ r5 w 15 = rs ∧ r5 w 10 = rt := by
  have := rd.isLt; have := rs.isLt; have := rt.isLt
  unfold rrr at h ⊢
  have s := spells_of_lw h code (by omega)
  exact ⟨s, s.reg (by decide) (by omega), s.reg (by decide) (by omega), s.reg (by decide) (by omega)⟩

theorem ri_fields (h : lw op (ri rd rs imm) = some w) (code : op < 64) :
    Spells w op (ri rd rs imm) ∧ r5 w 20 = rd ∧ r5 w 15 = rs ∧ BitVec.ofNat 15 w.toNat = imm := by
  have := rd.isLt; have := rs.isLt; have := imm.isLt
  unfold ri at h ⊢
  have s := spells_of_lw h code (by omega)
  exact ⟨s, s.reg (by decide) (by omega), s.reg (by decide) (by omega), s.low (by decide) (by omega)⟩

/-- Three registers. -/
theorem rrr_decoded (mk : Fin 32 → Fin 32 → Fin 32 → Instr) (wf : (u.writes rd && u.reads [rs, rt]) = true)
    (h : lw op (rrr rd rs rt) = some w) (code : op < 64 := by decide)
    (row : fld w 30 25 = op → long u w = (if wr_ok u.isCore (r5 w 20) && rd_ok u.isCore (r5 w 15) && rd_ok u.isCore (r5 w 10) then
      guardZero w 0x3FF (mk (r5 w 20) (r5 w 15) (r5 w 10)) else none) := by intro code; unfold long; rw [code]; cases u <;> rfl) :
    decodeRamtal u w = some (mk rd rs rt) := by
  obtain ⟨s, frd, frs, frt⟩ := rrr_fields (x := 0) (by rwa [Nat.add_zero]) code (by decide)
  obtain ⟨(writes : wr_ok u.isCore rd = true), reads⟩ := Bool.and_eq_true_iff.mp wf
  obtain ⟨r1, r2⟩ := reads_two reads
  simp only [s.decode, row s.row, frd, frs, frt, writes, r1, r2, Bool.and_self, if_true]
  exact s.zero 0 10 _ (by unfold rrr; omega)

/-- Two registers. -/
theorem rr_decoded (mk : Fin 32 → Fin 32 → Instr) (wf : (u.writes rd && u.reads [rs]) = true)
    (h : lw op (rrr rd rs 0) = some w) (code : op < 64 := by decide)
    (row : fld w 30 25 = op → long u w = (if wr_ok u.isCore (r5 w 20) && rd_ok u.isCore (r5 w 15) then
      guardZero w 0x7FFF (mk (r5 w 20) (r5 w 15)) else none) := by intro code; unfold long; rw [code]; cases u <;> rfl) :
    decodeRamtal u w = some (mk rd rs) := by
  obtain ⟨s, frd, frs, _⟩ := rrr_fields (x := 0) (by rwa [Nat.add_zero]) code (by decide)
  obtain ⟨(writes : wr_ok u.isCore rd = true), reads⟩ := Bool.and_eq_true_iff.mp wf
  simp only [s.decode, row s.row, frd, frs, writes, reads_one reads, Bool.and_self, if_true]
  exact s.zero 0 15 _ (by unfold rrr; simp; omega)

/-- Two registers and an immediate. -/
theorem ri_decoded (mk : Fin 32 → Fin 32 → BitVec 15 → Instr) (wf : (u.writes rd && u.reads [rs]) = true)
    (h : lw op (ri rd rs imm) = some w) (code : op < 64 := by decide)
    (row : fld w 30 25 = op → long u w = guardB (wr_ok u.isCore (r5 w 20) && rd_ok u.isCore (r5 w 15))
      (mk (r5 w 20) (r5 w 15) (BitVec.ofNat 15 w.toNat)) := by intro code; unfold long; rw [code]; cases u <;> rfl) :
    decodeRamtal u w = some (mk rd rs imm) := by
  obtain ⟨s, frd, frs, low⟩ := ri_fields h code
  obtain ⟨(writes : wr_ok u.isCore rd = true), reads⟩ := Bool.and_eq_true_iff.mp wf
  simp only [s.decode, row s.row, frd, frs, low, writes, reads_one reads, Bool.and_self, guardB, if_true]

/-- A store of format I reads both registers. -/
theorem st_decoded (mk : Fin 32 → Fin 32 → BitVec 15 → Instr) (wf : u.reads [rd, rs] = true)
    (h : lw op (ri rd rs imm) = some w) (code : op < 64 := by decide)
    (row : fld w 30 25 = op → long u w = guardB (rd_ok u.isCore (r5 w 20) && rd_ok u.isCore (r5 w 15))
      (mk (r5 w 20) (r5 w 15) (BitVec.ofNat 15 w.toNat)) := by intro code; unfold long; rw [code]; cases u <;> rfl) :
    decodeRamtal u w = some (mk rd rs imm) := by
  obtain ⟨s, frd, frs, low⟩ := ri_fields h code
  obtain ⟨r1, r2⟩ := reads_two wf
  simp only [s.decode, row s.row, frd, frs, low, r1, r2, Bool.and_self, guardB, if_true]

/-- Registers and a further field above bit 5: bit fields, where ok says that the registers are defined. -/
theorem field_decoded {x : Fin 32} (mk : Fin 32 → Fin 32 → Fin 32 → Fin 32 → Instr) (ok : Fin 32 → Fin 32 → Bool) (wf : ok rd rs = true)
    (h : lw op (rrr rd rs rt + x.val * 2 ^ 5) = some w) (code : op < 64 := by decide)
    (row : fld w 30 25 = op → long u w = (if ok (r5 w 20) (r5 w 15) then
      guardZero w 0x1F (mk (r5 w 20) (r5 w 15) (r5 w 10) (r5 w 5)) else none) := by intro code; unfold long; rw [code]; cases u <;> rfl) :
    decodeRamtal u w = some (mk rd rs rt x) := by
  have := x.isLt
  obtain ⟨s, frd, frs, frt⟩ := rrr_fields h code (by omega)
  have last : r5 w 5 = x := s.reg (by decide) (by unfold rrr; omega)
  simp only [s.decode, row s.row, frd, frs, frt, last, wf, if_true]
  exact s.zero 0 5 _ (by unfold rrr; omega)

/-- No first register. -/
theorem sources_decoded (mk : Fin 32 → Fin 32 → Instr) (ok : Fin 32 → Fin 32 → Bool) (wf : ok rs rt = true)
    (h : lw op (rrr 0 rs rt) = some w) (code : op < 64 := by decide)
    (row : fld w 30 25 = op → long u w = (if ok (r5 w 15) (r5 w 10) then guardZero w 0x1F003FF (mk (r5 w 15) (r5 w 10)) else none) := by
      intro code; unfold long; rw [code]; cases u <;> rfl) :
    decodeRamtal u w = some (mk rs rt) := by
  obtain ⟨s, _, frs, frt⟩ := rrr_fields (x := 0) (by rwa [Nat.add_zero]) code (by decide)
  simp only [s.decode, row s.row, frs, frt, wf, if_true]
  have := rs.isLt; have := rt.isLt
  exact s.zeros 20 5 10 _ (by unfold rrr; simp; omega) (by unfold rrr; simp; omega)

/-- No operand. -/
theorem bare_decoded (i : Instr) (ok : Bool) (wf : ok = true) (h : lw op 0 = some w) (code : op < 64 := by decide)
    (row : fld w 30 25 = op → long u w = (if ok then guardZero w 0x1FFFFFF i else none) := by
      intro code; unfold long; rw [code]; cases u <;> rfl) :
    decodeRamtal u w = some i := by
  have s := spells_of_lw h code (by decide)
  simp only [s.decode, row s.row, wf, if_true]
  exact s.zero 0 25 _ rfl

/-- MODE and the operands of MAC, MSU and MPY (R79). -/
theorem macBits_lt (x : MacArgs) : macBits x < 2 ^ 23 := by
  cases x with
  | regs rs rt => have := rs.isLt; have := rt.isLt; simp only [macBits]; omega
  | tapPtr tap p pm => have := tap.isLt; have := p.isLt; have := pmBits_lt pm; simp only [macBits]; omega
  | regMem tr op => have := tr.isLt; have := memBits_lt op; simp only [macBits]; omega
  | ptrCoef p pm coef => have := coef.isLt; have := p.isLt; have := pmBits_lt pm; simp only [macBits]; omega

theorem macArgs_macBits {ad : Nat} {x : MacArgs} (s : Spells w op (ad * 2 ^ 23 + macBits x)) (fits : x.fits u = true) :
    macArgs u.isCore w = some x := by
  cases x with
  | regs rs rt =>
    have := rs.isLt; have := rt.isLt
    obtain ⟨r1, r2⟩ := reads_two fits
    have mode : fld w 22 21 = 0 := (s.fld_eq 22 21 (by decide) (by decide)).trans (by simp only [macBits]; omega)
    have first : r5 w 16 = rs := s.reg (by decide) (by simp only [macBits]; omega)
    have second : r5 w 11 = rt := s.reg (by decide) (by simp only [macBits]; omega)
    have rest : fld w 10 0 = 0 := (s.fld_eq 10 0 (by decide) (by decide)).trans (by simp only [macBits]; omega)
    unfold macArgs
    rw [mode]
    simp only [first, second, rest, r1, r2, and_self, if_true]
  | tapPtr tap p pm =>
    have := tap.isLt; have := p.isLt; have := pmBits_lt pm
    have engine : u.isCore = false := by simpa [MacArgs.fits] using fits
    have mode : fld w 22 21 = 1 := (s.fld_eq 22 21 (by decide) (by decide)).trans (by simp only [macBits]; omega)
    have ftap : fld w 20 7 = tap.val := (s.fld_eq 20 7 (by decide) (by decide)).trans (by simp only [macBits]; omega)
    have fptr : fld w 6 5 = p.val := (s.fld_eq 6 5 (by decide) (by decide)).trans (by simp only [macBits]; omega)
    have fmod : fld w 4 3 = pmBits pm := (s.fld_eq 4 3 (by decide) (by decide)).trans (by simp only [macBits]; omega)
    have rest : fld w 2 0 = 0 := (s.fld_eq 2 0 (by decide) (by decide)).trans (by simp only [macBits]; omega)
    unfold macArgs
    rw [mode]
    simp [engine, ftap, fptr, fmod, rest, pmOf_eq (Nat.mod_eq_of_lt this)]
  | regMem tr mem =>
    have := tr.isLt; have := memBits_lt mem
    obtain ⟨engine, inside⟩ : u.isCore = false ∧ mem.fits = true := by simpa [MacArgs.fits] using fits
    have mode : fld w 22 21 = 2 := (s.fld_eq 22 21 (by decide) (by decide)).trans (by simp only [macBits]; omega)
    have ftr : fld w 20 18 = tr.val := (s.fld_eq 20 18 (by decide) (by decide)).trans (by simp only [macBits]; omega)
    have fmem : fld w 17 1 = memBits mem := (s.fld_eq 17 1 (by decide) (by decide)).trans (by simp only [macBits]; omega)
    have rest : fld w 0 0 = 0 := (s.fld_eq 0 0 (by decide) (by decide)).trans (by simp only [macBits]; omega)
    unfold macArgs
    rw [mode]
    simp [engine, ftr, fmem, rest, memOp_memBits mem inside]
  | ptrCoef p pm coef =>
    have := coef.isLt; have := p.isLt; have := pmBits_lt pm
    have engine : u.isCore = false := by simpa [MacArgs.fits] using fits
    have mode : fld w 22 21 = 3 := (s.fld_eq 22 21 (by decide) (by decide)).trans (by simp only [macBits]; omega)
    have fptr : fld w 20 19 = p.val := (s.fld_eq 20 19 (by decide) (by decide)).trans (by simp only [macBits]; omega)
    have fmod : fld w 18 17 = pmBits pm := (s.fld_eq 18 17 (by decide) (by decide)).trans (by simp only [macBits]; omega)
    have fcoef : fld w 16 4 = coef.val := (s.fld_eq 16 4 (by decide) (by decide)).trans (by simp only [macBits]; omega)
    have rest : fld w 3 0 = 0 := (s.fld_eq 3 0 (by decide) (by decide)).trans (by simp only [macBits]; omega)
    unfold macArgs
    rw [mode]
    simp [engine, fptr, fmod, fcoef, rest, pmOf_eq (Nat.mod_eq_of_lt this)]

theorem mac_decoded {ad : Fin 4} {x : MacArgs} (mk : Fin 4 → MacArgs → Instr) (fits : x.fits u = true)
    (h : lw op (ad.val * 2 ^ 23 + macBits x) = some w) (code : op < 64 := by decide)
    (row : fld w 30 25 = op → long u w = (macArgs u.isCore w).map (fun x => mk (Fin.ofNat 4 (fld w 24 23)) x) := by
      intro code; unfold long; rw [code]; cases u <;> rfl) :
    decodeRamtal u w = some (mk ad x) := by
  have := ad.isLt; have := macBits_lt x
  have s := spells_of_lw h code (by omega)
  have fad : Fin.ofNat 4 (fld w 24 23) = ad := ofNat_val (by rw [s.fld_eq 24 23 (by decide) (by decide)]; omega)
  simp only [s.decode, row s.row, macArgs_macBits s fits, fad, Option.map_some]
end

theorem writes_reads {u : Agent} {rd rs : Fin 32} (h : (u.writes rd && u.reads [rs]) = true) :
    (wr_ok u.isCore rd && rd_ok u.isCore rs) = true := by simpa [Agent.writes, Agent.reads] using h

theorem reads_reads {u : Agent} {rs rt : Fin 32} (h : u.reads [rs, rt] = true) : (rd_ok u.isCore rs && rd_ok u.isCore rt) = true := by
  simpa [Agent.reads] using h

end Sys2Proof.Ramtal
end

section
/-! SUPPORT. Long words with a format of their own (R75 to R85, R90), and every long instruction read back from its word. -/

namespace Sys2Proof.Ramtal

open Machine

section
variable {u : Agent} {w : Word}

theorem cmpi_decoded {rs : Fin 32} {imm : BitVec 15} (wf : u.reads [rs] = true) (h : lw 0x11 (ri 0 rs imm) = some w) :
    decodeRamtal u w = some (.cmpi u rs imm) := by
  obtain ⟨s, _, frs, low⟩ := ri_fields h (by decide)
  have row : long u w = if rd_ok u.isCore (r5 w 15) then guardZero w 0x1F00000 (.cmpi u (r5 w 15) (BitVec.ofNat 15 w.toNat)) else none := by
    unfold long; rw [s.row]; cases u <;> rfl
  have := rs.isLt; have := imm.isLt
  simp only [s.decode, row, frs, low, reads_one wf, if_true]
  exact s.zero 20 5 _ (by unfold ri; simp; omega)

theorem movi_decoded {rd : Fin 32} {imm : BitVec 20} (wf : u.writes rd = true) (h : lw 0x15 (rd.val * 2 ^ 20 + imm.toNat) = some w) :
    decodeRamtal u w = some (.movi u rd imm) := by
  have := rd.isLt; have := imm.isLt
  have s := spells_of_lw h (by decide) (by omega)
  have frd : r5 w 20 = rd := s.reg (by decide) (by omega)
  have low : BitVec.ofNat 20 w.toNat = imm := s.low (by decide) (by omega)
  have row : long u w = guardB (wr_ok u.isCore (r5 w 20)) (.movi u (r5 w 20) (BitVec.ofNat 20 w.toNat)) := by
    unfold long; rw [s.row]; cases u <;> rfl
  have writes : wr_ok u.isCore rd = true := wf
  simp only [s.decode, row, frd, low, writes, guardB, if_true]

theorem movhi_decoded {rd : Fin 32} {imm : BitVec 16} (wf : (u.writes rd && (u.isCore || decide (imm.toNat < 256))) = true)
    (h : lw 0x16 (rd.val * 2 ^ 20 + imm.toNat) = some w) : decodeRamtal u w = some (.movhi u rd imm) := by
  have := rd.isLt; have := imm.isLt
  have s := spells_of_lw h (by decide) (by omega)
  have frd : r5 w 20 = rd := s.reg (by decide) (by omega)
  have low : BitVec.ofNat 16 w.toNat = imm := s.low (by decide) (by omega)
  have row : long u w = if wr_ok u.isCore (r5 w 20) then
      guardZero w (if u.isCore then 0xF0000 else 0xFFF00) (.movhi u (r5 w 20) (BitVec.ofNat 16 w.toNat)) else none := by
    unfold long; rw [s.row]; cases u <;> rfl
  obtain ⟨(writes : wr_ok u.isCore rd = true), small⟩ := Bool.and_eq_true_iff.mp wf
  simp only [s.decode, row, frd, low, writes, if_true]
  cases core : u.isCore with
  | true => exact s.zero 16 4 _ (by omega)
  | false =>
    have : imm.toNat < 256 := by simpa [core] using small
    exact s.zero 8 12 _ (by omega)

theorem shi_decoded {k : ShiftKind} {rd rs amt : Fin 32} (wf : (u.writes rd && u.reads [rs]) = true)
    (h : lw 0x17 (rrr rd rs 0 + shiftBits k * 2 ^ 13 + amt.val * 2 ^ 8) = some w) :
    decodeRamtal u w = some (.shi u k rd rs amt) := by
  have := rd.isLt; have := rs.isLt; have := shiftBits_lt k; have := amt.isLt
  unfold rrr at h
  simp only [Fin.val_zero, Nat.zero_mul, Nat.add_zero] at h
  have s := spells_of_lw h (by decide) (by omega)
  have frd : r5 w 20 = rd := s.reg (by decide) (by omega)
  have frs : r5 w 15 = rs := s.reg (by decide) (by omega)
  have fk : shiftOf (fld w 14 13) = k := shiftOf_eq (by rw [s.fld_eq 14 13 (by decide) (by decide)]; omega)
  have famt : Fin.ofNat 32 (fld w 12 8) = amt := ofNat_val (by rw [s.fld_eq 12 8 (by decide) (by decide)]; omega)
  have row : long u w = if wr_ok u.isCore (r5 w 20) && rd_ok u.isCore (r5 w 15) then
      guardZero w 0xFF (.shi u (shiftOf (fld w 14 13)) (r5 w 20) (r5 w 15) (Fin.ofNat 32 (fld w 12 8))) else none := by
    unfold long; rw [s.row]; cases u <;> rfl
  simp only [s.decode, row, frd, frs, fk, famt, writes_reads wf, if_true]
  exact s.zero 0 8 _ (by omega)

theorem perm_decoded {rd rs : Fin 32} {sel : BitVec 8} (wf : (u.writes rd && u.reads [rs]) = true)
    (h : lw 0x1D (rrr rd rs 0 + sel.toNat * 2 ^ 7) = some w) : decodeRamtal u w = some (.perm u rd rs sel) := by
  have := rd.isLt; have := rs.isLt; have := sel.isLt
  unfold rrr at h
  simp only [Fin.val_zero, Nat.zero_mul, Nat.add_zero] at h
  have s := spells_of_lw h (by decide) (by omega)
  have frd : r5 w 20 = rd := s.reg (by decide) (by omega)
  have frs : r5 w 15 = rs := s.reg (by decide) (by omega)
  have fsel : BitVec.ofNat 8 (fld w 14 7) = sel :=
    BitVec.eq_of_toNat_eq (by rw [BitVec.toNat_ofNat, s.fld_eq 14 7 (by decide) (by decide)]; omega)
  have row : long u w = if wr_ok u.isCore (r5 w 20) && rd_ok u.isCore (r5 w 15) then
      guardZero w 0x7F (.perm u (r5 w 20) (r5 w 15) (BitVec.ofNat 8 (fld w 14 7))) else none := by
    unfold long; rw [s.row]; cases u <;> rfl
  simp only [s.decode, row, frd, frs, fsel, writes_reads wf, if_true]
  exact s.zero 0 7 _ (by omega)

theorem accld_decoded {ad : Fin 4} {rs : Fin 32} {sh : Fin 64} (wf : u.reads [rs] = true)
    (h : lw 0x24 (ad.val * 2 ^ 23 + rs.val * 2 ^ 16 + sh.val * 2 ^ 10) = some w) : decodeRamtal u w = some (.accld u ad rs sh) := by
  have := ad.isLt; have := rs.isLt; have := sh.isLt
  have s := spells_of_lw h (by decide) (by omega)
  have fad : Fin.ofNat 4 (fld w 24 23) = ad := ofNat_val (by rw [s.fld_eq 24 23 (by decide) (by decide)]; omega)
  have frs : r5 w 16 = rs := s.reg (by decide) (by omega)
  have fsh : Fin.ofNat 64 (fld w 15 10) = sh := ofNat_val (by rw [s.fld_eq 15 10 (by decide) (by decide)]; omega)
  have row : long u w = if rd_ok u.isCore (r5 w 16) then
      guardZero w 0x6003FF (.accld u (Fin.ofNat 4 (fld w 24 23)) (r5 w 16) (Fin.ofNat 64 (fld w 15 10))) else none := by
    unfold long; rw [s.row]; cases u <;> rfl
  simp only [s.decode, row, fad, frs, fsh, reads_one wf, if_true]
  exact s.zeros 21 2 10 _ (by omega) (by omega)

theorem sta_decoded {rd : Fin 32} {as : Fin 4} {sh : Fin 64} (wf : u.writes rd = true)
    (h : lw 0x25 (rd.val * 2 ^ 20 + as.val * 2 ^ 18 + sh.val * 2 ^ 12) = some w) : decodeRamtal u w = some (.sta u rd as sh) := by
  have := rd.isLt; have := as.isLt; have := sh.isLt
  have s := spells_of_lw h (by decide) (by omega)
  have frd : r5 w 20 = rd := s.reg (by decide) (by omega)
  have fas : Fin.ofNat 4 (fld w 19 18) = as := ofNat_val (by rw [s.fld_eq 19 18 (by decide) (by decide)]; omega)
  have fsh : Fin.ofNat 64 (fld w 17 12) = sh := ofNat_val (by rw [s.fld_eq 17 12 (by decide) (by decide)]; omega)
  have row : long u w = if wr_ok u.isCore (r5 w 20) then
      guardZero w 0xFFF (.sta u (r5 w 20) (Fin.ofNat 4 (fld w 19 18)) (Fin.ofNat 64 (fld w 17 12))) else none := by
    unfold long; rw [s.row]; cases u <;> rfl
  have writes : wr_ok u.isCore rd = true := wf
  simp only [s.decode, row, frd, fas, fsh, writes, if_true]
  exact s.zero 0 12 _ (by omega)

theorem sha_decoded {ad as : Fin 4} {right : Bool} {amt : Fin 64}
    (h : lw 0x26 (ad.val * 2 ^ 23 + as.val * 2 ^ 21 + b2n right * 2 ^ 20 + amt.val * 2 ^ 14) = some w) :
    decodeRamtal u w = some (.sha u ad as right amt) := by
  have := ad.isLt; have := as.isLt; have := amt.isLt; have := b2n_lt right
  have s := spells_of_lw h (by decide) (by omega)
  have fad : Fin.ofNat 4 (fld w 24 23) = ad := ofNat_val (by rw [s.fld_eq 24 23 (by decide) (by decide)]; omega)
  have fas : Fin.ofNat 4 (fld w 22 21) = as := ofNat_val (by rw [s.fld_eq 22 21 (by decide) (by decide)]; omega)
  have fright : fld w 20 20 = b2n right := (s.fld_eq 20 20 (by decide) (by decide)).trans (by omega)
  have famt : Fin.ofNat 64 (fld w 19 14) = amt := ofNat_val (by rw [s.fld_eq 19 14 (by decide) (by decide)]; omega)
  have row : long u w = guardZero w 0x3FFF (.sha u (Fin.ofNat 4 (fld w 24 23)) (Fin.ofNat 4 (fld w 22 21)) (fld w 20 20 == 1)
      (Fin.ofNat 64 (fld w 19 14))) := by
    unfold long; rw [s.row]; cases u <;> rfl
  simp only [s.decode, row, fad, fas, fright, famt, b2n_eq_one]
  exact s.zero 0 14 _ (by omega)

/-- The operand of LDX and STX in engine profile (R75, R80). -/
theorem xMem_fields {op : Nat} {rd : Fin 32} {mem : MemOp} (h : lw op (xBits rd (.mem mem)) = some w) (code : op < 64) :
    Spells w op (xBits rd (.mem mem)) ∧ r5 w 20 = rd ∧ fld w 19 3 = memBits mem ∧ fld w 2 0 = 0 := by
  have := rd.isLt; have := memBits_lt mem
  simp only [xBits] at h ⊢
  have s := spells_of_lw h code (by omega)
  exact ⟨s, s.reg (by decide) (by omega), (s.fld_eq 19 3 (by decide) (by decide)).trans (by omega),
    (s.fld_eq 2 0 (by decide) (by decide)).trans (by omega)⟩

theorem ldx_decoded {rd : Fin 32} {x : XAddr} (wf : (u.writes rd && x.fitsLoad u) = true) (h : lw 0x2E (xBits rd x) = some w) :
    decodeRamtal u w = some (.ldx u rd x) := by
  obtain ⟨(writes : wr_ok u.isCore rd = true), fits⟩ := Bool.and_eq_true_iff.mp wf
  cases x with
  | base rs imm =>
    obtain ⟨s, frd, frs, low⟩ := ri_fields h (by decide)
    have core : u.isCore = true := fits
    have row : long u w = some (.ldx u (r5 w 20) (.base (r5 w 15) (BitVec.ofNat 15 w.toNat))) := by
      unfold long; rw [s.row]; cases u with | core c => rfl | eng pe => exact nomatch core
    rw [s.decode, row, frd, frs, low]
  | mem op =>
    obtain ⟨s, frd, fmem, rest⟩ := xMem_fields h (by decide)
    obtain ⟨engine, inside⟩ : u.isCore = false ∧ op.fits = true := by simpa [XAddr.fitsLoad] using fits
    have row : long u w = if wr_ok u.isCore (r5 w 20) && fld w 2 0 == 0 then
        (memOp (fld w 19 3)).map (fun op => .ldx u (r5 w 20) (.mem op)) else none := by
      unfold long; rw [s.row]; cases u with | core c => exact nomatch engine | eng pe => rfl
    simp only [s.decode, row, frd, fmem, rest, writes, memOp_memBits op inside, beq_self_eq_true, Bool.and_self, if_true, Option.map_some]

theorem stx_decoded {rd : Fin 32} {x : XAddr} (wf : (u.reads [rd] && x.fitsStore u) = true) (h : lw 0x2F (xBits rd x) = some w) :
    decodeRamtal u w = some (.stx u rd x) := by
  obtain ⟨reads, fits⟩ := Bool.and_eq_true_iff.mp wf
  cases x with
  | base rs imm =>
    obtain ⟨s, frd, frs, low⟩ := ri_fields h (by decide)
    have core : u.isCore = true := fits
    have row : long u w = some (.stx u (r5 w 20) (.base (r5 w 15) (BitVec.ofNat 15 w.toNat))) := by
      unfold long; rw [s.row]; cases u with | core c => rfl | eng pe => exact nomatch core
    rw [s.decode, row, frd, frs, low]
  | mem op =>
    obtain ⟨s, frd, fmem, rest⟩ := xMem_fields h (by decide)
    obtain ⟨⟨engine, palette⟩, cross⟩ : (u.isCore = false ∧ op.space ≠ .palette) ∧ op.space ≠ .cross := by
      simpa [XAddr.fitsStore] using fits
    have inside : op.fits = true := by
      unfold MemOp.fits; split
      · rename_i e _; exact absurd e cross
      · rfl
    have row : long u w = if rd_ok u.isCore (r5 w 20) && fld w 2 0 == 0 then
        (memOp (fld w 19 3)).bind (fun op =>
          if op.space = .palette ∨ op.space = .cross then none else some (.stx u (r5 w 20) (.mem op))) else none := by
      unfold long; rw [s.row]; cases u with | core c => exact nomatch engine | eng pe => rfl
    have legal : ¬ (op.space = .palette ∨ op.space = .cross) := not_or.mpr ⟨palette, cross⟩
    simp only [s.decode, row, frd, fmem, rest, reads_one reads, memOp_memBits op inside, beq_self_eq_true, Bool.and_self, if_true,
      Option.bind_some, if_neg legal]

theorem bcond_decoded {k : Cond} {x : BranchArg} (wf : x.fits u = true) (h : encodeLong (.bcond u k x) = some w) :
    decodeRamtal u w = some (.bcond u k x) := by
  have := condBits_lt k
  cases x with
  | off o =>
    have := o.isLt
    have s := spells_of_lw (f := condBits k * 2 ^ 21 + o.toNat) h (by decide) (by omega)
    have fk : fld w 24 21 = condBits k := (s.fld_eq 24 21 (by decide) (by decide)).trans (by omega)
    have low : BitVec.ofNat 21 w.toNat = o := s.low (by decide) (by omega)
    have core : u.isCore = true := wf
    have row : long u w = (condOf (fld w 24 21)).bind (fun k => some (.bcond u k (.off (BitVec.ofNat 21 w.toNat)))) := by
      unfold long; rw [s.row]; cases u with | core c => rfl | eng pe => exact nomatch core
    rw [s.decode, row, fk, condOf_bits, low]; rfl
  | ncnt n =>
    have := n.isLt
    obtain ⟨engine, nonzero⟩ : u.isCore = false ∧ n.val ≠ 0 := by simpa [BranchArg.fits] using wf
    have s := spells_of_lw (f := condBits k * 2 ^ 21 + n.val) h (by decide) (by omega)
    have fk : fld w 24 21 = condBits k := (s.fld_eq 24 21 (by decide) (by decide)).trans (by omega)
    have rest : fld w 20 6 = 0 := (s.fld_eq 20 6 (by decide) (by decide)).trans (by omega)
    have fn : fld w 5 0 = n.val := (s.fld_eq 5 0 (by decide) (by decide)).trans (by omega)
    have row : long u w = (condOf (fld w 24 21)).bind (fun k => if fld w 20 6 = 0 ∧ fld w 5 0 ≠ 0 then
        some (.bcond u k (.ncnt (Fin.ofNat 64 (fld w 5 0)))) else none) := by
      unfold long; rw [s.row]; cases u with | core c => exact nomatch engine | eng pe => rfl
    rw [s.decode, row, fk, condOf_bits, rest, fn, Option.bind_some, if_pos ⟨rfl, nonzero⟩, ofNat_val (Nat.mod_eq_of_lt n.isLt)]

theorem bl_decoded {o : BitVec 25} (core : u.isCore = true) (h : lw 0x31 o.toNat = some w) : decodeRamtal u w = some (.bl u o) := by
  have := o.isLt
  have s := spells_of_lw h (by decide) (by omega)
  have low : BitVec.ofNat 25 w.toNat = o := s.low (by decide) (by omega)
  have row : long u w = guardB u.isCore (.bl u (BitVec.ofNat 25 w.toNat)) := by unfold long; rw [s.row]; cases u <;> rfl
  rw [s.decode, row, core, low]; rfl

theorem jr_decoded {rd rs : Fin 32} (core : u.isCore = true) (h : lw 0x32 (rrr rd rs 0) = some w) :
    decodeRamtal u w = some (.jr u rd rs) := by
  obtain ⟨s, frd, frs, _⟩ := rrr_fields (x := 0) (by rwa [Nat.add_zero]) (by decide) (by decide)
  have row : long u w = if u.isCore then guardZero w 0x7FFF (.jr u (r5 w 20) (r5 w 15)) else none := by
    unfold long; rw [s.row]; cases u <;> rfl
  simp only [s.decode, row, core, frd, frs, if_true]
  exact s.zero 0 15 _ (by unfold rrr; simp; omega)

theorem rot_decoded {k : Fin 16} (core : u.isCore = true) (h : lw 0x33 k.val = some w) : decodeRamtal u w = some (.rot u k) := by
  have := k.isLt
  have s := spells_of_lw h (by decide) (by omega)
  have fk : Fin.ofNat 16 (fld w 3 0) = k := ofNat_val (by rw [s.fld_eq 3 0 (by decide) (by decide)]; omega)
  have row : long u w = if u.isCore then guardZero w 0x1FFFFF0 (.rot u (Fin.ofNat 16 (fld w 3 0))) else none := by
    unfold long; rw [s.row]; cases u <;> rfl
  simp only [s.decode, row, core, fk, if_true]
  exact s.zero 4 21 _ (by omega)

theorem sys_decoded {rd : Fin 32} {toSys : Bool} {num : BitVec 12}
    (wf : (sysOk u.isCore toSys num.toNat && (if toSys then u.reads [rd] else u.writes rd)) = true)
    (h : lw 0x3A (rd.val * 2 ^ 20 + b2n toSys * 2 ^ 19 + num.toNat * 2 ^ 7) = some w) :
    decodeRamtal u w = some (.sys u rd toSys num) := by
  have := rd.isLt; have := b2n_lt toSys; have := num.isLt
  have s := spells_of_lw h (by decide) (by omega)
  have frd : r5 w 20 = rd := s.reg (by decide) (by omega)
  have fto : fld w 19 19 = b2n toSys := (s.fld_eq 19 19 (by decide) (by decide)).trans (by omega)
  have fnum : fld w 18 7 = num.toNat := (s.fld_eq 18 7 (by decide) (by decide)).trans (by omega)
  have row : long u w = if sysOk u.isCore (fld w 19 19 == 1) (fld w 18 7) &&
        (if fld w 19 19 == 1 then rd_ok u.isCore (r5 w 20) else wr_ok u.isCore (r5 w 20)) then
      guardZero w 0x7F (.sys u (r5 w 20) (fld w 19 19 == 1) (BitVec.ofNat 12 (fld w 18 7))) else none := by
    unfold long; rw [s.row]; cases u <;> rfl
  obtain ⟨defined, access⟩ := Bool.and_eq_true_iff.mp wf
  have may : (if toSys then rd_ok u.isCore rd else wr_ok u.isCore rd) = true := by
    cases toSys with
    | false => exact access
    | true => exact reads_one access
  simp only [s.decode, row, frd, fto, fnum, b2n_eq_one, defined, may, Bool.and_self, if_true, BitVec.ofNat_toNat, BitVec.setWidth_eq]
  exact s.zero 0 7 _ (by omega)

theorem trap_decoded {code : BitVec 8} (core : u.isCore = true) (h : lw 0x3B code.toNat = some w) :
    decodeRamtal u w = some (.trap u code) := by
  have := code.isLt
  have s := spells_of_lw h (by decide) (by omega)
  have low : BitVec.ofNat 8 w.toNat = code := s.low (by decide) (by omega)
  have row : long u w = if u.isCore then guardZero w 0x1FFFF00 (.trap u (BitVec.ofNat 8 w.toNat)) else none := by
    unfold long; rw [s.row]; cases u <;> rfl
  simp only [s.decode, row, core, low, if_true]
  exact s.zero 8 17 _ (by omega)

theorem dice_decoded {rd : Fin 32} {tri : Bool} (wf : u.writes rd = true) (h : lw 0x3C (rd.val * 2 ^ 20 + b2n tri * 2 ^ 18) = some w) :
    decodeRamtal u w = some (.dice u rd tri) := by
  have := rd.isLt; have := b2n_lt tri
  have s := spells_of_lw h (by decide) (by omega)
  have frd : r5 w 20 = rd := s.reg (by decide) (by omega)
  have fkind : fld w 19 18 = b2n tri := (s.fld_eq 19 18 (by decide) (by decide)).trans (by omega)
  have row : long u w = if wr_ok u.isCore (r5 w 20) && decide (fld w 19 18 ≤ 1) then
      guardZero w 0x3FFFF (.dice u (r5 w 20) (fld w 19 18 == 1)) else none := by
    unfold long; rw [s.row]; cases u <;> rfl
  have writes : wr_ok u.isCore rd = true := wf
  have small : decide (b2n tri ≤ 1) = true := decide_eq_true (by omega)
  simp only [s.decode, row, frd, fkind, b2n_eq_one, writes, small, Bool.and_self, if_true]
  exact s.zero 0 18 _ (by omega)
end

/-- A long instruction is read back from its word. -/
theorem long_decoded (i : Instr) (w : Word) (wf : i.wellFormed = true) (h : encodeLong i = some w) : ∃ u, decodeRamtal u w = some i := by
  cases i with
  | nop u => exact ⟨u, bare_decoded (u := u) (.nop u) true rfl h⟩
  | add u => exact ⟨u, rrr_decoded (.add u) wf h⟩
  | sub u => exact ⟨u, rrr_decoded (.sub u) wf h⟩
  | adds u => exact ⟨u, rrr_decoded (.adds u) wf h⟩
  | subs u => exact ⟨u, rrr_decoded (.subs u) wf h⟩
  | andR u => exact ⟨u, rrr_decoded (.andR u) wf h⟩
  | orR u => exact ⟨u, rrr_decoded (.orR u) wf h⟩
  | xorR u => exact ⟨u, rrr_decoded (.xorR u) wf h⟩
  | andn u => exact ⟨u, rrr_decoded (.andn u) wf h⟩
  | shl u => exact ⟨u, rrr_decoded (.shl u) wf h⟩
  | shr u => exact ⟨u, rrr_decoded (.shr u) wf h⟩
  | sar u => exact ⟨u, rrr_decoded (.sar u) wf h⟩
  | ror u => exact ⟨u, rrr_decoded (.ror u) wf h⟩
  | neg u => exact ⟨u, rr_decoded (.neg u) wf h⟩
  | abs u => exact ⟨u, rr_decoded (.abs u) wf h⟩
  | cmp u => exact ⟨u, sources_decoded (u := u) (.cmp u) (fun rs rt => rd_ok u.isCore rs && rd_ok u.isCore rt) (reads_reads wf) h⟩
  | addi u => exact ⟨u, ri_decoded (.addi u) wf h⟩
  | cmpi u => exact ⟨u, cmpi_decoded wf h⟩
  | andi u => exact ⟨u, ri_decoded (.andi u) wf h⟩
  | ori u => exact ⟨u, ri_decoded (.ori u) wf h⟩
  | xori u => exact ⟨u, ri_decoded (.xori u) wf h⟩
  | movi u => exact ⟨u, movi_decoded wf h⟩
  | movhi u => exact ⟨u, movhi_decoded wf h⟩
  | shi u => exact ⟨u, shi_decoded wf h⟩
  | bfx u => exact ⟨u, field_decoded (u := u) (.bfx u) (fun rd rs => wr_ok u.isCore rd && rd_ok u.isCore rs) (writes_reads wf) h⟩
  | bfxs u => exact ⟨u, field_decoded (u := u) (.bfxs u) (fun rd rs => wr_ok u.isCore rd && rd_ok u.isCore rs) (writes_reads wf) h⟩
  | bfi u => exact ⟨u, field_decoded (u := u) (.bfi u) (fun rd rs => wr_ok u.isCore rd && rd_ok u.isCore rs) (writes_reads wf) h⟩
  | clz u => exact ⟨u, rr_decoded (.clz u) wf h⟩
  | cls u => exact ⟨u, rr_decoded (.cls u) wf h⟩
  | perm u => exact ⟨u, perm_decoded wf h⟩
  | mul u => exact ⟨u, rrr_decoded (.mul u) wf h⟩
  | div u => exact ⟨u, field_decoded (u := u) (.div u) (fun _ _ => u.isCore) wf h⟩
  | divu u => exact ⟨u, field_decoded (u := u) (.divu u) (fun _ _ => u.isCore) wf h⟩
  | mac u => exact ⟨u, mac_decoded (.mac u) wf h⟩
  | msu u => exact ⟨u, mac_decoded (.msu u) wf h⟩
  | mpy u => exact ⟨u, mac_decoded (.mpy u) wf h⟩
  | accld u => exact ⟨u, accld_decoded wf h⟩
  | sta u => exact ⟨u, sta_decoded wf h⟩
  | sha u => exact ⟨u, sha_decoded h⟩
  | ldw u => exact ⟨u, ri_decoded (.ldw u) wf h⟩
  | stw u => exact ⟨u, st_decoded (.stw u) wf h⟩
  | ldh u => exact ⟨u, ri_decoded (.ldh u) wf h⟩
  | sth u => exact ⟨u, st_decoded (.sth u) wf h⟩
  | ldb u => exact ⟨u, ri_decoded (.ldb u) wf h⟩
  | stb u => exact ⟨u, st_decoded (.stb u) wf h⟩
  | ldx u => exact ⟨u, ldx_decoded wf h⟩
  | stx u => exact ⟨u, stx_decoded wf h⟩
  | bcond u => exact ⟨u, bcond_decoded wf h⟩
  | bl u => exact ⟨u, bl_decoded wf h⟩
  | jr u => exact ⟨u, jr_decoded wf h⟩
  | rot u => exact ⟨u, rot_decoded wf h⟩
  | get u => exact ⟨u, bare_decoded (u := u) (.get u) u.isCore wf h⟩
  | doneItem u => exact ⟨u, bare_decoded (u := u) (.doneItem u) u.isCore wf h⟩
  | pusht u => exact ⟨u, sources_decoded (u := u) (.pusht u) (fun rs rt => rd_ok u.isCore rs && rd_ok u.isCore rt) (reads_reads wf) h⟩
  | fence u => exact ⟨u, bare_decoded (u := u) (.fence u) true rfl h⟩
  | clean u => exact ⟨u, sources_decoded (u := u) (.clean u) (fun _ _ => u.isCore) wf h⟩
  | inval u => exact ⟨u, sources_decoded (u := u) (.inval u) (fun _ _ => u.isCore) wf h⟩
  | sys u => exact ⟨u, sys_decoded wf h⟩
  | trap u => exact ⟨u, trap_decoded wf h⟩
  | dice u => exact ⟨u, dice_decoded wf h⟩
  | _ => exact nomatch h

end Sys2Proof.Ramtal
end

section
/-! SUPPORT. Short operations (R86 to R89) and pair words (R91) read back from their bits; every word read back as what it encodes. -/

namespace Sys2Proof.Ramtal

open Machine

section
variable {sop rd rs low : Nat}

theorem sBits_lt (h : sop < 16) (hd : rd < 8) (hs : rs < 8) (hl : low < 32) : sBits sop rd rs low < 2 ^ 15 := by
  unfold sBits; omega

/-- The fields of a short operation. -/
structure Short (v sop rd rs low : Nat) : Prop where
  op : v / 2048 % 16 = sop
  rd : v / 256 % 8 = rd
  rs : v / 32 % 8 = rs
  low : v % 32 = low

theorem short_sBits (h : sop < 16) (hd : rd < 8) (hs : rs < 8) (hl : low < 32) : Short (sBits sop rd rs low) sop rd rs low := by
  unfold sBits; constructor <;> omega

end

namespace Short
variable {v sop : Nat} {x y z : Fin 8}

theorem rdField {rs low : Nat} (s : Short v sop x.val rs low) : r3 v 8 = x := ofNat_val s.rd
theorem rsField {rd low : Nat} (s : Short v sop rd y.val low) : r3 v 5 = y := ofNat_val s.rs
theorem rtField {rd rs : Nat} (s : Short v sop rd rs z.val) : r3 v 0 = z := ofNat_val (by have := s.low; omega)
theorem reserved {rd rs : Nat} (s : Short v sop rd rs z.val) : v / 8 % 4 = 0 := by have := s.low; omega

end Short

/-- What the decoder makes of 15 bits, and that they are 15. -/
def readsAs (core : Bool) (v : Nat) (x : ShortOp) : Prop := short core v = some x ∧ v < 2 ^ 15

section
variable {core : Bool} {sop : Nat} {rd rs rt : Fin 8}

/-- Three registers. -/
theorem three_reads (mk : Fin 8 → Fin 8 → Fin 8 → ShortOp) (h : sop < 16 := by decide)
    (row : ∀ v, v / 2048 % 16 = sop → short core v = (if v / 8 % 4 = 0 then some (mk (r3 v 8) (r3 v 5) (r3 v 0)) else none) := by
      intro v op; unfold short; rw [op]; rfl) :
    readsAs core (sBits sop rd.val rs.val rt.val) (mk rd rs rt) := by
  have s := short_sBits h rd.isLt rs.isLt (low := rt.val) (by omega)
  exact ⟨by rw [row _ s.op, if_pos s.reserved, s.rdField, s.rsField, s.rtField], sBits_lt h rd.isLt rs.isLt (by omega)⟩

/-- Two registers and an amount. -/
theorem amount_reads {n : Fin 32} (mk : Fin 8 → Fin 8 → Fin 32 → ShortOp) (h : sop < 16 := by decide)
    (row : ∀ v, v / 2048 % 16 = sop → short core v = some (mk (r3 v 8) (r3 v 5) (Fin.ofNat 32 v)) := by
      intro v op; unfold short; rw [op]; rfl) :
    readsAs core (sBits sop rd.val rs.val n.val) (mk rd rs n) := by
  have s := short_sBits h rd.isLt rs.isLt n.isLt
  exact ⟨by rw [row _ s.op, s.rdField, s.rsField, ofNat_val s.low], sBits_lt h rd.isLt rs.isLt n.isLt⟩

/-- An accumulator and two registers. -/
theorem accumulator_reads {ad : Fin 4} (mk : Fin 4 → Fin 8 → Fin 8 → ShortOp) (h : sop < 16 := by decide)
    (row : ∀ v, v / 2048 % 16 = sop → short core v = (if v / 1024 % 2 = 0 then
      (if v / 8 % 4 = 0 then some (mk (Fin.ofNat 4 (v / 256)) (r3 v 5) (r3 v 0)) else none) else none) := by
      intro v op; unfold short; rw [op]; rfl) :
    readsAs core (sBits sop ad.val rs.val rt.val) (mk ad rs rt) := by
  have := ad.isLt
  have s := short_sBits h (rd := ad.val) (by omega) rs.isLt (low := rt.val) (by omega)
  have fad : Fin.ofNat 4 (sBits sop ad.val rs.val rt.val / 256) = ad := ofNat_val (by have := s.rd; omega)
  have top : sBits sop ad.val rs.val rt.val / 1024 % 2 = 0 := by have := s.rd; omega
  exact ⟨by rw [row _ s.op, if_pos top, if_pos s.reserved, fad, s.rsField, s.rtField], sBits_lt h (by omega) rs.isLt (by omega)⟩

end

theorem macs_reads {u : Agent} {ad : Fin 4} {x : MacsArgs} (fits : x.fits u = true) :
    readsAs u.isCore (shortBits (.macs ad x)) (.macs ad x) := by
  cases x with
  | regs rs rt =>
    have core : u.isCore = true := fits
    rw [core]
    exact accumulator_reads (fun ad rs rt => .macs ad (.regs rs rt)) (row := fun v op => by unfold short; rw [op]; rfl)
  | ptrs tp ti cp ci =>
    have engine : u.isCore = false := by simpa [MacsArgs.fits] using fits
    have := ad.isLt; have := tp.isLt; have := cp.isLt; have := b2n_lt ti; have := b2n_lt ci
    have s := short_sBits (sop := 0xB) (rd := ad.val) (rs := b2n ti * 4 + tp.val) (low := b2n ci * 4 + cp.val) (by decide)
      (by omega) (by omega) (by omega)
    refine ⟨?_, sBits_lt (by decide) (by omega) (by omega) (by omega)⟩
    simp only [shortBits]
    generalize sBits 0xB ad.val (b2n ti * 4 + tp.val) (b2n ci * 4 + cp.val) = v at s
    obtain ⟨op, frd, frs, low⟩ := s
    have top : v / 1024 % 2 = 0 := by omega
    have rest : v / 8 % 4 = 0 := by omega
    have fad : Fin.ofNat 4 (v / 256) = ad := ofNat_val (by omega)
    have ftp : Fin.ofNat 4 (v / 32) = tp := ofNat_val (by omega)
    have fcp : Fin.ofNat 4 v = cp := ofNat_val (by omega)
    have fti : v / 128 % 2 = b2n ti := by omega
    have fci : v / 4 % 2 = b2n ci := by omega
    unfold short
    simp only [op, top, rest, fad, ftp, fcp, fti, fci, b2n_eq_one, engine, if_true, Bool.false_eq_true, if_false]

/-- LDXS and STXS. -/
theorem xs_reads {u : Agent} {sop : Nat} {rd : Fin 8} {x : XsAddr} (mk : Fin 8 → XsAddr → ShortOp) (fits : x.fits u = true)
    (h : sop < 16 := by decide)
    (row : ∀ v, v / 2048 % 16 = sop → short u.isCore v = some (mk (r3 v 8) (if u.isCore then .base (r3 v 5) (Fin.ofNat 32 v)
      else .ptr (v / 128 % 2 == 1) (Fin.ofNat 4 (v / 32)) (BitVec.ofNat 5 v))) := by intro v op; unfold short; rw [op]; rfl) :
    readsAs u.isCore (xsBits sop rd x) (mk rd x) := by
  cases x with
  | base rs imm =>
    have core : u.isCore = true := fits
    have s := short_sBits h rd.isLt rs.isLt imm.isLt
    exact ⟨by rw [xsBits, row _ s.op, if_pos core, s.rdField, s.rsField, ofNat_val s.low], sBits_lt h rd.isLt rs.isLt imm.isLt⟩
  | ptr sc p imm =>
    have engine : u.isCore = false := by simpa [XsAddr.fits] using fits
    have := p.isLt; have := b2n_lt sc; have := imm.isLt
    have s := short_sBits h rd.isLt (rs := b2n sc * 4 + p.val) (low := imm.toNat) (by omega) (by omega)
    refine ⟨?_, sBits_lt h rd.isLt (by omega) (by omega)⟩
    rw [xsBits, row _ s.op, if_neg (by simp [engine])]
    generalize sBits sop rd.val (b2n sc * 4 + p.val) imm.toNat = v at s
    have frd : r3 v 8 = rd := s.rdField
    obtain ⟨_, _, frs, low⟩ := s
    have fsc : v / 128 % 2 = b2n sc := by omega
    have fp : Fin.ofNat 4 (v / 32) = p := ofNat_val (by omega)
    have fimm : BitVec.ofNat 5 v = imm := BitVec.eq_of_toNat_eq (by rw [BitVec.toNat_ofNat]; omega)
    rw [frd, fsc, b2n_eq_one, fp, fimm]

/-- A short operation is read back from its bits. -/
theorem short_reads (u : Agent) (x : ShortOp) (fits : x.fits u = true) : readsAs u.isCore (shortBits x) x := by
  cases x with
  | nops => exact ⟨by cases u <;> rfl, by decide⟩
  | mov rd rs =>
    have s := short_sBits (sop := 1) (low := 0) (by decide) rd.isLt rs.isLt (by decide)
    refine ⟨?_, sBits_lt (by decide) rd.isLt rs.isLt (by decide)⟩
    unfold shortBits short
    simp only [s.op, s.low, s.rdField, s.rsField, if_true]
  | add => exact three_reads .add
  | sub => exact three_reads .sub
  | and => exact three_reads .and
  | or => exact three_reads .or
  | xor => exact three_reads .xor
  | shli => exact amount_reads .shli
  | sari => exact amount_reads .sari
  | addi5 rd rs imm =>
    have s := short_sBits (sop := 9) (by decide) rd.isLt rs.isLt imm.isLt
    have fimm : BitVec.ofNat 5 (sBits 9 rd.val rs.val imm.toNat) = imm := BitVec.eq_of_toNat_eq s.low
    refine ⟨?_, sBits_lt (by decide) rd.isLt rs.isLt imm.isLt⟩
    unfold shortBits short
    simp only [s.op, fimm, s.rdField, s.rsField]
  | cmp rs rt =>
    have s := short_sBits (sop := 0xA) (rd := 0) (low := rt.val) (by decide) (by decide) rs.isLt (by omega)
    refine ⟨?_, sBits_lt (by decide) (by decide) rs.isLt (by omega)⟩
    unfold shortBits short
    simp only [s.op, s.rd, s.reserved, s.rsField, s.rtField, if_true]
  | macs => exact macs_reads fits
  | ldxs => exact xs_reads .ldxs fits
  | stxs => exact xs_reads .stxs fits
  | mpys => exact accumulator_reads .mpys

/-! Pair words (R68, R91). -/

/-- A pair word is read back, both slots. -/
theorem decode_encodePair (u : Agent) (a b : ShortOp) (fa : a.fits u = true) (fb : b.fits u = true) :
    decodeRamtal u (encodePair a b) = some (pairOf u a b) := by
  obtain ⟨ra, la⟩ := short_reads u a fa
  obtain ⟨rb, lb⟩ := short_reads u b fb
  have value : (encodePair a b).toNat = 2 ^ 31 + shortBits a * 2 ^ 15 + shortBits b := by
    unfold encodePair; rw [BitVec.toNat_ofNat]; omega
  have top : bitOf (encodePair a b) 31 = true := by
    unfold bitOf; rw [value, Nat.testBit_eq_decide_div_mod_eq]; exact decide_eq_true (by omega)
  have next : bitOf (encodePair a b) 30 = false := by
    unfold bitOf; rw [value, Nat.testBit_eq_decide_div_mod_eq]; exact decide_eq_false (by omega)
  have slotA : fld (encodePair a b) 29 15 = shortBits a := by unfold fld; rw [value]; norm_num; omega
  have slotB : fld (encodePair a b) 14 0 = shortBits b := by unfold fld; rw [value]; norm_num; omega
  have both : (short u.isCore (shortBits a)).bind (fun a => (short u.isCore (shortBits b)).map fun b => pairOf u a b) =
      some (pairOf u a b) := by rw [ra, Option.bind_some, rb, Option.map_some]
  unfold decodeRamtal
  simp only [top, next, slotA, slotB, if_true, Bool.false_eq_true, if_false]
  cases u <;> exact both

/-- The operations of a pair in either slot order belong to the profile where both do. -/
theorem pairIn_fits {u v : Agent} {slot : Slot} {x y a b : ShortOp} (hx : x.fits u = true) (hy : y.fits u = true)
    (h : some (pairIn u slot x y) = some (v, a, b)) : a.fits v = true ∧ b.fits v = true := by
  cases slot <;> cases h
  · exact ⟨hx, hy⟩
  · exact ⟨hy, hx⟩

/-- The operations of a well-formed pair word belong to the profile. -/
theorem pairParts_fits (i : Instr) (u : Agent) (a b : ShortOp) (wf : i.wellFormed = true) (h : pairParts i = some (u, a, b)) :
    a.fits u = true ∧ b.fits u = true := by
  cases i with
  | nops | mov | shortAdd | shortSub | shortAnd | shortOr | shortXor | shli | sari | addi5 | shortCmp | mpys =>
    exact pairIn_fits rfl wf h
  | macs u slot ad x other =>
    obtain ⟨own, fits⟩ := Bool.and_eq_true_iff.mp wf
    exact pairIn_fits (x := .macs ad x) own fits h
  | ldxs u slot rd x other =>
    obtain ⟨own, fits⟩ := Bool.and_eq_true_iff.mp wf
    exact pairIn_fits (x := .ldxs rd x) own fits h
  | stxs u slot rd x other =>
    obtain ⟨own, fits⟩ := Bool.and_eq_true_iff.mp wf
    exact pairIn_fits (x := .stxs rd x) own fits h
  | _ => exact nomatch h

/-- Settles O60, by the word's top bit: a pair word by its two slots, a long word by the row of its operation code. -/
theorem decodeEncode : Obligations.DecodeEncode := by
  intro i w wf h
  unfold encodeRamtal at h
  cases parts : pairParts i with
  | none =>
    rw [parts] at h
    exact long_decoded i w wf h
  | some p =>
    obtain ⟨u, a, b⟩ := p
    rw [parts] at h
    obtain ⟨fa, fb⟩ := pairParts_fits i u a b wf parts
    exact ⟨u, Option.some.inj h ▸ decode_encodePair u a b fa fb⟩

end Sys2Proof.Ramtal
end

section
/-! SUPPORT. SYS (R90, R127, R135): what it reads, and why its write of STAT is not all that the last word of a run does. -/

namespace Sys2Proof.Machine

/-- A register that a corrected program word does not count in. -/
theorem reg_fetched (pe : Nat) (s : State) (r : RegName) (i : Nat) (corr : r ≠ .ENG_ECC_CORR) (last : r ≠ .ENG_ECC_LAST) :
    (fetched pe s).reg r i = s.reg r i := (fetched_frame pe s).2 r i corr last

@[simp] theorem logicalOf_fetched (pe q : Nat) (s : State) : logicalOf (fetched pe s) q = logicalOf s q := by
  have remap : remapSlot (fetched pe s) (q / 9) = remapSlot s (q / 9) := by
    funext k; unfold remapSlot State.f; rw [reg_fetched] <;> decide
  unfold logicalOf slotOf; rw [remap]

@[simp] theorem stamp_fetched (pe : Nat) (s : State) : stamp (fetched pe s) = stamp s := by
  have turns : turnsOn (fetched pe s) = turnsOn s := by unfold turnsOn State.bit; rw [reg_fetched] <;> decide
  have time : (fetched pe s).time = s.time := by rw [(fetched_frame pe s).1]
  unfold stamp cycleNow; rw [turns, time]

/-- A corrected program word changes nothing that SYS reads. -/
theorem sysRead_fetched (pe : Nat) (s : State) (h num : Nat) : sysRead (fetched pe s) h num = sysRead s h num := by
  unfold sysRead getRrb
  simp only [getStat_fetched, getDice_fetched, logicalOf_fetched, stamp_fetched, fetched_core]

/-- SYS is legal where it is well formed (R90). -/
theorem sysOp_legal {u : Agent} {rd : Fin 32} {toSys : Bool} {num : BitVec 12} (wf : (Instr.sys u rd toSys num).wellFormed = true) :
    (sysOp rd toSys num).legal (unitHart u) = true := by
  obtain ⟨defined, access⟩ := Bool.and_eq_true_iff.mp wf
  have core : u.isCore = decide (unitHart u < 16) := by
    cases u with
    | core c => simp [Agent.isCore, unitHart]
    | eng pe => simp [Agent.isCore, unitHart, laneHart]
  have known : sysDefined (unitHart u) num.toNat toSys = true := by
    unfold Ramtal.sysOk at defined
    unfold sysDefined
    rw [core] at defined
    split at defined <;> simp_all
  have field : (if toSys then legalRead (unitHart u) rd else legalWrite (unitHart u) rd) = true := by
    cases toSys with
    | false => exact legalWrite_of_ok u rd access
    | true => exact legalRead_of_ok u rd (by simpa [Agent.reads] using access)
  exact Bool.and_eq_true_iff.mpr ⟨known, field⟩

/-- SYS that reads gives rd the value of the system register, and nothing else. -/
theorem sysRead_word (u : Agent) (rd : Fin 32) (num : BitVec 12) (v : Nat → Nat) (s : State) (value : ∀ h, sysRead s h num.toNat = v h) :
    wordRuns (.sys u rd false num) u [] (fun h => Put.plain rd (v h)) s := by
  intro wf ready
  have legal := sysOp_legal wf
  have writes : legalWrite (unitHart u) rd = true := (Bool.and_eq_true_iff.mp legal).2
  refine ⟨_, rfl, ?_⟩
  have word := unitWord_put u (sysOp rd false num) (fun s0 h => Put.plain rd (sysRead s0 h num.toNat)) (fun _ _ => false) s
    ready legal (Nat.zero_le 2) rfl rfl (fun _ _ _ => rfl) (fun pe h => by rw [sysRead_fetched]) (fun _ _ => rfl)
    (fun h mem => ⟨fun e he => by
      obtain rfl : e = (rd.val, sysRead s h num.toNat) := by simpa [Put.plain] using he
      exact ⟨rd.isLt, (legalWrite_harts u s rd h mem).trans writes⟩, fun _ => rfl, fun _ _ acc => nomatch acc⟩)
  simp only [value] at word
  exact word

/-- Settles O15: each system register is what sysRead gives for its number. -/
theorem sysReads : Obligations.SysReads := by
  intro u rd s
  exact ⟨sysRead_word u rd 0 _ s fun _ => rfl, sysRead_word u rd 2 _ s fun _ => rfl, sysRead_word u rd 3 _ s fun _ => rfl,
    sysRead_word u rd 0x10 _ s fun _ => rfl, fun _ => ⟨sysRead_word u rd 1 _ s fun _ => rfl, sysRead_word u rd 4 _ s fun _ => rfl,
    sysRead_word u rd 5 _ s fun _ => rfl, sysRead_word u rd 6 _ s fun _ => rfl⟩⟩

/-- Engine 0 at the last word of its run, with a load of lane 0 due at its end (R161). -/
def lastWord : State :=
  let s := State.reset.setReg .ENG_PROG_A 0 0x00010000
  { s with eng := { s.eng with run := [(0, 0)], deliver := [⟨0, 0, 3, 5, 0⟩] } }

/-- Refutes O16: the last word of a run is followed by the loads due at its end, so a write of STAT there leaves other data registers
than before. -/
theorem not_sysWrites : ¬ Obligations.SysWrites := by
  intro h
  obtain ⟨_, stat, _⟩ := h (.eng 0) 0 4 lastWord
  obtain ⟨t, runs, _, kept, _⟩ := stat (by decide +kernel) (by decide +kernel)
  have word : t = unitWord (.eng 0) [sysOp 4 true 0] lastWord := by cases runs; rfl
  have regs : t.hart.r = lastWord.hart.r := by rw [kept]
  rw [word] at regs
  exact absurd regs (by decide +kernel)

end Sys2Proof.Machine
end

section
/-! SUPPORT. STXS beside LDXS (R91, R405): a load from a domain that a request takes down latches a wake. -/

namespace Sys2Proof.Machine

/-- Core 0 with g1 and g2 in its local memory, while a request takes that memory's domain into retention (R399). -/
def domainLeaving : State :=
  let s := State.reset
  { s with hart := { s.hart with r := Store.set zeroOf (Store.set zeroOf s.hart.r 1 0x08000100) 2 0x08000000 },
           pwr := { s.pwr with enter := [(domainAt 0x08000000, 1)] } }

/-- Refutes O24: the load of a pair word reaches a domain that is on but in a request, so it latches a wake of the domain (R405), while
the statement keeps everything outside the core; its clause on LDXS alone asks that no request names the domain, its clause on the pair
does not. -/
theorem not_shortLoadsAndStores : ¬ Obligations.ShortLoadsAndStores := by
  intro h
  obtain ⟨_, _, pair, _⟩ := h 0 0 .a 4 1 3 2 0 0 false 0 0 domainLeaving
  obtain ⟨t, runs, ⟨_, _, _, _, goes, _⟩, _⟩ := pair [0, 0, 0, 0] (by decide +kernel) (by decide +kernel) (by decide +kernel)
    (by decide +kernel) (fun _ => by decide +kernel) (by decide +kernel)
  have word : t = unitWord (.core 0) [shortOp (.stxs 3 (.base 1 0)), shortOp (.ldxs 4 (.base 2 0))] domainLeaving := by cases runs; rfl
  have kept := congrArg (fun x : State => x.pwr.latch) goes
  change t.pwr.latch = domainLeaving.pwr.latch at kept
  rw [word] at kept
  exact absurd kept (by decide +kernel)

end Sys2Proof.Machine
end

section
/-! SUPPORT. The end of an engine's word, whatever windows the word has opened (R85, R137, R161). -/

namespace Sys2Proof.Machine

/-- The windows of an engine's lanes as they stand before the word, stepped down; a window that the word opened stands as it is. -/
def windowsDown (pe : Nat) (s0 t : State) : State :=
  (List.range 4).foldl (fun t L => if nullOf s0 (laneHart pe L) = 0 then t
    else setNull (laneHart pe L) (nullOf s0 (laneHart pe L) - 1) t) t

theorem windowsDown_frame (pe : Nat) (s0 t : State) :
    windowsDown pe s0 t = { t with eng := { t.eng with null := (windowsDown pe s0 t).eng.null } } :=
  (windows_step pe s0 t (List.range 4) List.nodup_range).1

theorem nullOf_windowsDown (pe : Nat) (s0 t : State) (L : Fin 4) : nullOf (windowsDown pe s0 t) (laneHart pe L) =
    if nullOf s0 (laneHart pe L) ≠ 0 then nullOf s0 (laneHart pe L) - 1 else nullOf t (laneHart pe L) := by
  rw [windowsDown, (windows_step pe s0 t (List.range 4) List.nodup_range).2]
  refine if_congr ⟨fun ⟨_, _, _, closed⟩ => closed, fun closed => ⟨L, by simp, rfl, closed⟩⟩ rfl rfl

/-- A word before the last: the run goes on to the next. -/
theorem runStep_more {pe w : Nat} {s0 t : State} (more : w + 1 < progLen t pe (actProg t pe)) :
    runStep pe w s0 t = { windowsDown pe s0 t with eng := { (windowsDown pe s0 t).eng with
      run := t.eng.run.map (fun r => if r.1 = pe then (pe, w + 1) else r) } } := by
  have frame := windowsDown_frame pe s0 t
  have same : progLen (windowsDown pe s0 t) pe (actProg (windowsDown pe s0 t) pe) = progLen t pe (actProg t pe) := by rw [frame]; rfl
  have run : (windowsDown pe s0 t).eng.run = t.eng.run := by rw [frame]
  rw [← run]
  exact if_pos (same ▸ more)

/-- The last word of a run: the loads due at its end are delivered, and the run ends. -/
theorem runStep_last {pe w : Nat} {s0 t : State} (last : ¬ w + 1 < progLen t pe (actProg t pe)) :
    runStep pe w s0 t = endRun pe (deliverDue pe (w + 1) (windowsDown pe s0 t)) := by
  have frame := windowsDown_frame pe s0 t
  have same : progLen (windowsDown pe s0 t) pe (actProg (windowsDown pe s0 t) pe) = progLen t pe (actProg t pe) := by rw [frame]; rfl
  exact if_neg (same ▸ last)

/-- A run that has ended has left nothing behind. -/
theorem endRun_parts (pe : Nat) (s : State) :
    (∀ q, runAt (endRun pe s) q = if q = pe then none else runAt s q) ∧
    (∀ L : Fin 4, nullOf (endRun pe s) (laneHart pe L) = 0) ∧
    (endRun pe s).eng.deliver = s.eng.deliver.filter (fun d => d.pe != pe) := by
  refine ⟨fun q => find_filter_run s.eng.run pe q, fun L => ?_, rfl⟩
  refine (get_filter natZero (fun k => peOf k != pe) s.eng.null (laneHart pe L)).trans ?_
  rw [peOf_laneHart pe L L.isLt]; simp [natZero]

/-- What an engine's word leaves of the registers, STAT bits, windows and loads at its end: t is the state that its operations left,
which may have opened windows and moved nothing else of the run. -/
theorem runStep_lands {pe : Fin 72} {w : Nat} {s t : State} (stands : runAt s pe = some w)
    (eng : t.eng = { s.eng with null := t.eng.null }) (len : progLen t pe (actProg t pe) = progLen s pe (actProg s pe)) :
    let u := runStep pe w (fetched pe s) t
    let goes := decide (w + 1 < progLen s pe (actProg s pe))
    (u = { t with hart := { t.hart with r := u.hart.r },
                  eng := { t.eng with run := u.eng.run, null := u.eng.null, deliver := u.eng.deliver } }) ∧
    (∀ (h : Nat) (r : Fin 32), readReg u h r = landed (.eng pe) s h r (readReg t h r)) ∧
    (∀ q, runAt u q = if q = pe.val then (if goes then some (w + 1) else none) else runAt s q) ∧
    (∀ L : Fin 4, nullOf u (laneHart pe L) =
      if goes then (if nullOf s (laneHart pe L) ≠ 0 then nullOf s (laneHart pe L) - 1 else nullOf t (laneHart pe L)) else 0) ∧
    u.eng.deliver = if goes then s.eng.deliver else s.eng.deliver.filter (fun d => d.pe != pe.val) := by
  have run : t.eng.run = s.eng.run := by rw [eng]
  have loads : t.eng.deliver = s.eng.deliver := by rw [eng]
  have frame := windowsDown_frame pe (fetched pe s) t
  have windows := nullOf_windowsDown pe (fetched pe s) t
  simp only [nullOf_fetched] at windows
  have waiting : (windowsDown pe (fetched pe s) t).eng.deliver = s.eng.deliver := by rw [frame]; exact loads
  have reads (h : Nat) (r : Fin 32) : readReg (windowsDown pe (fetched pe s) t) h r = readReg t h r := by rw [frame]; rfl
  unfold landed
  by_cases more : w + 1 < progLen s pe (actProg s pe)
  · rw [runStep_more (len ▸ more)]
    simp only [stands, Option.getD_some, more, decide_true, if_true]
    refine ⟨by rw [frame], fun h r => reads h r, fun q => ?_, windows, waiting⟩
    have here : (s.eng.run.find? (fun r => r.1 == pe.val)).isSome = true := by
      have some : (runAt s pe).isSome = true := by rw [stands]; rfl
      rwa [runAt, Option.isSome_map] at some
    rw [runAt, run]
    exact (find_map_run s.eng.run pe q (w + 1)).trans (by rw [here]; rfl)
  · rw [runStep_last (len ▸ more)]
    obtain ⟨⟨H, delivered⟩, values⟩ := deliverDue_parts pe (w + 1) (windowsDown pe (fetched pe s) t)
    obtain ⟨runs, closed, gone⟩ := endRun_parts pe (deliverDue pe (w + 1) (windowsDown pe (fetched pe s) t))
    simp only [stands, Option.getD_some, more, decide_false, Bool.false_eq_true, if_false]
    refine ⟨?_, fun h r => ?_, fun q => ?_, closed, ?_⟩
    · rw [delivered, frame]; rfl
    · have value := values h r
      rw [reads, waiting] at value
      simp only [Nat.lt_succ_iff] at value
      exact value
    · rw [runs, delivered, frame]
      simp only [runAt, run]
    · rw [gone, delivered, frame]
      simp only [loads, List.filter_filter]
      congr 1
      funext d
      by_cases other : d.pe = pe <;> simp [other]

/-- An engine that issues a word stands in a run. -/
theorem runAt_of_ready {pe : Nat} {s : State} (ready : engReady pe s = true) : ∃ w, runAt s pe = some w := by
  cases stands : runAt s pe with
  | none => simp [engReady, stands] at ready
  | some w => exact ⟨w, rfl⟩

/-- A word that opens no window: the engine goes on. -/
theorem engGoes_runStep {pe : Fin 72} {w : Nat} {s t : State} (stands : runAt s pe = some w) (eng : t.eng = s.eng)
    (len : progLen t pe (actProg t pe) = progLen s pe (actProg s pe)) : engGoes pe [] s (runStep pe w (fetched pe s) t) := by
  obtain ⟨-, -, runs, windows, loads⟩ := runStep_lands stands (by rw [eng]) len
  have kept (L : Nat) : nullOf t L = nullOf s L := by rw [nullOf, eng]; rfl
  refine ⟨by rw [stands]; exact runs, fun L => ?_, by rw [stands, List.append_nil]; exact loads⟩
  rw [windows L, kept, stands]
  refine if_congr Iff.rfl ?_ rfl
  split <;> omega

end Sys2Proof.Machine
end

section
/-! SUPPORT. Nullify windows (R85, R129). -/

namespace Sys2Proof.Machine

/-- Each lane of a list whose condition holds has n words to nullify; nothing else changes. -/
theorem openWindows (pe n : Nat) (k : Cond) (s0 : State) (lanes : List Nat) (t : State) :
    let u := lanes.foldl (fun t L => if condOn s0 (laneHart pe L) k then setNull (laneHart pe L) n t else t) t
    u = { t with eng := { t.eng with null := u.eng.null } } ∧
    ∀ h, nullOf u h = if h ∈ lanes.map (laneHart pe) ∧ condOn s0 h k = true then n else nullOf t h := by
  induction lanes generalizing t with
  | nil => exact ⟨rfl, fun h => by simp⟩
  | cons L lanes ih =>
    obtain ⟨frame, opened⟩ := ih (if condOn s0 (laneHart pe L) k then setNull (laneHart pe L) n t else t)
    have first : (if condOn s0 (laneHart pe L) k then setNull (laneHart pe L) n t else t) = { t with eng := { t.eng with
        null := (if condOn s0 (laneHart pe L) k then setNull (laneHart pe L) n t else t).eng.null } } := by split <;> rfl
    refine ⟨?_, fun h => ?_⟩
    · rw [List.foldl_cons, frame, first]
    · rw [List.foldl_cons, opened h]
      by_cases here : h = laneHart pe L
      · subst here
        by_cases holds : condOn s0 (laneHart pe L) k = true
        · simp [holds, nullOf_setNull]
        · simp [holds]
      · have same : nullOf (if condOn s0 (laneHart pe L) k then setNull (laneHart pe L) n t else t) h = nullOf t h := by
          split
          · rw [nullOf_setNull, if_neg here]
          · rfl
        simp only [same, List.map_cons, List.mem_cons, here, false_or]

theorem condOn_fetched (pe h : Nat) (k : Cond) (s : State) : condOn (fetched pe s) h k = condOn s h k := by
  rw [condOn, getStat_fetched]; rfl

/-- A lane executes the word when no window of it is open. -/
theorem lane_live (pe : Fin 72) (L : Fin 4) (s : State) :
    laneHart pe L ∈ (liveLanes s pe).map (laneHart pe) ↔ nullOf s (laneHart pe L) = 0 := by
  have inj (a : Nat) : laneHart pe a = laneHart pe L ↔ a = L := by unfold laneHart; omega
  simp [liveLanes, inj]

/-- Settles O14: the windows that Bcond opens are those of the lanes that executed it, so none of them steps down at this word. -/
theorem nullifyWindows : Obligations.NullifyWindows := by
  intro pe k n s nz issues
  obtain ⟨w, stands⟩ := runAt_of_ready issues
  have lane : 16 ≤ laneHart pe 0 := by unfold laneHart; omega
  have word := engWord_plain pe w (bcondOp k (.ncnt n)) s stands issues (by simp [bcondOp, Op.plain, lane, nz]) (Nat.zero_le 2) rfl
  obtain ⟨frame, opened⟩ := openWindows pe n.val k (fetched pe s) (liveLanes (fetched pe s) pe) (fetched pe s)
  generalize done : (liveLanes (fetched pe s) pe).foldl (fun t L => if condOn (fetched pe s) (laneHart pe L) k then
    setNull (laneHart pe L) n.val t else t) (fetched pe s) = t at frame opened
  have eng : t.eng = { s.eng with null := t.eng.null } := by rw [frame, fetched_eng]
  have len : progLen t pe (actProg t pe) = progLen s pe (actProg s pe) := by rw [frame]; exact progLen_fetched pe s
  obtain ⟨moved, regs, runs, windows, -⟩ := runStep_lands stands eng len
  refine ⟨runStep pe w (fetched pe s) t, ?_, fun L => ?_, ?_, fun h r => ?_, ?_⟩
  · exact congrArg Host.Outcome.next (word.trans (congrArg (runStep pe w (fetched pe s)) done))
  · simp only [stands, Option.getD_some]
    rw [windows L, opened, liveLanes_fetched, nullOf_fetched, condOn_fetched]
    simp only [lane_live]
    refine if_congr Iff.rfl ?_ rfl
    by_cases closed : nullOf s (laneHart pe L) = 0
    · simp [closed, condOn]
    · simp [closed]
  · rw [stands]; exact runs
  · have kept : readReg t h r = readReg s h r := by rw [frame]; exact readReg_fetched pe s h r
    rw [regs, kept]
  · have hart : t.hart = s.hart := by rw [frame, fetched_hart]
    rw [moved, hart]
    rw [frame]

end Sys2Proof.Machine
end

section
/-! SUPPORT. TRAP and undefined words (R93, R94, R136). -/

namespace Sys2Proof.Machine

/-- A trap's effects do not depend on the pc that the core stood at. -/
theorem trapTaken_setPc {c n code : Nat} {epc v : Word} {keeps : Bool} {s t : State}
    (taken : trapTaken c n code epc keeps (setPc c v s) t) : trapTaken c n code epc keeps s t := by
  obtain ⟨vectored, held, hart, core, others, idle⟩ := taken
  refine ⟨vectored, held, hart, core, fun k other => ?_, idle⟩
  obtain ⟨pc, mode⟩ := others k other
  exact ⟨pc.trans (by rw [getPc_setPc, if_neg other]), mode⟩

/-- A core that issues a word its profile does not define takes the trap of an undefined word. -/
theorem coreWord_undefined (c : Fin 16) (op : Op) (s : State) (ready : coreReady c [] s = true) (bad : op.legal c = false) :
    coreWord c [op] s = trapEnter c .undef 0 (getPc s c) s := by
  simp only [coreReady, Bool.and_eq_true, Bool.not_eq_true', List.all_nil, and_true] at ready
  obtain ⟨⟨runs, passed⟩, fetches⟩ := ready
  unfold coreWord
  simp [runs, List.contains_iff_mem.not.mp (Bool.not_eq_true _ ▸ passed), fetches, bad]

/-- An engine that issues a word its profile does not define does nothing, but for the record of its fault if a lane executes it. -/
theorem engWord_undefined (pe w : Nat) (op : Op) (s : State) (stands : runAt s pe = some w) (ready : engReady pe s = true)
    (bad : op.legal (laneHart pe 0) = false) :
    engWord pe [op] s = runStep pe w (fetched pe s) (if liveLanes s pe = [] then fetched pe s else engIll pe w (fetched pe s)) := by
  simp only [engReady, stands, Bool.and_eq_true, Bool.not_eq_true', bne_iff_ne, ne_eq] at ready
  obtain ⟨intime, whole⟩ := ready
  have done : fetched pe s = correctProg pe (progAddr pe (progBase s pe (actProg s pe) + w)) (progBase s pe (actProg s pe) + w) s := by
    simp [fetched, stands]
  unfold engWord
  simp only [stands, intime, Bool.false_eq_true, if_false, whole]
  rw [← done, liveLanes_fetched]
  by_cases none : liveLanes s pe = []
  · simp [none]
  · simp [none, bad]

/-- The program base stands in registers that correction leaves alone. -/
theorem progBase_fetched (pe : Nat) (s : State) :
    progBase (fetched pe s) pe (actProg (fetched pe s) pe) = progBase s pe (actProg s pe) := by
  unfold progBase progReg actProg State.f
  rw [reg_fetched, reg_fetched, reg_fetched] <;> decide

/-- The record of an undefined word (R93). -/
theorem engIll_parts (pe w : Nat) (s : State) :
    let t := engIll pe w s
    RegsOnly s t ∧ OnlyAt [(.ENG_FAULT, pe), (.EVT_RAW_w, 0)] s t ∧ t.bit .ENG_FAULT pe 0 = true ∧
    (s.bit .ENG_FAULT pe 0 = true → t = s) ∧
    (s.bit .ENG_FAULT pe 0 = false → t.f .ENG_FAULT pe 28 16 = (progBase s pe (actProg s pe) + w) % 2 ^ 13 ∧
      t.bit .EVT_RAW_w 0 11 = true) := by
  cases recorded : s.bit .ENG_FAULT pe 0 with
  | true =>
    have same : engIll pe w s = s := if_pos recorded
    simp only [same]
    exact ⟨.refl s, .refl _ s, recorded, fun _ => trivial, fun new => absurd new (by decide)⟩
  | false =>
    let a := s.setF .ENG_FAULT pe 28 16 (progBase s pe (actProg s pe) + w)
    have record : engIll pe w s = raise Ev.ENG_ILL (a.setBit .ENG_FAULT pe 0 true) := if_neg (by rw [recorded]; decide)
    have event : (raise Ev.ENG_ILL (a.setBit .ENG_FAULT pe 0 true)).reg .ENG_FAULT pe = (a.setBit .ENG_FAULT pe 0 true).reg .ENG_FAULT pe := by
      rw [reg_raise, if_neg (fun e => absurd e.1 (by decide))]
    have address : (a.setBit .ENG_FAULT pe 0 true).f .ENG_FAULT pe 28 16 = a.f .ENG_FAULT pe 28 16 := by
      rw [State.f, reg_setBit, if_pos ⟨rfl, rfl⟩, fld_putBit_ne _ _ _ _ _ (by decide) (by decide)]; rfl
    simp only [record]
    refine ⟨.trans (.trans (.setF ..) (.setBit ..)) (.raise ..), .trans (.trans (.setF (by simp)) (.setBit (by simp))) (.setBit ?_),
      ?_, fun old => absurd old (by decide), fun _ => ⟨?_, raise_bit _ _⟩⟩
    · simp [Ev.ENG_ILL, evAt]
    · rw [State.bit, event]; exact bit_setBit_same _ _ _ _ _ (by decide)
    · rw [State.f, event]
      exact address.trans (f_setF_same s .ENG_FAULT pe 28 16 _ (by decide) (by decide))

/-- An undefined word of an engine at word w of its run. -/
theorem engWord_undefined_does (pe : Fin 72) (op : Op) (s : State) (ready : engReady pe s = true)
    (bad : op.legal (laneHart pe 0) = false) :
    let t := engWord pe [op] s
    (liveLanes s pe = [] ∨ s.bit .ENG_FAULT pe 0 = true → t.regs = (fetched pe s).regs) ∧
    (liveLanes s pe ≠ [] → t.bit .ENG_FAULT pe 0 = true ∧ (s.bit .ENG_FAULT pe 0 = false →
      t.f .ENG_FAULT pe 28 16 = (progBase s pe (actProg s pe) + (runAt s pe).getD 0) % 2 ^ 13 ∧ t.bit .EVT_RAW_w 0 11 = true)) ∧
    engGoes pe [] s t ∧ (∀ (h : Nat) (r : Fin 32), readReg t h r = landed (.eng pe) s h r (readReg s h r)) ∧
    t = { fetched pe s with
            regs := t.regs, hart := { s.hart with r := t.hart.r },
            eng := { (fetched pe s).eng with run := t.eng.run, null := t.eng.null, deliver := t.eng.deliver } } := by
  obtain ⟨w, stands⟩ := runAt_of_ready ready
  have fault : (fetched pe s).bit .ENG_FAULT pe 0 = s.bit .ENG_FAULT pe 0 := by
    rw [State.bit, reg_fetched _ _ _ _ (by decide) (by decide)]; rfl
  obtain ⟨regsOnly, only, ill, old, new⟩ := engIll_parts pe w (fetched pe s)
  rw [fault, progBase_fetched] at new
  rw [fault] at old
  generalize recorded : (if liveLanes s pe = [] then fetched pe s else engIll pe w (fetched pe s)) = u
  have word := engWord_undefined pe w op s stands ready bad
  rw [recorded] at word
  have uRegs : RegsOnly (fetched pe s) u := by rw [← recorded]; exact .ite _ (.refl _) regsOnly
  have uOnly : OnlyAt [(.ENG_FAULT, pe.val), (.EVT_RAW_w, 0)] (fetched pe s) u := by
    rw [← recorded]; split
    · exact .refl _ _
    · exact only
  have eng : u.eng = s.eng := by rw [uRegs, ← fetched_eng pe s]
  have hart : u.hart = s.hart := by rw [uRegs, ← fetched_hart pe s]
  have len : progLen u pe (actProg u pe) = progLen s pe (actProg s pe) := by
    rw [← progLen_fetched pe s]
    unfold progLen progReg actProg State.f
    rw [uOnly.kept .ENG_STATUS pe (by simp), uOnly.kept .ENG_PROG_A pe (by simp), uOnly.kept .ENG_PROG_B pe (by simp)]
  obtain ⟨frame, regs, -⟩ := runStep_lands stands (by rw [eng]) len
  have goes := engGoes_runStep stands eng len
  simp only [word]
  have tregs : (runStep pe w (fetched pe s) u).regs = u.regs := by rw [frame]
  refine ⟨fun idle => ?_, fun live => ?_, goes, fun h r => ?_, ?_⟩
  · rw [tregs, ← recorded]
    split
    · rfl
    · next live => rw [old (idle.resolve_left live)]
  · rw [if_neg live] at recorded
    rw [bit_congr tregs, bit_congr tregs, f_congr tregs, ← recorded, stands]
    exact ⟨ill, new⟩
  · have kept : readReg u h r = readReg s h r := by
      rw [← readReg_fetched pe s]
      have db (i : Nat) := uOnly.kept .ENG_DB i (by simp)
      unfold readReg getPhys getRrb State.f
      rw [hart, fetched_hart, db, uRegs]
    rw [regs, kept]
  · rw [frame, hart]
    rw [uRegs]

/-- Settles O17: a trap does not depend on the pc, and an engine's undefined word runs as a word without operations. -/
theorem trapsAndUndefined : Obligations.TrapsAndUndefined := by
  intro c pe code w s
  refine ⟨fun ready => ⟨_, rfl, ?_⟩, fun ready undefined => ?_, fun ready undefined => ?_⟩
  · have word : coreWord c [trapOp code] s = trapEnter c .trap code.toNat (getPc s c) (setPc c (getPc s c + 4) s) :=
      coreWord_plain c (trapOp code) s ready (by simp [trapOp, coreOp, Op.plain]) rfl
    exact trapTaken_setPc (word ▸ trapEnter_taken c .trap code.toNat (getPc s c) _ (by decide) rfl)
  · refine ⟨unitWord (.core c) [undefOp] s, if_pos (by rw [undefined]; rfl), ?_⟩
    have word : unitWord (.core c) [undefOp] s = trapEnter c .undef 0 (getPc s c) s := coreWord_undefined c undefOp s ready rfl
    exact word ▸ trapEnter_taken c .undef 0 (getPc s c) s (by decide) rfl
  · exact ⟨unitWord (.eng pe) [undefOp] s, if_pos (by rw [undefined]; rfl), engWord_undefined_does pe undefOp s ready rfl⟩

end Sys2Proof.Machine
end

section
/-! SUPPORT. Words of several operations (R70, R91): each operation puts to the harts what it gives from the state before the word, and
the word is the puts in slot order. -/

namespace Sys2Proof.Machine

/-- An operation, with what it puts to each hart from the state before the word, and what it reads of a lane's memory. -/
structure OpPut where
  op : Op
  put : Nat → HartPut
  on : Nat → Bool
  reads : Nat → List Reach

/-- The puts of some operations to one hart. -/
def applyPuts (l : List OpPut) (h : Nat) (t : State) : State := l.foldl (fun t a => applyPut h (a.put h) (a.on h) t) t

/-- What a hart holds after the puts of some operations, where it held old. -/
def putsReg (l : List OpPut) (h r old : Nat) : Nat := l.foldl (fun v a => (a.put h).regAfter h r v) old
def putsStat (l : List OpPut) (h : Nat) (old : Word) : Word := l.foldl (fun v a => statWith v (a.put h).flg) old
def putsAcc (l : List OpPut) (h x : Nat) (old : Int) : Int := l.foldl (fun v a => (a.put h).accAfter x v) old
def putsDice (l : List OpPut) (h old : Nat) : Nat := l.foldl (fun v a => (a.put h).diceAfter v) old

/-- t is s with the puts l done to each hart of hs, and no other hart changed. -/
structure PutsTo (l : List OpPut) (hs : List Nat) (s t : State) : Prop where
  reg : ∀ (k : Nat) (r : Fin 32), readReg t k r = if k ∈ hs then putsReg l k r (readReg s k r) else readReg s k r
  stat : ∀ k, getStat t k = if k ∈ hs then putsStat l k (getStat s k) else getStat s k
  acc : ∀ (k : Nat) (x : Fin 4), getAcc t k x = if k ∈ hs then putsAcc l k x (getAcc s k x) else getAcc s k x
  dice : ∀ k, getDice t k = if k ∈ hs then putsDice l k (getDice s k) else getDice s k

theorem applyPuts_to (l : List OpPut) (h : Nat) (s : State) (ok : ∀ a ∈ l, putOk h (a.put h) (a.on h)) :
    PutsTo l [h] s (applyPuts l h s) := by
  induction l generalizing s with
  | nil => constructor <;> intros <;> simp [applyPuts, putsReg, putsStat, putsAcc, putsDice]
  | cons a l ih =>
    have first := ok a (by simp)
    have rest := ih (applyPut h (a.put h) (a.on h) s) (fun b hb => ok b (by simp [hb]))
    refine ⟨fun k r => (rest.reg k r).trans ?_, fun k => (rest.stat k).trans ?_, fun k x => (rest.acc k x).trans ?_,
      fun k => (rest.dice k).trans ?_⟩
    · rw [applyPut_reg _ _ _ _ first]; by_cases here : k = h <;> simp [here, putsReg]
    · rw [applyPut_stat _ _ _ _ first]; by_cases here : k = h <;> simp [here, putsStat]
    · rw [applyPut_acc _ _ _ _ first]; by_cases here : k = h <;> simp [here, putsAcc]
    · rw [applyPut_dice]; by_cases here : k = h <;> simp [here, putsDice]

/-- The puts of some operations to several harts. -/
theorem applyPuts_harts (l : List OpPut) (hs : List Nat) (nd : hs.Nodup) (s : State)
    (ok : ∀ h ∈ hs, ∀ a ∈ l, putOk h (a.put h) (a.on h)) : PutsTo l hs s (hs.foldl (fun t h => applyPuts l h t) s) := by
  induction hs generalizing s with
  | nil => constructor <;> intros <;> simp
  | cons h hs ih =>
    obtain ⟨new, nd⟩ := List.nodup_cons.mp nd
    have first := applyPuts_to l h s (ok h (by simp))
    have rest := ih nd (applyPuts l h s) (fun k hk => ok k (by simp [hk]))
    have apart {k : Nat} (hk : k ∈ hs) : k ≠ h := fun e => new (e ▸ hk)
    refine ⟨fun k r => (rest.reg k r).trans ?_, fun k => (rest.stat k).trans ?_, fun k x => (rest.acc k x).trans ?_,
      fun k => (rest.dice k).trans ?_⟩
    · rw [first.reg]; by_cases hk : k ∈ hs <;> simp [hk, apart]
    · rw [first.stat]; by_cases hk : k ∈ hs <;> simp [hk, apart]
    · rw [first.acc]; by_cases hk : k ∈ hs <;> simp [hk, apart]
    · rw [first.dice]; by_cases hk : k ∈ hs <;> simp [hk, apart]

/-- One hart's puts change harts, and what a core awaits, alone. -/
theorem applyPuts_frame (l : List OpPut) (h : Nat) (s : State) : applyPuts l h s =
    { s with hart := (applyPuts l h s).hart, core := { s.core with pend := (applyPuts l h s).core.pend } } := by
  induction l generalizing s with
  | nil => rfl
  | cons a l ih =>
    have step : applyPuts (a :: l) h s = applyPuts l h (applyPut h (a.put h) (a.on h) s) := rfl
    rw [step, ih, applyPut_frame]

/-- Puts to lanes touch the registers of harts alone. -/
theorem applyPuts_lanes (l : List OpPut) (hs : List Nat) (s : State) (lanes : ∀ h ∈ hs, 16 ≤ h) :
    ∃ H, hs.foldl (fun t h => applyPuts l h t) s = { s with hart := H } := by
  have one (h : Nat) (lane : 16 ≤ h) (l : List OpPut) (t : State) : ∃ H, applyPuts l h t = { t with hart := H } := by
    induction l generalizing t with
    | nil => exact ⟨t.hart, rfl⟩
    | cons a l ih =>
      obtain ⟨H, first⟩ := putAll_lanes [h] a.put a.on t (by simpa using lane)
      obtain ⟨H', rest⟩ := ih (putAll [h] a.put a.on t)
      exact ⟨H', rest.trans (by rw [first])⟩
  induction hs generalizing s with
  | nil => exact ⟨s.hart, rfl⟩
  | cons h hs ih =>
    obtain ⟨H, first⟩ := one h (lanes h (by simp)) l s
    obtain ⟨H', rest⟩ := ih (applyPuts l h s) (fun k hk => lanes k (by simp [hk]))
    exact ⟨H', rest.trans (by rw [first])⟩

/-! What a corrected program word leaves of a lane's memory. -/

/-- A correction that is counted leaves the other words' check bits. -/
theorem upsetOf_correctProg (pe p w : Nat) (s : State) (a : Nat) :
    upsetOf (correctProg pe p w s) a = upsetOf s a ∨ (upsetOf s a = 1 ∧ upsetOf (correctProg pe p w s) a = 0) := by
  unfold correctProg
  split
  · next single =>
    have counted : RegsOnly (setUpset s p 0) (count24 .ENG_ECC_CORR pe none (setUpset s p 0)) := .count ..
    simp only
    generalize count24 .ENG_ECC_CORR pe none (setUpset s p 0) = x at counted
    have noted : RegsOnly x ((x.setF .ENG_ECC_LAST pe 31 30 3).setF .ENG_ECC_LAST pe 13 0 w) := .trans (.setF ..) (.setF ..)
    generalize (x.setF .ENG_ECC_LAST pe 31 30 3).setF .ENG_ECC_LAST pe 13 0 w = y at noted
    have same : upsetOf y a = upsetOf (setUpset s p 0) a := by rw [upsetOf, counted.trans noted]; rfl
    rw [same, upsetOf_setUpset]
    by_cases here : a = p
    · exact .inr ⟨here ▸ single, if_pos here⟩
    · exact .inl (if_neg here)
  · exact .inl rfl

/-- The check bits of a word: those of the program word are clean after a correction. -/
theorem upsetOf_fetched (pe : Nat) (s : State) (a : Nat) :
    upsetOf (fetched pe s) a = upsetOf s a ∨ (upsetOf s a = 1 ∧ upsetOf (fetched pe s) a = 0) := by
  unfold fetched
  split
  · exact .inl rfl
  · next w _ => exact upsetOf_correctProg ..

theorem getPtr_fetched (pe : Nat) (s : State) (h p : Nat) : getPtr (fetched pe s) h p = getPtr s h p := by
  rw [getPtr, getPhys, fetched_hart]; rfl

theorem reach_fetched (pe q : Nat) (s : State) (sp : Space) (o : Nat) : reach (fetched pe s) q sp o = reach s q sp o := by
  have map (i : Nat) : (fetched pe s).reg .ENG_LANE_MAP i = s.reg .ENG_LANE_MAP i := reg_fetched _ _ _ _ (by decide) (by decide)
  have db (i : Nat) : (fetched pe s).reg .ENG_DB i = s.reg .ENG_DB i := reg_fetched _ _ _ _ (by decide) (by decide)
  have status (i : Nat) : (fetched pe s).reg .ENG_STATUS i = s.reg .ENG_STATUS i := reg_fetched _ _ _ _ (by decide) (by decide)
  unfold reach sWords dWords pWords dbOf State.f State.bit
  simp only [map, db, status]

/-- What a lane reads. -/
theorem readReach_fetched (pe q L : Nat) (s : State) (x : Reach) : readReach (fetched pe s) q L x = readReach s q L x := by
  have slot (a : Nat) : getSlot (fetched pe s) a = getSlot s a := by rw [(fetched_frame pe s).1]; rfl
  cases x with
  | word w =>
    have lost : upsetOf (fetched pe s) (laneAddr q L w) = 2 ↔ upsetOf s (laneAddr q L w) = 2 := by
      have := upsetOf_fetched pe s (laneAddr q L w); omega
    simp only [readReach, lost, slot]
  | inBox i => simp only [readReach, logicalOf_fetched, fetched_eng]
  | outBox i => simp only [readReach, logicalOf_fetched, fetched_eng]
  | cross e M i => simp only [readReach, fetched_eng]
  | none => rfl

theorem laneRead_fetched (pe : Nat) (s : State) (h : Nat) (x : Reach) : laneRead (fetched pe s) h x = laneRead s h x :=
  readReach_fetched pe _ _ s x

/-! Words. -/

/-- A read that reaches a place of the lane, with no error in its check bits, has no effect but its value. -/
def cleanAt (s : State) (pe L : Nat) (x : Reach) : Prop :=
  match x with
  | .none => False
  | .word w => upsetOf s (laneAddr pe L w) = 0
  | _ => True

theorem cleanReach_iff (pe : Nat) (f : Nat → List Reach) (s : State) :
    cleanReach pe f s = true ↔ ∀ L ∈ liveLanes s pe, ∀ x ∈ f (laneHart pe L), cleanAt s pe L x := by
  simp only [cleanReach, List.all_eq_true]
  refine forall₂_congr fun L _ => forall₂_congr fun x _ => ?_
  cases x <;> simp [cleanAt]

theorem cleanAt_fetched {pe q L : Nat} {s : State} {x : Reach} (clean : cleanAt s q L x) : cleanAt (fetched pe s) q L x := by
  cases x with
  | word w =>
    have free : upsetOf s (laneAddr q L w) = 0 := clean
    have := upsetOf_fetched pe s (laneAddr q L w)
    change upsetOf (fetched pe s) (laneAddr q L w) = 0
    omega
  | none => exact clean
  | inBox i => trivial
  | outBox i => trivial
  | cross e M i => trivial

theorem reachDed_clean {s : State} {pe L : Nat} {x : Reach} (clean : cleanAt s pe L x) : reachDed s pe L (true, x) = none := by
  cases x with
  | word w => exact if_neg (by rw [show upsetOf s (laneAddr pe L w) = 0 from clean]; decide)
  | _ => rfl

theorem reachFx_clean {s : State} {pe L : Nat} {x : Reach} (clean : cleanAt s pe L x) : reachFx pe L (true, x) s = s := by
  cases x with
  | word w => exact if_neg (by rw [show upsetOf s (laneAddr pe L w) = 0 from clean]; decide)
  | none => exact clean.elim
  | _ => rfl

/-- The state that a word's operations start from. -/
def before (u : Agent) (s : State) : State :=
  match u with
  | .core _ => s
  | .eng pe => fetched pe s

/-- An operation puts to the harts that execute it what it is said to. -/
structure OpPut.Sound (a : OpPut) (u : Agent) (s : State) : Prop where
  fx : ∀ h ∈ harts u s, ∀ t, a.op.fx (before u s) h t = applyPut h (a.put h) (a.on h) t
  ok : ∀ h ∈ harts u s, putOk h (a.put h) (a.on h)
  legal : a.op.legal (unitHart u) = true
  noAccess : ∀ t c, a.op.cacc t c = none
  reads : ∀ pe : Fin 72, u = .eng pe → ∀ h ∈ harts u s, a.op.lacc (before u s) h = (a.reads h).map (fun x => (true, x))

/-- A core's word of several operations on registers alone. -/
theorem coreWord_puts (c : Fin 16) (l : List OpPut) (s : State) (srcs : List Nat) (issues : coreReady c srcs s = true)
    (arrived : ∀ a ∈ l, ∀ r ∈ a.op.srcs, r ∈ srcs) (sound : ∀ a ∈ l, a.Sound (.core c) s) :
    coreWord c (l.map OpPut.op) s = applyPuts l c (setPc c (getPc s c + 4) s) := by
  simp only [coreReady, Bool.and_eq_true, Bool.not_eq_true', List.all_eq_true] at issues
  obtain ⟨⟨⟨runs, passed⟩, fetches⟩, free⟩ := issues
  have settled : ((l.map OpPut.op).any fun o => o.srcs.any fun r => regPending s c r) = false := by
    simp only [List.any_map, List.any_eq_false, List.any_eq_true, not_exists, not_and, Function.comp_apply]
    exact fun a ha r hr => by simpa using free r (arrived a ha r hr)
  have legal : ((l.map OpPut.op).all fun o => o.legal c) = true := by
    simp only [List.all_map, List.all_eq_true, Function.comp_apply]
    exact fun a ha => (sound a ha).legal
  have quiet : (l.map OpPut.op).filterMap (fun o => o.cacc s c) = [] := by
    simp only [List.filterMap_eq_nil_iff, List.mem_map, forall_exists_index, and_imp, forall_apply_eq_imp_iff₂]
    exact fun a ha => (sound a ha).noAccess s c
  have noWait : accsWait s c [] = false := by simp [accsWait, newLoads]
  have ops (m : List OpPut) (sub : ∀ a ∈ m, a ∈ l) (b : List (List Byte)) (t : State) :
      coreOps s c (m.map OpPut.op) b t = applyPuts m c t := by
    induction m generalizing t with
    | nil => rfl
    | cons a m ih =>
      have sa := sound a (sub a (by simp))
      have first : a.op.fx s c t = applyPut c (a.put c) (a.on c) t := sa.fx c (by simp [harts]) t
      have step : coreOps s c ((a :: m).map OpPut.op) b t = coreOps s c (m.map OpPut.op) b (a.op.fx s c t) := by
        simp only [List.map_cons, coreOps, sa.noAccess]
      rw [step, ih (fun x hx => sub x (by simp [hx])), first]; rfl
  unfold coreWord
  simp only [runs, passed, fetches, settled, legal, quiet, noWait, Bool.not_true, Bool.or_self, Bool.false_eq_true, if_false,
    List.findSome?_nil, List.filter_nil, findLoads, wbufAfter, List.foldl_nil]
  exact ops l (fun _ h => h) [] _

/-- An engine's word of several operations that read lane memory without an error and store nothing there. -/
theorem engWord_puts (pe : Fin 72) (w : Nat) (l : List OpPut) (s : State) (stands : runAt s pe = some w) (issues : engReady pe s = true)
    (sound : ∀ a ∈ l, a.Sound (.eng pe) s) (budget : ((l.map OpPut.op).map (fun o => o.count)).foldl (· + ·) 0 ≤ 2)
    (clean : cleanReach pe (fun h => l.flatMap (fun a => a.reads h)) s = true) :
    engWord pe (l.map OpPut.op) s =
      runStep pe w (fetched pe s) ((harts (.eng pe) s).foldl (fun t h => applyPuts l h t) (fetched pe s)) := by
  simp only [engReady, stands, Bool.and_eq_true, Bool.not_eq_true', bne_iff_ne, ne_eq] at issues
  obtain ⟨intime, whole⟩ := issues
  have done : fetched pe s = correctProg pe (progAddr pe (progBase s pe (actProg s pe) + w)) (progBase s pe (actProg s pe) + w) s := by
    simp [fetched, stands]
  have legal : ((l.map OpPut.op).all fun o => o.legal (laneHart pe 0)) = true := by
    simp only [List.all_map, List.all_eq_true, Function.comp_apply]
    exact fun a ha => (sound a ha).legal
  have live {L : Nat} (hL : L ∈ liveLanes s pe) : laneHart pe L ∈ harts (.eng pe) s := List.mem_map.mpr ⟨L, hL, rfl⟩
  let accs := (liveLanes s pe).flatMap (fun L =>
    (((l.map OpPut.op).flatMap (fun o => o.lacc (fetched pe s) (laneHart pe L))).map (fun x => (L, x))))
  have reads : ∀ x ∈ accs, ∃ r, x.2 = (true, r) ∧ cleanAt (fetched pe s) pe x.1 r := by
    intro x hx
    simp only [accs, List.mem_flatMap, List.mem_map] at hx
    obtain ⟨L, hL, y, ⟨_, ⟨a, ha, rfl⟩, hy⟩, rfl⟩ := hx
    have listed := (sound a ha).reads pe rfl (laneHart pe L) (live hL)
    simp only [before] at listed
    rw [listed, List.mem_map] at hy
    obtain ⟨r, hr, rfl⟩ := hy
    exact ⟨r, rfl, cleanAt_fetched ((cleanReach_iff _ _ _).mp clean L hL r (List.mem_flatMap.mpr ⟨a, ha, hr⟩))⟩
  have whole' : accs.findSome? (fun x => (reachDed (fetched pe s) pe x.1 x.2).map (fun w => (x.1, w))) = none := by
    rw [List.findSome?_eq_none_iff]
    intro x hx
    obtain ⟨r, isRead, free⟩ := reads x hx
    rw [isRead, reachDed_clean free]; rfl
  have noFx : accs.foldl (fun t x => reachFx pe x.1 x.2 t) (fetched pe s) = fetched pe s := by
    refine List.foldlRecOn accs _ (motive := fun t => t = fetched pe s) rfl ?_
    rintro t rfl x hx
    obtain ⟨r, isRead, free⟩ := reads x hx
    rw [isRead, reachFx_clean free]
  have ops : (liveLanes s pe).foldl (fun t L => (l.map OpPut.op).foldl (fun t o => o.fx (fetched pe s) (laneHart pe L) t) t) (fetched pe s) =
      (harts (.eng pe) s).foldl (fun t h => applyPuts l h t) (fetched pe s) := by
    rw [harts, List.foldl_map]
    refine List.foldl_ext _ _ _ fun t L hL => ?_
    rw [List.foldl_map]
    exact List.foldl_ext _ _ _ fun t a ha => (sound a ha).fx _ (live hL) t
  unfold engWord
  simp only [stands, intime, Bool.false_eq_true, if_false, whole]
  rw [← done, liveLanes_fetched]
  by_cases idle : liveLanes s pe = []
  · simp [idle, harts]
  · rw [if_neg (by simpa using idle), if_neg (by rw [legal]; simpa using budget)]
    rw [show (liveLanes s pe).flatMap (fun L => (((l.map OpPut.op).flatMap (fun o => o.lacc (fetched pe s) (laneHart pe L))).map
      (fun x => (L, x)))) = accs from rfl, whole', noFx, ops]

/-- What a word of several puts does to the harts that execute it, and that it does nothing else (R70, R97). -/
structure WordPuts (u : Agent) (l : List OpPut) (s t : State) : Prop where
  reg : ∀ (h : Nat) (r : Fin 32), readReg t h r = landed u s h r (if h ∈ harts u s then putsReg l h r (readReg s h r) else readReg s h r)
  stat : ∀ h, getStat t h = if h ∈ harts u s then putsStat l h (getStat s h) else getStat s h
  acc : ∀ (h : Nat) (x : Fin 4), getAcc t h x = if h ∈ harts u s then putsAcc l h x (getAcc s h x) else getAcc s h x
  dice : ∀ h, getDice t h = if h ∈ harts u s then putsDice l h (getDice s h) else getDice s h
  goes : goesOn u s t

/-- A word whose operations put to the harts what they are said to does those puts in order, and nothing else. -/
theorem unitWord_puts (u : Agent) (l : List OpPut) (s : State) (srcs : List Nat) (issues : ready u srcs s = true)
    (arrived : ∀ a ∈ l, ∀ r ∈ a.op.srcs, r ∈ srcs) (sound : ∀ a ∈ l, a.Sound u s)
    (lane : ∀ pe, u = .eng pe → ((l.map OpPut.op).map (fun o => o.count)).foldl (· + ·) 0 ≤ 2 ∧
      cleanReach pe (fun h => l.flatMap (fun a => a.reads h)) s = true) :
    WordPuts u l s (unitWord u (l.map OpPut.op) s) := by
  cases u with
  | core c =>
    have word : unitWord (.core c) (l.map OpPut.op) s = applyPuts l c (setPc c (getPc s c + 4) s) :=
      coreWord_puts c l s srcs issues arrived sound
    have puts := applyPuts_to l c (setPc c (getPc s c + 4) s) (fun a ha => (sound a ha).ok c (by simp [harts]))
    rw [word]
    refine ⟨puts.reg, puts.stat, puts.acc, puts.dice, ?_, fun k => ?_⟩
    · rw [applyPuts_frame]; rfl
    · rw [applyPuts_frame]
      exact getPc_setPc s c k (getPc s c + 4)
  | eng pe =>
    obtain ⟨w, stands⟩ := runAt_of_ready issues
    obtain ⟨budget, clean⟩ := lane pe rfl
    have word : unitWord (.eng pe) (l.map OpPut.op) s = _ := engWord_puts pe w l s stands issues sound budget clean
    have puts := applyPuts_harts l (harts (.eng pe) s) (liveLanes_nodup s pe) (fetched pe s) (fun h hh a ha => (sound a ha).ok h hh)
    obtain ⟨H, same⟩ := applyPuts_lanes l (harts (.eng pe) s) (fetched pe s) (harts_lane pe s)
    rw [same] at puts word
    have len : progLen { fetched pe s with hart := H } pe (actProg { fetched pe s with hart := H } pe) =
        progLen s pe (actProg s pe) := progLen_fetched pe s
    have eng : ({ fetched pe s with hart := H } : State).eng = s.eng := fetched_eng pe s
    obtain ⟨frame, regs, -⟩ := runStep_lands stands (by rw [eng]) len
    have goes := engGoes_runStep stands eng len
    rw [word]
    have hart : (runStep pe w (fetched pe s) { fetched pe s with hart := H }).hart.stat = H.stat ∧
      (runStep pe w (fetched pe s) { fetched pe s with hart := H }).hart.acc = H.acc ∧
      (runStep pe w (fetched pe s) { fetched pe s with hart := H }).hart.dice = H.dice := by rw [frame]; exact ⟨rfl, rfl, rfl⟩
    obtain ⟨stat, acc, dice⟩ := hart
    refine ⟨fun h r => ?_, fun h => ?_, fun h x => ?_, fun h => ?_, ?_, goes⟩
    · rw [regs, puts.reg, readReg_fetched]
    · rw [getStat, stat]; exact (puts.stat h).trans (by rw [getStat_fetched])
    · rw [getAcc, acc]; exact (puts.acc h x).trans (by rw [getAcc_fetched])
    · rw [getDice, dice]; exact (puts.dice h).trans (by rw [getDice_fetched])
    · rw [frame]

end Sys2Proof.Machine
end

section
/-! SUPPORT. What MAC, MSU and MPY put to a hart (R79 to R83, R115, R116). -/

namespace Sys2Proof.Machine

/-- The effect of a product on its accumulator; the register writes follow. -/
def macPut (kind : MacKind) (ad : Nat) (old p : Int) : HartPut :=
  match kind with
  | .add => Put.acc ad (old + p)
  | .sub => Put.acc ad (old - p)
  | .load => { acc := some (ad, p) }

/-- Whether it writes a flag. -/
def macOn (kind : MacKind) (old p : Int) : Bool :=
  match kind with
  | .add => decide (wrapI 56 (old + p) ≠ old + p)
  | .sub => decide (wrapI 56 (old - p) ≠ old - p)
  | .load => false

/-- MAC, MSU or MPY with what it puts to each hart from state s. -/
def macAct (kind : MacKind) (ad : Fin 4) (x : MacArgs) (s : State) : OpPut where
  op := macOp kind ad x
  put h := { macPut kind ad (getAcc s h ad) (macProduct s h x) with regs := macBumped s h x }
  on h := macOn kind (getAcc s h ad) (macProduct s h x)
  reads h := macReaches s h x

/-- An accumulator holds 56 bits of what is written. -/
theorem setAcc_wrapI (h x : Nat) (v : Int) (t : State) : setAcc h x (wrapI 56 v) t = setAcc h x v t := by
  rw [setAcc, setAcc, ← toInt_ofInt56, BitVec.ofInt_toInt]

theorem accWrite_put (h ad : Nat) (v : Int) (t : State) :
    accWrite h ad v t = applyPut h (Put.acc ad v) (decide (wrapI 56 v ≠ v)) t := by
  unfold accWrite accWrap
  simp only [setAcc_wrapI]
  cases overflow : decide (wrapI 56 v ≠ v) <;> simp [applyPut, Put.acc, overflow] <;> rfl

/-- A write of a lane's register field, on the stored registers. -/
def laneStore (h : Nat) (r : Store Word) (e : Nat × Nat) : Store Word :=
  if e.1 ≤ 7 then Store.set zeroOf r (64 * h + e.1) (BitVec.ofNat 32 (e.2 % 2 ^ 24))
  else if e.1 ≤ 11 then Store.set zeroOf r (64 * h + e.1) (BitVec.ofNat 32 (e.2 % 2 ^ 14))
  else r

/-- A lane's register writes depend on its registers alone, and change them alone. -/
theorem writes_lane {h : Nat} (lane : 16 ≤ h) (l : List (Nat × Nat)) (t : State) :
    l.foldl (fun t e => writeReg h e.1 e.2 t) t = { t with hart := { t.hart with r := l.foldl (laneStore h) t.hart.r } } := by
  have notCore : ¬ h < 16 := by omega
  induction l generalizing t with
  | nil => rfl
  | cons e l ih =>
    have first : writeReg h e.1 e.2 t = { t with hart := { t.hart with r := laneStore h t.hart.r e } } := by
      unfold writeReg laneStore setPhys
      rw [if_neg notCore]
      split
      · rfl
      · split <;> rfl
    rw [List.foldl_cons, first, ih]; rfl

/-- A lane's register writes may follow what else it does. -/
theorem applyPut_then_writes {h : Nat} (lane : 16 ≤ h) (p : HartPut) (on : Bool) (l : List (Nat × Nat)) (t : State) (none : p.regs = []) :
    l.foldl (fun t e => writeReg h e.1 e.2 t) (applyPut h p on t) = applyPut h { p with regs := l } on t := by
  rw [writes_lane lane]
  unfold applyPut
  simp only [none, List.foldl_nil, writes_lane lane]
  cases on <;> rcases p with ⟨_, f, _ | ⟨y, v⟩, _ | d⟩ <;> rfl

/-- A pointer is a register of its lane. -/
theorem setPtr_writeReg {h : Nat} (lane : 16 ≤ h) (p : Fin 4) (v : Nat) (t : State) :
    setPtr h p v t = writeReg h (8 + p.val) v t := by
  have := p.isLt
  rw [writeReg, if_neg (by omega), if_neg (by omega), if_pos (by omega)]; rfl

theorem bumped_writes {h : Nat} (lane : 16 ≤ h) (s0 : State) (p : Fin 4) (pm : PtrMod) (t : State) :
    (if pm = .keep then t else setPtr h p.val (ptrAfter pm (getPtr s0 h p.val)) t) =
      (bumped s0 h p pm).foldl (fun t e => writeReg h e.1 e.2 t) t := by
  cases pm <;> simp [bumped, ptrAfter, setPtr_writeReg lane]

theorem macModify_writes {h : Nat} (lane : 16 ≤ h) (s0 : State) (x : MacArgs) (t : State) :
    macModify s0 h x t = (macBumped s0 h x).foldl (fun t e => writeReg h e.1 e.2 t) t := by
  cases x with
  | regs rs rt => rfl
  | tapPtr tap p pm => exact bumped_writes lane s0 p pm t
  | regMem tr op =>
    simp only [macModify, macBumped, opModify, opBumped]
    cases op.off with
    | imm o => rfl
    | ptr p pm => exact bumped_writes lane s0 p pm t
  | ptrCoef p pm coef => exact bumped_writes lane s0 p pm t

theorem macVals_product (s : State) (h : Nat) (x : MacArgs) : prod24 (macVals s h x).1 (macVals s h x).2 = macProduct s h x := by
  cases x <;> rfl

/-- The effect of the word on a hart, before its pointer moves. -/
theorem macOp_fx (kind : MacKind) (ad : Fin 4) (x : MacArgs) (s0 : State) (h : Nat) (t : State) : (macOp kind ad x).fx s0 h t =
    macModify s0 h x (applyPut h (macPut kind ad (getAcc s0 h ad) (macProduct s0 h x)) (macOn kind (getAcc s0 h ad) (macProduct s0 h x)) t) := by
  rw [← macVals_product]
  cases kind with
  | add => exact congrArg (macModify s0 h x) (accWrite_put h ad _ t)
  | sub => exact congrArg (macModify s0 h x) (accWrite_put h ad _ t)
  | load => rfl

theorem macAct_fx (kind : MacKind) (ad : Fin 4) (x : MacArgs) (s0 : State) (h : Nat) (t : State)
    (lane : 16 ≤ h ∨ ∃ rs rt, x = .regs rs rt) : (macOp kind ad x).fx s0 h t =
      applyPut h ((macAct kind ad x s0).put h) ((macAct kind ad x s0).on h) t := by
  rw [macOp_fx]
  obtain lane | ⟨rs, rt, rfl⟩ := lane
  · rw [macModify_writes lane]
    exact applyPut_then_writes lane _ _ _ _ (by cases kind <;> rfl)
  · cases kind <;> rfl

theorem opReach_fetched (pe : Nat) (s : State) (h : Nat) (op : MemOp) : opReach (fetched pe s) h op = opReach s h op := by
  unfold opReach offsetOf
  rw [reach_fetched]
  simp only [getPtr_fetched]

/-- A corrected program word changes nothing that MAC reads or moves. -/
theorem macAct_fetched (kind : MacKind) (ad : Fin 4) (x : MacArgs) (pe : Nat) (s : State) :
    macAct kind ad x (fetched pe s) = macAct kind ad x s := by
  have bump (h : Nat) (p : Fin 4) (pm : PtrMod) : bumped (fetched pe s) h p pm = bumped s h p pm := by
    simp only [bumped, getPtr_fetched]
  have product (h : Nat) : macProduct (fetched pe s) h x = macProduct s h x := by
    cases x <;> simp only [macProduct, readReg_fetched, laneRead_fetched, reach_fetched, getPtr_fetched, opReach_fetched]
  have moved (h : Nat) : macBumped (fetched pe s) h x = macBumped s h x := by
    cases x <;> simp only [macBumped, bump, opBumped]
  have reads (h : Nat) : macReaches (fetched pe s) h x = macReaches s h x := by
    cases x <;> simp only [macReaches, reach_fetched, getPtr_fetched, opReach_fetched]
  unfold macAct
  simp only [product, moved, reads, getAcc_fetched]

/-- A pointer that moves is a register that a lane may write. -/
theorem bumped_ok {h : Nat} {s : State} {p : Fin 4} {pm : PtrMod} :
    ∀ e ∈ bumped s h p pm, e.1 < 32 ∧ legalWrite h e.1 = true := by
  have := p.isLt
  have legal : legalWrite h (8 + p.val) = true := by simp only [legalWrite, Bool.or_eq_true, decide_eq_true_eq]; omega
  cases pm <;> simp only [bumped, List.not_mem_nil, List.mem_singleton, forall_eq, false_implies, implies_true] <;> exact ⟨by omega, legal⟩

theorem macBumped_ok {h : Nat} {s : State} (x : MacArgs) : ∀ e ∈ macBumped s h x, e.1 < 32 ∧ legalWrite h e.1 = true := by
  cases x with
  | regs rs rt => simp [macBumped]
  | tapPtr tap p pm => exact bumped_ok
  | regMem tr op =>
    simp only [macBumped, opBumped]
    cases op.off with
    | imm o => simp
    | ptr p pm => exact bumped_ok
  | ptrCoef p pm coef => exact bumped_ok

/-- An accumulator's put, whatever registers it moves. -/
theorem macPut_ok {h : Nat} {l : List (Nat × Nat)} (kind : MacKind) (ad : Fin 4) (old p : Int)
    (legal : ∀ e ∈ l, e.1 < 32 ∧ legalWrite h e.1 = true) : putOk h { macPut kind ad old p with regs := l } (macOn kind old p) := by
  refine ⟨legal, fun off => ?_, fun x v acc => ?_⟩
  · cases kind <;> simp_all [macPut, macOn, Put.acc]
  · cases kind <;> simp only [macPut, Put.acc, Option.some.injEq, Prod.mk.injEq] at acc <;> exact acc.1 ▸ ad.isLt

theorem macAct_sound (kind : MacKind) (ad : Fin 4) (x : MacArgs) (u : Agent) (s : State) (fits : x.fits u = true) :
    (macAct kind ad x s).Sound u s := by
  have same : macAct kind ad x (before u s) = macAct kind ad x s := by
    cases u with
    | core c => rfl
    | eng pe => exact macAct_fetched ..
  have lanes : u.isCore = false → (∀ h ∈ harts u s, 16 ≤ h) ∧ 16 ≤ unitHart u := by
    cases u with
    | core c => exact fun e => nomatch e
    | eng pe => exact fun _ => ⟨harts_lane pe s, by simp only [unitHart, laneHart]; omega⟩
  refine ⟨fun h here t => ?_, fun h _ => macPut_ok kind ad _ _ (macBumped_ok x), ?_, fun _ _ => rfl, fun pe at' h _ => ?_⟩
  · rw [← same]
    refine macAct_fx kind ad x (before u s) h t ?_
    cases x with
    | regs rs rt => exact .inr ⟨rs, rt, rfl⟩
    | tapPtr tap p pm => exact .inl ((lanes (by simpa [MacArgs.fits] using fits)).1 h here)
    | regMem tr op => exact .inl ((lanes (by simp [MacArgs.fits] at fits; exact fits.1)).1 h here)
    | ptrCoef p pm coef => exact .inl ((lanes (by simpa [MacArgs.fits] using fits)).1 h here)
  · cases x with
    | regs rs rt =>
      simp only [MacArgs.fits, Agent.reads, List.all_cons, List.all_nil, Bool.and_true, Bool.and_eq_true] at fits
      exact Bool.and_eq_true_iff.mpr ⟨legalRead_of_ok u rs fits.1, legalRead_of_ok u rt fits.2⟩
    | tapPtr tap p pm => exact decide_eq_true (lanes (by simpa [MacArgs.fits] using fits)).2
    | regMem tr op =>
      simp only [MacArgs.fits, Bool.and_eq_true, Bool.not_eq_true'] at fits
      exact Bool.and_eq_true_iff.mpr ⟨decide_eq_true (lanes fits.1).2, fits.2⟩
    | ptrCoef p pm coef => exact decide_eq_true (lanes (by simpa [MacArgs.fits] using fits)).2
  · rw [← same]
    cases x <;> rfl

/-- A word of MAC, MSU or MPY whose operands reach lane words without an error. -/
theorem mac_word (kind : MacKind) (pe : Fin 72) (ad : Fin 4) (x : MacArgs) (s : State) (fits : x.fits (.eng pe) = true)
    (issues : engReady pe s = true) (clean : cleanReach pe (fun h => macReaches s h x) s = true) :
    wordDoes (.eng pe) (macAct kind ad x s).put s (unitWord (.eng pe) [macOp kind ad x] s) := by
  have budget : macCount x ≤ 2 := by cases x <;> simp [macCount]
  obtain ⟨reg, stat, acc, dice, goes⟩ := unitWord_puts (.eng pe) [macAct kind ad x s] s (macSrcs x) issues
    (by simp only [List.mem_singleton, forall_eq]; exact fun _ h => h)
    (by simpa using macAct_sound kind ad x (.eng pe) s fits) (fun q same => by
      cases same
      refine ⟨by simpa [macAct, macOp] using budget, ?_⟩
      simpa [macAct] using clean)
  exact ⟨reg, stat, acc, dice, goes⟩

/-- Settles O7: the three words are one operation, told apart by how the product enters its accumulator. -/
theorem macMemoryModes : Obligations.MacMemoryModes := by
  intro pe ad x s
  exact ⟨fun wf issues clean => ⟨_, rfl, mac_word .add pe ad x s wf issues clean⟩,
    fun wf issues clean => ⟨_, rfl, mac_word .sub pe ad x s wf issues clean⟩,
    fun wf issues clean => ⟨_, rfl, mac_word .load pe ad x s wf issues clean⟩⟩

end Sys2Proof.Machine
end

section
/-! SUPPORT. What a short operation puts to a hart (R86 to R89, R103 to R108, R116), and pair words of two of them (R70, R91). -/

namespace Sys2Proof.Machine

/-! The results of the model, as the puts of R103 to R108. -/

/-- A result with its flags, put to rd. -/
def Put.ofRes (rd : Nat) (r : Res) : HartPut := { regs := [(rd, r.val)], flg := r.flg }

theorem outside_eq_beyond (W : Nat) (e : Int) : outside W e = beyond W e := (Bool.decide_or _ _).symm

theorem Put.ofRes_aluAdd (rd W x y : Nat) : Put.ofRes rd (aluAdd W x y) = Put.sum rd W x y := by
  unfold Put.ofRes aluAdd Put.sum
  rw [outside_eq_beyond]; rfl

theorem flg_aluSub (W x y : Nat) : ({ flg := (aluSub W x y).flg } : HartPut) = Put.compare W x y := by
  unfold aluSub Put.compare
  rw [outside_eq_beyond]; rfl

theorem Put.ofRes_aluSub (rd W x y : Nat) : Put.ofRes rd (aluSub W x y) = Put.diff rd W x y := by
  rw [Put.diff, ← flg_aluSub]; rfl

theorem Put.ofRes_aluLogic (rd W r : Nat) : Put.ofRes rd (aluLogic W r) = Put.nz rd W (r % 2 ^ W) := rfl

theorem Put.ofRes_shl (rd W x k : Nat) : Put.ofRes rd (aluShift W .shl x k) = Put.shift .shl rd W x k := by
  unfold aluShift Put.shift
  split <;> rfl

theorem Put.ofRes_sar (rd W x k : Nat) : Put.ofRes rd (aluShift W .sar x k) = Put.shift .sar rd W x k := by
  have amount : sar (sxN W x) (min k W) = if k < W then sar (sxN W x) k else sar (sxN W x) W := by
    split
    · rw [Nat.min_eq_left (by omega)]
    · rw [Nat.min_eq_right (by omega)]
  unfold aluShift Put.shift
  split
  · rfl
  · simp only [amount]; rfl

/-! Short operations. -/

/-- Whether a short operation writes flags. -/
def shortOn (s : State) (h : Nat) (x : ShortOp) : Bool :=
  match x with
  | .add .. | .sub .. | .and .. | .or .. | .xor .. | .shli .. | .sari .. | .addi5 .. | .cmp .. => true
  | .macs .. => (shortPut s h x).flg.aov
  | _ => false

/-- A short operation with what it puts to each hart from state s. -/
def shortAct (s : State) (x : ShortOp) : OpPut where
  op := shortOp x
  put h := shortPut s h x
  on h := shortOn s h x
  reads h := shortReaches s h x

/-- A pointer's step, as a write of its register. -/
theorem stepped_writes {h : Nat} (lane : 16 ≤ h) (s0 : State) (p : Fin 4) (steps : Bool) (t : State) :
    (if steps then setPtr h p.val (ptrAfter .inc (getPtr s0 h p.val)) t else t) =
      (if steps then bumped s0 h p .inc else []).foldl (fun t e => writeReg h e.1 e.2 t) t := by
  cases steps with
  | false => rfl
  | true => exact bumped_writes lane s0 p .inc t

/-- The effect of a short operation on a hart of the profile that defines it. -/
theorem shortOp_fx (x : ShortOp) (s0 : State) (h : Nat) (t : State) (regs : shortOnRegs x = true)
    (u : Agent) (fits : x.fits u = true) (lane : u.isCore = false → 16 ≤ h) :
    (shortOp x).fx s0 h t = applyPut h (shortPut s0 h x) (shortOn s0 h x) t := by
  have put (p q : HartPut) (same : p = q) : applyPut h p true t = applyPut h q true t := by rw [same]
  cases x with
  | nops => rfl
  | mov rd rs => rfl
  | add rd rs rt => exact put _ _ (Put.ofRes_aluAdd ..)
  | sub rd rs rt => exact put _ _ (Put.ofRes_aluSub ..)
  | and rd rs rt => exact put _ _ (Put.ofRes_aluLogic ..)
  | or rd rs rt => exact put _ _ (Put.ofRes_aluLogic ..)
  | xor rd rs rt => exact put _ _ (Put.ofRes_aluLogic ..)
  | shli rd rs n => exact put _ _ (Put.ofRes_shl rd (widthOf h) (readReg s0 h rs) n)
  | sari rd rs n => exact put _ _ (Put.ofRes_sar rd (widthOf h) (readReg s0 h rs) n)
  | addi5 rd rs imm => exact put _ _ (Put.ofRes_aluAdd ..)
  | cmp rs rt => exact put _ _ (flg_aluSub ..)
  | macs ad y =>
    cases y with
    | regs rs rt => exact macOp_fx .add ad (.regs (wide rs) (wide rt)) s0 h t
    | ptrs tp ti cp ci =>
      have here := lane (by simpa [ShortOp.fits, MacsArgs.fits] using fits)
      have moved (v : State) := stepped_writes here s0 cp ci v
      have sum : (shortOp (.macs ad (.ptrs tp ti cp ci))).fx s0 h t =
          ((if ti then bumped s0 h tp .inc else []) ++ (if ci then bumped s0 h cp .inc else [])).foldl (fun t e => writeReg h e.1 e.2 t)
            (accWrite h ad (getAcc s0 h ad + prodOf (laneRead s0 h (reach s0 (peOf h) .delay (getPtr s0 h tp)))
              (laneRead s0 h (reach s0 (peOf h) .palette (getPtr s0 h cp)))) t) := by
        rw [List.foldl_append, ← stepped_writes here, ← stepped_writes here]; rfl
      rw [sum, accWrite_put]
      exact applyPut_then_writes here _ _ _ _ rfl
  | mpys ad rs rt => exact macOp_fx .load ad (.regs (wide rs) (wide rt)) s0 h t
  | ldxs rd y =>
    cases y with
    | base rs off => exact nomatch regs
    | ptr sc p imm => exact setPtr_writeReg (lane (by simpa [ShortOp.fits, XsAddr.fits] using fits)) p _ _
  | stxs rd y => exact nomatch regs

/-- Registers of a three-bit field are defined in both profiles. -/
theorem legalRW_short (reads writes : List (Fin 8)) (h : Nat) : legalRW (reads.map (fun r => r.val)) (writes.map (fun r => r.val)) h = true := by
  simp only [legalRW, List.all_map, Bool.and_eq_true, List.all_eq_true, Function.comp_apply, legalRead, legalWrite, Bool.or_eq_true,
    decide_eq_true_eq]
  exact ⟨fun r _ => by omega, fun r _ => by omega⟩

theorem shortOp_legal (x : ShortOp) (u : Agent) (fits : x.fits u = true) : (shortOp x).legal (unitHart u) = true := by
  have profile : u.isCore = decide (unitHart u < 16) := by
    cases u with
    | core c => simp [Agent.isCore, unitHart]
    | eng pe => simp [Agent.isCore, unitHart, laneHart]
  have engine : (!u.isCore) = true → decide (16 ≤ unitHart u) = true := by
    rw [profile]
    simp
  cases x with
  | nops => rfl
  | mov rd rs => exact legalRW_short [rs] [rd] _
  | add rd rs rt => exact legalRW_short [rs, rt] [rd] _
  | sub rd rs rt => exact legalRW_short [rs, rt] [rd] _
  | and rd rs rt => exact legalRW_short [rs, rt] [rd] _
  | or rd rs rt => exact legalRW_short [rs, rt] [rd] _
  | xor rd rs rt => exact legalRW_short [rs, rt] [rd] _
  | shli rd rs n => exact legalRW_short [rs] [rd] _
  | sari rd rs n => exact legalRW_short [rs] [rd] _
  | addi5 rd rs imm => exact legalRW_short [rs] [rd] _
  | cmp rs rt => exact legalRW_short [rs, rt] [] _
  | mpys ad rs rt =>
    have both := legalRW_short [rs, rt] [] (unitHart u)
    simp only [legalRW, List.map_cons, List.map_nil, List.all_cons, List.all_nil, Bool.and_true] at both
    exact both
  | macs ad y =>
    cases y with
    | regs rs rt => exact profile.symm.trans fits
    | ptrs tp ti cp ci => exact engine fits
  | ldxs rd y =>
    cases y with
    | base rs off => exact profile.symm.trans fits
    | ptr sc p imm => exact engine fits
  | stxs rd y =>
    cases y with
    | base rs off => exact profile.symm.trans fits
    | ptr sc p imm => exact engine fits

/-- A corrected program word changes nothing that a short operation reads or moves. -/
theorem shortAct_fetched (pe : Nat) (s : State) (x : ShortOp) : shortAct (fetched pe s) x = shortAct s x := by
  have bump (h : Nat) (p : Fin 4) (pm : PtrMod) : bumped (fetched pe s) h p pm = bumped s h p pm := by
    simp only [bumped, getPtr_fetched]
  have put (h : Nat) : shortPut (fetched pe s) h x = shortPut s h x := by
    unfold shortPut
    simp only [readReg_fetched, getAcc_fetched, laneRead_fetched, reach_fetched, getPtr_fetched, bump]
  have reads (h : Nat) : shortReaches (fetched pe s) h x = shortReaches s h x := by
    unfold shortReaches
    simp only [reach_fetched, getPtr_fetched]
  unfold shortAct shortOn
  simp only [put, reads]

/-- A put of one register of a three-bit field. -/
theorem putOk_short {h : Nat} {p : HartPut} {on : Bool} (rd : Fin 8) (one : ∀ e ∈ p.regs, e.1 = rd.val) (flags : on = false → p.flg = {})
    (noAcc : p.acc = none) : putOk h p on := by
  refine ⟨fun e he => ?_, flags, fun x v acc => by rw [noAcc] at acc; exact nomatch acc⟩
  have := rd.isLt
  rw [one e he]
  exact ⟨by omega, by simp only [legalWrite, Bool.or_eq_true, decide_eq_true_eq]; omega⟩

/-- A shift writes one register, and no accumulator or generator. -/
theorem shift_shape (kind : ShiftKind) (rd W x k : Nat) : (∀ e ∈ (Put.shift kind rd W x k).regs, e.1 = rd) ∧
    (Put.shift kind rd W x k).acc = none ∧ (Put.shift kind rd W x k).dice = none := by
  unfold Put.shift
  split
  · simp [Put.nz]
  · cases kind <;> simp

theorem shortPut_ok (s : State) (h : Nat) (x : ShortOp) : putOk h (shortPut s h x) (shortOn s h x) := by
  cases x with
  | nops => exact putOk_short 0 (by simp [shortPut]) (fun _ => rfl) rfl
  | mov rd rs => exact putOk_short rd (by simp [shortPut, Put.plain]) (fun _ => rfl) rfl
  | add rd rs rt => exact putOk_short rd (by simp [shortPut, Put.sum]) (fun e => nomatch e) rfl
  | sub rd rs rt => exact putOk_short rd (by simp [shortPut, Put.diff]) (fun e => nomatch e) rfl
  | and rd rs rt => exact putOk_short rd (by simp [shortPut, Put.nz]) (fun e => nomatch e) rfl
  | or rd rs rt => exact putOk_short rd (by simp [shortPut, Put.nz]) (fun e => nomatch e) rfl
  | xor rd rs rt => exact putOk_short rd (by simp [shortPut, Put.nz]) (fun e => nomatch e) rfl
  | shli rd rs n =>
    obtain ⟨regs, acc, -⟩ := shift_shape .shl rd (widthOf h) (readReg s h rs) n
    exact putOk_short rd regs (fun e => nomatch e) acc
  | sari rd rs n =>
    obtain ⟨regs, acc, -⟩ := shift_shape .sar rd (widthOf h) (readReg s h rs) n
    exact putOk_short rd regs (fun e => nomatch e) acc
  | addi5 rd rs imm => exact putOk_short rd (by simp [shortPut, Put.sum]) (fun e => nomatch e) rfl
  | cmp rs rt => exact putOk_short 0 (by simp [shortPut, Put.compare]) (fun e => nomatch e) rfl
  | macs ad y =>
    cases y with
    | regs rs rt => exact macPut_ok .add ad _ _ (by simp)
    | ptrs tp ti cp ci =>
      refine macPut_ok .add ad _ _ fun e he => ?_
      rw [List.mem_append] at he
      obtain he | he := he
      · cases ti with
        | false => exact nomatch he
        | true => exact bumped_ok e (by simpa using he)
      · cases ci with
        | false => exact nomatch he
        | true => exact bumped_ok e (by simpa using he)
  | mpys ad rs rt => exact macPut_ok .load ad 0 _ (by simp)
  | ldxs rd y =>
    cases y with
    | base rs off => exact putOk_short 0 (by simp [shortPut]) (fun _ => rfl) rfl
    | ptr sc p imm =>
      refine ⟨fun e he => ?_, fun _ => rfl, fun _ _ acc => nomatch acc⟩
      have := rd.isLt
      have := p.isLt
      have moved : e.1 = rd.val ∨ e.1 = 8 + p.val := by
        simp only [shortPut, List.mem_cons, List.not_mem_nil, or_false] at he
        obtain rfl | rfl := he
        · exact .inl rfl
        · exact .inr rfl
      simp only [legalWrite, Bool.or_eq_true, decide_eq_true_eq]
      omega
  | stxs rd y =>
    cases y with
    | base rs off => exact putOk_short 0 (by simp [shortPut]) (fun _ => rfl) rfl
    | ptr sc p imm =>
      refine ⟨fun e he => ?_, fun _ => rfl, fun _ _ acc => nomatch acc⟩
      obtain rfl : e = _ := by simpa [shortPut] using he
      have := p.isLt
      simp only [legalWrite, Bool.or_eq_true, decide_eq_true_eq]
      omega

theorem shortPut_noDice (s : State) (h : Nat) (x : ShortOp) : (shortPut s h x).dice = none := by
  cases x with
  | shli rd rs n =>
    obtain ⟨-, -, dice⟩ := shift_shape .shl rd (widthOf h) (readReg s h rs) n
    exact dice
  | sari rd rs n =>
    obtain ⟨-, -, dice⟩ := shift_shape .sar rd (widthOf h) (readReg s h rs) n
    exact dice
  | macs ad y => cases y <;> rfl
  | ldxs rd y => cases y <;> rfl
  | stxs rd y => cases y <;> rfl
  | _ => rfl

theorem shortAct_sound (x : ShortOp) (u : Agent) (s : State) (regs : shortOnRegs x = true) (fits : x.fits u = true) :
    (shortAct s x).Sound u s := by
  have same : shortAct (before u s) x = shortAct s x := by
    cases u with
    | core c => rfl
    | eng pe => exact shortAct_fetched ..
  refine ⟨fun h here t => ?_, fun h _ => shortPut_ok s h x, shortOp_legal x u fits, fun t c => ?_, fun pe at' h _ => ?_⟩
  · rw [← same]
    refine shortOp_fx x (before u s) h t regs u fits (fun lane => ?_)
    cases u with
    | core c => exact nomatch lane
    | eng pe => exact harts_lane pe s h here
  · cases x with
    | macs ad y => cases y <;> rfl
    | ldxs rd y =>
      cases y with
      | base rs off => exact nomatch regs
      | ptr sc p imm => rfl
    | stxs rd y => exact nomatch regs
    | _ => rfl
  · rw [← same]
    cases x with
    | macs ad y => cases y <;> rfl
    | ldxs rd y => cases y <;> rfl
    | stxs rd y => exact nomatch regs
    | _ => rfl

theorem shortOp_srcs (x : ShortOp) (regs : shortOnRegs x = true) : (shortOp x).srcs = shortSrcs x := by
  cases x with
  | macs ad y => cases y <;> rfl
  | ldxs rd y => cases y <;> rfl
  | stxs rd y => exact nomatch regs
  | _ => rfl

theorem shortOp_count (x : ShortOp) (regs : shortOnRegs x = true) : (shortOp x).count = shortAccesses x := by
  cases x with
  | macs ad y => cases y <;> rfl
  | ldxs rd y =>
    cases y with
    | base rs off => exact nomatch regs
    | ptr sc p imm => rfl
  | stxs rd y => exact nomatch regs
  | _ => rfl

/-! Pair words. -/

/-- A pair word of a in slot A and b in slot B. -/
theorem pair_word (u : Agent) (a b : ShortOp) (s : State) (srcs : List Nat) (ra : shortOnRegs a = true) (rb : shortOnRegs b = true)
    (fa : a.fits u = true) (fb : b.fits u = true) (issues : ready u srcs s = true)
    (arrived : ∀ r, r ∈ shortSrcs a ∨ r ∈ shortSrcs b → r ∈ srcs)
    (lane : ∀ pe, u = .eng pe → shortAccesses a + shortAccesses b ≤ 2 ∧
      cleanReach pe (fun h => shortReaches s h a ++ shortReaches s h b) s = true) :
    pairDoes u (fun h => shortPut s h a) (fun h => shortPut s h b) s (unitWord u [shortOp a, shortOp b] s) := by
  obtain ⟨reg, stat, acc, dice, goes⟩ := unitWord_puts u [shortAct s a, shortAct s b] s srcs issues
    (by simpa [shortAct, shortOp_srcs, ra, rb] using ⟨fun r h => arrived r (.inl h), fun r h => arrived r (.inr h)⟩)
    (by simpa using ⟨shortAct_sound a u s ra fa, shortAct_sound b u s rb fb⟩)
    (fun pe at' => by simpa [shortAct, shortOp_count, ra, rb] using lane pe at')
  refine ⟨reg, stat, acc, fun h => (dice h).trans ?_, goes⟩
  simp [putsDice, shortAct, HartPut.diceAfter, shortPut_noDice]

/-- A pair completes in either order of the slots. -/
theorem pair_runs (i : Slot → Instr) (u : Agent) (x y : ShortOp) (s : State)
    (runs : ∀ slot, exec (i slot) s = .next (unitWord u (pairOps slot x y) s))
    (fits : ∀ slot, (i slot).wellFormed = true → x.fits u = true ∧ y.fits u = true) : pairRuns i u x y s := by
  intro slot rx ry wf issues lane
  obtain ⟨fx, fy⟩ := fits slot wf
  refine ⟨_, runs slot, ?_⟩
  cases slot with
  | a => exact pair_word u x y s _ rx ry fx fy issues (fun r h => List.mem_append.mpr h) lane
  | b =>
    refine pair_word u y x s _ ry rx fy fx issues (fun r h => List.mem_append.mpr h.symm) fun pe at' => ?_
    obtain ⟨budget, clean⟩ := lane pe at'
    refine ⟨by omega, (cleanReach_iff _ _ _).mpr fun L live r reached => ?_⟩
    exact (cleanReach_iff _ _ _).mp clean L live r (List.mem_append.mpr (List.mem_append.mp reached).symm)

/-- Settles O23: each short operation puts to a hart what shortPut says, and a word does its puts in slot order. -/
theorem pairWords : Obligations.PairWords := by
  intro u rd rs rt n imm ad m sc p o s
  have both {x : ShortOp} (w : Bool) (own : x.fits u = w) : (w && o.fits u) = true → x.fits u = true ∧ o.fits u = true := by
    rw [own]; exact Bool.and_eq_true_iff.mp
  exact ⟨pair_runs _ u _ o s (fun _ => rfl) (fun _ => both true rfl), pair_runs _ u _ o s (fun _ => rfl) (fun _ => both true rfl),
    pair_runs _ u _ o s (fun _ => rfl) (fun _ => both true rfl), pair_runs _ u _ o s (fun _ => rfl) (fun _ => both true rfl),
    pair_runs _ u _ o s (fun _ => rfl) (fun _ => both true rfl), pair_runs _ u _ o s (fun _ => rfl) (fun _ => both true rfl),
    pair_runs _ u _ o s (fun _ => rfl) (fun _ => both true rfl), pair_runs _ u _ o s (fun _ => rfl) (fun _ => both true rfl),
    pair_runs _ u _ o s (fun _ => rfl) (fun _ => both true rfl), pair_runs _ u _ o s (fun _ => rfl) (fun _ => both true rfl),
    pair_runs _ u _ o s (fun _ => rfl) (fun _ => both true rfl), pair_runs _ u _ o s (fun _ => rfl) (fun _ => both _ rfl),
    pair_runs _ u _ o s (fun _ => rfl) (fun _ => both true rfl), pair_runs _ u _ o s (fun _ => rfl) (fun _ => both _ rfl)⟩

end Sys2Proof.Machine
end

section
/-! SUPPORT. Words of one result, of flags alone and of one value (R97): what they put to a hart as the rules state it. -/

namespace Sys2Proof.Machine

/-- A word does what any put that agrees with its own says. -/
theorem wordDoes_congr {u : Agent} {p q : Nat → HartPut} {s t : State} (same : ∀ h, p h = q h) (does : wordDoes u p s t) : wordDoes u q s t :=
  (funext same : p = q) ▸ does

section
variable {i : Instr} {u : Agent} {rd : Fin 32} {reads : List (Fin 32)} {s : State} {P : Nat → HartPut}

/-- The operands of a word in a hart. -/
def operands (s : State) (reads : List (Fin 32)) (h : Nat) : List Nat := (reads.map (fun r => r.val)).map (fun x => readReg s h x)

theorem resOp_runs {f : Nat → List Nat → Res} (does : exec i s = .next (unitWord u [resOp rd (reads.map (fun r => r.val)) f] s))
    (fields : i.wellFormed = (u.writes rd && u.reads reads)) (puts : ∀ h, Put.ofRes rd (f (widthOf h) (operands s reads h)) = P h) :
    wordRuns i u reads P s := by
  intro wf ready
  obtain ⟨writes, reads⟩ := Bool.and_eq_true_iff.mp (fields ▸ wf)
  exact ⟨_, does, wordDoes_congr puts (resOp_word u rd _ f s ready (legalRW_of_ok u _ rd reads writes))⟩

theorem valOp_runs {f : Nat → List Nat → Nat} (does : exec i s = .next (unitWord u [valOp rd (reads.map (fun r => r.val)) f] s))
    (fields : i.wellFormed = (u.writes rd && u.reads reads)) (puts : ∀ h, Put.plain rd (f (widthOf h) (operands s reads h)) = P h) :
    wordRuns i u reads P s := by
  intro wf ready
  obtain ⟨writes, reads⟩ := Bool.and_eq_true_iff.mp (fields ▸ wf)
  exact ⟨_, does, wordDoes_congr puts (valOp_word u rd _ f s ready (legalRW_of_ok u _ rd reads writes))⟩

theorem flagOp_runs {f : Nat → List Nat → Res} (does : exec i s = .next (unitWord u [flagOp (reads.map (fun r => r.val)) f] s))
    (fields : i.wellFormed = u.reads reads) (puts : ∀ h, { flg := (f (widthOf h) (operands s reads h)).flg } = P h) :
    wordRuns i u reads P s := by
  intro wf ready
  exact ⟨_, does, wordDoes_congr puts (flagOp_word u _ f s ready (legalR_of_ok u _ (fields ▸ wf)))⟩

end

/-- A put of one register that the hart may write. -/
theorem putOk_one {h v : Nat} {rd : Fin 32} {p : HartPut} {on : Bool} (one : p.regs = [(rd.val, v)]) (legal : legalWrite h rd = true)
    (flags : on = false → p.flg = {}) (noAcc : p.acc = none) : putOk h p on := by
  refine ⟨fun e he => ?_, flags, fun x v acc => by rw [noAcc] at acc; exact nomatch acc⟩
  obtain rfl : e = (rd.val, v) := by simpa [one] using he
  exact ⟨rd.isLt, legal⟩

/-! The results of the model, as the puts of R104, R105, R108, R109 and R112. -/

/-- Saturation may ask for either bound first. -/
theorem satI_eq (n : Nat) (x : Int) : satI n x = if maxS n < x then maxS n else if x < minS n then minS n else x := by
  have bounds : minS n ≤ maxS n := by
    have := Nat.two_pow_pos (n - 1)
    unfold minS maxS
    omega
  unfold satI clampI
  split
  · rw [if_neg (by omega)]
  · rfl

theorem Put.ofRes_aluSat (rd W : Nat) (e : Int) (c : Bool) : Put.ofRes rd (aluSat W e c) = Put.saturated rd W e c := by
  unfold Put.ofRes aluSat Put.saturated
  rw [satI_eq]; rfl

theorem Put.ofRes_aluAbs (rd W x : Nat) : Put.ofRes rd (aluAbs W x) = Put.magnitude rd W x := by
  unfold Put.ofRes aluAbs Put.magnitude
  simp only [Int.zero_sub]; rfl

/-- Settles O1: each word is a result or flags of aluAdd, aluSub, aluSat and aluAbs. -/
theorem addAndSubtract : Obligations.AddAndSubtract := by
  refine ⟨fun u rd rs rt imm s => ?_, fun u rd rs rt s => ?_⟩
  · exact ⟨resOp_runs (reads := [rs, rt]) rfl rfl fun h => Put.ofRes_aluAdd ..,
      resOp_runs (reads := [rs]) rfl rfl fun h => Put.ofRes_aluAdd ..,
      resOp_runs (reads := [rs, rt]) rfl rfl fun h => Put.ofRes_aluSub ..,
      resOp_runs (reads := [rs]) rfl rfl fun h => Put.ofRes_aluSub ..,
      flagOp_runs (reads := [rs, rt]) rfl rfl fun h => flg_aluSub ..,
      flagOp_runs (reads := [rs]) rfl rfl fun h => flg_aluSub ..⟩
  · exact ⟨resOp_runs (reads := [rs, rt]) rfl rfl fun h => Put.ofRes_aluSat ..,
      resOp_runs (reads := [rs, rt]) rfl rfl fun h => Put.ofRes_aluSat ..,
      resOp_runs (reads := [rs]) rfl rfl fun h => Put.ofRes_aluAbs ..⟩

end Sys2Proof.Machine
end

section
/-! SUPPORT. Logic and moves (R106, R107). -/

namespace Sys2Proof.Machine

/-- All bits of a number below 2 ^ W flipped. -/
theorem two_pow_sub_one_xor {W y : Nat} (low : y < 2 ^ W) : (2 ^ W - 1) ^^^ y = 2 ^ W - 1 - y := by
  refine Nat.eq_of_testBit_eq fun k => ?_
  rw [Nat.testBit_xor, Nat.testBit_two_pow_sub_one, Nat.sub_sub, Nat.add_comm, Nat.testBit_two_pow_sub_succ low]
  by_cases inside : k < W
  · simp [inside]
  · have high : y.testBit k = false := Nat.testBit_lt_two_pow (Nat.lt_of_lt_of_le low (Nat.pow_le_pow_right (by decide) (by omega)))
    simp [inside, high]

theorem Put.ofRes_andn (rd W x y : Nat) :
    Put.ofRes rd (aluLogic W (andNot W x y)) = Put.nz rd W ((x &&& (2 ^ W - 1 - y % 2 ^ W)) % 2 ^ W) := by
  rw [Put.ofRes_aluLogic, andNot, two_pow_sub_one_xor (Nat.mod_lt _ (Nat.two_pow_pos W))]

/-- MOVHI reads the register that it writes, so it has fields of its own (R78). -/
theorem movhi_runs (u : Agent) (rd : Fin 32) (hi : BitVec 16) (s : State) :
    wordRuns (.movhi u rd hi) u [rd] (fun h => Put.plain rd (readReg s h rd % 2 ^ 16 + hi.toNat * 2 ^ 16)) s := by
  intro wf ready
  obtain ⟨writes, fits⟩ := Bool.and_eq_true_iff.mp wf
  have write := legalWrite_of_ok u rd writes
  have legal : (movhiOp rd hi).legal (unitHart u) = true := by
    refine Bool.and_eq_true_iff.mpr ⟨write, ?_⟩
    cases u with
    | core c => simp [unitHart]
    | eng pe => exact Bool.or_eq_true_iff.mpr (.inr (by simpa [Agent.isCore] using fits))
  exact ⟨_, rfl, unitWord_put u (movhiOp rd hi) (fun s0 h => Put.plain rd (readReg s0 h rd % 2 ^ 16 + hi.toNat * 2 ^ 16))
    (fun _ _ => false) s ready legal (Nat.zero_le 2) rfl rfl (fun _ _ _ => rfl) (fun pe h => by rw [readReg_fetched]) (fun _ _ => rfl)
    fun h here => putOk_one rfl ((legalWrite_harts u s rd h here).trans write) (fun _ => rfl) rfl⟩

/-- Settles O2: the logic words are results of aluLogic, and the moves are values. -/
theorem logicAndMoves : Obligations.LogicAndMoves := by
  intro u rd rs rt imm big hi s
  exact ⟨resOp_runs (reads := [rs, rt]) rfl rfl fun h => Put.ofRes_aluLogic ..,
    resOp_runs (reads := [rs, rt]) rfl rfl fun h => Put.ofRes_aluLogic ..,
    resOp_runs (reads := [rs, rt]) rfl rfl fun h => Put.ofRes_aluLogic ..,
    resOp_runs (reads := [rs, rt]) rfl rfl fun h => Put.ofRes_andn ..,
    resOp_runs (reads := [rs]) rfl rfl fun h => Put.ofRes_aluLogic ..,
    resOp_runs (reads := [rs]) rfl rfl fun h => Put.ofRes_aluLogic ..,
    resOp_runs (reads := [rs]) rfl rfl fun h => Put.ofRes_aluLogic ..,
    valOp_runs (reads := []) rfl (Bool.and_true _).symm fun h => rfl,
    movhi_runs u rd hi s⟩

end Sys2Proof.Machine
end

section
/-! SUPPORT. The shifts and the rotation (R108). -/

namespace Sys2Proof.Machine

theorem Put.ofRes_shr (rd W x k : Nat) : Put.ofRes rd (aluShift W .shr x k) = Put.shift .shr rd W x k := by
  unfold aluShift Put.shift
  split <;> rfl

theorem Put.ofRes_ror (rd W x k : Nat) : Put.ofRes rd (aluShift W .ror x k) = Put.shift .ror rd W x k := by
  unfold aluShift Put.shift
  split <;> rfl

theorem Put.ofRes_aluShift (kind : ShiftKind) (rd W x k : Nat) : Put.ofRes rd (aluShift W kind x k) = Put.shift kind rd W x k := by
  cases kind with
  | shl => exact Put.ofRes_shl ..
  | shr => exact Put.ofRes_shr ..
  | sar => exact Put.ofRes_sar ..
  | ror => exact Put.ofRes_ror ..

/-- A shift by the low byte of a register. -/
theorem shift_runs {i : Instr} {u : Agent} {rd rs rt : Fin 32} {s : State} (kind : ShiftKind)
    (does : exec i s = .next (unitWord u [resOp rd [rs.val, rt.val] (res2 (fun W x y => aluShift W kind x (y % 256)))] s))
    (fields : i.wellFormed = (u.writes rd && u.reads [rs, rt])) :
    wordRuns i u [rs, rt] (fun h => Put.shift kind rd (widthOf h) (readReg s h rs) (readReg s h rt % 256)) s :=
  resOp_runs (reads := [rs, rt]) does fields fun _ => Put.ofRes_aluShift ..

/-- Settles O3: each shift is a result of aluShift, by rt[7:0] or by AMT. -/
theorem shifts : Obligations.Shifts := by
  intro u kind rd rs rt amt s
  exact ⟨shift_runs .shl rfl rfl, shift_runs .shr rfl rfl, shift_runs .sar rfl rfl, shift_runs .ror rfl rfl,
    resOp_runs (reads := [rs]) rfl rfl fun h => Put.ofRes_aluShift ..⟩

end Sys2Proof.Machine
end

section
/-! SUPPORT. Bit fields, counts of leading bits, and PERM (R109 to R111). -/

namespace Sys2Proof.Machine

theorem fieldTop_eq (W pos wm1 : Nat) : fieldTop W pos wm1 = min (pos + (wm1 + 1)) W - 1 := rfl

theorem Put.ofRes_aluBfx (signed : Bool) (rd W x pos wm1 : Nat) :
    Put.ofRes rd (aluBfx W signed x pos wm1) = Put.extract signed rd W x pos wm1 := by
  unfold Put.ofRes aluBfx Put.extract
  rw [fieldTop_eq]
  split <;> rfl

theorem Put.ofRes_aluBfi (rd W old x pos wm1 : Nat) : Put.ofRes rd (aluBfi W old x pos wm1) = Put.insert rd W old x pos wm1 := by
  unfold Put.ofRes aluBfi Put.insert
  rw [fieldTop_eq]
  split <;> rfl

/-- BFI reads the register that it writes (R109). -/
theorem bfi_runs (u : Agent) (rd rs pos wm1 : Fin 32) (s : State) :
    wordRuns (.bfi u rd rs pos wm1) u [rd, rs] (fun h => Put.insert rd (widthOf h) (readReg s h rd) (readReg s h rs) pos wm1) s := by
  intro wf ready
  obtain ⟨writes, reads⟩ := Bool.and_eq_true_iff.mp wf
  have write := legalWrite_of_ok u rd writes
  have legal : (bfiOp rd rs pos wm1).legal (unitHart u) = true :=
    Bool.and_eq_true_iff.mpr ⟨legalRead_of_ok u rs (by simpa [Agent.reads] using reads), write⟩
  refine ⟨_, rfl, wordDoes_congr (fun h => Put.ofRes_aluBfi ..) <| unitWord_put u (bfiOp rd rs pos wm1)
    (fun s0 h => Put.ofRes rd (aluBfi (widthOf h) (readReg s0 h rd) (readReg s0 h rs) pos wm1)) (fun _ _ => true) s ready legal
    (Nat.zero_le 2) rfl rfl (fun _ _ _ => rfl) (fun pe h => by rw [readReg_fetched, readReg_fetched]) (fun _ _ => rfl)
    fun h here => putOk_one rfl ((legalWrite_harts u s rd h here).trans write) (fun off => absurd off (by decide)) rfl⟩

/-- The first bits that equal b, counted from the top: the bits below that many places do, and no more of them. -/
theorem leading_spec (b : Bool) (x n : Nat) : leading b x n ≤ n ∧
    ∀ j ≤ n, (List.range j).all (fun i => x.testBit (n - 1 - i) == b) = decide (j ≤ leading b x n) := by
  induction n with
  | zero => exact ⟨Nat.le_refl 0, fun j hj => by simp [Nat.le_zero.mp hj]⟩
  | succ n ih =>
    obtain ⟨most, runs⟩ := ih
    have shifted (j : Nat) : (List.range (j + 1)).all (fun i => x.testBit (n + 1 - 1 - i) == b) =
        (x.testBit n == b && (List.range j).all (fun i => x.testBit (n - 1 - i) == b)) := by
      rw [List.range_succ_eq_map, List.all_cons, List.all_map]
      congr 2
      funext i
      simp only [Function.comp_apply, Nat.succ_eq_add_one, Nat.add_sub_cancel]
      congr 2; omega
    unfold leading
    by_cases top : (x.testBit n == b) = true
    · rw [if_pos top]
      refine ⟨by omega, fun j hj => ?_⟩
      cases j with
      | zero => simp
      | succ j => rw [shifted, runs j (by omega), top]; simp
    · have other : (x.testBit n == b) = false := by simpa using top
      rw [if_neg top]
      refine ⟨by omega, fun j hj => ?_⟩
      cases j with
      | zero => simp
      | succ j => rw [shifted, other]; simp

/-- The largest of the first numbers that are at most c. -/
theorem last_le (c n : Nat) (p : Nat → Bool) (upTo : ∀ j ≤ n, p j = decide (j ≤ c)) :
    (List.range (n + 1)).foldl (fun k j => if p j then j else k) 0 = min c n := by
  induction n with
  | zero => simp [upTo 0 (Nat.le_refl 0)]
  | succ n ih =>
    rw [List.range_succ, List.foldl_append, ih (fun j hj => upTo j (by omega)), List.foldl_cons, List.foldl_nil, upTo (n + 1) (Nat.le_refl _)]
    simp only [decide_eq_true_eq]
    split <;> omega

theorem runOf_eq_leading (b : Bool) (x n : Nat) : runOf b x n = leading b x n := by
  obtain ⟨most, runs⟩ := leading_spec b x n
  exact (last_le (leading b x n) n _ runs).trans (Nat.min_eq_left most)

/-- A core's register holds 32 bits. -/
theorem readReg_core_lt {h : Nat} (s : State) (r : Nat) (core : h < 16) : readReg s h r < 2 ^ 32 := by
  unfold readReg
  rw [if_pos core]
  split
  · decide
  · exact BitVec.isLt _

theorem toU_sxN (n x : Nat) : toU n (sxN n x) = x % 2 ^ n := by
  have low := Nat.mod_lt x (Nat.two_pow_pos n)
  have small : (((x % 2 ^ n : Nat) : Int) % ((2 ^ n : Nat) : Int)).toNat = x % 2 ^ n := by
    rw [← Int.natCast_emod, Int.toNat_natCast, Nat.mod_eq_of_lt low]
  unfold toU sxN
  simp only
  split
  · exact small
  · rw [Int.sub_emod_right]; exact small

theorem foldl_four (b : Nat → Nat) : ((List.range 4).map b).foldl (· + ·) 0 = b 0 + b 1 + b 2 + b 3 := by
  have four : List.range 4 = [0, 1, 2, 3] := rfl
  rw [four]
  simp only [List.map_cons, List.map_nil, List.foldl_cons, List.foldl_nil, Nat.zero_add]

/-- Four bytes of a word, chosen by two bits of sel each. -/
def chosenBytes (src sel : Nat) : Nat :=
  byteOf src (sel / 4 ^ 0 % 4) * 256 ^ 0 + byteOf src (sel / 4 ^ 1 % 4) * 256 ^ 1 + byteOf src (sel / 4 ^ 2 % 4) * 256 ^ 2 +
    byteOf src (sel / 4 ^ 3 % 4) * 256 ^ 3

theorem permuted_eq (W x sel : Nat) : permuted W x sel = chosenBytes (if W = 24 then toU 32 (sxN 24 x) else x) sel % 2 ^ W :=
  congrArg (fun n => n % 2 ^ W) (foldl_four _)

theorem aluPerm_chosen (W x sel : Nat) : aluPerm W x sel = chosenBytes (toU 32 (sxN W x)) sel % 2 ^ W := by
  unfold chosenBytes
  rw [show 256 ^ 0 = 1 from rfl, show 256 ^ 1 = 256 from rfl, show 256 ^ 2 = 65536 from rfl, show 256 ^ 3 = 16777216 from rfl, Nat.mul_one]
  rfl

/-- PERM takes its bytes from a register sign-extended to 32 bits, which a core's is as it stands (R111). -/
theorem aluPerm_eq (s : State) (h r sel : Nat) : aluPerm (widthOf h) (readReg s h r) sel = permuted (widthOf h) (readReg s h r) sel := by
  have source : toU 32 (sxN (widthOf h) (readReg s h r)) =
      if widthOf h = 24 then toU 32 (sxN 24 (readReg s h r)) else readReg s h r := by
    unfold widthOf
    by_cases core : h < 16
    · simp only [core, if_true]
      rw [if_neg (by decide), toU_sxN, Nat.mod_eq_of_lt (readReg_core_lt s r core)]
    · simp only [core, if_false, if_true]
  rw [aluPerm_chosen, permuted_eq, source]

/-- Settles O4: the fields are results of aluBfx and aluBfi, the counts and PERM values. -/
theorem fieldsAndCounts : Obligations.FieldsAndCounts := by
  intro u rd rs pos wm1 sel s
  exact ⟨resOp_runs (reads := [rs]) rfl rfl fun h => Put.ofRes_aluBfx ..,
    resOp_runs (reads := [rs]) rfl rfl fun h => Put.ofRes_aluBfx ..,
    bfi_runs u rd rs pos wm1 s,
    valOp_runs (reads := [rs]) rfl rfl fun h => congrArg (Put.plain rd) (runOf_eq_leading ..).symm,
    valOp_runs (reads := [rs]) rfl rfl fun h => congrArg (Put.plain rd) (runOf_eq_leading ..).symm,
    valOp_runs (reads := [rs]) rfl rfl fun h => congrArg (Put.plain rd) (aluPerm_eq ..)⟩

end Sys2Proof.Machine
end

section
/-! SUPPORT. Products and divisions (R112 to R114). -/

namespace Sys2Proof.Machine

theorem Put.ofRes_aluMul (rd W x y : Nat) : Put.ofRes rd (aluMul W x y) = Put.product rd W x y := by
  rw [Put.product, ← outside_eq_beyond]; rfl

/-- A quotient with its flags and a remainder, put to rd and rr. -/
def Put.ofDiv (rd rr : Nat) (d : Res × Nat) : HartPut := { regs := [(rd, d.1.val), (rr, d.2)], flg := d.1.flg }

theorem Put.ofDiv_aluDiv (rd rr x y : Nat) : Put.ofDiv rd rr (aluDiv x y) = Put.divided rd rr x y := by
  unfold aluDiv Put.divided
  dsimp only
  split
  · rfl
  · split <;> rfl

theorem Put.ofDiv_aluDivu (rd rr x y : Nat) : Put.ofDiv rd rr (aluDivu x y) = Put.dividedU rd rr x y := by
  unfold aluDivu Put.dividedU
  split <;> rfl

/-- A division on a core (R113); engine profile has none. -/
theorem div_runs {i : Instr} {u : Agent} {rd rs rt rr : Fin 32} {s : State} (f : Nat → Nat → Res × Nat) {P : Nat → Nat → HartPut}
    (does : exec i s = .next (unitWord u [divOp rd rs rt rr f] s)) (fields : i.wellFormed = u.isCore)
    (puts : ∀ x y, Put.ofDiv rd rr (f x y) = P x y) :
    wordRuns i u [rs, rt] (fun h => P (readReg s h rs) (readReg s h rt)) s := by
  intro wf ready
  cases u with
  | eng pe => exact nomatch fields ▸ wf
  | core c =>
    refine ⟨_, does, wordDoes_congr (fun h => puts ..) <| unitWord_put (.core c) (divOp rd rs rt rr f)
      (fun s0 h => Put.ofDiv rd rr (f (readReg s0 h rs) (readReg s0 h rt))) (fun _ _ => true) s ready (by simp [divOp, Op.plain, unitHart])
      (Nat.zero_le 2) rfl rfl (fun _ _ _ => rfl) (fun pe h => by rw [readReg_fetched, readReg_fetched]) (fun _ _ => rfl)
      fun h here => ⟨fun e he => ?_, fun off => absurd off (by decide), fun x v acc => absurd acc (by simp [Put.ofDiv])⟩⟩
    obtain rfl : h = c.val := by simpa [harts] using here
    have register : e.1 < 32 := by
      simp only [Put.ofDiv, List.mem_cons, List.not_mem_nil, or_false] at he
      obtain rfl | rfl := he
      · exact rd.isLt
      · exact rr.isLt
    exact ⟨register, by simp [legalWrite]⟩

/-- Settles O5: the product is a result of aluMul, and a division writes its quotient and then its remainder. -/
theorem multiplyAndDivide : Obligations.MultiplyAndDivide := by
  intro u rd rs rt rr s
  exact ⟨resOp_runs (reads := [rs, rt]) rfl rfl fun h => Put.ofRes_aluMul ..,
    div_runs aluDiv rfl rfl fun x y => Put.ofDiv_aluDiv ..,
    div_runs aluDivu rfl rfl fun x y => Put.ofDiv_aluDivu ..⟩

end Sys2Proof.Machine
end

section
/-! SUPPORT. Words on accumulators and generators (R115 to R119, R126), and NOP (R70). -/

namespace Sys2Proof.Machine

/-! Products of registers. -/

/-- MAC, MSU and MPY of registers, in either profile. -/
theorem macRegs_runs {i : Instr} {u : Agent} {rs rt : Fin 32} {s : State} (kind : MacKind) (ad : Fin 4)
    (does : exec i s = .next (unitWord u [macOp kind ad (.regs rs rt)] s)) (fields : i.wellFormed = (MacArgs.regs rs rt).fits u) :
    wordRuns i u [rs, rt] (fun h => macPut kind ad (getAcc s h ad) (prodOf (readReg s h rs) (readReg s h rt))) s := by
  intro wf ready
  obtain ⟨reg, stat, acc, dice, goes⟩ := unitWord_puts u [macAct kind ad (.regs rs rt) s] s [rs.val, rt.val] ready
    (by simp [macAct, macOp, macSrcs]) (by simpa using macAct_sound kind ad (.regs rs rt) u s (fields ▸ wf)) (fun pe _ => by
      simp [macAct, macOp, macCount, macReaches, cleanReach])
  have word : wordDoes u (macAct kind ad (.regs rs rt) s).put s (unitWord u [macOp kind ad (.regs rs rt)] s) :=
    ⟨reg, stat, acc, dice, goes⟩
  refine ⟨_, does, wordDoes_congr (fun h => ?_) word⟩
  cases kind <;> rfl

/-! Accumulators. -/

/-- Whether a put to an accumulator writes its flag. -/
def overflows (v : Int) : Bool := decide (wrapI 56 v ≠ v)

theorem accPut_ok (h : Nat) (ad : Fin 4) (v : Int) : putOk h (Put.acc ad v) (overflows v) := by
  refine ⟨fun e he => (nomatch he), fun fits => ?_, fun x w acc => ?_⟩
  · have same : decide (wrapI 56 v ≠ v) = false := fits
    rw [Put.acc, same]
  · obtain ⟨rfl, -⟩ : ad.val = x ∧ v = w := by simpa [Put.acc] using acc
    exact ad.isLt

/-- A word that writes an accumulator (acc_write of R116). -/
theorem accWrite_word {u : Agent} {srcs : List Nat} {legal : Nat → Bool} {s : State} (ad : Fin 4) (v : State → Nat → Int)
    (issues : ready u srcs s = true) (defined : legal (unitHart u) = true) (same : ∀ pe h, v (fetched pe s) h = v s h) :
    wordDoes u (fun h => Put.acc ad (v s h)) s (unitWord u [Op.plain legal srcs (fun s0 h t => accWrite h ad (v s0 h) t)] s) :=
  unitWord_put u (Op.plain legal srcs (fun s0 h t => accWrite h ad (v s0 h) t)) (fun s0 h => Put.acc ad (v s0 h))
    (fun s0 h => overflows (v s0 h)) s issues defined (Nat.zero_le 2) rfl rfl (fun s0 h t => accWrite_put h ad (v s0 h) t)
    (fun pe h => by rw [same]) (fun pe h => by rw [same]) fun h _ => accPut_ok h ad (v s h)

theorem accld_runs (u : Agent) (ad : Fin 4) (rs : Fin 32) (sh : Fin 64) (s : State) :
    wordRuns (.accld u ad rs sh) u [rs] (fun h => Put.acc ad (sxN (widthOf h) (readReg s h rs) * 2 ^ sh.val)) s := by
  intro wf issues
  have shifted (h : Nat) : Put.acc ad (sxN (widthOf h) (readReg s h rs) * ((2 ^ sh.val : Nat) : Int)) =
      Put.acc ad (sxN (widthOf h) (readReg s h rs) * 2 ^ sh.val) := by rw [Nat.cast_pow]; rfl
  exact ⟨_, rfl, wordDoes_congr shifted <|
    accWrite_word ad (fun s h => sxN (widthOf h) (readReg s h rs) * ((2 ^ sh.val : Nat) : Int)) issues (legalR_of_ok u [rs] wf)
      fun pe h => by simp only [readReg_fetched]⟩

theorem shaLeft_runs (u : Agent) (ad as : Fin 4) (sh : Fin 64) (s : State) :
    wordRuns (.sha u ad as false sh) u [] (fun h => Put.acc ad (getAcc s h as * 2 ^ sh.val)) s := by
  intro wf issues
  have shifted (h : Nat) : Put.acc ad (getAcc s h as * ((2 ^ sh.val : Nat) : Int)) = Put.acc ad (getAcc s h as * 2 ^ sh.val) := by
    rw [Nat.cast_pow]; rfl
  exact ⟨_, rfl, wordDoes_congr shifted <| accWrite_word ad (fun s h => getAcc s h as * ((2 ^ sh.val : Nat) : Int)) issues rfl
    fun pe h => by simp only [getAcc_fetched]⟩

/-- A right shift fits its accumulator, and writes no flag (R118). -/
theorem shaRight_runs (u : Agent) (ad as : Fin 4) (sh : Fin 64) (s : State) :
    wordRuns (.sha u ad as true sh) u [] (fun h => { acc := some (ad.val, sar (getAcc s h as) sh) }) s := by
  intro wf issues
  exact ⟨_, rfl, unitWord_put u (shaOp ad as true sh) (fun s0 h => { acc := some (ad.val, sar (getAcc s0 h as) sh) }) (fun _ _ => false) s
    issues rfl (Nat.zero_le 2) rfl rfl (fun _ _ _ => rfl) (fun pe h => by rw [getAcc_fetched]) (fun _ _ => rfl)
    fun h _ => macPut_ok .load ad 0 _ (by simp)⟩

theorem Put.ofRes_staOf (rd W : Nat) (a : Int) (sh : Nat) : Put.ofRes rd (staOf W a sh) = Put.stored rd W a sh := by
  have saturated : satI 24 (sar a sh) =
      if 0x7FFFFF < sar a sh then 0x7FFFFF else if sar a sh < -0x800000 then -0x800000 else sar a sh := satI_eq 24 (sar a sh)
  simp only [Put.ofRes, staOf, Put.stored, saturated]

theorem sta_runs (u : Agent) (rd : Fin 32) (as : Fin 4) (sh : Fin 64) (s : State) :
    wordRuns (.sta u rd as sh) u [] (fun h => Put.stored rd (widthOf h) (getAcc s h as) sh) s := by
  intro wf issues
  have write := legalWrite_of_ok u rd wf
  exact ⟨_, rfl, wordDoes_congr (fun h => Put.ofRes_staOf ..) <| unitWord_put u (staOp rd as sh)
    (fun s0 h => Put.ofRes rd (staOf (widthOf h) (getAcc s0 h as) sh)) (fun _ _ => true) s issues (legalRW_of_ok u [] rd rfl wf)
    (Nat.zero_le 2) rfl rfl (fun _ _ _ => rfl) (fun pe h => by rw [getAcc_fetched]) (fun _ _ => rfl)
    fun h here => putOk_one rfl ((legalWrite_harts u s rd h here).trans write) (fun off => absurd off (by decide)) rfl⟩

/-! Generators and NOP. -/

/-- What DICE gives and leaves, put to rd and the generator. -/
def Put.drawn (rd : Nat) (d : Nat × Nat) : HartPut := { regs := [(rd, d.1)], dice := some d.2 }

theorem dice_runs (u : Agent) (rd : Fin 32) (triangular : Bool) (s : State) :
    wordRuns (.dice u rd triangular) u [] (fun h => Put.drawn rd (diceOf (widthOf h) triangular (getDice s h))) s := by
  intro wf issues
  have write := legalWrite_of_ok u rd wf
  exact ⟨_, rfl, unitWord_put u (diceOp rd triangular) (fun s0 h => Put.drawn rd (diceOf (widthOf h) triangular (getDice s0 h)))
    (fun _ _ => false) s issues (legalRW_of_ok u [] rd rfl wf) (Nat.zero_le 2) rfl rfl (fun _ _ _ => rfl)
    (fun pe h => by rw [getDice_fetched]) (fun _ _ => rfl)
    fun h here => putOk_one rfl ((legalWrite_harts u s rd h here).trans write) (fun _ => rfl) rfl⟩

theorem nop_runs (u : Agent) (s : State) : wordRuns (.nop u) u [] (fun _ => {}) s := fun _ issues =>
  ⟨_, rfl, unitWord_put u nopOp (fun _ _ => {}) (fun _ _ => false) s issues rfl (Nat.zero_le 2) rfl rfl (fun _ _ _ => rfl)
    (fun _ _ => rfl) (fun _ _ => rfl) fun _ _ => ⟨fun _ he => (nomatch he), fun _ => rfl, fun _ _ acc => (nomatch acc)⟩⟩

/-- Settles O6: the products enter their accumulator as macPut says, and each other word has its own lemma. -/
theorem accumulatorsDiceAndNop : Obligations.AccumulatorsDiceAndNop := by
  refine ⟨fun u ad as rd rs rt sh s => ?_, fun u rd s => ?_⟩
  · exact ⟨macRegs_runs .add ad rfl rfl, macRegs_runs .sub ad rfl rfl, macRegs_runs .load ad rfl rfl, accld_runs u ad rs sh s,
      shaLeft_runs u ad as sh s, shaRight_runs u ad as sh s, sta_runs u rd as sh s⟩
  · exact ⟨dice_runs u rd false s, dice_runs u rd true s, nop_runs u s⟩

end Sys2Proof.Machine
end

section
/-! SUPPORT. Branches, and the words that move a core's pc (R72, R128). -/

namespace Sys2Proof.Machine

/-- t is s with core c's pc at v, and every other pc as it was. -/
structure PcAt (c : Nat) (v : Word) (s t : State) : Prop where
  frame : t = { s with core := { s.core with pc := t.core.pc } }
  pc : ∀ k, getPc t k = if k = c then v else getPc s k

namespace PcAt

variable {c : Nat} {v w : Word} {s t : State}

theorem set (c : Nat) (v : Word) (s : State) : PcAt c v s (setPc c v s) := ⟨rfl, fun _ => getPc_setPc ..⟩

/-- Of two writes of a pc the later stands. -/
theorem again (moved : PcAt c w s t) (v : Word) : PcAt c v s (setPc c v t) := by
  obtain ⟨frame, pc⟩ := moved
  refine ⟨?_, fun k => ?_⟩
  · rw [frame]; rfl
  · rw [getPc_setPc, pc]
    by_cases here : k = c <;> simp [here]

theorem here (moved : PcAt c v s t) : getPc t c = v := by rw [moved.pc, if_pos rfl]

theorem others (moved : PcAt c v s t) (k : Nat) (other : k ≠ c) : getPc t k = getPc s k := by rw [moved.pc, if_neg other]

theorem readReg (moved : PcAt c v s t) (h r : Nat) : readReg t h r = Machine.readReg s h r := by rw [moved.frame]; rfl

end PcAt

theorem writeReg_setPc (h r v c : Nat) (w : Word) (s : State) : writeReg h r v (setPc c w s) = setPc c w (writeReg h r v s) := by
  unfold writeReg
  split
  · split <;> rfl
  · split
    · rfl
    · split <;> rfl

section
variable {i : Instr} {c : Fin 16} {srcs : List Nat} {pc : Word} {s t : State}

/-- A word that moves the pc and writes no register. -/
theorem coreJumps_plain (does : coreReady c srcs s = true → exec i s = .next t) (moved : PcAt c pc s t) : coreJumps i c srcs pc {} s := by
  intro _ issues
  refine ⟨t, does issues, moved.here, moved.others, fun h r => ?_, ?_⟩
  · rw [moved.readReg]; exact (ite_self _).symm
  · rw [moved.frame]

/-- A word that moves the pc and writes a register. -/
theorem coreJumps_links {rd : Fin 32} {v : Nat} (does : coreReady c srcs s = true → exec i s = .next t)
    (moved : PcAt c pc (writeReg c rd v s) t) : coreJumps i c srcs pc (Put.plain rd v) s := by
  intro _ issues
  refine ⟨t, does issues, moved.here, fun k other => ?_, fun h r => ?_, ?_⟩
  · rw [moved.others k other, getPc_writeReg]
  · rw [moved.readReg]
    refine (writes_read c [(rd.val, v)] s h r (by simp [legalWrite])).trans ?_
    by_cases own : h = c.val
    · rw [if_pos own, if_pos own, own]; rfl
    · rw [if_neg own, if_neg own]
  · rw [moved.frame, writeReg_frame]

end

theorem bcond_moves (c : Fin 16) (k : Cond) (o : BitVec 21) (s : State) :
    PcAt c (if condOn s c k then getPc s c + BitVec.ofInt 32 (4 * sxN 21 o.toNat) else getPc s c + 4) s
      ((bcondOp k (.off o)).fx s c (setPc c (getPc s c + 4) s)) := by
  change PcAt c _ s (if condOn s c k then setPc c (getPc s c + BitVec.ofInt 32 (4 * sxN 21 o.toNat)) (setPc c (getPc s c + 4) s)
    else setPc c (getPc s c + 4) s)
  split
  · exact (PcAt.set ..).again _
  · exact .set ..

theorem getRrb_rot (c d v : Nat) (s : State) : getRrb (sysWrite c 1 v s) d = if d = c then v % 16 else getRrb s d := by
  simp only [getRrb, sysWrite, Store.get_set]
  split <;> simp

/-- Settles O13: each word moves the pc by setPc, after the link register has been written. -/
theorem branches : Obligations.Branches := by
  intro c k o far rd rs n s
  have word (op : Op) (srcs : List Nat) (ready : coreReady c srcs s = true) (same : op.srcs = srcs) (legal : op.legal c = true)
      (quiet : op.cacc s c = none) : unitWord (.core c) [op] s = op.fx s c (setPc c (getPc s c + 4) s) :=
    coreWord_plain c op s (same ▸ ready) legal quiet
  have core : decide (c.val < 16) = true := decide_eq_true c.isLt
  refine ⟨coreJumps_plain (fun ready => congrArg Host.Outcome.next (word (bcondOp k (.off o)) [] ready rfl core rfl)) (bcond_moves c k o s),
    coreJumps_links (rd := 15) (fun ready => congrArg Host.Outcome.next (word (blOp far) [] ready rfl core rfl)) ?_,
    coreJumps_links (fun ready => congrArg Host.Outcome.next (word (jrOp rd rs) [rs.val] ready rfl core rfl)) ?_,
    fun ready => ⟨_, congrArg Host.Outcome.next (word (rotOp n) [] ready rfl core rfl), ?_, fun d => ?_, fun d other => ?_, rfl⟩⟩
  · change PcAt c _ _ (setPc c _ (writeReg c 15 (getPc s c + 4).toNat (setPc c (getPc s c + 4) s)))
    rw [writeReg_setPc]
    exact (PcAt.set ..).again _
  · change PcAt c _ _ (setPc c _ (writeReg c rd (getPc s c + 4).toNat (setPc c (getPc s c + 4) s)))
    rw [writeReg_setPc]
    exact (PcAt.set ..).again _
  · exact (PcAt.set c (getPc s c + 4) s).here
  · exact getRrb_rot c d (getRrb s c + 16 - n.val) (setPc c (getPc s c + 4) s)
  · exact (PcAt.set c (getPc s c + 4) s).others d other

end Sys2Proof.Machine
end

section
/-! SUPPORT. The write buffer: what a store puts there (R102, R370). -/

namespace Sys2Proof.Machine

theorem length_bytesLE (n v : Nat) : (bytesLE n v).length = n := by
  induction n generalizing v with
  | zero => rfl
  | succ n ih => rw [bytesLE, List.length_cons, ih]

/-- The addresses of a run of bytes. -/
theorem any_addrBytes (a x : Nat) (l : List Byte) :
    (addrBytes a l).any (fun q => q.1 == x) = (decide (a ≤ x) && decide (x < a + l.length)) := by
  rw [Bool.eq_iff_iff]
  simp only [addrBytes, List.any_map, List.any_eq_true, Function.comp_apply, beq_iff_eq, Bool.and_eq_true, decide_eq_true_eq]
  constructor
  · rintro ⟨p, mem, rfl⟩
    have := (List.mem_zipIdx mem).2.1
    omega
  · rintro ⟨low, high⟩
    exact ⟨(l[x - a], x - a), List.mem_zipIdx_iff_getElem?.mpr (by simp), by omega⟩

/-- A run of bytes put over others takes the place of those in its range. -/
theorem overlayBytes_run (old : List (Nat × Byte)) (a n v : Nat) : overlayBytes old (addrBytes a (bytesLE n v)) =
    old.filter (fun p => !(decide (a ≤ p.1) && decide (p.1 < a + n))) ++ addrBytes a (bytesLE n v) := by
  simp only [overlayBytes, any_addrBytes, length_bytesLE]

theorem storeKind_eq (ea n : Nat) (sample : Bool) : storeKind ea n sample =
    if isCached (regionOf ea) then .cache
    else if isWordOnly (regionOf ea) = true ∧ (n ≠ 4 ∨ (sample = true ∧ regionOf ea = .regs)) then .deny else .bus := by
  unfold storeKind
  simp only [Bool.and_eq_true, Bool.or_eq_true, bne_iff_ne, beq_iff_eq, ne_eq]

/-- The write buffer after a store. -/
def wbufPutList (c a : Nat) (k : WKind) (l : List Byte) (b : List WEntry) : List WEntry :=
  if b.any (mergesWith c a k) then
    b.map (fun e => if mergesWith c a k e then { e with data := overlayBytes e.data (addrBytes a l) } else e)
  else b ++ [⟨c, if k = .deny || isRegs a then a else lineOf a, k, addrBytes a l⟩]

theorem wbufPut_eq (c a : Nat) (k : WKind) (l : List Byte) (s : State) :
    wbufPut c a k l s = { s with core := { s.core with wbuf := wbufPutList c a k l s.core.wbuf } } := by
  unfold wbufPut wbufPutList
  split <;> rfl

/-- A store takes an entry of its core's buffer, but for one that merges. -/
theorem length_wbufOf_put (c a : Nat) (k : WKind) (l : List Byte) (s : State) : (wbufOf (wbufPut c a k l s) c).length =
    (wbufOf s c).length + (if s.core.wbuf.any (mergesWith c a k) then 0 else 1) := by
  rw [wbufPut_eq]
  unfold wbufOf wbufPutList
  split
  · rw [List.filter_map, List.length_map]
    have core : ((fun e : WEntry => e.core == c) ∘ fun e => if mergesWith c a k e then { e with data := overlayBytes e.data (addrBytes a l) } else e) =
        fun e => e.core == c := by
      funext e
      simp only [Function.comp_apply]
      split <;> rfl
    rw [core, Nat.add_zero]
  · simp

end Sys2Proof.Machine
end

section
/-! SUPPORT. The stores of a core (R102, R121, R122, R370). -/

namespace Sys2Proof.Machine

/-- An operation that is a core's store of the n low bytes of v at ea, and nothing more. -/
structure IsStore (op : Op) (c : Fin 16) (srcs : List Nat) (ea n v : Nat) (sample : Bool) (s : State) : Prop where
  legal : op.legal c = true
  srcs : op.srcs = srcs
  access : op.cacc s c = some (.store ea n v sample)
  fx : ∀ a b, op.fx a c b = b

section
variable {op : Op} {c : Fin 16} {srcs : List Nat} {ea n v : Nat} {sample : Bool} {s : State}

theorem accTrap_store : accTrap s (.store ea n v sample) = if ea % n ≠ 0 then some .align else none := rfl

/-- A store's word traps where it is misaligned, waits while the buffer has no room, and else joins the buffer. -/
theorem coreWord_store (store : IsStore op c srcs ea n v sample s) (issues : coreReady c srcs s = true) :
    coreWord c [op] s =
      if ea % n ≠ 0 then trapEnter c .align 0 (getPc s c) s
      else if 8 < (wbufOf (wbufPut c ea (storeKind ea n sample) (bytesLE n v) s) c).length then s
      else wbufPut c ea (storeKind ea n sample) (bytesLE n v) (setPc c (getPc s c + 4) s) := by
  obtain ⟨legal, same, access, fx⟩ := store
  have accs : [op].filterMap (fun o => o.cacc s c) = [.store ea n v sample] := by simp [access]
  have direct : [CoreAcc.store ea n v sample].filter CoreAcc.direct = [] := rfl
  have waits : accsWait s c [.store ea n v sample] =
      decide (8 < (wbufOf (wbufPut c ea (storeKind ea n sample) (bytesLE n v) s) c).length) := by
    simp only [accsWait, newLoads, CoreAcc.direct, CoreAcc.isLoad, List.any_cons, List.any_nil, List.filterMap_cons, List.filterMap_nil,
      List.isEmpty_nil, Bool.false_and, Bool.not_true, Bool.not_false, Bool.or_false, Bool.false_or, Bool.true_and]
    rfl
  rw [coreWord_ready (same ▸ issues) legal]
  simp only [accs, direct, List.findSome?_cons, List.findSome?_nil, accTrap_store]
  by_cases misaligned : ea % n ≠ 0
  · rw [if_pos misaligned, if_pos misaligned]
  · rw [if_neg misaligned, if_neg misaligned]
    simp only [waits, decide_eq_true_eq, findLoads, List.foldl_nil, coreOps, access, fx, wbufAfter, List.foldl_cons]

/-- The clauses of a core's store hold of an instruction whose word is that store. -/
theorem coreStores_of {i : Instr} (does : exec i s = .next (coreWord c [op] s)) (store : IsStore op c srcs ea n v sample s) :
    coreStores i c srcs ea n v sample s := by
  unfold coreStores
  intro r k alone merges bytes level _ issues
  have kind : storeKind ea n sample = k := storeKind_eq ..
  have lone : (decide (k = .deny) || isRegs ea) = alone := (Bool.or_assoc ..).symm
  have merging : mergesWith c ea k = merges := by
    funext e
    simp only [mergesWith, merges, ← lone, Bool.not_or, Bool.and_assoc]; rfl
  have put (b : List WEntry) : wbufPutList c ea k (bytesLE n v) b = if b.any merges then
        b.map (fun e => if merges e then { e with data := e.data.filter (fun p => !(decide (ea ≤ p.1) && decide (p.1 < ea + n))) ++ bytes } else e)
      else b ++ [⟨c, if alone then ea else ea / 64 * 64, k, bytes⟩] := by
    simp only [wbufPutList, merging, overlayBytes_run, lone]; rfl
  have full : (wbufOf (wbufPut c ea k (bytesLE n v) s) c).length = level := by rw [length_wbufOf_put, merging]
  have word := coreWord_store store issues
  rw [kind, full] at word
  refine ⟨fun misaligned => ⟨_, does, ?_⟩, fun aligned room => ⟨_, does, ?_⟩, fun aligned beyond => ?_⟩
  · rw [word, if_pos misaligned]
    exact trapEnter_taken c .align 0 (getPc s c) s (by decide) rfl
  · have moved := PcAt.set c (getPc s c + 4) s
    rw [word, if_neg (not_not.mpr aligned), if_neg (Nat.not_lt.mpr room), wbufPut_eq]
    exact ⟨moved.here, moved.others, put _, rfl⟩
  · rw [does, word, if_neg (not_not.mpr aligned), if_pos beyond]

end

/-- The stores of format I with a register base are that store and nothing more. -/
theorem storeOp_isStore (c : Fin 16) (k : LoadKind) (rd rs : Fin 32) (imm : BitVec 15) (s : State) :
    IsStore (storeOp k rd rs imm) c [rs.val, rd.val] (coreAt s c rs (sxN 15 imm.toNat)) (loadSize k) (storeValue c k (readReg s c rd)) false s :=
  ⟨by simp [storeOp, legalRW, legalRead], rfl,
    congrArg (fun a => some (CoreAcc.store a (loadSize k) (storeValue c k (readReg s c rd)) false)) (eaCore_eq ..),
    fun _ _ => if_pos c.isLt⟩

theorem stxOp_isStore (c : Fin 16) (rd rs : Fin 32) (imm : BitVec 15) (s : State) :
    IsStore (stxOp rd (.base rs imm)) c [rs.val, rd.val] (coreAt s c rs (sxN 15 imm.toNat)) 4 (toU 32 (sxN 24 (readReg s c rd))) true s :=
  ⟨by simp [stxOp], rfl, congrArg (fun a => some (CoreAcc.store a 4 (toU 32 (sxN 24 (readReg s c rd))) true)) (eaCore_eq ..), fun _ _ => rfl⟩

/-- Settles O12: each store is the word of one store operation, and that word's clauses are those of the store. -/
theorem coreStores_hold : Obligations.CoreStores := by
  intro c rd rs imm s ea v
  have whole : storeValue c .word v = v := if_pos c.isLt
  have word := storeOp_isStore c .word rd rs imm s
  rw [whole] at word
  exact ⟨coreStores_of rfl word, coreStores_of rfl (storeOp_isStore c .half rd rs imm s),
    coreStores_of rfl (storeOp_isStore c .byte rd rs imm s), coreStores_of rfl (stxOp_isStore c rd rs imm s)⟩

end Sys2Proof.Machine
end

section
/-! SUPPORT. FENCE, CLEAN and INVAL (R133, R134). -/

namespace Sys2Proof.Machine

/-! FENCE. -/

/-- FENCE of an engine puts nothing to its lanes. -/
theorem fence_lanes (pe : Fin 72) (s : State) : wordRuns (.fence (.eng pe)) (.eng pe) [] (fun _ => {}) s := by
  intro _ issues
  let idle : OpPut := ⟨fenceOp, fun _ => {}, fun _ => false, fun _ => []⟩
  have sound : idle.Sound (.eng pe) s :=
    ⟨fun h lane t => if_neg (Nat.not_lt.mpr (harts_lane pe s h lane)),
      fun h _ => ⟨fun _ he => (nomatch he), fun _ => rfl, fun _ _ acc => (nomatch acc)⟩, rfl, fun _ _ => rfl, fun _ _ _ _ => rfl⟩
  obtain ⟨reg, stat, acc, dice, goes⟩ := unitWord_puts (.eng pe) [idle] s [] issues (by simp [idle, fenceOp, Op.plain]) (by simpa using sound)
    fun _ _ => ⟨by simp [idle, fenceOp, Op.plain], by simp [idle, cleanReach]⟩
  exact ⟨_, rfl, reg, stat, acc, dice, goes⟩

/-! Lines that a CLEAN writes back. -/

/-- The stores of some lines, as they enter a write buffer. -/
def linesPut (c : Nat) (l : List Line) (b : List WEntry) : List WEntry := l.foldl (fun b x => wbufPutList c x.addr .bus x.data b) b

theorem wbuf_linesPut (c : Nat) (l : List Line) (s : State) :
    (l.foldl (fun u x => wbufPut c x.addr .bus x.data u) s).core.wbuf = linesPut c l s.core.wbuf := by
  induction l generalizing s with
  | nil => rfl
  | cons x l ih => rw [List.foldl_cons, ih, wbufPut_eq]; rfl

/-- A line of core c that has been written back is clean. -/
def cleaned (c : Nat) (done : List Line) (x : Line) : Line :=
  if done.any (fun l => x.core == c && x.addr == l.addr) then { x with dirty := false } else x

theorem cleaned_cons (c : Nat) (l : Line) (done : List Line) (x : Line) :
    cleaned c done (if x.core = c ∧ x.addr = l.addr then { x with dirty := false } else x) = cleaned c (l :: done) x := by
  by_cases same : x.core = c ∧ x.addr = l.addr
  · obtain ⟨core, addr⟩ := same
    simp [cleaned, core, addr]
  · have other : (x.core == c && x.addr == l.addr) = false := by simpa using same
    simp only [if_neg same, cleaned, List.any_cons, other, Bool.false_or]

/-- Whether CLEAN of [a, e) writes a line back. -/
def writesBack (c a e : Nat) (l : Line) : Bool := lineIn l c a e && l.dirty

/-- CLEAN of one line. -/
def cleanLine (c a e : Nat) (t : State) (l : Line) : State :=
  if writesBack c a e l && wbufRoom t c l.addr .bus then
    { wbufPut c l.addr .bus l.data t with core := { (wbufPut c l.addr .bus l.data t).core with
        dcache := t.core.dcache.map (fun x => if x.core = c ∧ x.addr = l.addr then { x with dirty := false } else x) } }
  else t

theorem cleanLines_eq (c a e : Nat) (s : State) : cleanLines c a e s = s.core.dcache.foldl (cleanLine c a e) s := by
  unfold cleanLines cleanLine
  simp only [wbufPut_eq]; rfl

/-- With room for all of them the dirty lines of the range are written back, and are clean. -/
theorem cleanLine_fold (c a e : Nat) (l : List Line) (t : State) (room : (wbufOf t c).length + (l.filter (writesBack c a e)).length ≤ 8) :
    l.foldl (cleanLine c a e) t = { t with core := { t.core with
      dcache := t.core.dcache.map (cleaned c (l.filter (writesBack c a e))),
      wbuf := linesPut c (l.filter (writesBack c a e)) t.core.wbuf } } := by
  induction l generalizing t with
  | nil =>
    have same : t.core.dcache.map (cleaned c []) = t.core.dcache := List.map_id' _
    simp only [List.foldl_nil, List.filter_nil, same]; rfl
  | cons x l ih =>
    rw [List.foldl_cons]
    by_cases back : writesBack c a e x = true
    · rw [List.filter_cons_of_pos back] at room ⊢
      rw [List.length_cons] at room
      have fits : wbufRoom t c x.addr .bus = true := Bool.or_eq_true_iff.mpr (.inr (decide_eq_true (by omega)))
      have grown := length_wbufOf_put c x.addr .bus x.data t
      have first : cleanLine c a e t x = { t with core := { t.core with
          wbuf := wbufPutList c x.addr .bus x.data t.core.wbuf,
          dcache := t.core.dcache.map (fun y => if y.core = c ∧ y.addr = x.addr then { y with dirty := false } else y) } } := by
        rw [cleanLine, if_pos (by rw [back, fits]; rfl), wbufPut_eq]
      have less : (wbufOf (cleanLine c a e t x) c).length ≤ (wbufOf t c).length + 1 := by
        rw [wbufPut_eq] at grown
        rw [first]
        refine Nat.le_trans (Nat.le_of_eq grown) (Nat.add_le_add_left ?_ _)
        split <;> decide
      rw [ih _ (by omega), first]
      simp only [List.map_map, Function.comp_def, cleaned_cons]; rfl
    · rw [List.filter_cons_of_neg back] at room ⊢
      have kept : cleanLine c a e t x = t := by
        rw [cleanLine, if_neg fun both => back (Bool.and_eq_true_iff.mp both).1]
      rw [kept, ih t room]

/-- The lines of the range stand clean, and the others as they stood. -/
theorem cleaned_range (c a e : Nat) (cache : List Line) : cache.map (cleaned c (cache.filter (writesBack c a e))) =
    cache.map (fun l => if lineIn l c a e then { l with dirty := false } else l) := by
  refine List.map_congr_left fun x mem => ?_
  have spread {l : Line} (core : x.core = c) (addr : x.addr = l.addr) (hit : lineIn l c a e = true) : lineIn x c a e = true := by
    simp only [lineIn, Bool.and_eq_true, beq_iff_eq] at hit ⊢
    obtain ⟨⟨⟨-, low⟩, high⟩, some⟩ := hit
    exact ⟨⟨⟨core, by rw [addr]; exact low⟩, by rw [addr]; exact high⟩, some⟩
  have inside : (cache.filter (writesBack c a e)).any (fun l => x.core == c && x.addr == l.addr) = true → lineIn x c a e = true := by
    simp only [List.any_eq_true, List.mem_filter, Bool.and_eq_true, beq_iff_eq, writesBack]
    rintro ⟨l, ⟨-, hit, -⟩, core, addr⟩
    exact spread core addr hit
  unfold cleaned
  by_cases hit : lineIn x c a e = true
  · rw [if_pos hit]
    split
    · rfl
    · next missed =>
      have clean : x.dirty = false := by
        by_contra dirty
        have core : x.core = c := by simp only [lineIn, Bool.and_eq_true, beq_iff_eq] at hit; exact hit.1.1.1
        refine missed (List.any_eq_true.mpr ⟨x, List.mem_filter.mpr ⟨mem, ?_⟩, by simp [core]⟩)
        exact Bool.and_eq_true_iff.mpr ⟨hit, by simpa using dirty⟩
      rw [← clean]
  · rw [if_neg hit, if_neg fun hits => hit (inside hits)]

/-- No line of a cleaned range is dirty. -/
theorem cleaned_none (c a e : Nat) (cache : List Line) :
    (cache.map (fun l => if lineIn l c a e then { l with dirty := false } else l)).any (fun l => lineIn l c a e && l.dirty) = false := by
  rw [List.any_map, List.any_eq_false]
  intro l _
  simp only [Function.comp_apply]
  by_cases hit : lineIn l c a e = true
  · simp [hit]
  · simp [hit]

/-! The words. -/

/-- A word that CLEAN and INVAL wait for (R134). -/
theorem cacheWaits_iff (s : State) (c a e : Nat) : cacheWaits s c a e = true ↔
    8 ≤ (wbufOf s c).length ∨ ∃ x ∈ wbufOf s c, x.kind = .cache ∧ x.addr < e ∧ a < x.addr + 64 ∧ a < e := by
  simp only [cacheWaits, Bool.or_eq_true, decide_eq_true_eq, List.any_eq_true, Bool.and_eq_true, beq_iff_eq, and_assoc]

/-- Settles O20: each word is one operation on the state whose pc has moved on; one that waits sets the pc back. -/
theorem fencesAndCaches : Obligations.FencesAndCaches := by
  intro c u rs rt s a e inRange todo waits stays goes
  have core : decide (c.val < 16) = true := decide_eq_true c.isLt
  have moved := PcAt.set c (getPc s c + 4) s
  have back := moved.again (getPc s c)
  have stood : stays (setPc c (getPc s c) (setPc c (getPc s c + 4) s)) := by
    refine ⟨fun k => ?_, back.frame⟩
    rw [back.pc]
    by_cases own : k = c.val <;> simp [own]
  have word (op : Op) (srcs : List Nat) (ready : coreReady c srcs s = true) (same : op.srcs = srcs) (legal : op.legal c = true)
      (quiet : op.cacc s c = none) : unitWord (.core c) [op] s = op.fx s c (setPc c (getPc s c + 4) s) :=
    coreWord_plain c op s (same ▸ ready) legal quiet
  have waitsIff : cacheWaits s c a e = true ↔ waits := cacheWaits_iff s c a e
  have clean (ready : coreReady c [rs.val, rt.val] s = true) := word (cleanOp rs rt) _ ready rfl core rfl
  have inval (ready : coreReady c [rs.val, rt.val] s = true) := word (invalOp rs rt) _ ready rfl core rfl
  refine ⟨fun ready => ?_, fun lanes => ?_, fun empty => ?_, fun some => ?_, fun ready wait => ⟨?_, ?_⟩, fun ready free room => ?_,
    fun ready free => ?_⟩
  · have fenced : fenceOp.fx s c (setPc c (getPc s c + 4) s) = _ := if_pos c.isLt
    exact ⟨_, congrArg Host.Outcome.next ((word fenceOp [] ready rfl rfl rfl).trans fenced), moved.pc, rfl⟩
  · cases u with
    | core d => exact nomatch lanes
    | eng pe => exact fence_lanes pe s
  · exact ⟨_, if_pos (by rw [empty]; rfl), rfl⟩
  · exact if_neg (by simpa using some)
  · exact ⟨_, congrArg Host.Outcome.next ((clean ready).trans (if_pos (waitsIff.mpr wait))), stood⟩
  · exact ⟨_, congrArg Host.Outcome.next ((inval ready).trans (if_pos (waitsIff.mpr wait))), stood⟩
  · have done : cleanLines c a e (setPc c (getPc s c + 4) s) = _ :=
      (cleanLines_eq c a e _).trans (cleanLine_fold c a e s.core.dcache (setPc c (getPc s c + 4) s) room)
    rw [show (setPc c (getPc s c + 4) s).core.dcache = s.core.dcache from rfl, cleaned_range] at done
    have all : (cleanLines c a e (setPc c (getPc s c + 4) s)).core.dcache.any (fun l => lineIn l c a e && l.dirty) = false := by
      rw [done]; exact cleaned_none c a e s.core.dcache
    have fx : (cleanOp rs rt).fx s c (setPc c (getPc s c + 4) s) = cleanLines c a e (setPc c (getPc s c + 4) s) :=
      (if_neg fun held => free (waitsIff.mp held)).trans (if_neg fun dirty => Bool.false_ne_true (all.symm.trans dirty))
    refine ⟨_, congrArg Host.Outcome.next ((clean ready).trans (fx.trans done)), moved.pc, rfl, ?_, rfl⟩
    rw [wbuf_linesPut]; rfl
  · exact ⟨_, congrArg Host.Outcome.next ((inval ready).trans (if_neg fun held => free (waitsIff.mp held))), moved.pc, rfl⟩

end Sys2Proof.Machine
end

section
/-! SUPPORT. The last write of a fold stands. -/

namespace Sys2Proof.Machine

/-- What a fold of writes leaves for one reader: the value of the last write that reaches it. keeps is what every write keeps. -/
theorem foldl_lastWrite {σ α β : Type} {f : σ → α → σ} {read : σ → β} {hits : α → Bool} {val : α → β} (l : List α) (keeps : σ → Prop)
    (kept : ∀ p ∈ l, ∀ s, keeps s → keeps (f s p)) (reads : ∀ p ∈ l, ∀ s, keeps s → read (f s p) = if hits p then val p else read s)
    (s : σ) (start : keeps s) :
    keeps (l.foldl f s) ∧ read (l.foldl f s) = (l.reverse.find? hits).elim (read s) val := by
  induction l using List.reverseRecOn with
  | nil => exact ⟨start, rfl⟩
  | append_singleton l p ih =>
    obtain ⟨ihKept, ihRead⟩ := ih (fun q hq => kept q (List.mem_append_left _ hq)) fun q hq => reads q (List.mem_append_left _ hq)
    have last : p ∈ l ++ [p] := by simp
    rw [List.foldl_append, List.reverse_append, List.foldl_cons, List.foldl_nil]
    refine ⟨kept p last _ ihKept, ?_⟩
    rw [reads p last _ ihKept, List.reverse_singleton, List.singleton_append, List.find?_cons]
    cases hits p with
    | true => rfl
    | false => exact ihRead

end Sys2Proof.Machine
end

section
/-! SUPPORT. The oldest entry of a write buffer leaves (R102, R303, R307). -/

namespace Sys2Proof.Machine

/-! Bytes of memory. -/

theorem getByte_putBytes (l : List (Nat × Byte)) (s : State) (x : Nat) : getByte (putBytes l s) x =
    (l.reverse.find? fun p => primary p.1 == x).elim (getByte s x) fun p => p.2 :=
  (foldl_lastWrite (f := fun t (p : Nat × Byte) => setByte t (primary p.1) p.2) (read := fun t => getByte t x)
    (hits := fun p => primary p.1 == x) (val := fun p => p.2) l (fun _ => True) (fun _ _ _ _ => trivial)
    (fun p _ t _ => by simp only [getByte_setByte, beq_iff_eq, eq_comm (a := x)]) s trivial).2

theorem takesWrites_byteMem {a : Nat} (memory : isByteMem (regionOf a) = true) : takesWrites a = true ∧
    isWordOnly (regionOf a) = false := by
  unfold takesWrites
  cases h : regionOf a <;> simp [h, isByteMem, isWordOnly] at memory ⊢

/-- A core's write of bytes of a memory that is awake stores them. -/
theorem busPut_byteMem (c : Fin 16) {l : List (Nat × Byte)} {a : Nat} {b : Byte} {t : List (Nat × Byte)} {s : State} (run : l = (a, b) :: t)
    (memory : isByteMem (regionOf a) = true) (free : barred (.core c) a l.length s = false) (on : domainOn s (domainAt a) = true)
    (idle : inRequest s (domainAt a) = false) : busPut (.core c) l s = (.ok [], putBytes l (touch (domainAt a) s)) := by
  obtain ⟨takes, bytes⟩ := takesWrites_byteMem memory
  have awake : accessWake (.core c) (domainAt a) s = s := accessWake_still _ _ s on (by simp [still, idle, accessSource])
  subst run
  rw [List.length_cons] at free
  simp [busPut, takes, bytes, free, awake, on, tokFull]

/-- A write where no write is taken is answered with a bus error. -/
theorem busPut_refused (who : Initiator) (a : Nat) (b : Byte) (t : List (Nat × Byte)) (s : State) (refused : takesWrites a = false) :
    busPut who ((a, b) :: t) s = (.err, s) := if_pos (by rw [refused]; rfl)

/-! The entry that leaves. -/

theorem takeFirst_filter {α : Type} {p : α → Bool} {l : List α} {x : α} {rest : List α} (taken : takeFirst p l = some (x, rest)) :
    l.filter p = x :: rest.filter p := by
  induction l generalizing rest with
  | nil => exact nomatch taken
  | cons y l ih =>
    unfold takeFirst at taken
    by_cases hit : p y = true
    · rw [if_pos hit] at taken
      cases taken
      exact List.filter_cons_of_pos hit
    · rw [if_neg hit, Option.map_eq_some_iff] at taken
      obtain ⟨⟨x', rest'⟩, inner, same⟩ := taken
      cases same
      rw [List.filter_cons_of_neg hit, List.filter_cons_of_neg hit, ih inner]

/-- The state without the entry that has left. -/
def entryGone (rest : List WEntry) (t : State) : State := { t with core := { t.core with wbuf := rest } }

section
variable {c : Fin 16} {e : WEntry} {rest : List WEntry} {s : State}
variable (taken : takeFirst (fun e : WEntry => e.core == c.val) s.core.wbuf = some (e, rest))
include taken

theorem drainOne_deny (kind : e.kind = .deny) : drainOne c s = ((e.data.head?).map (fun p => p.1), entryGone rest s) := by
  simp only [drainOne, taken, kind]; rfl

theorem drainOne_cache (kind : e.kind = .cache) (ready : lineAt s c e.addr = none → domainOn s (domainAt e.addr) = true) :
    drainOne c s = (none, (drainCache c e (entryGone rest (if (lineAt s c.val e.addr).isNone then touch (domainAt e.addr) s else s))).getD s) := by
  simp only [drainOne, taken, kind]
  rw [if_neg (by simpa using ready)]; rfl

theorem drainOne_asleep (kind : e.kind = .cache) (absent : lineAt s c e.addr = none) (off : domainOn s (domainAt e.addr) = false) :
    drainOne c s = (none, demandWake (.core c) (domainAt e.addr) s) := by
  simp only [drainOne, taken, kind]
  exact if_pos (by simp [absent, off])

theorem drainOne_behind (kind : e.kind = .bus) (behind : behindLoad s c e = true) : drainOne c s = (none, s) := by
  simp only [drainOne, taken, kind, behind, if_true]

/-- An entry of one access leaves when the access is answered. -/
theorem drainOne_bus (kind : e.kind = .bus) (ahead : behindLoad s c e = false) (one : e.accesses = [e.data]) {u : State} {ans : Ans}
    (answer : busWrite (.core c) e.data s = (ans, u)) (answered : ans ≠ .wait) :
    drainOne c s = (if ans = .err then (e.data.head?).map (fun p => p.1) else none, entryGone rest u) := by
  simp only [drainOne, taken, kind, ahead, one, drainBus, answer, Bool.false_eq_true, if_false]
  cases ans with
  | wait => exact absurd rfl answered
  | ok _ => rfl
  | err => rfl

/-- An entry that leaves for its line hides no byte of memory. -/
theorem byteSeen_gone (kind : e.kind ≠ .bus) {t : State} (mem : t.mem = s.mem) (x : Nat) :
    byteSeen (entryGone rest t) c x = byteSeen s c x := by
  have own : wbufOf s c = e :: wbufOf (entryGone rest t) c := takeFirst_filter taken
  have same : ownByte s c .bus x = ownByte (entryGone rest t) c .bus x := by
    unfold ownByte
    rw [own, List.reverse_cons, List.findSome?_append, List.findSome?_singleton, if_neg kind, Option.or_none]
  unfold byteSeen
  rw [same]
  exact congrArg (fun m => (ownByte (entryGone rest t) c .bus x).getD (Store.get zeroOf m (primary x))) mem

end

theorem drainStep_none {c : Fin 16} {s t : State} (h : drainOne c s = (none, t)) : drainStep c s = t := by rw [drainStep, h]

theorem drainStep_some {c : Fin 16} {s t : State} {a : Nat} (h : drainOne c s = (some a, t)) : drainStep c s = storeError c a t := by
  rw [drainStep, h]

theorem storeErrorStep_some {c : Fin 16} {s t : State} {a : Nat} (h : drainOne c s = (some a, t)) :
    storeErrorStep c s = storeError c a t := by rw [storeErrorStep, h]

theorem storeErrorStep_none {c : Fin 16} {s t : State} (h : drainOne c s = (none, t)) : storeErrorStep c s = s := by
  rw [storeErrorStep, h]

theorem raise_werr (s : State) : (raise Ev.CORE_WERR s).bit .EVT_RAW_w 2 0 = true := by
  have raised := raise_bit s Ev.CORE_WERR
  rw [show Ev.CORE_WERR / 32 = 2 by decide, show Ev.CORE_WERR % 32 = 0 by decide] at raised
  exact raised

/-- A core's first store error is recorded in WERR and raises its event (R307). -/
theorem storeError_first {c : Nat} (a : Nat) {s : State} (unset : s.bit .SCHED_CORE_n_STAT c 22 = false) :
    (storeError c a s).bit .SCHED_CORE_n_STAT c 22 = true ∧ (storeError c a s).reg .SCHED_CORE_n_WERR c = BitVec.ofNat 32 a ∧
      (storeError c a s).bit .EVT_RAW_w 2 0 = true := by
  have fresh : storeError c a s = _ := if_neg (by rw [unset]; decide)
  rw [fresh]
  refine ⟨?_, ?_, raise_werr _⟩
  · unfold State.bit
    rw [reg_raise, if_neg (by simp)]
    exact bit_setBit_same _ _ _ 22 true (by decide)
  · rw [reg_raise, if_neg (by simp), reg_setBit, if_neg (by simp), reg_setReg_same]

theorem storeError_again {c : Nat} (a : Nat) {s : State} (set : s.bit .SCHED_CORE_n_STAT c 22 = true) : storeError c a s = s := if_pos set

theorem storeError_regsOnly (c a : Nat) (s : State) : RegsOnly s (storeError c a s) := by
  cases set : s.bit .SCHED_CORE_n_STAT c 22 with
  | true => rw [storeError_again a set]; exact .refl s
  | false =>
    have fresh : storeError c a s = _ := if_neg (by rw [set]; decide)
    rw [fresh]
    exact ((RegsOnly.setReg _ _ _ _).trans (.setBit _ _ _ _ _)).trans (.setBit _ _ _ _ _)

/-! The line of a cached store. -/

/-- A line of a cache after a byte that core c stores. -/
def byteWritten (c : Nat) (x : Line) (p : Nat × Byte) : Line :=
  if x.core = c ∧ x.addr = lineOf p.1 then
    { x with data := x.data.take (p.1 - x.addr) ++ [p.2] ++ x.data.drop (p.1 - x.addr + 1), dirty := true }
  else x

theorem byteWritten_place (c : Nat) (x : Line) (p : Nat × Byte) : (byteWritten c x p).core = x.core ∧ (byteWritten c x p).addr = x.addr := by
  unfold byteWritten; split <;> exact ⟨rfl, rfl⟩

/-- A line of a cache after the bytes of a store of core c. -/
def lineWritten (c : Nat) (l : List (Nat × Byte)) (x : Line) : Line := l.foldl (byteWritten c) x

theorem lineWritten_place (c : Nat) (l : List (Nat × Byte)) (x : Line) :
    (lineWritten c l x).core = x.core ∧ (lineWritten c l x).addr = x.addr := by
  induction l generalizing x with
  | nil => exact ⟨rfl, rfl⟩
  | cons p l ih =>
    obtain ⟨core, addr⟩ := ih (byteWritten c x p)
    exact ⟨core.trans (byteWritten_place c x p).1, addr.trans (byteWritten_place c x p).2⟩

/-- Another line stays as it is. -/
theorem lineWritten_other {c k : Nat} {l : List (Nat × Byte)} (inLine : ∀ p ∈ l, lineOf p.1 = k) {x : Line} (other : ¬ (x.core = c ∧ x.addr = k)) :
    lineWritten c l x = x := by
  induction l with
  | nil => rfl
  | cons p l ih =>
    unfold lineWritten
    rw [List.foldl_cons, byteWritten, inLine p List.mem_cons_self, if_neg other]
    exact ih fun q hq => inLine q (List.mem_cons_of_mem _ hq)

/-- The line itself takes the last byte stored at each place. -/
theorem lineWritten_data {c k : Nat} {l : List (Nat × Byte)} (inLine : ∀ p ∈ l, lineOf p.1 = k) {x : Line} (core : x.core = c) (addr : x.addr = k)
    (full : x.data.length = 64) (j : Fin 64) : (lineWritten c l x).data.getD j 0 =
      match l.reverse.find? (fun p => p.1 == k + j.val) with | some p => p.2 | none => x.data.getD j 0 := by
  refine Eq.trans (foldl_lastWrite (f := byteWritten c) (read := fun x : Line => x.data.getD j 0) (hits := fun p => p.1 == k + j.val)
    (val := fun p => p.2) l (fun x => x.core = c ∧ x.addr = k ∧ x.data.length = 64) (fun p hp x ⟨core, addr, full⟩ => ?_)
    (fun p hp x ⟨core, addr, full⟩ => ?_) x ⟨core, addr, full⟩).2 (by cases l.reverse.find? (fun p => p.1 == k + j.val) <;> rfl)
  all_goals
    have place : k ≤ p.1 ∧ p.1 < k + 64 := by have := inLine p hp; unfold lineOf at this; omega
    have put : x.data.take (p.1 - k) ++ [p.2] ++ x.data.drop (p.1 - k + 1) = x.data.set (p.1 - k) p.2 := by
      rw [List.set_eq_take_append_cons_drop, if_pos (by omega), List.append_assoc, List.singleton_append]
    rw [byteWritten, inLine p hp, if_pos ⟨core, addr⟩, addr, put]
  · exact ⟨core, rfl, by rw [List.length_set, full]⟩
  · show (x.data.set (p.1 - k) p.2).getD j 0 = _
    have within : p.1 - k < x.data.length := by omega
    rw [List.getD_eq_getElem?_getD, List.getElem?_set, if_pos within]
    by_cases hit : p.1 = k + j.val
    · rw [if_pos (by omega), if_pos (by simpa using hit)]; rfl
    · rw [if_neg (by omega), if_neg (by simpa using hit), List.getD_eq_getElem?_getD]

theorem lineWritten_dirty {c k : Nat} {l : List (Nat × Byte)} (inLine : ∀ p ∈ l, lineOf p.1 = k) {x : Line} (core : x.core = c) (addr : x.addr = k)
    (some : l ≠ [] ∨ x.dirty = true) : (lineWritten c l x).dirty = true := by
  induction l generalizing x with
  | nil => exact some.resolve_left fun no => no rfl
  | cons p l ih =>
    unfold lineWritten
    rw [List.foldl_cons, byteWritten, inLine p List.mem_cons_self, if_pos ⟨core, addr⟩]
    exact ih (fun q hq => inLine q (List.mem_cons_of_mem _ hq)) core addr (.inr rfl)

theorem writeLines_eq (c : Nat) (l : List (Nat × Byte)) (s : State) : l.foldl (fun u p => writeLine c p.1 [p.2] u) s =
    { s with core := { s.core with dcache := s.core.dcache.map (lineWritten c l) } } := by
  induction l generalizing s with
  | nil => simp only [List.foldl_nil, show lineWritten c [] = id from rfl, List.map_id]
  | cons p l ih =>
    rw [List.foldl_cons, ih]
    simp only [writeLine, List.map_map]
    rfl

/-- The loads that waited for a line take their values, and nothing else changes. -/
theorem lineArrives_parts {c a : Nat} {s : State} {line : Line} (held : lineAt s c a = some line) :
    ∃ r, lineArrives c a s = { s with hart := { s.hart with r := r }, core := { s.core with pend := s.core.pend.filter fun l => !waitsFor c a l } } ∧
      (s.core.pend.any (waitsFor c a) = false → r = s.hart.r) := by
  have arrives : lineArrives c a s = { (s.core.pend.filter (waitsFor c a)).foldl
      (fun t l => deliverLoad l (lineBytes line l.addr (loadSize l.kind)) t) s with core := { ((s.core.pend.filter (waitsFor c a)).foldl
      (fun t l => deliverLoad l (lineBytes line l.addr (loadSize l.kind)) t) s).core with
        pend := s.core.pend.filter fun l => !waitsFor c a l } } := by rw [lineArrives, held]
  have frame (l : List PendLoad) (t : State) : ∃ r, l.foldl (fun t l => deliverLoad l (lineBytes line l.addr (loadSize l.kind)) t) t =
      { t with hart := { t.hart with r := r } } := by
    induction l generalizing t with
    | nil => exact ⟨t.hart.r, rfl⟩
    | cons x l ih =>
      obtain ⟨r, rest⟩ := ih (deliverLoad x (lineBytes line x.addr (loadSize x.kind)) t)
      rw [List.foldl_cons, rest]
      unfold deliverLoad
      split
      · exact ⟨r, rfl⟩
      · exact ⟨r, rfl⟩
  cases none : s.core.pend.any (waitsFor c a) with
  | true =>
    obtain ⟨r, taken⟩ := frame (s.core.pend.filter (waitsFor c a)) s
    exact ⟨r, arrives.trans (by rw [taken]), fun e => nomatch e⟩
  | false =>
    have nobody : s.core.pend.filter (waitsFor c a) = [] := by
      rw [List.filter_eq_nil_iff]; simpa using none
    exact ⟨s.hart.r, arrives.trans (by rw [nobody]; rfl), fun _ => rfl⟩

/-- Bytes one by one. -/
theorem bytesSeen_eq_map (s : State) (c a n : Nat) : bytesSeen s c a n = (List.range n).map fun j => byteSeen s c (a + j) := by
  induction n generalizing a with
  | zero => rfl
  | succ n ih =>
    rw [bytesSeen, ih, List.range_succ_eq_map, List.map_cons, List.map_map]
    exact congrArg (byteSeen s c a :: ·) (List.map_congr_left fun j _ => by simp only [Function.comp_apply]; congr 1; omega)

theorem lineAt_place {s : State} {c a : Nat} {x : Line} (held : lineAt s c a = some x) : x.core = c ∧ x.addr = lineOf a := by
  simpa using List.find?_some held

/-- One more line in the caches. -/
def lineAdded (l : Line) (s : State) : State := { s with core := { s.core with dcache := s.core.dcache ++ [l] } }

theorem lineAt_added (l : Line) (s : State) (d x : Nat) :
    lineAt (lineAdded l s) d x = (lineAt s d x).or (if l.core = d ∧ l.addr = lineOf x then some l else none) := by
  refine (List.find?_append ..).trans (congrArg ((lineAt s d x).or ·) ?_)
  rw [List.find?_singleton]
  simp only [Bool.and_eq_true, beq_iff_eq]

/-- A line that is absent, with room in its set, is brought in clean. -/
theorem fillLine_absent {c a : Nat} {s : State} (absent : lineAt s c a = none) (room : (setLines s c a).length < 4) : fillLine c a s =
    some (lineAdded ⟨c, lineOf a, (List.range 64).map fun j => byteSeen s c (lineOf a + j), false⟩ s) := by
  have made : makeRoom c a s = some s := if_pos room
  rw [fillLine, absent, made, ← bytesSeen_eq_map]; rfl

end Sys2Proof.Machine
end

section
/-! SUPPORT. WRITE_BUFFER_DRAIN and STORE_BUS_ERROR (R102, R307). -/

namespace Sys2Proof.Machine

theorem accesses_whole {e : WEntry} (whole : isWordOnly (regionOf e.addr) = false) : e.accesses = [e.data] :=
  if_neg (by rw [whole, Bool.and_false]; decide)

theorem accesses_word {e : WEntry} {a : Nat} {v : Word} (data : e.data = wordBytes a v) : e.accesses = [e.data] := by
  have one : wordRuns4 e.data = [e.data] := by rw [data]; rfl
  unfold WEntry.accesses
  rw [one, ite_self]

section
variable {c : Fin 16} {e : WEntry} {rest : List WEntry} {s : State}
variable (taken : takeFirst (fun e : WEntry => e.core == c.val) s.core.wbuf = some (e, rest))
include taken

/-- An entry whose target takes no write leaves, its first address recorded. -/
theorem drainOne_refused {a : Nat} {b : Byte} {t : List (Nat × Byte)} (data : e.data = (a, b) :: t) (refused : e.kind = .deny ∨
    (e.kind = .bus ∧ e.accesses = [e.data] ∧ takesWrites a = false ∧ behindLoad s c e = false ∧ inDma e.data = false)) :
    drainOne c s = (some a, entryGone rest s) := by
  rcases refused with deny | ⟨bus, one, noWrite, ahead, outside⟩
  · rw [drainOne_deny taken deny, data]; rfl
  · have answer : busWrite (.core c) e.data s = (.err, s) := by
      rw [busWrite, outside, data, busPut_refused _ a b t s noWrite]; rfl
    rw [drainOne_bus taken bus ahead one answer (by decide), data]; rfl

/-- The line of a cached store is held, or brought in clean with the bytes of memory as the core sees them (R303). -/
theorem fillLine_holds (kind : e.kind = .cache) (room : lineAt s c e.addr = none → (setLines s c e.addr).length < 4) :
    ∃ t q, fillLine c e.addr (entryGone rest (if (lineAt s c.val e.addr).isNone then touch (domainAt e.addr) s else s)) = some t ∧
      lineAt t c e.addr = some ((lineAt s c e.addr).getD
        ⟨c, lineOf e.addr, (List.range 64).map fun j => byteSeen s c (lineOf e.addr + j), false⟩) ∧
      (∀ d x, d ≠ c.val ∨ lineOf x ≠ lineOf e.addr → lineAt t d x = lineAt s d x) ∧
      t = { s with core := { s.core with dcache := t.core.dcache, wbuf := rest }, pwr := { s.pwr with quiet := q } } := by
  cases held : lineAt s c e.addr with
  | some line =>
    exact ⟨entryGone rest s, s.pwr.quiet, if_pos (show (lineAt s c e.addr).isSome = true by rw [held]; rfl), held, fun _ _ _ => rfl, rfl⟩
  | none =>
    obtain ⟨q, touched⟩ := touch_frame (domainAt e.addr) s
    have mem : (touch (domainAt e.addr) s).mem = s.mem := by rw [touched]
    have lines (d x : Nat) : lineAt (entryGone rest (touch (domainAt e.addr) s)) d x = lineAt s d x := by rw [touched]; rfl
    have sets : setLines (entryGone rest (touch (domainAt e.addr) s)) c e.addr = setLines s c e.addr := by rw [touched]; rfl
    have filled := fillLine_absent ((lines c e.addr).trans held) (sets ▸ room held)
    simp only [byteSeen_gone taken (by rw [kind]; decide) mem] at filled
    refine ⟨_, q, filled, ?_, fun d x other => ?_, ?_⟩
    · rw [lineAt_added, lines, held, Option.none_or, if_pos ⟨rfl, rfl⟩, Option.getD_none]
    · rw [lineAt_added, lines, if_neg fun same => other.elim (fun no => no same.1.symm) fun no => no same.2.symm, Option.or_none]
    · rw [touched]; rfl

end

/-- A line that takes no byte of a store is as it was, and that of the store has them. -/
theorem lineAt_writeLines (c : Nat) (l : List (Nat × Byte)) (s : State) (d x : Nat) :
    lineAt (l.foldl (fun u p => writeLine c p.1 [p.2] u) s) d x = (lineAt s d x).map (lineWritten c l) := by
  rw [writeLines_eq]
  refine (List.find?_map ..).trans ?_
  have place : (fun y : Line => y.core == d && y.addr == lineOf x) ∘ lineWritten c l = fun y : Line => y.core == d && y.addr == lineOf x :=
    funext fun y => by
      obtain ⟨core, addr⟩ := lineWritten_place c l y
      rw [Function.comp_apply, core, addr]
  rw [place]; rfl

/-- Settles O22: each clause is what the oldest entry does for its kind and its target. -/
theorem writeBuffer : Obligations.WriteBuffer := by
  unfold Obligations.WriteBuffer
  intro c e rest s isUp on taken some a k waits line failed
  obtain ⟨⟨a', b⟩, t, data⟩ := List.exists_cons_of_ne_nil some
  have first : a = a' := by simp only [a, data]; rfl
  have drains : exec (.writeBufferDrain c) s = .next (drainStep c s) := congrArg Host.Outcome.next (whenOn_on ⟨isUp, on⟩ _)
  have errs : exec (.storeBusError c) s = .next (storeErrorStep c s) := congrArg Host.Outcome.next (whenOn_on ⟨isUp, on⟩ _)
  refine ⟨fun kind memory target free ahead outside awake idle => ?_, fun v u kind word whole ahead written => ?_, fun kind inLine full ready => ?_,
    fun kind absent off => ?_, fun refused => ?_, fun kind behind => ?_⟩
  · have put := busPut_byteMem c (data.trans (by rw [first])) target free awake idle
    have answer : busWrite (.core c) e.data s = (.ok [], putBytes e.data (touch (domainAt a) s)) := by
      rw [busWrite, outside, put]; rfl
    have drained := drainOne_bus taken kind ahead (accesses_whole (takesWrites_byteMem memory).2) answer (by decide)
    obtain ⟨q, touched⟩ := touch_frame (domainAt a) s
    refine ⟨_, drains.trans (congrArg Host.Outcome.next (drainStep_none drained)), fun x => ?_, ?_⟩
    · refine (getByte_putBytes e.data (touch (domainAt a) s) x).trans ?_
      rw [show getByte (touch (domainAt a) s) x = getByte s x by rw [touched]; rfl]
      cases e.data.reverse.find? (fun p => primary p.1 == x) <;> rfl
    · rw [putBytes_frame, touched]; rfl
  · have answer : busWrite (.core c) e.data s = (.ok [], u) := by rw [word]; exact written
    have drained := drainOne_bus taken kind ahead (accesses_word word) answer (by decide)
    exact drains.trans (congrArg Host.Outcome.next (drainStep_none drained))
  · have drained := drainOne_cache taken kind fun absent => (ready absent).1
    obtain ⟨t, q, filled, held, others, frame⟩ := fillLine_holds taken kind fun absent => (ready absent).2
    obtain ⟨r, arrives, quiet⟩ := lineArrives_parts held
    have lands : drainStep c s = e.data.foldl (fun u p => writeLine c.val p.1 [p.2] u) (lineArrives c.val e.addr t) := by
      rw [drainStep_none drained, drainCache, filled]; rfl
    have at' (d x : Nat) := lineAt_writeLines c e.data (lineArrives c.val e.addr t) d x
    have kept (d x : Nat) : lineAt (lineArrives c.val e.addr t) d x = lineAt t d x := by rw [arrives]; rfl
    have place : line.core = c.val ∧ line.addr = k := lineAt_place held
    refine ⟨_, lineWritten c e.data line, drains.trans (congrArg Host.Outcome.next lands), ?_, ?_, ?_, fun d x other => ?_, ?_, ?_, ?_, ?_⟩
    · rw [at', kept, held]; rfl
    · exact lineWritten_dirty inLine place.1 place.2 (.inl some)
    · exact lineWritten_data inLine place.1 place.2 full
    · rw [at', kept, others d x other]
      cases found : lineAt s d x with
      | none => rfl
      | some y =>
        obtain ⟨core, addr⟩ := lineAt_place found
        exact congrArg Option.some (lineWritten_other inLine fun ⟨sameCore, sameAddr⟩ =>
          other.elim (fun no => no (core.symm.trans sameCore)) fun no => no (addr.symm.trans sameAddr))
    all_goals rw [writeLines_eq, arrives, frame]
    · rfl
    · exact fun nobody => by rw [quiet (by rw [frame]; exact nobody), frame]
  · exact drains.trans (congrArg Host.Outcome.next (drainStep_none (drainOne_asleep taken kind absent off)))
  · rw [first] at refused
    have drained := drainOne_refused taken data refused
    have fails {i : Instr} (does : exec i s = .next (storeError c a (entryGone rest s))) : failed i := by
      refine ⟨_, does, ?_, fun unset => (storeError_first a (s := entryGone rest s) unset).2, fun set => ?_, ?_⟩
      · cases set : s.bit .SCHED_CORE_n_STAT c 22 with
        | true => rw [storeError_again a (s := entryGone rest s) set]; exact set
        | false => exact (storeError_first a (s := entryGone rest s) set).1
      · rw [storeError_again a (s := entryGone rest s) set]; rfl
      · exact storeError_regsOnly c a (entryGone rest s)
    rw [← first] at drained
    exact ⟨fails (errs.trans (congrArg Host.Outcome.next (storeErrorStep_some drained))),
      fails (drains.trans (congrArg Host.Outcome.next (drainStep_some drained)))⟩
  · have drained := drainOne_behind taken kind behind
    exact ⟨drains.trans (congrArg Host.Outcome.next (drainStep_none drained)), errs.trans (congrArg Host.Outcome.next (storeErrorStep_none drained))⟩

end Sys2Proof.Machine
end

section
/-! SUPPORT. The end of an engine's word, whatever its operations left (R85, R137, R161). -/

namespace Sys2Proof.Machine

/-- What the end of a word leaves, where its operations left state t with new loads waiting. -/
theorem runStep_delivers {pe : Fin 72} {w : Nat} {s t : State} (new : List Delivery) (stands : runAt s pe = some w)
    (run : t.eng.run = s.eng.run) (null : t.eng.null = s.eng.null) (loads : t.eng.deliver = s.eng.deliver ++ new)
    (later : ∀ d ∈ new, d.pe = pe.val ∧ w < d.due) (len : progLen t pe (actProg t pe) = progLen s pe (actProg s pe)) :
    let u := runStep pe w (fetched pe s) t
    (u = { t with hart := { t.hart with r := u.hart.r },
                  eng := { t.eng with run := u.eng.run, null := u.eng.null, deliver := u.eng.deliver } }) ∧
    (∀ (h : Nat) (r : Fin 32), readReg u h r = landed (.eng pe) s h r (readReg t h r)) ∧ engGoes pe new s u := by
  have stays (q : Nat) : runAt t q = runAt s q := by unfold runAt; rw [run]
  have windows (h : Nat) : nullOf t h = nullOf (fetched pe s) h := by rw [nullOf_fetched]; unfold nullOf; rw [null]
  obtain ⟨⟨H, frame⟩, regs, runs, steps, left⟩ := runStep_parts pe w (fetched pe s) t (by rw [stays, stands]; rfl) windows
  rw [len] at regs runs steps left
  have early (h : Nat) (r : Fin 32) : (new.reverse.find? fun d =>
      d.pe == pe.val && decide (d.due ≤ w) && laneHart pe d.lane == h && d.rd == r.val && decide (r.val ≤ 11)) = none := by
    rw [List.find?_eq_none]
    intro d hd
    obtain ⟨-, due⟩ := later d (List.mem_reverse.mp hd)
    simp [Nat.not_le.mpr due]
  have ended : new.filter (fun d => d.pe != pe.val) = [] := by
    rw [List.filter_eq_nil_iff]
    intro d hd
    simp [(later d hd).1]
  refine ⟨?_, fun h r => ?_, fun q => ?_, fun L => ?_, ?_⟩
  · generalize runStep pe w (fetched pe s) t = u at frame ⊢
    rw [frame]
  · rw [regs, loads, List.reverse_append, List.find?_append, early, Option.none_or]
    unfold landed
    simp only [stands, Option.getD_some, decide_eq_true_eq] <;> rfl
  · rw [runs q, stays, stands]; rfl
  · rw [steps L, nullOf_fetched, stands]; rfl
  · rw [left, loads, List.filter_append, ended, List.append_nil, stands]; rfl

/-! The lanes of an engine. -/

theorem lane_notCore (pe L : Nat) : ¬ laneHart pe L < 16 := by unfold laneHart; omega

theorem laneOf_laneHart (pe L : Nat) (lane : L < 4) : laneOf (laneHart pe L) = L := by unfold laneOf laneHart; omega

theorem lt_four_of_live {s : State} {pe L : Nat} (live : L ∈ liveLanes s pe) : L < 4 :=
  List.mem_range.mp (List.mem_filter.mp live).1

end Sys2Proof.Machine
end

section
/-! SUPPORT. Loads and stores of an engine in cluster shared memory (R124, R160, R161). -/

namespace Sys2Proof.Machine

/-! Addresses. -/

theorem toU_add_mod (n : Nat) (a : Nat) (x : Int) (m : Nat) (fits : n ≤ m) : (a + toU m x) % 2 ^ m % 2 ^ n = toU n (a + x) := by
  have pos : (0 : Int) < ((2 ^ m : Nat) : Int) := by positivity
  have whole : ((toU m x : Nat) : Int) = x % ((2 ^ m : Nat) : Int) := Int.toNat_of_nonneg (Int.emod_nonneg _ pos.ne')
  unfold toU at whole ⊢
  have divides : ((2 ^ n : Nat) : Int) ∣ ((2 ^ m : Nat) : Int) := Int.natCast_dvd_natCast.mpr (Nat.pow_dvd_pow 2 fits)
  refine Int.ofNat_inj.mp ?_
  rw [Int.toNat_of_nonneg (Int.emod_nonneg _ (by positivity)), Int.natCast_emod, Int.natCast_emod, Int.natCast_add, whole,
    Int.emod_emod_of_dvd _ divides, Int.add_emod, Int.emod_emod_of_dvd _ divides, ← Int.add_emod]

/-- The place an engine's access reaches (R124). -/
theorem sharedAddr_eq (s : State) (h : Nat) (k : LoadKind) (rs : Fin 32) (imm : BitVec 15) :
    sharedAddr h (engOffset k (eaEng s h rs imm)) = sharedAt s h rs imm (loadSize k) := by
  have offset : eaEng s h rs imm = toU 20 ((readReg s h rs : Int) + sxN 15 imm.toNat) := toU_add_mod 20 _ _ 24 (by decide)
  unfold sharedAddr sharedAt clusterOf
  rw [offset]
  cases k with
  | byte => simp only [engOffset, loadSize, Nat.div_one, Nat.mul_one]
  | _ => rfl

theorem sharedAt_fetched (pe : Nat) (s : State) (h : Nat) (rs : Fin 32) (imm : BitVec 15) (n : Nat) :
    sharedAt (fetched pe s) h rs imm n = sharedAt s h rs imm n := by
  unfold sharedAt; rw [readReg_fetched]

theorem getByte_fetched (pe : Nat) (s : State) (a : Nat) : getByte (fetched pe s) a = getByte s a := by
  rw [(fetched_frame pe s).1]; rfl

/-! Loads. -/

/-- The load that lane L of an engine makes at word w. -/
def sharedLoad (pe : Nat) (rd rs : Fin 32) (imm : BitVec 15) (k : LoadKind) (w : Nat) (s : State) (L : Nat) : Delivery :=
  let a := sharedAt s (laneHart pe L) rs imm (loadSize k)
  ⟨pe, L, rd, BitVec.ofNat 32 (engLoadValue k ((List.range (loadSize k)).map fun j => getByte s (a + j))), w + 16⟩

/-- A state with more loads waiting. -/
def loadsQueued (new : List Delivery) (t : State) : State := { t with eng := { t.eng with deliver := t.eng.deliver ++ new } }

theorem loadOp_lane {pe : Nat} {k : LoadKind} {rd rs : Fin 32} {imm : BitVec 15} {w : Nat} {s : State} (stands : runAt s pe = some w)
    {L : Nat} (lane : L < 4) (t : State) :
    (loadOp k rd rs imm).fx (fetched pe s) (laneHart pe L) t = loadsQueued [sharedLoad pe rd rs imm k w s L] t := by
  refine (if_neg (lane_notCore pe L)).trans ?_
  simp only [sharedAddr_eq, sharedAt_fetched, peOf_laneHart pe L lane, laneOf_laneHart pe L lane, runAt_fetched, stands, Option.getD_some,
    getBytes_eq_map, getByte_fetched]
  rfl

theorem loads_lanes {pe : Nat} {k : LoadKind} {rd rs : Fin 32} {imm : BitVec 15} {w : Nat} {s : State} (stands : runAt s pe = some w)
    (l : List Nat) (lanes : ∀ L ∈ l, L < 4) (t : State) :
    l.foldl (fun t L => (loadOp k rd rs imm).fx (fetched pe s) (laneHart pe L) t) t = loadsQueued (l.map (sharedLoad pe rd rs imm k w s)) t := by
  induction l generalizing t with
  | nil => simp only [loadsQueued, List.foldl_nil, List.map_nil, List.append_nil]
  | cons L l ih =>
    rw [List.foldl_cons, loadOp_lane stands (lanes L List.mem_cons_self), ih fun M hM => lanes M (List.mem_cons_of_mem _ hM)]
    simp only [loadsQueued, List.append_assoc, List.map_cons, List.singleton_append]

/-- A load of an engine queues the loads of its lanes (R161). -/
theorem engineLoad_queues (pe : Fin 72) (k : LoadKind) (rd rs : Fin 32) (imm : BitVec 15) (s : State)
    (legal : (loadOp k rd rs imm).legal (laneHart pe 0) = true) (issues : engReady pe s = true) :
    let t := engWord pe [loadOp k rd rs imm] s
    engGoes pe ((liveLanes s pe).map (sharedLoad pe rd rs imm k ((runAt s pe).getD 0) s)) s t ∧
    (∀ (h : Nat) (r : Fin 32), readReg t h r = landed (.eng pe) s h r (readReg s h r)) ∧
    t = { fetched pe s with
            hart := { s.hart with r := t.hart.r },
            eng := { (fetched pe s).eng with run := t.eng.run, null := t.eng.null, deliver := t.eng.deliver } } := by
  obtain ⟨w, stands⟩ := runAt_of_ready issues
  rw [stands, Option.getD_some]
  have word := engWord_plain pe w (loadOp k rd rs imm) s stands issues legal (Nat.zero_le 2) rfl
  rw [liveLanes_fetched, loads_lanes stands _ fun L live => lt_four_of_live live] at word
  have later : ∀ d ∈ (liveLanes s pe).map (sharedLoad pe rd rs imm k w s), d.pe = pe.val ∧ w < d.due := fun d hd => by
    obtain ⟨L, -, rfl⟩ := List.mem_map.mp hd
    exact ⟨rfl, Nat.lt_add_of_pos_right (by decide)⟩
  generalize (liveLanes s pe).map (sharedLoad pe rd rs imm k w s) = new at word later
  obtain ⟨frame, regs, goes⟩ := runStep_delivers (t := loadsQueued new (fetched pe s)) new stands
    (by rw [loadsQueued, fetched_eng]) (by rw [loadsQueued, fetched_eng]) (by rw [loadsQueued, fetched_eng]) later (progLen_fetched pe s)
  rw [word]
  refine ⟨goes, fun h r => ?_, ?_⟩
  · rw [regs]
    exact congrArg (landed (.eng pe) s h r) (readReg_fetched pe s h r)
  · rw [frame, loadsQueued, fetched_hart]

/-- Settles O9: a load word queues the loads of its lanes, and a delivery is that of the loads that are due. -/
theorem engineSharedLoads : Obligations.EngineSharedLoads := by
  refine ⟨fun pe rd rs imm s => ?_, fun pe w s stands => ?_⟩
  · intro runs
    have does {i : Instr} (k : LoadKind) (word : exec i s = .next (engWord pe [loadOp k rd rs imm] s))
        (fields : i.wellFormed = true → (Agent.eng pe).writes rd = true ∧ (Agent.eng pe).reads [rs] = true) :
        runs i (loadSize k) (engLoadValue k) := fun formed issues => by
      obtain ⟨writes, reads⟩ := fields formed
      exact ⟨_, word, engineLoad_queues pe k rd rs imm s (legalRW_of_ok (.eng pe) [rs] rd reads writes) issues⟩
    exact ⟨does .word rfl Bool.and_eq_true_iff.mp, does .half rfl Bool.and_eq_true_iff.mp, does .byte rfl Bool.and_eq_true_iff.mp⟩
  · obtain ⟨⟨H, frame⟩, regs⟩ := deliverDue_parts pe w s
    have step : deliveryStep pe s = deliverDue pe w s := by rw [deliveryStep, stands]
    refine ⟨_, congrArg Host.Outcome.next step, regs, ?_, ?_⟩
    · rw [frame]
    · rw [frame]

/-! Stores. -/

theorem getByte_setBytes (l : List Byte) (a x : Nat) (s : State) :
    getByte (setBytes s a l) x = if a ≤ x ∧ x < a + l.length then l.getD (x - a) 0 else getByte s x := by
  induction l generalizing a s with
  | nil => rw [if_neg (by simp only [List.length_nil]; omega)]; rfl
  | cons b l ih =>
    rw [setBytes, ih, getByte_setByte, List.length_cons]
    rcases Nat.lt_trichotomy x a with before | rfl | after
    · rw [if_neg (by omega), if_neg (by omega), if_neg (by omega)]
    · rw [if_neg (by omega), if_pos rfl, if_pos (by omega), Nat.sub_self]; rfl
    · obtain ⟨d, rfl⟩ : ∃ d, x = a + 1 + d := ⟨x - (a + 1), by omega⟩
      rw [if_neg (by omega : ¬ a + 1 + d = a), show a + 1 + d - (a + 1) = d by omega, show a + 1 + d - a = d + 1 by omega]
      exact if_congr (by omega) rfl rfl

theorem setBytes_frame (l : List Byte) (a : Nat) (s : State) : setBytes s a l = { s with mem := (setBytes s a l).mem } := by
  induction l generalizing a s with
  | nil => rfl
  | cons b l ih => exact ih (a + 1) (setByte s a b)

/-- The bytes that lane L stores, and where. -/
def sharedBytes (pe : Nat) (rd rs : Fin 32) (imm : BitVec 15) (k : LoadKind) (s : State) (t : State) (L : Nat) : State :=
  setBytes t (sharedAt s (laneHart pe L) rs imm (loadSize k)) (bytesLE (loadSize k) (storeValue (laneHart pe L) k (readReg s (laneHart pe L) rd)))

theorem storeOp_lane (pe : Nat) (k : LoadKind) (rd rs : Fin 32) (imm : BitVec 15) (s t : State) (L : Nat) :
    (storeOp k rd rs imm).fx (fetched pe s) (laneHart pe L) t = sharedBytes pe rd rs imm k s t L := by
  refine (if_neg (lane_notCore pe L)).trans ?_
  rw [sharedAddr_eq, sharedAt_fetched, readReg_fetched]; rfl

theorem sharedBytes_frame (pe : Nat) (rd rs : Fin 32) (imm : BitVec 15) (k : LoadKind) (s : State) (l : List Nat) (t : State) :
    ∃ m, l.foldl (sharedBytes pe rd rs imm k s) t = { t with mem := m } := by
  induction l generalizing t with
  | nil => exact ⟨t.mem, rfl⟩
  | cons L l ih =>
    obtain ⟨m, rest⟩ := ih (sharedBytes pe rd rs imm k s t L)
    exact ⟨m, by rw [List.foldl_cons, rest, sharedBytes, setBytes_frame]⟩

/-- The byte that the last lane to store it leaves. -/
theorem getByte_sharedBytes (pe : Nat) (rd rs : Fin 32) (imm : BitVec 15) (k : LoadKind) (s : State) (l : List Nat) (t : State) (a : Nat) :
    getByte (l.foldl (sharedBytes pe rd rs imm k s) t) a = (l.reverse.find? fun L =>
        decide (sharedAt s (laneHart pe L) rs imm (loadSize k) ≤ a) &&
          decide (a < sharedAt s (laneHart pe L) rs imm (loadSize k) + loadSize k)).elim (getByte t a) fun L =>
      (bytesLE (loadSize k) (storeValue (laneHart pe L) k (readReg s (laneHart pe L) rd))).getD
        (a - sharedAt s (laneHart pe L) rs imm (loadSize k)) 0 := by
  refine (foldl_lastWrite (read := fun t => getByte t a) l (fun _ => True) (fun _ _ _ _ => trivial) (fun L _ t _ => ?_) t trivial).2
  rw [sharedBytes, getByte_setBytes, length_bytesLE]
  simp only [Bool.and_eq_true, decide_eq_true_eq]

/-- A store of an engine stores the bytes of its lanes (R124). -/
theorem engineStore_stores (pe : Fin 72) (k : LoadKind) (rd rs : Fin 32) (imm : BitVec 15) (s : State)
    (legal : (storeOp k rd rs imm).legal (laneHart pe 0) = true) (issues : engReady pe s = true) :
    let t := engWord pe [storeOp k rd rs imm] s
    engGoes pe [] s t ∧
    (∀ a, getByte t a = getByte ((liveLanes s pe).foldl (sharedBytes pe rd rs imm k s) s) a) ∧
    (∀ (h : Nat) (r : Fin 32), readReg t h r = landed (.eng pe) s h r (readReg s h r)) ∧
    t = { fetched pe s with
            mem := t.mem, hart := { s.hart with r := t.hart.r },
            eng := { (fetched pe s).eng with run := t.eng.run, null := t.eng.null, deliver := t.eng.deliver } } := by
  obtain ⟨w, stands⟩ := runAt_of_ready issues
  have word := engWord_plain pe w (storeOp k rd rs imm) s stands issues legal (Nat.zero_le 2) rfl
  simp only [liveLanes_fetched, storeOp_lane] at word
  have bytes (a : Nat) : getByte ((liveLanes s pe).foldl (sharedBytes pe rd rs imm k s) (fetched pe s)) a =
      getByte ((liveLanes s pe).foldl (sharedBytes pe rd rs imm k s) s) a := by
    rw [getByte_sharedBytes, getByte_sharedBytes, getByte_fetched]
  obtain ⟨m, stored⟩ := sharedBytes_frame pe rd rs imm k s (liveLanes s pe) (fetched pe s)
  rw [stored] at word bytes
  obtain ⟨frame, regs, goes⟩ := runStep_delivers (t := { fetched pe s with mem := m }) [] stands (by rw [fetched_eng]) (by rw [fetched_eng])
    (by rw [fetched_eng, List.append_nil]) (fun _ none => nomatch none) (progLen_fetched pe s)
  rw [word]
  refine ⟨goes, fun a => ?_, fun h r => ?_, ?_⟩
  · rw [frame]; exact bytes a
  · rw [regs]
    exact congrArg (landed (.eng pe) s h r) (readReg_fetched pe s h r)
  · rw [frame, fetched_hart]

/-- Settles O10: a store word stores the bytes of its lanes in their order, so that the last lane stands. -/
theorem engineSharedStores : Obligations.EngineSharedStores := by
  intro pe rd rs imm s runs
  have does {i : Instr} (k : LoadKind) (f : Nat → Nat) (word : exec i s = .next (engWord pe [storeOp k rd rs imm] s))
      (fields : i.wellFormed = (Agent.eng pe).reads [rd, rs]) (value : ∀ L v, storeValue (laneHart pe L) k v = f v) :
      runs i (loadSize k) f := fun formed issues => by
    have reads : (Agent.eng pe).reads [rs, rd] = true := by
      rw [fields, Agent.reads, List.all_cons, List.all_cons, List.all_nil, Bool.and_true, Bool.and_comm] at formed
      rw [Agent.reads, List.all_cons, List.all_cons, List.all_nil, Bool.and_true]
      exact formed
    have legal : (storeOp k rd rs imm).legal (laneHart pe 0) = true := legalR_of_ok (.eng pe) [rs, rd] reads
    obtain ⟨goes, bytes, regs, frame⟩ := engineStore_stores pe k rd rs imm s legal issues
    refine ⟨_, word, goes, fun a => ?_, regs, frame⟩
    rw [bytes, getByte_sharedBytes]
    simp only [value]
    cases (liveLanes s pe).reverse.find? _ <;> rfl
  exact ⟨does .word _ rfl rfl fun L v => if_neg (lane_notCore pe L), does .half _ rfl rfl fun _ _ => rfl, does .byte _ rfl rfl fun _ _ => rfl⟩

end Sys2Proof.Machine
end

section
/-! SUPPORT. LDX and STX of an engine (R125, R144, R145, R148). -/

namespace Sys2Proof.Machine

/-! A word of one operation that reads no word in error. -/

/-- What the accesses of one lane do beside their values. -/
def laneFx (pe : Nat) (op : Op) (s t : State) (L : Nat) : State := (op.lacc s (laneHart pe L)).foldl (fun t x => reachFx pe L x t) t

/-- An engine's word of one operation that reads no word with a double-bit error. -/
theorem engWord_one {pe w : Nat} {op : Op} {s : State} (stands : runAt s pe = some w) (issues : engReady pe s = true)
    (legal : op.legal (laneHart pe 0) = true) (budget : op.count ≤ 2)
    (whole : ∀ L ∈ liveLanes s pe, ∀ x ∈ op.lacc (fetched pe s) (laneHart pe L), reachDed (fetched pe s) pe L x = none) :
    engWord pe [op] s = runStep pe w (fetched pe s) ((liveLanes s pe).foldl (fun t L => op.fx (fetched pe s) (laneHart pe L) t)
      ((liveLanes s pe).foldl (laneFx pe op (fetched pe s)) (fetched pe s))) := by
  simp only [engReady, stands, Bool.and_eq_true, Bool.not_eq_true', bne_iff_ne, ne_eq] at issues
  obtain ⟨intime, noDed⟩ := issues
  have done : fetched pe s = correctProg pe (progAddr pe (progBase s pe (actProg s pe) + w)) (progBase s pe (actProg s pe) + w) s := by
    simp [fetched, stands]
  unfold engWord
  simp only [stands, intime, Bool.false_eq_true, if_false, noDed]
  rw [← done, liveLanes_fetched]
  by_cases idle : liveLanes s pe = []
  · simp [idle]
  · have none : ((liveLanes s pe).flatMap fun L => ([op].flatMap fun o => o.lacc (fetched pe s) (laneHart pe L)).map fun x => (L, x)).findSome?
        (fun x => (reachDed (fetched pe s) pe x.1 x.2).map fun w => (x.1, w)) = none := by
      rw [List.findSome?_eq_none_iff]
      intro x hx
      simp only [List.mem_flatMap, List.mem_map, List.mem_singleton, exists_eq_left] at hx
      obtain ⟨L, live, y, listed, rfl⟩ := hx
      rw [whole L live y listed]; rfl
    rw [if_neg (by simpa using idle), if_neg (by simpa [legal] using budget), none]
    simp only [List.foldl_flatMap, List.foldl_map, List.flatMap_cons, List.flatMap_nil, List.append_nil, List.foldl_cons, List.foldl_nil]
    rfl

/-! LDX. -/

theorem opModify_writes {h : Nat} (lane : 16 ≤ h) (s0 : State) (op : MemOp) (t : State) :
    opModify s0 h op t = (opBumped s0 h op).foldl (fun t e => writeReg h e.1 e.2 t) t := by
  unfold opModify opBumped
  cases op.off with
  | imm o => rfl
  | ptr p pm => exact bumped_writes lane s0 p pm t

theorem opBumped_fetched (pe : Nat) (s : State) (h : Nat) (op : MemOp) : opBumped (fetched pe s) h op = opBumped s h op := by
  unfold opBumped
  cases op.off with
  | imm o => rfl
  | ptr p pm => simp only [bumped, getPtr_fetched]

theorem opBumped_ok {h : Nat} {s : State} (op : MemOp) : ∀ e ∈ opBumped s h op, e.1 < 32 ∧ legalWrite h e.1 = true := by
  unfold opBumped
  cases op.off with
  | imm o => simp
  | ptr p pm => exact bumped_ok

/-- LDX with what it puts to each lane from state s. -/
def ldxAct (rd : Fin 32) (op : MemOp) (s : State) : OpPut where
  op := ldxOp rd (.mem op)
  put h := { regs := (rd.val, laneRead s h (opReach s h op)) :: opBumped s h op }
  on _ := false
  reads h := [opReach s h op]

theorem ldxAct_sound {pe : Fin 72} {rd : Fin 32} {op : MemOp} {s : State} (writes : (Agent.eng pe).writes rd = true)
    (fits : op.fits = true) : (ldxAct rd op s).Sound (.eng pe) s := by
  have lane : 16 ≤ laneHart pe 0 := Nat.not_lt.mp (lane_notCore pe 0)
  refine ⟨fun h live t => ?_, fun h live => ⟨fun e he => ?_, fun _ => rfl, fun _ _ none => nomatch none⟩, ?_, fun _ _ => rfl, fun q same h _ => ?_⟩
  · refine (opModify_writes (harts_lane pe s h live) _ op _).trans ?_
    simp only [before, opBumped_fetched, opReach_fetched, readReach_fetched]
    rfl
  · rcases List.mem_cons.mp he with rfl | moved
    · have same : legalWrite h rd = legalWrite (laneHart pe 0) rd := by
        simp only [legalWrite, Nat.not_lt.mpr lane, Nat.not_lt.mpr (harts_lane pe s h live)]
      exact ⟨rd.isLt, same.trans (legalWrite_of_ok (.eng pe) rd writes)⟩
    · exact opBumped_ok op e moved
  · refine Bool.and_eq_true_iff.mpr ⟨Bool.and_eq_true_iff.mpr ⟨decide_eq_true lane, legalWrite_of_ok (.eng pe) rd writes⟩, fits⟩
  · cases same
    simp only [before, ldxAct, ldxOp, opReach_fetched, List.map_cons, List.map_nil]

theorem ldx_runs (pe : Fin 72) (rd : Fin 32) (op : MemOp) (s : State) : laneRuns (.ldx (.eng pe) rd (.mem op)) pe (fun h => [opReach s h op])
    (fun h => { regs := (rd.val, laneRead s h (opReach s h op)) :: opBumped s h op }) s := by
  intro formed issues clean
  obtain ⟨writes, fits⟩ := Bool.and_eq_true_iff.mp formed
  obtain ⟨reg, stat, acc, dice, goes⟩ := unitWord_puts (.eng pe) [ldxAct rd op s] s [] issues (by simp [ldxAct, ldxOp])
    (by simpa using ldxAct_sound writes fits) (fun q same => by
      cases same
      exact ⟨by simp [ldxAct, ldxOp], by simpa [ldxAct] using clean⟩)
  exact ⟨_, rfl, reg, stat, acc, dice, goes⟩


/-! Stores through what an operand reaches. -/

/-- t is s but for lane words, mailboxes, waiting write-backs and data registers. -/
def storedOver (s t : State) : Prop := ∃ m u r i o b, t =
  { s with wmem := m, upset := u, hart := { s.hart with r := r }, eng := { s.eng with inE := i, outE := o, wback := b } }

theorem storedOver_refl (s : State) : storedOver s s := ⟨s.wmem, s.upset, s.hart.r, s.eng.inE, s.eng.outE, s.eng.wback, rfl⟩

/-- A lane word's write lands at its targets, and takes the word from those that wait for a write-back (R144, R164, R169, R172). -/
theorem writeLane_eq (pe L w v : Nat) (s : State) : writeLane pe L w v s = (laneTargets s pe L w).foldl (fun t a => setSlot t a (slot24 v))
    { s with eng := { s.eng with wback := s.eng.wback.filter fun x => x != (pe, L, w) } } := by
  unfold writeLane laneTargets
  cases s.eng.mig.find? (fun m => m.src == pe) with
  | none => rfl
  | some m =>
    simp only [Bool.or_eq_true, Bool.and_eq_true, decide_eq_true_eq, bne_iff_ne]
    split <;> rfl

theorem setSlots_frame (l : List Nat) (v : Word) (t : State) :
    ∃ m u, l.foldl (fun t a => setSlot t a v) t = { t with wmem := m, upset := u } := by
  induction l generalizing t with
  | nil => exact ⟨t.wmem, t.upset, rfl⟩
  | cons a l ih => exact ih (setSlot t a v)

theorem setSlots_slot (l : List Nat) (v : Word) (t : State) (b : Nat) :
    getSlot (l.foldl (fun t a => setSlot t a v) t) b = (if l.contains b then v else getSlot t b) ∧
    upsetOf (l.foldl (fun t a => setSlot t a v) t) b = if l.contains b then 0 else upsetOf t b := by
  induction l generalizing t with
  | nil => exact ⟨rfl, rfl⟩
  | cons a l ih =>
    obtain ⟨slot, marks⟩ := ih (setSlot t a v)
    rw [List.foldl_cons, slot, marks, getSlot_setSlot, upsetOf_setSlot]
    by_cases here : b = a
    · simp [here]
    · simp [here]

/-- Whether a write through a reach lands at lane word a, or in an in- or out-mailbox k. -/
def slotHit (s : State) (pe L a : Nat) (x : Reach) : Bool :=
  match x with
  | .word w => (laneTargets s pe L w).contains a
  | _ => false
def inHit (s : State) (pe L k : Nat) (x : Reach) : Bool :=
  match x with
  | .inBox i => k == boxKey (logicalOf s pe) L i
  | _ => false
def outHit (s : State) (pe L k : Nat) (x : Reach) : Bool :=
  match x with
  | .outBox i => k == boxKey (logicalOf s pe) L i
  | _ => false

/-- What one write through a reach leaves, in a state whose places are those of s. -/
structure ReachWritten (s : State) (pe L : Nat) (x : Reach) (v : Nat) (t u : State) : Prop where
  slot : ∀ a, getSlot u a = if slotHit s pe L a x then slot24 v else getSlot t a
  marks : ∀ a, upsetOf u a = if slotHit s pe L a x then 0 else upsetOf t a
  inE : ∀ k, Store.get zeroOf u.eng.inE k = if inHit s pe L k x then BitVec.ofNat 24 v else Store.get zeroOf t.eng.inE k
  outE : ∀ k, Store.get zeroOf u.eng.outE k = if outHit s pe L k x then BitVec.ofNat 24 v else Store.get zeroOf t.eng.outE k
  wback : u.eng.wback = t.eng.wback.filter fun y => !(y.1 == pe && (L == y.2.1 && x == .word y.2.2))
  hart : u.hart = t.hart
  frame : ∀ s0, storedOver s0 t → storedOver s0 u

theorem writeReach_written {s t : State} {pe L : Nat} (x : Reach) (v : Nat) (targets : ∀ w, laneTargets t pe L w = laneTargets s pe L w)
    (logical : logicalOf t pe = logicalOf s pe) : ReachWritten s pe L x v t (writeReach pe L x v t) := by
  have kept (none : ∀ w, x ≠ .word w) : t.eng.wback = t.eng.wback.filter fun y => !(y.1 == pe && (L == y.2.1 && x == .word y.2.2)) := by
    rw [List.filter_eq_self.mpr fun y _ => by simp [none]]
  cases x with
  | word w =>
    have written : writeReach pe L (.word w) v t = _ := writeLane_eq pe L w v t
    rw [written, targets]
    obtain ⟨m, u, frame⟩ := setSlots_frame (laneTargets s pe L w) (slot24 v)
      { t with eng := { t.eng with wback := t.eng.wback.filter fun x => x != (pe, L, w) } }
    refine ⟨fun a => (setSlots_slot _ _ _ a).1, fun a => (setSlots_slot _ _ _ a).2, fun k => ?_, fun k => ?_, ?_, ?_, ?_⟩
    all_goals rw [frame]
    · rfl
    · rfl
    · refine List.filter_congr fun y _ => ?_
      obtain ⟨q, M, z⟩ := y
      rw [Bool.eq_iff_iff]
      simp only [bne_iff_ne, ne_eq, Prod.mk.injEq, Bool.not_eq_true', Bool.and_eq_false_iff, beq_eq_false_iff_ne, Reach.word.injEq,
        eq_comm (a := L), eq_comm (a := w)]
      tauto
    · rintro s0 ⟨m', u', r, i, o, b, rfl⟩
      exact ⟨_, _, _, _, _, _, rfl⟩
  | inBox i =>
    refine ⟨fun _ => rfl, fun _ => rfl, fun k => ?_, fun _ => rfl, kept (by simp), rfl, ?_⟩
    · exact (Store.get_set ..).trans (by rw [logical]; simp [inHit])
    · rintro s0 ⟨m', u', r, i, o, b, rfl⟩
      exact ⟨_, _, _, _, _, _, rfl⟩
  | outBox i =>
    refine ⟨fun _ => rfl, fun _ => rfl, fun _ => rfl, fun k => ?_, kept (by simp), rfl, ?_⟩
    · exact (Store.get_set ..).trans (by rw [logical]; simp [outHit])
    · rintro s0 ⟨m', u', r, i, o, b, rfl⟩
      exact ⟨_, _, _, _, _, _, rfl⟩
  | cross e M i => exact ⟨fun _ => rfl, fun _ => rfl, fun _ => rfl, fun _ => rfl, kept (by simp), rfl, fun _ same => same⟩
  | none => exact ⟨fun _ => rfl, fun _ => rfl, fun _ => rfl, fun _ => rfl, kept (by simp), rfl, fun _ same => same⟩

theorem laneTargets_fetched (pe : Nat) (s : State) (q L w : Nat) : laneTargets (fetched pe s) q L w = laneTargets s q L w := by
  have map (i : Nat) : (fetched pe s).reg .ENG_LANE_MAP i = s.reg .ENG_LANE_MAP i := reg_fetched _ _ _ _ (by decide) (by decide)
  unfold laneTargets dWords pWords State.f
  rw [map, fetched_eng]

/-- The places of a word's stores are those of the state before the word. -/
theorem places_kept {pe : Nat} {s t : State} (kept : storedOver (fetched pe s) t) :
    (∀ L w, laneTargets t pe L w = laneTargets s pe L w) ∧ logicalOf t pe = logicalOf s pe := by
  obtain ⟨m, u, r, i, o, b, rfl⟩ := kept
  exact ⟨fun L w => laneTargets_fetched pe s pe L w, logicalOf_fetched pe pe s⟩

/-- Lane L stores v through f and then moves the pointers p. -/
def laneWrites (pe : Nat) (f : Nat → Reach) (v : Nat → Nat) (p : Nat → List (Nat × Nat)) (t : State) (L : Nat) : State :=
  (p (laneHart pe L)).foldl (fun t e => writeReg (laneHart pe L) e.1 e.2 t) (writeReach pe L (f (laneHart pe L)) (v (laneHart pe L)) t)

section
variable {pe : Nat} (f : Nat → Reach) (v : Nat → Nat) (p : Nat → List (Nat × Nat)) {s : State}

theorem laneWrites_eq (t : State) (L : Nat) : laneWrites pe f v p t L =
    { writeReach pe L (f (laneHart pe L)) (v (laneHart pe L)) t with
        hart := { (writeReach pe L (f (laneHart pe L)) (v (laneHart pe L)) t).hart with
          r := (p (laneHart pe L)).foldl (laneStore (laneHart pe L)) (writeReach pe L (f (laneHart pe L)) (v (laneHart pe L)) t).hart.r } } :=
  writes_lane (Nat.not_lt.mp (lane_notCore pe L)) _ _

/-- What one lane's store leaves. -/
theorem laneWrites_written {t : State} (kept : storedOver (fetched pe s) t) (L : Nat) :
    ReachWritten s pe L (f (laneHart pe L)) (v (laneHart pe L)) t (writeReach pe L (f (laneHart pe L)) (v (laneHart pe L)) t) :=
  writeReach_written _ _ ((places_kept kept).1 L) (places_kept kept).2

theorem laneWrites_kept {t : State} (kept : storedOver (fetched pe s) t) (L : Nat) : storedOver (fetched pe s) (laneWrites pe f v p t L) := by
  obtain ⟨m, u, r, i, o, b, same⟩ := (laneWrites_written f v kept L).frame _ kept
  exact ⟨m, u, _, i, o, b, by rw [laneWrites_eq, same]⟩

/-- The last lane whose store reaches a place stands there. -/
theorem lanes_lastWrite {β : Type} {read : State → β} {hits : Nat → Bool} {val : Nat → β} (l : List Nat)
    (reads : ∀ L t, storedOver (fetched pe s) t → read (laneWrites pe f v p t L) = if hits L then val L else read t) :
    read (l.foldl (laneWrites pe f v p) (fetched pe s)) = (l.reverse.find? hits).elim (read (fetched pe s)) val :=
  (foldl_lastWrite l (storedOver (fetched pe s)) (fun L _ _ kept => laneWrites_kept f v p kept L) (fun L _ t kept => reads L t kept)
    (fetched pe s) (storedOver_refl _)).2

theorem lanes_wback (l : List Nat) (t : State) (kept : storedOver (fetched pe s) t) : (l.foldl (laneWrites pe f v p) t).eng.wback =
    t.eng.wback.filter fun y => !(y.1 == pe && l.any fun L => L == y.2.1 && f (laneHart pe L) == .word y.2.2) := by
  induction l generalizing t with
  | nil => simp
  | cons L l ih =>
    rw [List.foldl_cons, ih _ (laneWrites_kept f v p kept L), laneWrites_eq]
    simp only [(laneWrites_written f v kept L).wback, List.filter_filter, List.any_cons]
    refine List.filter_congr fun y _ => ?_
    cases y.1 == pe <;> simp [Bool.and_comm]

/-- The registers of lanes that store are those of lanes that move their pointers alone. -/
theorem lanes_hart (l : List Nat) (t q : State) (kept : storedOver (fetched pe s) t) (same : t.hart = q.hart) :
    storedOver (fetched pe s) (l.foldl (laneWrites pe f v p) t) ∧
    (l.foldl (laneWrites pe f v p) t).hart = (putAll (l.map (laneHart pe)) (fun h => { regs := p h }) (fun _ => false) q).hart := by
  induction l generalizing t q with
  | nil => exact ⟨kept, same⟩
  | cons L l ih =>
    refine ih (laneWrites pe f v p t L) (applyPut (laneHart pe L) { regs := p (laneHart pe L) } false q) (laneWrites_kept f v p kept L) ?_
    rw [laneWrites_eq, (laneWrites_written f v kept L).hart, same]
    unfold applyPut
    rw [writes_lane (Nat.not_lt.mp (lane_notCore pe L))]
    rfl

end

theorem slot24_eq (v : Nat) : slot24 v = BitVec.ofInt 32 (sxN 24 v) := by
  refine BitVec.eq_of_toNat_eq ?_
  rw [slot24, BitVec.toNat_ofNat, Nat.mod_eq_of_lt (toU_lt 32 _), BitVec.toNat_ofInt]; rfl

/-- What the stores of the lanes of a word leave. -/
theorem lanes_stored (pe : Nat) (f : Nat → Reach) (v : Nat → Nat) (p : Nat → List (Nat × Nat)) (s : State) :
    laneStored pe f v s ((liveLanes s pe).foldl (laneWrites pe f v p) (fetched pe s)) := by
  refine ⟨fun a => ?_, fun a => ?_, fun k => ?_, fun k => ?_, ?_⟩
  · have slots : getSlot (fetched pe s) a = getSlot s a := by rw [(fetched_frame pe s).1]; rfl
    refine (lanes_lastWrite f v p (read := fun t => getSlot t a) (hits := fun L => slotHit s pe L a (f (laneHart pe L))) _ fun L t kept => by
      rw [laneWrites_eq]; exact (laneWrites_written f v kept L).slot a).trans ?_
    rw [slots, show laneAt s pe f a = (liveLanes s pe).reverse.find? fun L => slotHit s pe L a (f (laneHart pe L)) from rfl]
    simp only [slot24_eq]
    cases (liveLanes s pe).reverse.find? _ <;> rfl
  · refine (lanes_lastWrite f v p (read := fun t => upsetOf t a) (hits := fun L => slotHit s pe L a (f (laneHart pe L))) _ fun L t kept => by
      rw [laneWrites_eq]; exact (laneWrites_written f v kept L).marks a).trans ?_
    rw [show laneAt s pe f a = (liveLanes s pe).reverse.find? fun L => slotHit s pe L a (f (laneHart pe L)) from rfl]
    cases (liveLanes s pe).reverse.find? _ <;> rfl
  · refine (lanes_lastWrite f v p (read := fun t => Store.get zeroOf t.eng.inE k) (hits := fun L => inHit s pe L k (f (laneHart pe L))) _
      fun L t kept => by rw [laneWrites_eq]; exact (laneWrites_written f v kept L).inE k).trans ?_
    rw [fetched_eng]
    unfold inHit
    cases (liveLanes s pe).reverse.find? _ <;> rfl
  · refine (lanes_lastWrite f v p (read := fun t => Store.get zeroOf t.eng.outE k) (hits := fun L => outHit s pe L k (f (laneHart pe L))) _
      fun L t kept => by rw [laneWrites_eq]; exact (laneWrites_written f v kept L).outE k).trans ?_
    rw [fetched_eng]
    unfold outHit
    cases (liveLanes s pe).reverse.find? _ <;> rfl
  · rw [lanes_wback f v p _ _ (storedOver_refl _), fetched_eng]

/-! STX. -/

theorem stxOp_lane {pe : Nat} {rd : Fin 32} {op : MemOp} {s : State} {L : Nat} (lane : L < 4) (t : State) :
    (stxOp rd (.mem op)).fx (fetched pe s) (laneHart pe L) t =
      laneWrites pe (fun h => opReach s h op) (fun h => readReg s h rd) (fun h => opBumped s h op) t L := by
  refine (opModify_writes (Nat.not_lt.mp (lane_notCore pe L)) _ op _).trans ?_
  rw [opBumped_fetched, opReach_fetched, readReg_fetched, peOf_laneHart pe L lane, laneOf_laneHart pe L lane]
  rfl

/-- A word of STX is the stores of its lanes. -/
theorem stx_word {pe : Fin 72} {w : Nat} {rd : Fin 32} {op : MemOp} {s : State} (stands : runAt s pe = some w) (issues : engReady pe s = true)
    (legal : (stxOp rd (.mem op)).legal (laneHart pe 0) = true)
    (reaches : ∀ L ∈ liveLanes s pe, opReach s (laneHart pe L) op ≠ .none) : engWord pe [stxOp rd (.mem op)] s =
      runStep pe w (fetched pe s) ((liveLanes s pe).foldl (laneWrites pe (fun h => opReach s h op) (fun h => readReg s h rd)
        fun h => opBumped s h op) (fetched pe s)) := by
  have quiet : (liveLanes s pe).foldl (laneFx pe (stxOp rd (.mem op)) (fetched pe s)) (fetched pe s) = fetched pe s := by
    refine List.foldlRecOn (liveLanes s pe) _ (motive := fun t => t = fetched pe s) rfl ?_
    rintro t rfl L live
    have reached := reaches L live
    simp only [laneFx, stxOp, opReach_fetched, List.foldl_cons, List.foldl_nil]
    cases at' : opReach s (laneHart pe L) op with
    | none => exact absurd at' reached
    | _ => rfl
  rw [engWord_one stands issues legal (show 1 ≤ 2 by decide) (fun L _ x listed => by rw [List.mem_singleton.mp listed]; rfl), quiet]
  exact congrArg (runStep pe w (fetched pe s)) (List.foldl_ext _ _ _ fun t L live => stxOp_lane (lt_four_of_live live) t)

theorem stx_stores (pe : Fin 72) (rd : Fin 32) (op : MemOp) (s : State) : laneStores (.stx (.eng pe) rd (.mem op)) pe (fun h => opReach s h op)
    (fun h => readReg s h rd) (fun h => opBumped s h op) s := by
  intro formed issues clean
  obtain ⟨reads, fits⟩ := Bool.and_eq_true_iff.mp formed
  obtain ⟨w, stands⟩ := runAt_of_ready issues
  have lane : 16 ≤ laneHart pe 0 := Nat.not_lt.mp (lane_notCore pe 0)
  have spaces : op.space ≠ .palette ∧ op.space ≠ .cross := by simpa [XAddr.fitsStore, Agent.isCore] using fits
  have inside : opLegal op = true := by
    unfold opLegal
    split
    · next cross _ => exact absurd cross spaces.2
    · rfl
  have legal : (stxOp rd (.mem op)).legal (laneHart pe 0) = true := by
    have read := legalRead_of_ok (.eng pe) rd (by simpa [Agent.reads] using reads)
    simp only [unitHart] at read
    simp [stxOp, lane, read, inside, spaces]
  have reaches : ∀ L ∈ liveLanes s pe, opReach s (laneHart pe L) op ≠ .none := fun L live nowhere => by
    have := (cleanReach_iff _ _ _).mp clean L live .none (by simp [nowhere])
    exact this
  have stored := lanes_stored pe (fun h => opReach s h op) (fun h => readReg s h rd) (fun h => opBumped s h op) s
  obtain ⟨kept, hart⟩ := lanes_hart (fun h => opReach s h op) (fun h => readReg s h rd) (fun h => opBumped s h op) (liveLanes s pe)
    (fetched pe s) (fetched pe s) (storedOver_refl _) rfl
  obtain ⟨moved, -⟩ := putAll_parts ((liveLanes s pe).map (laneHart pe)) (liveLanes_nodup s pe) (fun h => { regs := opBumped s h op })
    (fun _ => false) (fetched pe s) fun h _ => ⟨opBumped_ok op, fun _ => rfl, fun _ _ none => nomatch none⟩
  obtain ⟨H, putFrame⟩ := putAll_lanes ((liveLanes s pe).map (laneHart pe)) (fun h => { regs := opBumped s h op }) (fun _ => false)
    (fetched pe s) (harts_lane pe s)
  have word := stx_word stands issues legal reaches
  generalize (liveLanes s pe).foldl _ (fetched pe s) = t at stored kept hart word
  obtain ⟨m, u, r, i, o, b, same⟩ := kept
  have eng : t.eng = { s.eng with inE := i, outE := o, wback := b } := by rw [same, fetched_eng]
  have regs (h : Nat) (q : Fin 32) : readReg t h q = readReg (putAll ((liveLanes s pe).map (laneHart pe)) (fun h => { regs := opBumped s h op })
      (fun _ => false) (fetched pe s)) h q := by
    have sameHart : t.hart = H := by rw [hart, putFrame]
    rw [putFrame, ← sameHart, same]; rfl
  obtain ⟨frame, landing, goes⟩ := runStep_delivers [] stands (by rw [eng]) (by rw [eng]) (by rw [eng, List.append_nil])
    (fun _ none => nomatch none) (by rw [same]; exact progLen_fetched pe s)
  refine ⟨_, congrArg Host.Outcome.next word, ?_, goes, fun h q => ?_, ?_⟩
  · rw [frame]; exact stored
  · rw [landing, regs, moved, readReg_fetched]; rfl
  · rw [frame, same, fetched_hart]

/-! An operand that reaches no word (R145). -/

theorem flagEv_sets (r : RegName) (i b e : Nat) (s : State) (inside : b < 32) (other : r ≠ .EVT_RAW_w) : (flagEv r i b e s).bit r i b = true := by
  unfold flagEv
  split
  · assumption
  · rw [State.bit, reg_raise, if_neg fun same => other same.1]
    exact bit_setBit_same s r i b true inside

/-- RANGE is flagged for each lane of a list. -/
theorem range_flagged (pe : Nat) (l : List Nat) (s : State) : let t := l.foldl (fun t _ => flagEv .ENG_FAULT pe 1 Ev.ENG_RANGE t) s
    RegsOnly s t ∧ OnlyRegs [.ENG_FAULT, .EVT_RAW_w] s t ∧ (l ≠ [] → t.bit .ENG_FAULT pe 1 = true) := by
  induction l using List.reverseRecOn with
  | nil => exact ⟨.refl s, .refl _ s, fun no => absurd rfl no⟩
  | append_singleton l L ih =>
    obtain ⟨only, kept, -⟩ := ih
    rw [List.foldl_append, List.foldl_cons, List.foldl_nil]
    exact ⟨only.trans (.flagEv ..), kept.trans .flagEv, fun _ => flagEv_sets _ _ _ _ _ (by decide) (by decide)⟩

/-- The last clause of O8: a palette offset at or beyond P. -/
theorem ldx_beyond (pe : Fin 72) (rd : Fin 8) (o : Fin 16384) (s : State) (issues : engReady pe s = true)
    (beyond : s.f .ENG_LANE_MAP pe 25 16 * 16 ≤ o.val) :
    let t := engWord pe [ldxOp (wide rd) (.mem ⟨.palette, .imm o⟩)] s
    (∀ h ∈ harts (.eng pe) s, readReg t h (wide rd) = landed (.eng pe) s h rd 0) ∧
      (liveLanes s pe ≠ [] → t.bit .ENG_FAULT pe 1 = true) ∧ engGoes pe [] s t ∧ t.wmem = s.wmem ∧ t.mem = s.mem := by
  obtain ⟨w, stands⟩ := runAt_of_ready issues
  have small : rd.val < 8 := rd.isLt
  have legalRd (h : Nat) : legalWrite h (wide rd) = true := by
    have low : rd.val ≤ 11 := by omega
    simp [legalWrite, wide, low]
  have nowhere (L : Nat) (lane : L < 4) : opReach (fetched pe s) (laneHart pe L) ⟨.palette, .imm o⟩ = .none := by
    rw [opReach_fetched, opReach, peOf_laneHart pe L lane]
    have outside : ¬ o.val < pWords s pe := by unfold pWords; omega
    exact if_neg outside
  have access (L : Nat) (lane : L < 4) :
      (ldxOp (wide rd) (.mem ⟨.palette, .imm o⟩)).lacc (fetched pe s) (laneHart pe L) = [(true, .none)] := by
    simp only [ldxOp, nowhere L lane]
  have flags : (liveLanes s pe).foldl (laneFx pe (ldxOp (wide rd) (.mem ⟨.palette, .imm o⟩)) (fetched pe s)) (fetched pe s) =
      (liveLanes s pe).foldl (fun t _ => flagEv .ENG_FAULT pe 1 Ev.ENG_RANGE t) (fetched pe s) :=
    List.foldl_ext _ _ _ fun t L live => by rw [laneFx, access L (lt_four_of_live live)]; rfl
  have effect (t : State) : (liveLanes s pe).foldl (fun t L => (ldxOp (wide rd) (.mem ⟨.palette, .imm o⟩)).fx (fetched pe s) (laneHart pe L) t) t =
      putAll (harts (.eng pe) s) (fun _ => { regs := [((wide rd).val, 0)] }) (fun _ => false) t := by
    rw [putAll, harts, List.foldl_map]
    refine List.foldl_ext _ _ _ fun t L live => ?_
    simp only [ldxOp, nowhere L (lt_four_of_live live)]
    rfl
  have word := engWord_one stands issues (op := ldxOp (wide rd) (.mem ⟨.palette, .imm o⟩))
    (by simp [ldxOp, legalRd, opLegal, Nat.not_lt.mp (lane_notCore pe 0)]) (show 1 ≤ 2 by decide)
    fun L live x listed => by
      rw [access L (lt_four_of_live live)] at listed
      rw [List.mem_singleton.mp listed]; rfl
  rw [flags, effect] at word
  obtain ⟨only, kept, flagged⟩ := range_flagged pe (liveLanes s pe) (fetched pe s)
  generalize (liveLanes s pe).foldl (fun t _ => flagEv .ENG_FAULT pe 1 Ev.ENG_RANGE t) (fetched pe s) = t at word only kept flagged
  obtain ⟨zero, -⟩ := putAll_parts (harts (.eng pe) s) (liveLanes_nodup s pe) (fun _ => { regs := [((wide rd).val, 0)] })
    (fun _ => false) t fun h _ => ⟨by simp [legalRd, (wide rd).isLt], fun _ => rfl, fun _ _ none => nomatch none⟩
  obtain ⟨H, putFrame⟩ := putAll_lanes (harts (.eng pe) s) (fun _ => { regs := [((wide rd).val, 0)] }) (fun _ => false) t (harts_lane pe s)
  rw [putFrame] at word zero
  have eng : ({ t with hart := H } : State).eng = s.eng := by rw [← fetched_eng pe s, only]
  have len : progLen { t with hart := H } pe (actProg { t with hart := H } pe) = progLen s pe (actProg s pe) := by
    rw [← progLen_fetched pe s]
    unfold progLen progReg actProg State.f
    rw [← kept.reg .ENG_STATUS pe (by simp), ← kept.reg .ENG_PROG_A pe (by simp), ← kept.reg .ENG_PROG_B pe (by simp)]
    rfl
  obtain ⟨frame, landing, goes⟩ := runStep_delivers [] stands (by rw [eng]) (by rw [eng]) (by rw [eng, List.append_nil])
    (fun _ none => nomatch none) len
  simp only [word]
  refine ⟨fun h live => ?_, fun live => ?_, goes, ?_, ?_⟩
  · rw [landing, zero, if_pos live]
    have held : heldIn h rd 0 = 0 := by simp [heldIn]
    exact congrArg (landed (.eng pe) s h rd) ((by simp [HartPut.regAfter, wide] : _ = heldIn h rd 0).trans held)
  · rw [frame]; exact flagged live
  · rw [frame, only, (fetched_frame pe s).1]
  · rw [frame, only, (fetched_frame pe s).1]

/-- Settles O8: LDX puts what its operand reaches, STX is the stores of its lanes, and an operand that reaches no word flags RANGE. -/
theorem laneLoadsAndStores : Obligations.LaneLoadsAndStores :=
  ⟨fun pe rd op s => ⟨ldx_runs pe rd op s, stx_stores pe rd op s⟩, fun pe rd o s issues beyond => ⟨_, rfl, ldx_beyond pe rd o s issues beyond⟩⟩

end Sys2Proof.Machine
end
